-- ==== Sys2Proof/Word.lean ====
section
/-! DEFINITION. The word and byte types of the register model (00_scope.md R9). -/
namespace Sys2Proof

/-- One 32-bit register or table word (R9). -/
abbrev Word := BitVec 32

/-- One byte. -/
abbrev Byte := BitVec 8

end Sys2Proof
end

