-- ==== Sys2Proof/Syntax.lean ====
section
/-! DEFINITION. The commands of the module: one constructor per row of spec/opcode_table.json, with what the outside
world supplies (an address, a written value, a received frame, a measurement). No row of the table has bits. -/
namespace Sys2Proof

/-- How far the host clocked a frame before it released select (R115, R124): `clocked` bits of opcode and address, the turnaround or response, the
data phase of a read with `words` whole words, `bits` bits of a word that was cut off and whether the trailer was clocked out whole, or the data phase
of a write with `more` cycles after the last bit that the host drove. -/
inductive Reach where
  | address (clocked : Nat)
  | response
  | data (words bits : Nat) (trailer : Bool)
  | written (more : Nat)
deriving DecidableEq, Repr

/-- As `Reach` for a write frame, whose words are operands of the command (R122, R124). -/
inductive WrReach where
  | address (clocked : Nat)
  | response
  | data (more : Nat)
deriving DecidableEq, Repr

/-- The bits of a last word that select cut off: how many, and their value with the first received most significant (R124). -/
structure TailBits where
  n : Nat
  value : Nat
deriving DecidableEq, Repr

/-- The refusers of R102, in the order of their IDs 0x1 to 0xA. -/
inductive Refuser where
  | hpBusy | fifoNotEmpty | txActive | roundInFlight | tagstoreBusy
  | updateStaged | tallyFeedPending | mgmtVeto | mpQueueBusy | pingCal
deriving DecidableEq, Repr

/-- The decoder pools of R92: LDP, UEP and PE. -/
inductive Pool where
  | ldp | uep | pe
deriving DecidableEq, Repr

/-- What a port cell senses in one sample (R58): resistance in ohms, external voltage in mV, incoming RF and the
forward and reflected power in 0.5 dBm. -/
structure PortObs where
  ohms : Nat
  mv   : Int
  rf   : Int
  fwd  : Int
  refl : Int
deriving DecidableEq, Repr

/-- One port's first sample at bring-up (R153). -/
structure PortObsAt where
  port : Fin 64
  obs  : PortObs
deriving DecidableEq, Repr

/-- The peak at a chain's input over the last 20 us of the CW interval, in dBm (R179). -/
structure ChainGain where
  chain : Fin 16
  peak  : Int
deriving DecidableEq, Repr

/-- A complex sample or cell: I and Q. -/
abbrev Cx := Int × Int

/-- One chain's part of a reply: RSSI in 0.5 dBm, whether I or Q clipped (R181, R182), its samples on the training symbols (R184), in a Umaolo slot
the cells of SP0 to SP2 and in a peer frame those of PP0 to PP2 in ascending subcarriers, and of an 18000-63 reply its samples at Tpri / 4 over the
preamble (R204). -/
structure ChainRx where
  chain : Fin 16
  rssi  : Int
  clip  : Bool
  train : List Cx
  wave  : List Cx
deriving DecidableEq, Repr

/-- What the chains received on one weft of a Umaolo slot: its first tuft, the power at WP0 in 0.5 dBm, and for each chain the cells of its tufts,
symbol by symbol from WP0 to WP1 (R236). -/
structure WeftSig where
  first : Nat
  power : Int
  cells : List (Fin 16 × List (List Cx))
deriving DecidableEq, Repr

/-- What the chains and the decoder of a beam bring of a reception up to now (R182 to R184, R203 to R205, R221, R247): the bits of a legacy or U0
reply, the first bit marked as a collision, the chains, the SNR of the beam in 0.25 dB, the rate deviation (0.25 % for 18000-63, 0.1 % for U0), the
wefts of a Umaolo slot, and of a peer frame the REP code of the seed that its preamble showed and for each chain the 48 cells of tufts 0 to 11, symbol
by symbol from the header on. -/
structure RxSignal where
  bits      : List Bool
  collision : Option Nat
  chains    : List ChainRx
  snr       : Nat
  dev       : Int
  wefts     : List WeftSig
  seedRep   : Nat
  cells     : List (Fin 16 × List (List Cx))
deriving DecidableEq, Repr

/-- Where a reader's field reaches the tag function: COMM, or a tag-function port (R25, R328). -/
inductive FrontEnd where
  | comm
  | ant (p : Fin 64)
deriving DecidableEq, Repr

/-- A low of WAKE_N: how many microseconds it has lasted, and whether it lasts still (R105). -/
structure WakeLow where
  us   : Nat
  held : Bool
deriving DecidableEq, Repr

/-- A Select of ISO/IEC 18000-63: Target, Action, MemBank, bit pointer, mask, Truncate. -/
structure SelectArgs where
  target : BitVec 3
  action : BitVec 3
  bank   : BitVec 2
  ptr    : Nat
  mask   : List Bool
  truncate : Bool
deriving DecidableEq, Repr

/-- A Query of ISO/IEC 18000-63: Sel, Session, Target and Q. -/
structure QueryArgs where
  sel     : BitVec 2
  session : BitVec 2
  target  : Bool
  q       : Nat
deriving DecidableEq, Repr

/-- What the crumb's error-correcting code says of a read (R338). -/
inductive EccResult where
  | clean
  | corrected
  | uncorrectable
deriving DecidableEq, Repr

/-- One port measured by a sweep (R347 to R349): I and Q of its reflection, 1,024 standing for 1.0, and the power found in
the listen phase in dBm. -/
structure GammaMeas where
  port   : Fin 64
  i      : Int
  q      : Int
  listen : Int
deriving DecidableEq, Repr

/-- A geometry of the draft (R154): its index within its warp, its illuminator, transmit port and pairs of receive
chain and receive port. -/
structure Geometry where
  idx   : Nat
  warp  : Nat
  txc   : Nat
  port  : Nat
  pairs : List (Nat × Nat)
deriving DecidableEq, Repr

/-- STRUCT section (R424): named ports, spares, geometries, tag-function ports, decoders of the pools by their index of
R419 (0 to 7 LD, 8 to 11 UE, 12 PE), and the peer geometry (R269). -/
structure DraftStruct where
  ports    : List Nat
  spares   : List Nat
  geos     : List Geometry
  tagPorts : List Nat
  decoders : List Nat
  peerGeo  : Option Geometry
deriving DecidableEq, Repr

/-- REGION section (R162, R226, R88). Times in ms, frequencies in kHz, levels as codes of R157; `modes` has bit 0 for
DSB-ASK, bit 1 for PR-ASK, bit 2 for OFDM; `minTari` is a TARI code; the BC range is in units of 25 kHz. -/
structure RegionProfile where
  channels  : List Nat
  hopOrder  : List Nat
  caps      : List Nat
  modes     : Nat
  minTari   : Nat
  dwellMax  : Nat
  offTime   : Nat
  occLimit  : Nat
  occWindow : Nat
  spread    : Bool
  groups    : List (List Nat)
  bcLo      : Nat
  bcHi      : Nat
  pingKhz   : Nat
  pingLevel : Nat
deriving DecidableEq, Repr

/-- A rule of the tally filter (R33): the family (0 18000-63, 1 U0, 2 Umaolo) and the first bits an identity must have. -/
structure FilterRule where
  family : Nat
  pref   : List Bool
deriving DecidableEq, Repr

/-- SEEN section: key width (true: 96 bits), coalescing window in 10 ms, tally filter (R293, R298, R33). -/
structure DraftSeen where
  epcw   : Bool
  coal   : Nat
  filter : List FilterRule
deriving DecidableEq, Repr

/-- A group range of a geometry (R258): warp, geometry, lowest and highest group. -/
structure GroupRange where
  warp : Nat
  geo  : Nat
  lo   : Nat
  hi   : Nat
deriving DecidableEq, Repr

/-- A reference tag (R193): family, identity and x in cm. -/
structure RefTag where
  family : Nat
  id     : Nat
  x      : Int
deriving DecidableEq, Repr

/-- POSITION section (R191): x of the ports in cm, height D in cm, bays as half-open intervals, reference tags. -/
structure DraftPos where
  portX : List (Nat × Int)
  depth : Nat
  bays  : List (Int × Int)
  refs  : List RefTag
deriving DecidableEq, Repr

/-- A value a section or REGDEF gives to a D field (R473): register address, bits, value in place, section type. -/
structure RegDef where
  addr : Nat
  mask : Nat
  val  : Nat
  sec  : Nat
deriving DecidableEq, Repr

/-- The contents of a draft (R424); `id` is DRAFT_ID of its header. Thresholds in 0.5 dBm (R187), CW interval in us (R166), CAL_PERIOD in s (R169),
hop epoch in ms (R275), MISS_MAX and WR_WAIT of R265 and R267, zones as (warp, bay, zone) (R368). -/
structure Draft where
  id        : Word
  struct_   : DraftStruct
  region    : RegionProfile
  seen      : DraftSeen
  thr18000  : Int
  thrUma    : Int
  thrPeer   : Int
  cwUs      : Nat
  peerLevel : Nat
  schedule  : List (Nat × List Word)
  calPeriod : Nat
  hopEpoch  : Nat
  missMax   : Nat
  wrWait    : Nat
  groups    : List GroupRange
  pos       : Option DraftPos
  zones     : List (Nat × Nat × Nat)
  fifoCfg   : Option Word
  regDefs   : List RegDef
deriving DecidableEq, Repr

/-- A draft as it lies in a slot or in a part of an image: its bytes (R422), whether its signature verifies under a key of R423, and what its sections
say (R424), whose form within the section the manual does not give. -/
structure DraftImage where
  bytes : List Byte
  sigOk : Bool
  draft : Draft
deriving DecidableEq, Repr

/-- What VERIFY finds of a staged image beside its bytes (R427): whether its signature and the firmware's own one verify, for each DRAFT part whether its
signature does and what its sections say, whether the MIGRATION table is well formed and covers the settings in use, and how many records it maps
one way only (R431). -/
structure ImageFacts where
  sigOk       : Bool
  fwSigOk     : Bool
  contents    : List (Bool × Draft)
  migrationOk : Bool
  oneway      : Nat
deriving DecidableEq, Repr

/-- The legal parameters of R369, in the units of its table. -/
structure TalParams where
  qMin     : Nat
  rssiMin  : Nat
  entryN   : Nat
  entryWin : Nat
  exitSil  : Nat
  feedGap  : Nat
  minDwell : Nat
  gapMax   : Nat
  maxDwell : Nat
  zoneLo   : Nat
  zoneHi   : Nat
deriving DecidableEq, Repr

/-- A tally image as SEAL_N carried it (R385): its bytes, and whether its signature verifies under the Heforax tally key (R386). -/
structure TallyImage where
  bytes : List Byte
  sigOk : Bool
deriving DecidableEq, Repr

/-- Every command of the module (spec/opcode_table.json). -/
inductive Instr where
  /-- RD_FRAME, R116. -/
  | rdFrame (addr : BitVec 24) (reach : Reach)
  /-- WR_FRAME, R122. -/
  | wrFrame (addr : BitVec 24) (data : List Word) (tail : TailBits) (reach : WrReach)
  /-- STAT_FRAME, R127. -/
  | statFrame (reach : Reach)
  /-- FRD_FRAME, R125. -/
  | frdFrame (reach : Reach)
  /-- FDROP_FRAME, R126. -/
  | fdropFrame (reach : Reach)
  /-- ABORT_FRAME, R286. -/
  | abortFrame (seq : BitVec 24) (reach : Reach)
  /-- WAIT_FRAME, R97. -/
  | waitFrame (reach : Reach)
  /-- IDENT_FRAME, R128. -/
  | identFrame (reach : Reach)
  /-- LRST_FRAME, R130. -/
  | lrstFrame
  /-- UNKNOWN_OPCODE_FRAME, R117. -/
  | unknownOpcodeFrame (op : Byte)
  /-- EARLY_FRAME, R93. -/
  | earlyFrame (op : Byte)
  /-- SELECT_RELEASE, R124. -/
  | selectRelease
  /-- HUNG_ACCESS_COMPLETE, R77. -/
  | hungAccessComplete
  /-- FRD_STALL_TIMEOUT, R125. -/
  | frdStallTimeout
  /-- REGISTER_WRITE, R135. -/
  | registerWrite (addr : BitVec 24) (value : Word)
  /-- MULTI_WORD_LOW_READ, R138. -/
  | multiWordLowRead (addr : BitVec 24)
  /-- HP_IGNORED_READ, R13. -/
  | hpIgnoredRead
  /-- PORT_LAST_FAULT_READ, R13. -/
  | portLastFaultRead
  /-- FIFO_STAT_READ, R13. -/
  | fifoStatRead
  /-- TAG_FIELD_LAST_READ, R345. -/
  | tagFieldLastRead
  /-- TIME_BASE_WRITE, R277. -/
  | timeBaseWrite (value : BitVec 64)
  /-- SOFT_RESET, R79. -/
  | softReset
  /-- PROOF_CMD, R89. -/
  | proofCmd (slot : BitVec 3)
  /-- CLK_REFCTRL_WRITE, R74. -/
  | clkRefctrlWrite (src : Bool)
  /-- TXC_OUT, R174. -/
  | txcOut (n : Fin 4)
  /-- TXC_RETURN, R176. -/
  | txcReturn (n : Fin 4)
  /-- PORT_OUT, R174. -/
  | portOut (p : Fin 64)
  /-- PORT_RETURN, R176. -/
  | portReturn (p : Fin 64)
  /-- RXC_OUT, R196. -/
  | rxcOut (n : Fin 16)
  /-- RXC_RETURN, R199. -/
  | rxcReturn (n : Fin 16)
  /-- LEG_LINK_COMMIT, R201. -/
  | legLinkCommit (k : Fin 8) (a : Word) (b : Word)
  /-- UMA_LINK_WRITE, R226. -/
  | umaLinkWrite (k : Fin 8) (value : Word)
  /-- SCHED_RUN, R283. -/
  | schedRun (entry : BitVec 8)
  /-- SCHED_RUN_CLEAR, R288. -/
  | schedRunClear
  /-- WARP_EN_CLEAR, R288. -/
  | warpEnClear (w : Fin 4)
  /-- FIND, R293. -/
  | find
  /-- CLEAR, R436. -/
  | clear
  /-- FLUSH, R315. -/
  | flush
  /-- CRC_START, R323. -/
  | crcStart (preset : Fin 8)
  /-- CRC_HWIN_WRITE, R323. -/
  | crcHwinWrite (k : Fin 256) (value : Word)
  /-- CRC_HBITS_WRITE, R323. -/
  | crcHbitsWrite (value : Word)
  /-- CRC_PRESET_COMMIT, R318. -/
  | crcPresetCommit (k : Fin 8) (cfg : Word) (poly : Word) (init : Word) (xor : Word)
  /-- CLEAR_GUARD, R344. -/
  | clearGuard
  /-- UNLOCK, R342. -/
  | unlock
  /-- REMAP, R339. -/
  | remap (crumb : Fin 128)
  /-- CRUMB_OUT, R346. -/
  | crumbOut (crumb : Fin 128)
  /-- CRUMB_RETURN, R346. -/
  | crumbReturn (crumb : Fin 128)
  /-- WIRE_CRUMB_WRITE, R340. -/
  | wireCrumbWrite (crumb : Fin 128) (words : List Word)
  /-- CAL, R358. -/
  | cal
  /-- PING_THR_WRITE, R352. -/
  | pingThrWrite (value : Word)
  /-- REQUEST, R381. -/
  | request (block : BitVec 3) (arg : Word)
  /-- MEMP_OUT, R401. -/
  | mempOut (dev : Bool)
  /-- MEMP_RETURN, R401. -/
  | mempReturn (dev : Bool)
  /-- MGMT_OUT, R410. -/
  | mgmtOut (half : Bool)
  /-- MGMT_RETURN, R411. -/
  | mgmtReturn (half : Bool)
  /-- DUMP, R417. -/
  | dump
  /-- MGMT_LOG_SEL_WRITE, R417. -/
  | mgmtLogSelWrite (seq : Word)
  /-- DEC_OUT, R419. -/
  | decOut (d : BitVec 4)
  /-- DEC_RETURN, R419. -/
  | decReturn (d : BitVec 4)
  /-- PEER_TX_CMD, R272. -/
  | peerTxCmd (dst : BitVec 16) (len : BitVec 10)
  /-- LOAD, R428. -/
  | load (chunk : BitVec 14)
  /-- LOAD_COMPLETE, R428. -/
  | loadComplete (ok : Bool)
  /-- VERIFY, R427. -/
  | verify
  /-- VERIFY_COMPLETE, R429. -/
  | verifyComplete (image : ImageFacts)
  /-- ARM, R434. -/
  | arm
  /-- SWITCH_NOW, R437. -/
  | switchNow
  /-- CONFIRM, R438. -/
  | confirm
  /-- CONFIRM_COMPLETE, R438. -/
  | confirmComplete (ok : Bool)
  /-- REVERT, R439. -/
  | revert
  /-- ABANDON_UPDATE, R442. -/
  | abandonUpdate
  /-- UPD_UTC_WRITE, R432. -/
  | updUtcWrite (u0 : Word) (u1 : Word) (u2 : Word)
  /-- QUIESCE_END, R98. -/
  | quiesceEnd
  /-- QUIESCE_ABORT, R102. -/
  | quiesceAbort (refuser : Refuser)
  /-- QUIESCE_TIMEOUT, R98. -/
  | quiesceTimeout
  /-- TALLY_FEED_PENDING, R102. -/
  | tallyFeedPending
  /-- POWER_DOWN, R98. -/
  | powerDown
  /-- POWER_DOWN_COMPLETE, R107. -/
  | powerDownComplete
  /-- WAKE_N, R105. -/
  | wakeN (low : WakeLow)
  /-- TIMER, R105. -/
  | timer
  /-- HOST, R105. -/
  | host
  /-- VIN_RETURN, R109. -/
  | vinReturn
  /-- POR, R79. -/
  | por
  /-- VAO_BOR, R79. -/
  | vaoBor
  /-- VIN_BOR, R79. -/
  | vinBor
  /-- PIN, R79. -/
  | pin (us : Nat)
  /-- RST_N_RISE, R81. -/
  | rstNRise
  /-- RESET_EFFECT, R80. -/
  | resetEffect
  /-- RESET_RELEASE, R81. -/
  | resetRelease
  /-- VIO_POWER_ON, R52. -/
  | vioPowerOn (mv : Nat)
  /-- VIO_LOSS, R52. -/
  | vioLoss
  /-- HP_READY, R92. -/
  | hpReady
  /-- MEMP_DISCOVERY, R389. -/
  | mempDiscovery
  /-- MGMT_READY, R92. -/
  | mgmtReady
  /-- CRC_ENGINE_SELFTEST, R322. -/
  | crcEngineSelftest (bad : BitVec 4)
  /-- TAGF_READY, R92. -/
  | tagfReady
  /-- PING_READY, R359. -/
  | pingReady
  /-- PROOF_PASSED, R85. -/
  | proofPassed
  /-- PROOF_FAILED, R87. -/
  | proofFailed
  /-- POOL_READY, R92. -/
  | poolReady (pool : Pool)
  /-- TXC_CAL_END, R175. -/
  | txcCalEnd (n : Fin 4) (pass : Bool)
  /-- RXC_READY, R168. -/
  | rxcReady (n : Fin 16) (pass : Bool)
  /-- TAL_READY, R92. -/
  | talReady
  /-- PORT_FIRST_CLASSIFICATION, R153. -/
  | portFirstClassification (obs : List PortObsAt)
  /-- AO_XTAL_SWITCH, R69. -/
  | aoXtalSwitch
  /-- AO_XTAL_FAIL, R69. -/
  | aoXtalFail
  /-- REFIN_SIGNAL, R71. -/
  | refinSignal (swingP : Nat) (swingN : Nat) (antiphase : Bool)
  /-- REFIN_VALID, R73. -/
  | refinValid (ferr : Byte)
  /-- REFIN_LOST, R73. -/
  | refinLost
  /-- REF_SLEW_END, R74. -/
  | refSlewEnd
  /-- CLKFAIL, R70. -/
  | clkfail (mgmt : Bool)
  /-- BYPASS, R44. -/
  | bypass
  /-- IDCODE, R44. -/
  | idcode
  /-- SAMPLE_PRELOAD, R44. -/
  | samplePreload
  /-- EXTEST, R45. -/
  | extest
  /-- LEAVE_EXTEST, R45. -/
  | leaveExtest
  /-- THERMAL_WARNING, R64. -/
  | thermalWarning (sensor : Fin 8) (temp : BitVec 16)
  /-- PA_OVERTEMP, R64. -/
  | paOvertemp (n : Fin 4) (temp : BitVec 16)
  /-- DIE_OVERTEMP, R64. -/
  | dieOvertemp (site : Fin 4) (temp : BitVec 16)
  /-- THERM, R64. -/
  | therm (site : Fin 4) (temp : BitVec 16)
  /-- THERMAL_FALL, R64. -/
  | thermalFall (sensor : Fin 8) (temp : BitVec 16)
  /-- PORT_FAULT, R170. -/
  | portFault (p : Fin 64) (obs : PortObs)
  /-- PORT_INTACT, R170. -/
  | portIntact (p : Fin 64)
  /-- LOSS_OF_LOCK, R155. -/
  | lossOfLock (n : Fin 4)
  /-- RELOCK_ATTEMPT_END, R155. -/
  | relockAttemptEnd (n : Fin 4) (ok : Bool)
  /-- PA_FAULT, R161. -/
  | paFault (n : Fin 4)
  /-- GUARD_HOP, R164. -/
  | guardHop (n : Fin 4)
  /-- OFF_TIME_EXPIRY, R164. -/
  | offTimeExpiry (ch : BitVec 6)
  /-- HOP_EPOCH, R275. -/
  | hopEpoch
  /-- RAMP_DOWN_END, R158. -/
  | rampDownEnd (n : Fin 4)
  /-- SYNTH_SETTLED, R160. -/
  | synthSettled (n : Fin 4)
  /-- RAMP_UP_END, R158. -/
  | rampUpEnd (n : Fin 4)
  /-- CAL_POINT_END, R167. -/
  | calPointEnd (w : Fin 4) (pass : Bool)
  /-- CAL_PERIOD, R169. -/
  | calPeriod
  /-- DIVERGE, R169. -/
  | diverge (n : Fin 16)
  /-- CANC_SAT, R197. -/
  | cancSat (n : Fin 16)
  /-- ADC_FAIL, R197. -/
  | adcFail (n : Fin 16)
  /-- PRIMARY_LOCK, R187. -/
  | primaryLock (beam : Fin 16) (power : Int)
  /-- CAPTURE, R187. -/
  | capture (beam : Fin 16) (power : Int) (rx : RxSignal) (lastSymbol : Bool)
  /-- REPLY_WINDOW_CLOSE, R206. -/
  | replyWindowClose (w : Fin 4)
  /-- RECEPTION_END, R189. -/
  | receptionEnd (beam : Fin 16) (rx : RxSignal)
  /-- DECODER_RELEASE, R31. -/
  | decoderRelease (beam : Fin 16) (ties : List Nat)
  /-- CRC_ALIVE_CHECK, R321. -/
  | crcAliveCheck
  /-- LEGACY_SLOT_END, R212. -/
  | legacySlotEnd (w : Fin 4)
  /-- IDENTITY_REPLY, R212. -/
  | identityReply (w : Fin 4)
  /-- ACCESS_REPLY, R219. -/
  | accessReply (w : Fin 4)
  /-- DELAYED_REPLY_TIMEOUT, R206. -/
  | delayedReplyTimeout (w : Fin 4)
  /-- UMAOLO_SLOT_END, R246. -/
  | umaoloSlotEnd (w : Fin 4)
  /-- WR_WAIT, R267. -/
  | wrWait (w : Fin 4)
  /-- PEER_WINDOW_OPEN, R269. -/
  | peerWindowOpen
  /-- PEER_SLOT, R269. -/
  | peerSlot
  /-- PEER_RECEIVE_PERIOD, R270. -/
  | peerReceivePeriod
  /-- PEER_RECEIVE_PERIOD_END, R270. -/
  | peerReceivePeriodEnd
  /-- DATA, R272. -/
  | data (frame : RxSignal)
  /-- ACK, R272. -/
  | ack (frame : RxSignal)
  /-- ACK_TIMEOUT, R272. -/
  | ackTimeout
  /-- BEACON, R274. -/
  | beacon (frame : RxSignal)
  /-- REFERENCE_LOST, R273. -/
  | referenceLost
  /-- UPD_OFFER, R276. -/
  | updOffer (frame : RxSignal)
  /-- UPD_REQ, R276. -/
  | updReq (frame : RxSignal)
  /-- UPD_CHUNK, R276. -/
  | updChunk (frame : RxSignal)
  /-- PEER_FETCH_COMPLETE, R443. -/
  | peerFetchComplete
  /-- ENTRY_DUE, R280. -/
  | entryDue (entry : BitVec 8)
  /-- ROUND_START, R281. -/
  | roundStart (w : Fin 4)
  /-- DURATION_EXPIRY, R282. -/
  | durationExpiry (w : Fin 4)
  /-- DISABLE_BOUND, R288. -/
  | disableBound (w : Fin 4)
  /-- HOST_RUN_TIMEOUT, R450. -/
  | hostRunTimeout (seq : BitVec 24)
  /-- SHED_LEVEL_STEP, R299. -/
  | shedLevelStep
  /-- EVICT, R294. -/
  | evict
  /-- POPULATION_FETCH_RETURN, R297. -/
  | populationFetchReturn
  /-- POPULATION_FETCH_TIMEOUT, R296. -/
  | populationFetchTimeout
  /-- PACKET_ASSEMBLY, R304. -/
  | packetAssembly
  /-- PACKET_COMPLETE, R303. -/
  | packetComplete
  /-- POINTER_MISMATCH, R316. -/
  | pointerMismatch (ptr : Fin 3)
  /-- FIFO_AGE_EXPIRY, R314. -/
  | fifoAgeExpiry
  /-- FIELD_SELECT, R332. -/
  | fieldSelect (fe : FrontEnd) (a : SelectArgs)
  /-- FIELD_QUERY, R332. -/
  | fieldQuery (fe : FrontEnd) (a : QueryArgs)
  /-- FIELD_QUERYADJUST, R332. -/
  | fieldQueryadjust (fe : FrontEnd) (session : BitVec 2) (up : Int)
  /-- FIELD_QUERYREP, R332. -/
  | fieldQueryrep (fe : FrontEnd) (session : BitVec 2)
  /-- FIELD_ACK, R332. -/
  | fieldAck (fe : FrontEnd) (rn : BitVec 16)
  /-- FIELD_NAK, R332. -/
  | fieldNak (fe : FrontEnd)
  /-- FIELD_REQ_RN, R332. -/
  | fieldReqRn (fe : FrontEnd) (rn : BitVec 16)
  /-- FIELD_READ, R340. -/
  | fieldRead (fe : FrontEnd) (bank : BitVec 2) (ptr : Nat) (count : Nat) (rn : BitVec 16) (ecc : EccResult)
  /-- FIELD_WRITE, R337. -/
  | fieldWrite (fe : FrontEnd) (bank : BitVec 2) (ptr : Nat) (data : BitVec 16) (rn : BitVec 16) (energy : Bool)
  /-- FIELD_BLOCKWRITE, R337. -/
  | fieldBlockwrite (fe : FrontEnd) (bank : BitVec 2) (ptr : Nat) (data : List (BitVec 16)) (rn : BitVec 16) (energy : Bool)
  /-- FIELD_LOCK, R342. -/
  | fieldLock (fe : FrontEnd) (payload : BitVec 20) (rn : BitVec 16)
  /-- FIELD_ACCESS, R343. -/
  | fieldAccess (fe : FrontEnd) (half : BitVec 16) (rn : BitVec 16)
  /-- FIELD_KILL, R332. -/
  | fieldKill (fe : FrontEnd)
  /-- FIELD_BLOCKERASE, R332. -/
  | fieldBlockerase (fe : FrontEnd)
  /-- FIELD_BLOCKPERMALOCK, R332. -/
  | fieldBlockpermalock (fe : FrontEnd)
  /-- FIELD_UNTRACEABLE, R332. -/
  | fieldUntraceable (fe : FrontEnd)
  /-- FIELD_AUTHENTICATE, R332. -/
  | fieldAuthenticate (fe : FrontEnd)
  /-- FIELD_SESSION_TIMEOUT, R329. -/
  | fieldSessionTimeout
  /-- FIELD_LOSS, R329. -/
  | fieldLoss
  /-- CRUMB_WRITE_END, R337. -/
  | crumbWriteEnd (verified : Bool)
  /-- GUARD_WRITE_END, R343. -/
  | guardWriteEnd
  /-- LOCKOUT_EXPIRY, R344. -/
  | lockoutExpiry
  /-- ECC_REWRITE, R338. -/
  | eccRewrite (crumb : Fin 128)
  /-- SWEEP_TIMER, R353. -/
  | sweepTimer
  /-- SWEEP_END, R351. -/
  | sweepEnd (meas : List GammaMeas)
  /-- BASELINE_SAVE, R358. -/
  | baselineSave
  /-- FEED_ITEM_SEND, R366. -/
  | feedItemSend
  /-- SIGHTING_ITEM, R370. -/
  | sightingItem (item : List Byte)
  /-- WINDOW_REQUEST, R377. -/
  | windowRequest (item : List Byte)
  /-- TT_TICK, R371. -/
  | ttTick
  /-- ENTRY_WIN_EXPIRY, R371. -/
  | entryWinExpiry (i : BitVec 12)
  /-- EXIT_SIL_EXPIRY, R371. -/
  | exitSilExpiry (i : BitVec 12)
  /-- MAX_DWELL_EXPIRY, R371. -/
  | maxDwellExpiry (i : BitVec 12)
  /-- FEED_GAP_EXPIRY, R372. -/
  | feedGapExpiry
  /-- GAP_MAX_EXPIRY, R372. -/
  | gapMaxExpiry
  /-- TEMPERATURE_COMPENSATION, R363. -/
  | temperatureCompensation (adj : Int)
  /-- TT_SAVE, R382. -/
  | ttSave
  /-- VTAL_LOSS, R382. -/
  | vtalLoss
  /-- TALLY_DIE_START, R382. -/
  | tallyDieStart
  /-- XTAL_FAIL, R383. -/
  | xtalFail
  /-- XTAL_RECOVERY, R383. -/
  | xtalRecovery
  /-- SEAL_MODE_ENTRY, R385. -/
  | sealModeEntry
  /-- SEAL_IMAGE, R386. -/
  | sealImage (image : TallyImage)
  /-- SEAL_EXIT, R386. -/
  | sealExit
  /-- ATTESTATION_DONE, R376. -/
  | attestationDone
  /-- PUBLISH, R377. -/
  | publish
  /-- PUBLISH_FRAME, R378. -/
  | publishFrame (crcOk : Bool)
  /-- TALLINK_TIMEOUT, R377. -/
  | tallinkTimeout
  /-- STATUS_REQUEST_TIMER, R368. -/
  | statusRequestTimer
  /-- TAL_REQ_TIMEOUT, R381. -/
  | talReqTimeout
  /-- QUEUE_ENTRY_START, R395. -/
  | queueEntryStart
  /-- QUEUE_ENTRY_END, R391. -/
  | queueEntryEnd
  /-- XIP_MISS, R396. -/
  | xipMiss (half : Bool) (off : BitVec 24)
  /-- SUSPENDED, R397. -/
  | suspended
  /-- RGAP_EXPIRY, R397. -/
  | rgapExpiry
  /-- MEMP_TIMEOUT, R402. -/
  | mempTimeout (dev : Bool)
  /-- VERIFY_FAIL, R402. -/
  | verifyFail (dev : Bool)
  /-- RESILVER_END, R401. -/
  | resilverEnd
  /-- WATCHDOG_EXPIRY, R408. -/
  | watchdogExpiry
  /-- STANDBY_WATCHDOG_EXPIRY, R408. -/
  | standbyWatchdogExpiry
  /-- TAKEOVER_COMPLETE, R409. -/
  | takeoverComplete
  /-- CHECKPOINT, R406. -/
  | checkpoint
  /-- HANDOVER_COMPLETE, R410. -/
  | handoverComplete
  /-- HALF_HOT, R406. -/
  | halfHot (half : Bool) (ok : Bool)
  /-- HEALTH_DIAG, R418. -/
  | healthDiag
  /-- LOG_BATCH, R416. -/
  | logBatch (ok : Bool)
  /-- DECODER_SELFTEST, R419. -/
  | decoderSelftest (d : BitVec 4) (pass : Bool)
  /-- SCHEDULED_SWITCH, R435. -/
  | scheduledSwitch
  /-- SWITCH_OWNERSHIP, R435. -/
  | switchOwnership
  /-- FALLBACK_PATH, R437. -/
  | fallbackPath
  /-- TRIAL_TIMEOUT, R439. -/
  | trialTimeout
  /-- LAST_BIT_ON_AIR, R217. -/
  | lastBitOnAir (w : Fin 4)
  /-- REPLY_WINDOW_OPEN, R206. -/
  | replyWindowOpen (w : Fin 4)
  /-- CW_INTERVAL_END, R179. -/
  | cwIntervalEnd (w : Fin 4) (gains : List ChainGain)
  /-- PEER_WINDOW_END, R269. -/
  | peerWindowEnd
  /-- POSITION_OFFSET_SAVE, R193. -/
  | positionOffsetSave
  /-- MGMT_CFG_STANDBY_WRITE, R406. -/
  | mgmtCfgStandbyWrite (on : Bool)
  /-- FEED_ITEM_DISCARDED, R367. -/
  | feedItemDiscarded (item : List Byte)
deriving DecidableEq, Repr

end Sys2Proof
end

