-- ==== Sys2Proof/Config.lean ====
section
/-! DEFINITION. The values the spec leaves open: opaque constants, applied to the free counter of State.
Nothing in Lean can evaluate them, so a claim about a state that holds one is a claim for every value. -/
namespace Sys2Proof.Config

/-- A word the spec does not fix (an adaptive weight, an unstated result), one per value of the free counter.
DESIGN CHOICE, log entry 1. Safe: no proof can see its value. -/
opaque freeWord : Nat → Word

/-- A Boolean the spec leaves open, as whether a pulse of 2 to 10 us acts (R79, R105).
DESIGN CHOICE, log entry 1. Safe. -/
opaque freeBool : Nat → Bool

/-- The quotient of a number by zero, where a formula of the spec (R184, R191, R241) meets one. Log entry 45. Safe. -/
opaque overZero : Int → Int

/-- The 12-bit code of a weight in LOOM_WTn, whose unit the spec does not give (R184). Log entry 45. Safe. -/
opaque weightCode : Int → BitVec 12

/-- A 16-bit number drawn by the tag function (RN16, handle, slot draw) or by a tag round (R332). Log entry 1. Safe. -/
opaque freeHalf : Nat → BitVec 16

/-- What a sensor shows when it is read (R412, R413), by its index (0 to 17; 64 plus the port for a port's powers) and the free counter.
Log entry 55. Safe. -/
opaque sensor : Nat → Nat → Word

/-- The severity of an event-log entry, by SOURCE and CODE: the spec fixes it only for a takeover (R409). Log entry 8. Safe. -/
opaque severity : Nat → Nat → BitVec 2

end Sys2Proof.Config
end

