-- ==== Sys2Proof/Machine/Bits.lean ====
section
/-! DEFINITION. Bit fields of a word, read and written as numbers (00_scope.md R9: bit 0 is the least significant). -/
namespace Sys2Proof.Machine

/-- The field of `n` bits of `w` whose lowest bit is `lo`. -/
def fieldN (w : Word) (lo n : Nat) : Nat := w.toNat / 2 ^ lo % 2 ^ n

/-- `w` with the field of `n` bits at `lo` replaced by the low `n` bits of `v`. -/
def setFieldN (w : Word) (lo n v : Nat) : Word :=
  BitVec.ofNat 32 (w.toNat % 2 ^ lo + (v % 2 ^ n) * 2 ^ lo + w.toNat / 2 ^ (lo + n) * 2 ^ (lo + n))

/-- Bit `b` of `w`. -/
def bitN (w : Word) (b : Nat) : Bool := fieldN w b 1 == 1

/-- `w` with bit `b` set to `v`. -/
def setBitN (w : Word) (b : Nat) (v : Bool) : Word := setFieldN w b 1 (cond v 1 0)

/-- A number as a word. -/
def wordOf (n : Nat) : Word := BitVec.ofNat 32 n

/-- The two's complement code of `v` in `n` bits. -/
def twos (n : Nat) (v : Int) : Nat := (v % (2 ^ n : Int)).toNat

/-- The number that an `n`-bit two's complement code stands for. -/
def ofTwos (n : Nat) (c : Nat) : Int := if c % 2 ^ n < 2 ^ (n - 1) then (c % 2 ^ n : Int) else (c % 2 ^ n : Int) - 2 ^ n

/-- A number held to the range of `n` unsigned bits. -/
def satN (n v : Nat) : Nat := min v (2 ^ n - 1)

/-- The low bit first list of the `n` low bits of a number. -/
def bitsLow (n v : Nat) : List Bool := (List.range n).map (fun i => v / 2 ^ i % 2 == 1)

/-- The `n` low bits of a number, most significant first. -/
def bitsHigh (n v : Nat) : List Bool := (bitsLow n v).reverse

/-- The number a list of bits spells, most significant first. -/
def natOfBits (l : List Bool) : Nat := l.foldl (fun a b => 2 * a + cond b 1 0) 0

/-- Four bytes as a little-endian word (R9). -/
def wordOfBytes (l : List Byte) : Word :=
  wordOf ((l.getD 0 0).toNat + (l.getD 1 0).toNat * 256 + (l.getD 2 0).toNat * 65536 + (l.getD 3 0).toNat * 16777216)

/-- The four bytes of a word, lowest address first (R9). -/
def bytesOfWord (w : Word) : List Byte :=
  [BitVec.ofNat 8 (fieldN w 0 8), BitVec.ofNat 8 (fieldN w 8 8), BitVec.ofNat 8 (fieldN w 16 8), BitVec.ofNat 8 (fieldN w 24 8)]

/-- A byte list as words of four bytes, the last padded with zeros (R302). -/
def wordsOfBytes : List Byte → List Word
  | [] => []
  | a :: b :: c :: d :: r => wordOfBytes [a, b, c, d] :: wordsOfBytes r
  | l => [wordOfBytes l]

/-- Bits in the order they travel, `n` to a cycle: the first of a cycle is on its highest lane (R113). `k` bounds the number of cycles. -/
def laneValues (n : Nat) : Nat → List Bool → List Nat
  | 0, _ => []
  | k + 1, l => if l.isEmpty then [] else natOfBits (l.take n) :: laneValues n k (l.drop n)

/-- The cycles that bits take on `n` lanes. -/
def lanesOf (n : Nat) (l : List Bool) : List Nat := laneValues n l.length l

/-- A number as `n` bytes, most significant first. -/
def beBytes (n v : Nat) : List Byte := (List.range n).map (fun k => BitVec.ofNat 8 (v / 256 ^ (n - 1 - k)))

/-- The number that bytes spell, most significant first. -/
def beNat (l : List Byte) : Nat := l.foldl (fun a b => a * 256 + b.toNat) 0

/-- The field of `n` bytes at an offset, most significant byte first. -/
def fieldBE (l : List Byte) (k n : Nat) : Nat := beNat ((l.drop k).take n)

end Sys2Proof.Machine
end

