-- ==== Sys2Proof/Machine/RegMap.lean ====
section
/-! DEFINITION. The register map: the address of every register and one row per register with its access codes (R10),
its Reset column (R12), its D fields (R473) and whether it survives a core reset (R79). 24_register_index.md. -/
namespace Sys2Proof.Machine

/-- One register, or an array of registers of one name (two strides at most). -/
structure RegDesc where
  name   : String
  base   : Nat
  cnt    : Nat
  stride : Nat
  cnt2   : Nat
  stride2 : Nat
  /-- RW bits. -/
  rw     : Nat
  /-- W1C bits. -/
  w1c    : Nat
  /-- RC bits (R13). -/
  rc     : Nat
  /-- The Reset column; for a D field its hardware default (R473). -/
  reset  : Nat
  /-- The D bits (R473). -/
  dmask  : Nat
  /-- The register survives a core reset (R79). -/
  ao     : Bool
deriving DecidableEq, Repr

namespace Reg

/-- R90, 04_clocks_reset_bringup.md. -/
abbrev sysReady : Nat := 0x000010
/-- R91 0x83F on -T, 04_clocks_reset_bringup.md. -/
abbrev sysExpect : Nat := 0x000014
/-- R79, 04_clocks_reset_bringup.md. -/
abbrev sysResetCause : Nat := 0x000020
/-- R79 WO, 04_clocks_reset_bringup.md. -/
abbrev sysCtrl : Nat := 0x000024
/-- R83, 04_clocks_reset_bringup.md. -/
abbrev sysProfNext : Nat := 0x000028
/-- R83, 04_clocks_reset_bringup.md. -/
abbrev sysProfStat : Nat := 0x00002C
/-- R87, R89, 04_clocks_reset_bringup.md. -/
abbrev sysDraftStat : Nat := 0x000030
/-- R89 WO, 04_clocks_reset_bringup.md. -/
abbrev sysProofCmd : Nat := 0x000034
/-- R78, 04_clocks_reset_bringup.md. -/
abbrev sysClkstat : Nat := 0x000040
/-- R77, 04_clocks_reset_bringup.md. -/
abbrev sysAccStat : Nat := 0x000044
/-- R144, 07_register_access.md. -/
abbrev sysIrqPend : Nat := 0x000050
/-- R144, 07_register_access.md. -/
abbrev sysIrqEn : Nat := 0x000054
/-- R150, 07_register_access.md. -/
abbrev sysCmdFirst : Nat := 0x000060
/-- R150, 07_register_access.md. -/
abbrev sysCmdLast : Nat := 0x000064
/-- R150, 07_register_access.md. -/
abbrev sysCmdStat : Nat := 0x000068
/-- R97, R110, 05_power_states.md. -/
abbrev pwrMode : Nat := 0x001000
/-- R102, 05_power_states.md. -/
abbrev pwrPolicy : Nat := 0x001004
/-- R105, 05_power_states.md. -/
abbrev pwrWakeEn : Nat := 0x001008
/-- R105, 05_power_states.md. -/
abbrev pwrWakeTimer : Nat := 0x00100C
/-- R107, 05_power_states.md. -/
abbrev pwrWakeCause : Nat := 0x001010
/-- R104, R109, 05_power_states.md. -/
abbrev pwrWakeRec : Nat := 0x001014
/-- PWR registers, 05_power_states.md. -/
abbrev pwrAoTime : Nat := 0x001018
/-- PWR registers, 05_power_states.md. -/
abbrev pwrSleepAt : Nat := 0x00101C
/-- PWR registers, 05_power_states.md. -/
abbrev pwrWakeAt : Nat := 0x001020
/-- R104, 05_power_states.md. -/
abbrev pwrLastRefuser : Nat := 0x001024
/-- R104, 05_power_states.md. -/
def pwrRefuseCnt (n : Nat) : Nat := 0x001040 + n * 0x4
/-- R120, R124, R129, 06_host_port.md. -/
abbrev hpCtrl : Nat := 0x002000
/-- R129, 06_host_port.md. -/
abbrev hpLanes : Nat := 0x002004
/-- R125, 06_host_port.md. -/
abbrev hpStallLimit : Nat := 0x002008
/-- R121, R123, 06_host_port.md. -/
abbrev hpStatus : Nat := 0x00200C
/-- R130, 06_host_port.md. -/
abbrev hpFrames : Nat := 0x002010
/-- R117, R124, 06_host_port.md. -/
abbrev hpIgnored : Nat := 0x002014
/-- R73, 04_clocks_reset_bringup.md. -/
abbrev clkRefctrl : Nat := 0x003000
/-- R71, R73, 04_clocks_reset_bringup.md. -/
abbrev clkRefstat : Nat := 0x003004
/-- R156, R157, R175, 08_rf_ports_and_illuminators.md. -/
def txcStat (n : Nat) : Nat := 0x008000 + n * 0x1000
/-- R156, R157, R175, 08_rf_ports_and_illuminators.md. -/
def txcFreq (n : Nat) : Nat := 0x008004 + n * 0x1000
/-- R156, R157, R175, 08_rf_ports_and_illuminators.md. -/
def txcPower (n : Nat) : Nat := 0x008008 + n * 0x1000
/-- R158, 08_rf_ports_and_illuminators.md. -/
def txcRamp (n : Nat) : Nat := 0x00800C + n * 0x1000
/-- R173 WO, 08_rf_ports_and_illuminators.md. -/
def txcCmd (n : Nat) : Nat := 0x008010 + n * 0x1000
/-- R173, 08_rf_ports_and_illuminators.md. -/
def txcCmdRes (n : Nat) : Nat := 0x008014 + n * 0x1000
/-- TXC counters, R164, 08_rf_ports_and_illuminators.md. -/
def txcCntRamp (n : Nat) : Nat := 0x008020 + n * 0x1000
/-- TXC counters, R164, 08_rf_ports_and_illuminators.md. -/
def txcCntHop (n : Nat) : Nat := 0x008024 + n * 0x1000
/-- TXC counters, R164, 08_rf_ports_and_illuminators.md. -/
def txcCntFast (n : Nat) : Nat := 0x008028 + n * 0x1000
/-- TXC counters, R164, 08_rf_ports_and_illuminators.md. -/
def txcCntGuard (n : Nat) : Nat := 0x00802C + n * 0x1000
/-- TXC counters, R164, 08_rf_ports_and_illuminators.md. -/
def txcOnTime (n : Nat) : Nat := 0x008030 + n * 0x1000
/-- R197, R198, 09_receive_chains_and_loom.md. -/
def rxcStat (n : Nat) : Nat := 0x010000 + n * 0x1000
/-- R179, R180, 09_receive_chains_and_loom.md. -/
def rxcCfg (n : Nat) : Nat := 0x010004 + n * 0x1000
/-- R182, 09_receive_chains_and_loom.md. -/
def rxcRssi (n : Nat) : Nat := 0x010008 + n * 0x1000
/-- R195 WO, 09_receive_chains_and_loom.md. -/
def rxcCmd (n : Nat) : Nat := 0x010010 + n * 0x1000
/-- R195, 09_receive_chains_and_loom.md. -/
def rxcCmdRes (n : Nat) : Nat := 0x010014 + n * 0x1000
/-- R181, 09_receive_chains_and_loom.md. -/
def rxcCntClip (n : Nat) : Nat := 0x010020 + n * 0x1000
/-- RXC counters, 09_receive_chains_and_loom.md. -/
def rxcCntReply (n : Nat) : Nat := 0x010024 + n * 0x1000
/-- R165, R197, 08_rf_ports_and_illuminators.md. -/
def rxcCancStat (n : Nat) : Nat := 0x010100 + n * 0x1000
/-- R165, 08_rf_ports_and_illuminators.md. -/
def rxcCancTap (n k : Nat) : Nat := 0x010104 + n * 0x1000 + k * 0x4
/-- R169, 08_rf_ports_and_illuminators.md. -/
def rxcCancRecal (n : Nat) : Nat := 0x010114 + n * 0x1000
/-- R184, R187, R192, 09_receive_chains_and_loom.md. -/
abbrev loomCtrl : Nat := 0x020000
/-- R193, 09_receive_chains_and_loom.md. -/
abbrev loomRef : Nat := 0x020010
/-- R183, 09_receive_chains_and_loom.md. -/
def loomBeam (n : Nat) : Nat := 0x020040 + n * 0x4
/-- R184, 09_receive_chains_and_loom.md. -/
def loomWt (n : Nat) : Nat := 0x020100 + n * 0x4
/-- R190, 09_receive_chains_and_loom.md. -/
def loomCnt (n k : Nat) : Nat := 0x020200 + n * 0x20 + k * 0x4
/-- R170, R172, 08_rf_ports_and_illuminators.md. -/
def portState (n : Nat) : Nat := 0x022000 + n * 0x4
/-- R172, 08_rf_ports_and_illuminators.md. -/
abbrev portOosLo : Nat := 0x022020
/-- R172, 08_rf_ports_and_illuminators.md. -/
abbrev portOosHi : Nat := 0x022024
/-- R170, 08_rf_ports_and_illuminators.md. -/
abbrev portLastFault : Nat := 0x022028
/-- R173 WO, 08_rf_ports_and_illuminators.md. -/
abbrev portCmd : Nat := 0x022030
/-- R173, 08_rf_ports_and_illuminators.md. -/
abbrev portCmdRes : Nat := 0x022034
/-- R151, 08_rf_ports_and_illuminators.md. -/
def portWarpRx (n : Nat) : Nat := 0x022040 + n * 0x4
/-- R170, 08_rf_ports_and_illuminators.md. -/
abbrev portFaultCnt : Nat := 0x022050
/-- R200, R201, 10_legacy_air_interface.md. -/
def legLinkA (n : Nat) : Nat := 0x024000 + n * 0x8
/-- R200, R201, 10_legacy_air_interface.md. -/
def legLinkB (n : Nat) : Nat := 0x024004 + n * 0x8
/-- R204, R213, R218, 10_legacy_air_interface.md. -/
abbrev legCfg : Nat := 0x024040
/-- R201, R210, 10_legacy_air_interface.md. -/
abbrev legStat : Nat := 0x024044
/-- R209, 10_legacy_air_interface.md. -/
abbrev legRawCtrl : Nat := 0x024048
/-- R209, 10_legacy_air_interface.md. -/
def legRaw (n : Nat) : Nat := 0x024060 + n * 0x4
/-- R203, R204, 10_legacy_air_interface.md. -/
def legLdStat (n : Nat) : Nat := 0x024080 + n * 0x4
/-- R223, 10_legacy_air_interface.md. -/
def legCnt (n k : Nat) : Nat := 0x024100 + n * 0x40 + k * 0x4
/-- R226, 11_umaolo_physical_layer.md. -/
def umaLink (n : Nat) : Nat := 0x028000 + n * 0x4
/-- R231, R241, 11_umaolo_physical_layer.md. -/
abbrev umaCfg : Nat := 0x028040
/-- R226, 11_umaolo_physical_layer.md. -/
abbrev umaStat : Nat := 0x028044
/-- UMA registers, 11_umaolo_physical_layer.md. -/
def umaUeStat (n : Nat) : Nat := 0x028080 + n * 0x4
/-- UMA registers, 11_umaolo_physical_layer.md. -/
abbrev umaDiagSel : Nat := 0x0280A0
/-- R242, 11_umaolo_physical_layer.md. -/
def umaDiagSnr (n : Nat) : Nat := 0x0280A4 + n * 0x4
/-- R243, 11_umaolo_physical_layer.md. -/
abbrev umaDiagClk : Nat := 0x0280B0
/-- R250, 11_umaolo_physical_layer.md. -/
def umaCnt (n k : Nat) : Nat := 0x028100 + n * 0x40 + k * 0x4
/-- R269, R273, R275, 12_umaolo_access_and_peer.md. -/
abbrev peerCfg : Nat := 0x02C000
/-- R269, 12_umaolo_access_and_peer.md. -/
abbrev peerWin : Nat := 0x02C004
/-- R273, 12_umaolo_access_and_peer.md. -/
abbrev peerTime : Nat := 0x02C008
/-- R248, 12_umaolo_access_and_peer.md. -/
abbrev peerSteer : Nat := 0x02C00C
/-- R275, 12_umaolo_access_and_peer.md. -/
abbrev peerColour : Nat := 0x02C010
/-- PEER counters, 12_umaolo_access_and_peer.md. -/
def peerCnt (n : Nat) : Nat := 0x02C040 + n * 0x4
/-- R272, 12_umaolo_access_and_peer.md. -/
def peerTxbuf (n : Nat) : Nat := 0x02C400 + n * 0x4
/-- R272 WO, 12_umaolo_access_and_peer.md. -/
abbrev peerTxCmd : Nat := 0x02C7E8
/-- R272, 12_umaolo_access_and_peer.md. -/
abbrev peerTxRes : Nat := 0x02C7EC
/-- R288, 13_rounds_and_seen_table.md. -/
abbrev schedCtrl : Nat := 0x030000
/-- R299, R298, 13_rounds_and_seen_table.md. -/
abbrev schedStat : Nat := 0x030004
/-- R283 WO, 13_rounds_and_seen_table.md. -/
abbrev schedCmd : Nat := 0x030008
/-- R283, 13_rounds_and_seen_table.md. -/
abbrev schedCmdRes : Nat := 0x03000C
/-- R298, R299, 13_rounds_and_seen_table.md. -/
abbrev schedLoad : Nat := 0x030010
/-- R281, 13_rounds_and_seen_table.md. -/
def schedWarp (n : Nat) : Nat := 0x030020 + n * 0x4
/-- SCHED counters, 13_rounds_and_seen_table.md. -/
def schedCnt (n : Nat) : Nat := 0x030040 + n * 0x4
/-- R278, 13_rounds_and_seen_table.md. -/
def schedAccdata (n : Nat) : Nat := 0x030100 + n * 0x4
/-- R293, R298, 13_rounds_and_seen_table.md. -/
abbrev seenCfg : Nat := 0x034000
/-- R292, 13_rounds_and_seen_table.md. -/
abbrev seenStat : Nat := 0x034004
/-- SEEN_CMD, WO, 13_rounds_and_seen_table.md. -/
abbrev seenCmd : Nat := 0x034008
/-- SEEN_CMD, 13_rounds_and_seen_table.md. -/
abbrev seenCmdRes : Nat := 0x03400C
/-- SEEN_CMD, 13_rounds_and_seen_table.md. -/
abbrev seenFind : Nat := 0x034010
/-- R293, 13_rounds_and_seen_table.md. -/
def seenKey (n : Nat) : Nat := 0x034020 + n * 0x4
/-- SEEN counters, 13_rounds_and_seen_table.md. -/
def seenCnt (n : Nat) : Nat := 0x034040 + n * 0x4
/-- R305, R314, 14_report_fifo.md. -/
abbrev fifoCfg : Nat := 0x038000
/-- R306, 14_report_fifo.md. -/
abbrev fifoLevel : Nat := 0x038004
/-- R13, 14_report_fifo.md. -/
abbrev fifoStat : Nat := 0x038008
/-- R315 WO, 14_report_fifo.md. -/
abbrev fifoCmd : Nat := 0x03800C
/-- R305, R316, R303, 14_report_fifo.md. -/
abbrev fifoDropCnt : Nat := 0x038010
/-- R305, R316, R303, 14_report_fifo.md. -/
abbrev fifoDropLast : Nat := 0x038014
/-- R305, R316, R303, 14_report_fifo.md. -/
abbrev fifoPtrCnt : Nat := 0x038018
/-- R305, R316, R303, 14_report_fifo.md. -/
abbrev fifoPktCnt : Nat := 0x03801C
/-- R318, 15_crc_and_alive_unit.md. -/
abbrev crcPre0Cfg : Nat := 0x03C000
/-- R318, 15_crc_and_alive_unit.md. -/
abbrev crcPre0Poly : Nat := 0x03C004
/-- R318, 15_crc_and_alive_unit.md. -/
abbrev crcPre0Init : Nat := 0x03C008
/-- R318, 15_crc_and_alive_unit.md. -/
abbrev crcPre0Xor : Nat := 0x03C00C
/-- R318, 15_crc_and_alive_unit.md. -/
abbrev crcPre1Cfg : Nat := 0x03C010
/-- R318, 15_crc_and_alive_unit.md. -/
abbrev crcPre1Poly : Nat := 0x03C014
/-- R318, 15_crc_and_alive_unit.md. -/
abbrev crcPre1Init : Nat := 0x03C018
/-- R318, 15_crc_and_alive_unit.md. -/
abbrev crcPre1Xor : Nat := 0x03C01C
/-- R318, 15_crc_and_alive_unit.md. -/
abbrev crcPre2Cfg : Nat := 0x03C020
/-- R318, 15_crc_and_alive_unit.md. -/
abbrev crcPre2Poly : Nat := 0x03C024
/-- R318, 15_crc_and_alive_unit.md. -/
abbrev crcPre2Init : Nat := 0x03C028
/-- R318, 15_crc_and_alive_unit.md. -/
abbrev crcPre2Xor : Nat := 0x03C02C
/-- R318, 15_crc_and_alive_unit.md. -/
abbrev crcPre3Cfg : Nat := 0x03C030
/-- R318, 15_crc_and_alive_unit.md. -/
abbrev crcPre3Poly : Nat := 0x03C034
/-- R318, 15_crc_and_alive_unit.md. -/
abbrev crcPre3Init : Nat := 0x03C038
/-- R318, 15_crc_and_alive_unit.md. -/
abbrev crcPre3Xor : Nat := 0x03C03C
/-- R318, 15_crc_and_alive_unit.md. -/
abbrev crcPre4Cfg : Nat := 0x03C040
/-- R318, 15_crc_and_alive_unit.md. -/
abbrev crcPre4Poly : Nat := 0x03C044
/-- R318, 15_crc_and_alive_unit.md. -/
abbrev crcPre4Init : Nat := 0x03C048
/-- R318, 15_crc_and_alive_unit.md. -/
abbrev crcPre4Xor : Nat := 0x03C04C
/-- R318, 15_crc_and_alive_unit.md. -/
def crcPre57 (n : Nat) : Nat := 0x03C050 + n * 0x4
/-- R322, R325, 15_crc_and_alive_unit.md. -/
abbrev crcStat : Nat := 0x03C080
/-- R323 WO, 15_crc_and_alive_unit.md. -/
abbrev crcHctrl : Nat := 0x03C084
/-- R323, 15_crc_and_alive_unit.md. -/
abbrev crcHres : Nat := 0x03C088
/-- R323, 15_crc_and_alive_unit.md. -/
abbrev crcHcount : Nat := 0x03C08C
/-- R326, 15_crc_and_alive_unit.md. -/
def crcCnt (n : Nat) : Nat := 0x03C0C0 + n * 0x4
/-- R323 WO, 15_crc_and_alive_unit.md. -/
def crcHwin (n : Nat) : Nat := 0x03C400 + n * 0x4
/-- R323 WO, 15_crc_and_alive_unit.md. -/
abbrev crcHbits : Nat := 0x03C800
/-- R328, 16_tag_function.md. -/
abbrev tagCfg : Nat := 0x040000
/-- R329, R334, 16_tag_function.md. -/
abbrev tagStat : Nat := 0x040004
/-- R346 WO, 16_tag_function.md. -/
abbrev tagCmd : Nat := 0x040008
/-- R346, 16_tag_function.md. -/
abbrev tagCmdRes : Nat := 0x04000C
/-- R343, R344, 16_tag_function.md. -/
abbrev tagGuard : Nat := 0x040010
/-- R342, 16_tag_function.md. -/
abbrev tagLock : Nat := 0x040014
/-- R345, 16_tag_function.md. -/
abbrev tagFieldLast : Nat := 0x040018
/-- R339, 16_tag_function.md. -/
def tagSpare (n : Nat) : Nat := 0x040020 + n * 0x4
/-- R346, 16_tag_function.md. -/
def tagOos (n : Nat) : Nat := 0x040040 + n * 0x4
/-- R339, 16_tag_function.md. -/
abbrev tagWearSel : Nat := 0x040050
/-- R339, 16_tag_function.md. -/
abbrev tagWear : Nat := 0x040054
/-- TAG counters, 16_tag_function.md. -/
def tagCnt (n : Nat) : Nat := 0x040080 + n * 0x4
/-- R350, R358, 17_detuning_pings.md. -/
abbrev pingCfg : Nat := 0x044000
/-- R353, 17_detuning_pings.md. -/
abbrev pingSweep : Nat := 0x044004
/-- R352, 17_detuning_pings.md. -/
abbrev pingThr : Nat := 0x044008
/-- R353, 17_detuning_pings.md. -/
def pingPorts (n : Nat) : Nat := 0x04400C + n * 0x4
/-- R88, R347, 17_detuning_pings.md. -/
abbrev pingRf : Nat := 0x044014
/-- R358, 17_detuning_pings.md. -/
abbrev pingStat : Nat := 0x044018
/-- R358 WO, 17_detuning_pings.md. -/
abbrev pingCmd : Nat := 0x04401C
/-- R358, 17_detuning_pings.md. -/
abbrev pingCmdRes : Nat := 0x044020
/-- R358, 17_detuning_pings.md. -/
abbrev pingCalMiss : Nat := 0x044024
/-- R351, 17_detuning_pings.md. -/
def pingEvt (n : Nat) : Nat := 0x044030 + n * 0x4
/-- R351, 17_detuning_pings.md. -/
def pingNear (n : Nat) : Nat := 0x044038 + n * 0x4
/-- R355, 17_detuning_pings.md. -/
def pingSkip (n : Nat) : Nat := 0x044040 + n * 0x4
/-- R350, 17_detuning_pings.md. -/
abbrev pingBaseSel : Nat := 0x044050
/-- R350, 17_detuning_pings.md. -/
abbrev pingBase : Nat := 0x044054
/-- R350, 17_detuning_pings.md. -/
abbrev pingMeas : Nat := 0x044058
/-- PING counters, 17_detuning_pings.md. -/
def pingCnt (n : Nat) : Nat := 0x044080 + n * 0x4
/-- R377, 18_tally_core.md. -/
abbrev talStat : Nat := 0x048000
/-- R378, 18_tally_core.md. -/
abbrev talAudit : Nat := 0x048004
/-- R381, 18_tally_core.md. -/
abbrev talReqArg : Nat := 0x048008
/-- R381 WO, 18_tally_core.md. -/
abbrev talReq : Nat := 0x04800C
/-- R381, 18_tally_core.md. -/
abbrev talReqRes : Nat := 0x048010
/-- R33, R377, 18_tally_core.md. -/
def talCnt (n : Nat) : Nat := 0x048020 + n * 0x4
/-- R389, R390, R396, 19_memory_port.md. -/
abbrev mempStat : Nat := 0x04C000
/-- R389, R390, R396, 19_memory_port.md. -/
abbrev mempFlash : Nat := 0x04C004
/-- R389, R390, R396, 19_memory_port.md. -/
abbrev mempPsram : Nat := 0x04C008
/-- R389, R390, R396, 19_memory_port.md. -/
abbrev mempXip : Nat := 0x04C00C
/-- R391, 19_memory_port.md. -/
abbrev mempQstat : Nat := 0x04C010
/-- R401 WO, 19_memory_port.md. -/
abbrev mempCmd : Nat := 0x04C014
/-- R401, 19_memory_port.md. -/
abbrev mempCmdRes : Nat := 0x04C018
/-- R395, R402, 19_memory_port.md. -/
def mempCnt (n : Nat) : Nat := 0x04C040 + n * 0x4
/-- R406, 20_management_and_service.md. -/
abbrev mgmtStat : Nat := 0x050000
/-- R406, R408, 20_management_and_service.md. -/
abbrev mgmtCfg : Nat := 0x050004
/-- R410 WO, 20_management_and_service.md. -/
abbrev mgmtCmd : Nat := 0x050008
/-- R410, 20_management_and_service.md. -/
abbrev mgmtCmdRes : Nat := 0x05000C
/-- R419 WO, 20_management_and_service.md. -/
abbrev mgmtDecCmd : Nat := 0x050010
/-- R419, 20_management_and_service.md. -/
abbrev mgmtDecRes : Nat := 0x050014
/-- R419, 20_management_and_service.md. -/
abbrev mgmtDecOos : Nat := 0x050018
/-- R416, 20_management_and_service.md. -/
abbrev mgmtHealth : Nat := 0x050020
/-- R414, 20_management_and_service.md. -/
abbrev mgmtLogHead : Nat := 0x050030
/-- R417, 20_management_and_service.md. -/
abbrev mgmtLogSel : Nat := 0x050034
/-- R417, 20_management_and_service.md. -/
def mgmtLogE (n : Nat) : Nat := 0x050038 + n * 0x4
/-- R416, 20_management_and_service.md. -/
abbrev mgmtLogLost : Nat := 0x050048
/-- R409, R410, 20_management_and_service.md. -/
def mgmtCnt (n : Nat) : Nat := 0x050060 + n * 0x4
/-- R412, 20_management_and_service.md. -/
def mgmtSens (n : Nat) : Nat := 0x050100 + n * 0x4
/-- R413, 20_management_and_service.md. -/
def mgmtPpwr (n : Nat) : Nat := 0x050200 + n * 0x4
/-- R428, R430, R432, R440, 21_drafts_profiles_updates.md. -/
abbrev updStat : Nat := 0x054000
/-- R439, R443, 21_drafts_profiles_updates.md. -/
abbrev updCfg : Nat := 0x054004
/-- R434, 21_drafts_profiles_updates.md. -/
abbrev updBake : Nat := 0x054008
/-- R426, 21_drafts_profiles_updates.md. -/
abbrev updImage : Nat := 0x05400C
/-- R426, 21_drafts_profiles_updates.md. -/
abbrev updFw : Nat := 0x054010
/-- R427, 21_drafts_profiles_updates.md. -/
abbrev updFwseq : Nat := 0x054014
/-- R427, 21_drafts_profiles_updates.md. -/
abbrev updFloor : Nat := 0x054018
/-- R432, 21_drafts_profiles_updates.md. -/
def updUtc (n : Nat) : Nat := 0x054020 + n * 0x4
/-- R428, 21_drafts_profiles_updates.md. -/
def updBuf (n : Nat) : Nat := 0x054400 + n * 0x4
/-- UPD_CMD, WO, 21_drafts_profiles_updates.md. -/
abbrev updCmd : Nat := 0x054600
/-- UPD_CMD, 21_drafts_profiles_updates.md. -/
abbrev updCmdRes : Nat := 0x054604
/-- R278 reset: none stated, DESIGN CHOICE 0, log entry 3; the live draft loads it, 13_rounds_and_seen_table.md. -/
def schedTable (n k : Nat) : Nat := 0x600000 + n * 0x40 + k * 0x4
/-- R378 mirror buffer; reset none stated: DESIGN CHOICE 0, log entry 3, 18_tally_core.md. -/
def talWindow (n : Nat) : Nat := 0x500000 + n * 0x4

end Reg

/-- Rows 0 of the register map. -/
def regRows0 : List RegDesc := [
  ⟨"SYS_READY", 0x000010, 1, 0x0, 1, 0x0, 0x00000000, 0x00000000, 0x00000000, 0x00000000, 0x00000000, false⟩,
  ⟨"SYS_EXPECT", 0x000014, 1, 0x0, 1, 0x0, 0x00000000, 0x00000000, 0x00000000, 0x0000003F, 0x00000000, false⟩,
  ⟨"SYS_RESET_CAUSE", 0x000020, 1, 0x0, 1, 0x0, 0x00000000, 0x000003FF, 0x00000000, 0x00000001, 0x00000000, true⟩,
  ⟨"SYS_CTRL", 0x000024, 1, 0x0, 1, 0x0, 0x00000000, 0x00000000, 0x00000000, 0x00000000, 0x00000000, false⟩,
  ⟨"SYS_PROF_NEXT", 0x000028, 1, 0x0, 1, 0x0, 0x80000007, 0x00000000, 0x00000000, 0x00000000, 0x00000000, true⟩,
  ⟨"SYS_PROF_STAT", 0x00002C, 1, 0x0, 1, 0x0, 0x00000000, 0x00000000, 0x00000000, 0x00000000, 0x00000000, false⟩,
  ⟨"SYS_DRAFT_STAT", 0x000030, 1, 0x0, 1, 0x0, 0x00000000, 0x00000004, 0x00000000, 0x00FF0000, 0x00000000, false⟩,
  ⟨"SYS_PROOF_CMD", 0x000034, 1, 0x0, 1, 0x0, 0x00000000, 0x00000000, 0x00000000, 0x00000000, 0x00000000, false⟩,
  ⟨"SYS_CLKSTAT", 0x000040, 1, 0x0, 1, 0x0, 0x00000000, 0x00000000, 0x00000000, 0x00000001, 0x00000000, false⟩,
  ⟨"SYS_ACC_STAT", 0x000044, 1, 0x0, 1, 0x0, 0x00000000, 0x80000000, 0x00000000, 0x00000000, 0x00000000, true⟩,
  ⟨"SYS_IRQ_PEND", 0x000050, 1, 0x0, 1, 0x0, 0x00000000, 0x00007FF7, 0x00000000, 0x00000000, 0x00000000, false⟩,
  ⟨"SYS_IRQ_EN", 0x000054, 1, 0x0, 1, 0x0, 0x00007FFF, 0x00000000, 0x00000000, 0x000000D7, 0x00000000, false⟩,
  ⟨"SYS_CMD_FIRST", 0x000060, 1, 0x0, 1, 0x0, 0x00000000, 0x00000000, 0x00000000, 0x00000000, 0x00000000, false⟩,
  ⟨"SYS_CMD_LAST", 0x000064, 1, 0x0, 1, 0x0, 0x00000000, 0x00000000, 0x00000000, 0x00000000, 0x00000000, false⟩,
  ⟨"SYS_CMD_STAT", 0x000068, 1, 0x0, 1, 0x0, 0x00000000, 0x00000000, 0x00000000, 0x00000000, 0x00000000, false⟩,
  ⟨"PWR_MODE", 0x001000, 1, 0x0, 1, 0x0, 0x00000003, 0x00000000, 0x00000000, 0x00000000, 0x00000000, true⟩,
  ⟨"PWR_POLICY", 0x001004, 1, 0x0, 1, 0x0, 0x00000001, 0x00000000, 0x00000000, 0x00000000, 0x00000000, true⟩,
  ⟨"PWR_WAKE_EN", 0x001008, 1, 0x0, 1, 0x0, 0x0000001F, 0x00000000, 0x00000000, 0x0000000D, 0x00000000, true⟩,
  ⟨"PWR_WAKE_TIMER", 0x00100C, 1, 0x0, 1, 0x0, 0xFFFFFFFF, 0x00000000, 0x00000000, 0x00000000, 0x00000000, true⟩,
  ⟨"PWR_WAKE_CAUSE", 0x001010, 1, 0x0, 1, 0x0, 0x00000000, 0x00000000, 0x00000000, 0x00000000, 0x00000000, true⟩,
  ⟨"PWR_WAKE_REC", 0x001014, 1, 0x0, 1, 0x0, 0x00000000, 0x00000000, 0x00000000, 0x00000000, 0x00000000, true⟩,
  ⟨"PWR_AO_TIME", 0x001018, 1, 0x0, 1, 0x0, 0x00000000, 0x00000000, 0x00000000, 0x00000000, 0x00000000, true⟩,
  ⟨"PWR_SLEEP_AT", 0x00101C, 1, 0x0, 1, 0x0, 0x00000000, 0x00000000, 0x00000000, 0x00000000, 0x00000000, true⟩,
  ⟨"PWR_WAKE_AT", 0x001020, 1, 0x0, 1, 0x0, 0x00000000, 0x00000000, 0x00000000, 0x00000000, 0x00000000, true⟩,
  ⟨"PWR_LAST_REFUSER", 0x001024, 1, 0x0, 1, 0x0, 0x00000000, 0x00000000, 0x00000000, 0x00000000, 0x00000000, true⟩,
  ⟨"PWR_REFUSE_CNT", 0x001040, 10, 0x4, 1, 0x0, 0x0000FFFF, 0x00000000, 0x00000000, 0x00000000, 0x00000000, true⟩,
  ⟨"HP_CTRL", 0x002000, 1, 0x0, 1, 0x0, 0x0000FF35, 0x00000000, 0x00000000, 0x00000010, 0x00000000, false⟩,
  ⟨"HP_LANES", 0x002004, 1, 0x0, 1, 0x0, 0x00000303, 0x00000000, 0x00000000, 0x00000000, 0x00000000, false⟩,
  ⟨"HP_STALL_LIMIT", 0x002008, 1, 0x0, 1, 0x0, 0x0000FFFF, 0x00000000, 0x00000000, 0x00000000, 0x00000000, false⟩,
  ⟨"HP_STATUS", 0x00200C, 1, 0x0, 1, 0x0, 0x00000000, 0x000003FE, 0x00000000, 0x00000000, 0x00000000, false⟩]

/-- Rows 1 of the register map. -/
def regRows1 : List RegDesc := [
  ⟨"HP_FRAMES", 0x002010, 1, 0x0, 1, 0x0, 0x00000000, 0x00000000, 0x00000000, 0x00000000, 0x00000000, false⟩,
  ⟨"HP_IGNORED", 0x002014, 1, 0x0, 1, 0x0, 0x00000000, 0x00000000, 0x0000FFFF, 0x00000000, 0x00000000, false⟩,
  ⟨"CLK_REFCTRL", 0x003000, 1, 0x0, 1, 0x0, 0x00000001, 0x00000000, 0x00000000, 0x00000000, 0x00000000, true⟩,
  ⟨"CLK_REFSTAT", 0x003004, 1, 0x0, 1, 0x0, 0x00000000, 0x80000000, 0x00000000, 0x00000000, 0x00000000, true⟩,
  ⟨"TXC_STAT", 0x008000, 4, 0x1000, 1, 0x0, 0x00000000, 0x00000000, 0x00000000, 0x00000000, 0x00000000, false⟩,
  ⟨"TXC_FREQ", 0x008004, 4, 0x1000, 1, 0x0, 0x00000000, 0x00000000, 0x00000000, 0x00000000, 0x00000000, false⟩,
  ⟨"TXC_POWER", 0x008008, 4, 0x1000, 1, 0x0, 0x00000000, 0x00000000, 0x00000000, 0x00000000, 0x00000000, false⟩,
  ⟨"TXC_RAMP", 0x00800C, 4, 0x1000, 1, 0x0, 0x0000007F, 0x00000000, 0x00000000, 0x00000010, 0x0000007F, false⟩,
  ⟨"TXC_CMD", 0x008010, 4, 0x1000, 1, 0x0, 0x00000000, 0x00000000, 0x00000000, 0x00000000, 0x00000000, false⟩,
  ⟨"TXC_CMD_RES", 0x008014, 4, 0x1000, 1, 0x0, 0x00000000, 0x00000000, 0x00000000, 0x00000000, 0x00000000, false⟩,
  ⟨"TXC_CNT_RAMP", 0x008020, 4, 0x1000, 1, 0x0, 0x00000000, 0x00000000, 0x00000000, 0x00000000, 0x00000000, false⟩,
  ⟨"TXC_CNT_HOP", 0x008024, 4, 0x1000, 1, 0x0, 0x00000000, 0x00000000, 0x00000000, 0x00000000, 0x00000000, false⟩,
  ⟨"TXC_CNT_FAST", 0x008028, 4, 0x1000, 1, 0x0, 0x00000000, 0x00000000, 0x00000000, 0x00000000, 0x00000000, false⟩,
  ⟨"TXC_CNT_GUARD", 0x00802C, 4, 0x1000, 1, 0x0, 0x00000000, 0x00000000, 0x00000000, 0x00000000, 0x00000000, false⟩,
  ⟨"TXC_ON_TIME", 0x008030, 4, 0x1000, 1, 0x0, 0x00000000, 0x00000000, 0x00000000, 0x00000000, 0x00000000, false⟩,
  ⟨"RXC_STAT", 0x010000, 16, 0x1000, 1, 0x0, 0x00000000, 0x00000000, 0x00000000, 0x00000000, 0x00800000, false⟩,
  ⟨"RXC_CFG", 0x010004, 16, 0x1000, 1, 0x0, 0x0000039F, 0x00000000, 0x00000000, 0x00000000, 0x0000039F, false⟩,
  ⟨"RXC_RSSI", 0x010008, 16, 0x1000, 1, 0x0, 0x00000000, 0x00000000, 0x00000000, 0x00000000, 0x00000000, false⟩,
  ⟨"RXC_CMD", 0x010010, 16, 0x1000, 1, 0x0, 0x00000000, 0x00000000, 0x00000000, 0x00000000, 0x00000000, false⟩,
  ⟨"RXC_CMD_RES", 0x010014, 16, 0x1000, 1, 0x0, 0x00000000, 0x00000000, 0x00000000, 0x00000000, 0x00000000, false⟩,
  ⟨"RXC_CNT_CLIP", 0x010020, 16, 0x1000, 1, 0x0, 0x00000000, 0x00000000, 0x00000000, 0x00000000, 0x00000000, false⟩,
  ⟨"RXC_CNT_REPLY", 0x010024, 16, 0x1000, 1, 0x0, 0x00000000, 0x00000000, 0x00000000, 0x00000000, 0x00000000, false⟩,
  ⟨"RXC_CANC_STAT", 0x010100, 16, 0x1000, 1, 0x0, 0x00000000, 0x00000000, 0x00000000, 0x00000000, 0x00000000, false⟩,
  ⟨"RXC_CANC_TAP", 0x010104, 16, 0x1000, 4, 0x4, 0x00000000, 0x00000000, 0x00000000, 0x00000000, 0x00000000, false⟩,
  ⟨"RXC_CANC_RECAL", 0x010114, 16, 0x1000, 1, 0x0, 0x00000000, 0x00000000, 0x00000000, 0x00000000, 0x00000000, false⟩,
  ⟨"LOOM_CTRL", 0x020000, 1, 0x0, 1, 0x0, 0x001F0FFF, 0x00000000, 0x00000000, 0x000C0440, 0x001F0FFF, false⟩,
  ⟨"LOOM_REF", 0x020010, 1, 0x0, 1, 0x0, 0xFFFF0000, 0x00000000, 0x00000000, 0x0E100000, 0xFFFF0000, false⟩,
  ⟨"LOOM_BEAM", 0x020040, 16, 0x4, 1, 0x0, 0x00000000, 0x00000000, 0x00000000, 0x00000000, 0x00000000, false⟩,
  ⟨"LOOM_WT", 0x020100, 16, 0x4, 1, 0x0, 0x00000000, 0x00000000, 0x00000000, 0x00000000, 0x00000000, false⟩,
  ⟨"LOOM_CNT", 0x020200, 16, 0x20, 6, 0x4, 0x00000000, 0x00000000, 0x00000000, 0x00000000, 0x00000000, false⟩]

/-- Rows 2 of the register map. -/
def regRows2 : List RegDesc := [
  ⟨"PORT_STATE", 0x022000, 8, 0x4, 1, 0x0, 0x00000000, 0x00000000, 0x00000000, 0x00000000, 0x00000000, false⟩,
  ⟨"PORT_OOS_LO", 0x022020, 1, 0x0, 1, 0x0, 0x00000000, 0x00000000, 0x00000000, 0x00000000, 0x00000000, false⟩,
  ⟨"PORT_OOS_HI", 0x022024, 1, 0x0, 1, 0x0, 0x00000000, 0x00000000, 0x00000000, 0x00000000, 0x00000000, false⟩,
  ⟨"PORT_LAST_FAULT", 0x022028, 1, 0x0, 1, 0x0, 0x00000000, 0x00000000, 0xFF000000, 0x00000000, 0x00000000, false⟩,
  ⟨"PORT_CMD", 0x022030, 1, 0x0, 1, 0x0, 0x00000000, 0x00000000, 0x00000000, 0x00000000, 0x00000000, false⟩,
  ⟨"PORT_CMD_RES", 0x022034, 1, 0x0, 1, 0x0, 0x00000000, 0x00000000, 0x00000000, 0x00000000, 0x00000000, false⟩,
  ⟨"PORT_WARP_RX", 0x022040, 4, 0x4, 1, 0x0, 0x00000000, 0x00000000, 0x00000000, 0x00000000, 0x00000000, false⟩,
  ⟨"PORT_FAULT_CNT", 0x022050, 1, 0x0, 1, 0x0, 0x00000000, 0x00000000, 0x00000000, 0x00000000, 0x00000000, false⟩,
  ⟨"LEG_LINK_A", 0x024000, 8, 0x8, 1, 0x0, 0xFFF803FF, 0x00000000, 0x00000000, 0x00000000, 0xFFF803FF, false⟩,
  ⟨"LEG_LINK_B", 0x024004, 8, 0x8, 1, 0x0, 0x0FFFFFF8, 0x00000000, 0x00000000, 0x00000000, 0x0FFFFFF8, false⟩,
  ⟨"LEG_CFG", 0x024040, 1, 0x0, 1, 0x0, 0x001F0FF3, 0x00000000, 0x00000000, 0x00080340, 0x00000F00, false⟩,
  ⟨"LEG_STAT", 0x024044, 1, 0x0, 1, 0x0, 0x00000000, 0x00000003, 0x00000000, 0x00000000, 0x00000000, false⟩,
  ⟨"LEG_RAW_CTRL", 0x024048, 1, 0x0, 1, 0x0, 0x7BFF01FF, 0x00000000, 0x00000000, 0x18000000, 0x00000000, false⟩,
  ⟨"LEG_RAW", 0x024060, 8, 0x4, 1, 0x0, 0xFFFFFFFF, 0x00000000, 0x00000000, 0x00000000, 0x00000000, false⟩,
  ⟨"LEG_LD_STAT", 0x024080, 8, 0x4, 1, 0x0, 0x00000000, 0x00000000, 0x00000000, 0x00000000, 0x00000000, false⟩,
  ⟨"LEG_CNT", 0x024100, 4, 0x40, 14, 0x4, 0x00000000, 0x00000000, 0x00000000, 0x00000000, 0x00000000, false⟩,
  ⟨"UMA_LINK", 0x028000, 8, 0x4, 1, 0x0, 0xBFBF0F00, 0x00000000, 0x00000000, 0x00000000, 0xBFBF0F00, false⟩,
  ⟨"UMA_CFG", 0x028040, 1, 0x0, 1, 0x0, 0x00FFFFF0, 0x00000000, 0x00000000, 0x00040440, 0x00FF0000, false⟩,
  ⟨"UMA_STAT", 0x028044, 1, 0x0, 1, 0x0, 0x00000000, 0x00000001, 0x00000000, 0x00000000, 0x00000000, false⟩,
  ⟨"UMA_UE_STAT", 0x028080, 4, 0x4, 1, 0x0, 0x00000000, 0x00000000, 0x00000000, 0x00000000, 0x00000000, false⟩,
  ⟨"UMA_DIAG_SEL", 0x0280A0, 1, 0x0, 1, 0x0, 0x00000003, 0x00000000, 0x00000000, 0x00000000, 0x00000000, false⟩,
  ⟨"UMA_DIAG_SNR", 0x0280A4, 3, 0x4, 1, 0x0, 0x00000000, 0x00000000, 0x00000000, 0x00000000, 0x00000000, false⟩,
  ⟨"UMA_DIAG_CLK", 0x0280B0, 1, 0x0, 1, 0x0, 0x00000000, 0x00000000, 0x00000000, 0x00000000, 0x00000000, false⟩,
  ⟨"UMA_CNT", 0x028100, 4, 0x40, 8, 0x4, 0x00000000, 0x00000000, 0x00000000, 0x00000000, 0x00000000, false⟩,
  ⟨"PEER_CFG", 0x02C000, 1, 0x0, 1, 0x0, 0xFFFFFFF7, 0x00000000, 0x00000000, 0x00000000, 0xFFFFFFF7, false⟩,
  ⟨"PEER_WIN", 0x02C004, 1, 0x0, 1, 0x0, 0xFFFFFFFF, 0x00000000, 0x00000000, 0x03E80A46, 0xFFFFFFFF, false⟩,
  ⟨"PEER_TIME", 0x02C008, 1, 0x0, 1, 0x0, 0x00000000, 0x00000000, 0x00000000, 0x0F000000, 0x00000000, false⟩,
  ⟨"PEER_STEER", 0x02C00C, 1, 0x0, 1, 0x0, 0x00000000, 0x00000000, 0x00000000, 0x00000000, 0x00000000, false⟩,
  ⟨"PEER_COLOUR", 0x02C010, 1, 0x0, 1, 0x0, 0x00000000, 0x00000000, 0x00000000, 0x00000000, 0x00000000, false⟩,
  ⟨"PEER_CNT", 0x02C040, 8, 0x4, 1, 0x0, 0x00000000, 0x00000000, 0x00000000, 0x00000000, 0x00000000, false⟩]

/-- Rows 3 of the register map. -/
def regRows3 : List RegDesc := [
  ⟨"PEER_TXBUF", 0x02C400, 250, 0x4, 1, 0x0, 0xFFFFFFFF, 0x00000000, 0x00000000, 0x00000000, 0x00000000, false⟩,
  ⟨"PEER_TX_CMD", 0x02C7E8, 1, 0x0, 1, 0x0, 0x00000000, 0x00000000, 0x00000000, 0x00000000, 0x00000000, false⟩,
  ⟨"PEER_TX_RES", 0x02C7EC, 1, 0x0, 1, 0x0, 0x00000000, 0x00000000, 0x00000000, 0x00000000, 0x00000000, false⟩,
  ⟨"SCHED_CTRL", 0x030000, 1, 0x0, 1, 0x0, 0x0000FFF1, 0x00000000, 0x00000000, 0x000014F0, 0x0000FFF1, false⟩,
  ⟨"SCHED_STAT", 0x030004, 1, 0x0, 1, 0x0, 0x00000000, 0x00000000, 0x00000000, 0x00100000, 0x00000000, false⟩,
  ⟨"SCHED_CMD", 0x030008, 1, 0x0, 1, 0x0, 0x00000000, 0x00000000, 0x00000000, 0x00000000, 0x00000000, false⟩,
  ⟨"SCHED_CMD_RES", 0x03000C, 1, 0x0, 1, 0x0, 0x00000000, 0x00000000, 0x00000000, 0x00000000, 0x00000000, false⟩,
  ⟨"SCHED_LOAD", 0x030010, 1, 0x0, 1, 0x0, 0x00FF00FF, 0x00000000, 0x00000000, 0x00200010, 0x00FF00FF, false⟩,
  ⟨"SCHED_WARP", 0x030020, 4, 0x4, 1, 0x0, 0x00000000, 0x00000000, 0x00000000, 0x00000000, 0x00000000, false⟩,
  ⟨"SCHED_CNT", 0x030040, 5, 0x4, 1, 0x0, 0x00000000, 0x00000000, 0x00000000, 0x00000000, 0x00000000, false⟩,
  ⟨"SCHED_ACCDATA", 0x030100, 64, 0x4, 1, 0x0, 0xFFFFFFFF, 0x00000000, 0x00000000, 0x00000000, 0x00000000, false⟩,
  ⟨"SEEN_CFG", 0x034000, 1, 0x0, 1, 0x0, 0x00FF0000, 0x00000000, 0x00000000, 0x000A0000, 0x00FF0100, false⟩,
  ⟨"SEEN_STAT", 0x034004, 1, 0x0, 1, 0x0, 0x00000000, 0x00000000, 0x00000000, 0x00000000, 0x00000000, false⟩,
  ⟨"SEEN_CMD", 0x034008, 1, 0x0, 1, 0x0, 0x00000000, 0x00000000, 0x00000000, 0x00000000, 0x00000000, false⟩,
  ⟨"SEEN_CMD_RES", 0x03400C, 1, 0x0, 1, 0x0, 0x00000000, 0x00000000, 0x00000000, 0x00000000, 0x00000000, false⟩,
  ⟨"SEEN_FIND", 0x034010, 1, 0x0, 1, 0x0, 0x00000000, 0x00000000, 0x00000000, 0x00000000, 0x00000000, false⟩,
  ⟨"SEEN_KEY", 0x034020, 3, 0x4, 1, 0x0, 0xFFFFFFFF, 0x00000000, 0x00000000, 0x00000000, 0x00000000, false⟩,
  ⟨"SEEN_KEY3", 0x03402C, 1, 0x0, 1, 0x0, 0x00000003, 0x00000000, 0x00000000, 0x00000000, 0x00000000, false⟩,
  ⟨"SEEN_CNT", 0x034040, 9, 0x4, 1, 0x0, 0x00000000, 0x00000000, 0x00000000, 0x00000000, 0x00000000, false⟩,
  ⟨"FIFO_CFG", 0x038000, 1, 0x0, 1, 0x0, 0xFF0F1FFF, 0x00000000, 0x00000000, 0x00020001, 0x00000000, false⟩,
  ⟨"FIFO_LEVEL", 0x038004, 1, 0x0, 1, 0x0, 0x00000000, 0x00000000, 0x00000000, 0x00000000, 0x00000000, false⟩,
  ⟨"FIFO_STAT", 0x038008, 1, 0x0, 1, 0x0, 0x00000000, 0x00000000, 0xFFFFC000, 0x00000000, 0x00000000, false⟩,
  ⟨"FIFO_CMD", 0x03800C, 1, 0x0, 1, 0x0, 0x00000000, 0x00000000, 0x00000000, 0x00000000, 0x00000000, false⟩,
  ⟨"FIFO_DROP_CNT", 0x038010, 1, 0x0, 1, 0x0, 0x00000000, 0x00000000, 0x00000000, 0x00000000, 0x00000000, false⟩,
  ⟨"FIFO_DROP_LAST", 0x038014, 1, 0x0, 1, 0x0, 0x00000000, 0x00000000, 0x00000000, 0x00000000, 0x00000000, false⟩,
  ⟨"FIFO_PTR_CNT", 0x038018, 1, 0x0, 1, 0x0, 0x00000000, 0x00000000, 0x00000000, 0x00000000, 0x00000000, false⟩,
  ⟨"FIFO_PKT_CNT", 0x03801C, 1, 0x0, 1, 0x0, 0x00000000, 0x00000000, 0x00000000, 0x00000000, 0x00000000, false⟩,
  ⟨"CRC_PRE0_CFG", 0x03C000, 1, 0x0, 1, 0x0, 0x00000000, 0x00000000, 0x00000000, 0x80000005, 0x00000000, false⟩,
  ⟨"CRC_PRE0_POLY", 0x03C004, 1, 0x0, 1, 0x0, 0x00000000, 0x00000000, 0x00000000, 0x00000009, 0x00000000, false⟩,
  ⟨"CRC_PRE0_INIT", 0x03C008, 1, 0x0, 1, 0x0, 0x00000000, 0x00000000, 0x00000000, 0x00000009, 0x00000000, false⟩,
  ⟨"CRC_PRE0_XOR", 0x03C00C, 1, 0x0, 1, 0x0, 0x00000000, 0x00000000, 0x00000000, 0x00000000, 0x00000000, false⟩]

/-- Rows 4 of the register map. -/
def regRows4 : List RegDesc := [
  ⟨"CRC_PRE1_CFG", 0x03C010, 1, 0x0, 1, 0x0, 0x00000000, 0x00000000, 0x00000000, 0x80000010, 0x00000000, false⟩,
  ⟨"CRC_PRE1_POLY", 0x03C014, 1, 0x0, 1, 0x0, 0x00000000, 0x00000000, 0x00000000, 0x00001021, 0x00000000, false⟩,
  ⟨"CRC_PRE1_INIT", 0x03C018, 1, 0x0, 1, 0x0, 0x00000000, 0x00000000, 0x00000000, 0x0000FFFF, 0x00000000, false⟩,
  ⟨"CRC_PRE1_XOR", 0x03C01C, 1, 0x0, 1, 0x0, 0x00000000, 0x00000000, 0x00000000, 0x0000FFFF, 0x00000000, false⟩,
  ⟨"CRC_PRE2_CFG", 0x03C020, 1, 0x0, 1, 0x0, 0x00000000, 0x00000000, 0x00000000, 0x80000018, 0x00000000, false⟩,
  ⟨"CRC_PRE2_POLY", 0x03C024, 1, 0x0, 1, 0x0, 0x00000000, 0x00000000, 0x00000000, 0x005D6DCB, 0x00000000, false⟩,
  ⟨"CRC_PRE2_INIT", 0x03C028, 1, 0x0, 1, 0x0, 0x00000000, 0x00000000, 0x00000000, 0x00FEDCBA, 0x00000000, false⟩,
  ⟨"CRC_PRE2_XOR", 0x03C02C, 1, 0x0, 1, 0x0, 0x00000000, 0x00000000, 0x00000000, 0x00000000, 0x00000000, false⟩,
  ⟨"CRC_PRE3_CFG", 0x03C030, 1, 0x0, 1, 0x0, 0x00000000, 0x00000000, 0x00000000, 0x80000008, 0x00000000, false⟩,
  ⟨"CRC_PRE3_POLY", 0x03C034, 1, 0x0, 1, 0x0, 0x00000000, 0x00000000, 0x00000000, 0x0000002F, 0x00000000, false⟩,
  ⟨"CRC_PRE3_INIT", 0x03C038, 1, 0x0, 1, 0x0, 0x00000000, 0x00000000, 0x00000000, 0x000000FF, 0x00000000, false⟩,
  ⟨"CRC_PRE3_XOR", 0x03C03C, 1, 0x0, 1, 0x0, 0x00000000, 0x00000000, 0x00000000, 0x00000000, 0x00000000, false⟩,
  ⟨"CRC_PRE4_CFG", 0x03C040, 1, 0x0, 1, 0x0, 0x00000000, 0x00000000, 0x00000000, 0xE0000020, 0x00000000, false⟩,
  ⟨"CRC_PRE4_POLY", 0x03C044, 1, 0x0, 1, 0x0, 0x00000000, 0x00000000, 0x00000000, 0x04C11DB7, 0x00000000, false⟩,
  ⟨"CRC_PRE4_INIT", 0x03C048, 1, 0x0, 1, 0x0, 0x00000000, 0x00000000, 0x00000000, 0xFFFFFFFF, 0x00000000, false⟩,
  ⟨"CRC_PRE4_XOR", 0x03C04C, 1, 0x0, 1, 0x0, 0x00000000, 0x00000000, 0x00000000, 0xFFFFFFFF, 0x00000000, false⟩,
  ⟨"CRC_PRE5_7_CFG", 0x03C050, 3, 0x10, 1, 0x0, 0xE000003F, 0x00000000, 0x00000000, 0x00000000, 0xE000003F, false⟩,
  ⟨"CRC_PRE5_7_VALUE", 0x03C054, 3, 0x10, 3, 0x4, 0xFFFFFFFF, 0x00000000, 0x00000000, 0x00000000, 0xFFFFFFFF, false⟩,
  ⟨"CRC_STAT", 0x03C080, 1, 0x0, 1, 0x0, 0x00000000, 0x00000003, 0x00000000, 0x00000000, 0x00000000, false⟩,
  ⟨"CRC_HCTRL", 0x03C084, 1, 0x0, 1, 0x0, 0x00000000, 0x00000000, 0x00000000, 0x00000000, 0x00000000, false⟩,
  ⟨"CRC_HRES", 0x03C088, 1, 0x0, 1, 0x0, 0x00000000, 0x00000000, 0x00000000, 0x00000000, 0x00000000, false⟩,
  ⟨"CRC_HCOUNT", 0x03C08C, 1, 0x0, 1, 0x0, 0x00000000, 0x00000000, 0x00000000, 0x00000000, 0x00000000, false⟩,
  ⟨"CRC_CNT", 0x03C0C0, 6, 0x4, 1, 0x0, 0x00000000, 0x00000000, 0x00000000, 0x00000000, 0x00000000, false⟩,
  ⟨"CRC_HWIN", 0x03C400, 256, 0x4, 1, 0x0, 0x00000000, 0x00000000, 0x00000000, 0x00000000, 0x00000000, false⟩,
  ⟨"CRC_HBITS", 0x03C800, 1, 0x0, 1, 0x0, 0x00000000, 0x00000000, 0x00000000, 0x00000000, 0x00000000, false⟩,
  ⟨"TAG_CFG", 0x040000, 1, 0x0, 1, 0x0, 0x00000001, 0x00000000, 0x00000000, 0x00000000, 0x00000001, false⟩,
  ⟨"TAG_STAT", 0x040004, 1, 0x0, 1, 0x0, 0x00000000, 0x0000001E, 0x00000000, 0x00000000, 0x00000000, false⟩,
  ⟨"TAG_CMD", 0x040008, 1, 0x0, 1, 0x0, 0x00000000, 0x00000000, 0x00000000, 0x00000000, 0x00000000, false⟩,
  ⟨"TAG_CMD_RES", 0x04000C, 1, 0x0, 1, 0x0, 0x00000000, 0x00000000, 0x00000000, 0x00000000, 0x00000000, false⟩,
  ⟨"TAG_GUARD", 0x040010, 1, 0x0, 1, 0x0, 0x00000000, 0x00000000, 0x00000000, 0x00000000, 0x00000000, false⟩,
  ⟨"TAG_LOCK", 0x040014, 1, 0x0, 1, 0x0, 0x00000000, 0x00000000, 0x00000000, 0x00000000, 0x00000000, false⟩]

/-- Rows 5 of the register map. -/
def regRows5 : List RegDesc := [
  ⟨"TAG_FIELD_LAST", 0x040018, 1, 0x0, 1, 0x0, 0x00000000, 0x00000000, 0xFF000000, 0x00000000, 0x00000000, false⟩,
  ⟨"TAG_SPARE", 0x040020, 8, 0x4, 1, 0x0, 0x00000000, 0x00000000, 0x00000000, 0x00000000, 0x00000000, false⟩,
  ⟨"TAG_OOS", 0x040040, 4, 0x4, 1, 0x0, 0x00000000, 0x00000000, 0x00000000, 0x00000000, 0x00000000, false⟩,
  ⟨"TAG_WEAR_SEL", 0x040050, 1, 0x0, 1, 0x0, 0x0000007F, 0x00000000, 0x00000000, 0x00000000, 0x00000000, false⟩,
  ⟨"TAG_WEAR", 0x040054, 1, 0x0, 1, 0x0, 0x00000000, 0x00000000, 0x00000000, 0x00000000, 0x00000000, false⟩,
  ⟨"TAG_CNT", 0x040080, 7, 0x4, 1, 0x0, 0x00000000, 0x00000000, 0x00000000, 0x00000000, 0x00000000, false⟩,
  ⟨"PING_CFG", 0x044000, 1, 0x0, 1, 0x0, 0xFFF0FFFF, 0x00000000, 0x00000000, 0x26800000, 0xFF00FFFF, true⟩,
  ⟨"PING_SWEEP", 0x044004, 1, 0x0, 1, 0x0, 0x0000FFFF, 0x00000000, 0x00000000, 0x00000000, 0x0000FFFF, true⟩,
  ⟨"PING_THR", 0x044008, 1, 0x0, 1, 0x0, 0x3FFFFFFF, 0x00000000, 0x00000000, 0x1900C850, 0x3FFFFFFF, true⟩,
  ⟨"PING_PORTS", 0x04400C, 2, 0x4, 1, 0x0, 0xFFFFFFFF, 0x00000000, 0x00000000, 0x00000000, 0xFFFFFFFF, true⟩,
  ⟨"PING_RF", 0x044014, 1, 0x0, 1, 0x0, 0x00000000, 0x00000000, 0x00000000, 0x00000000, 0x00000000, true⟩,
  ⟨"PING_STAT", 0x044018, 1, 0x0, 1, 0x0, 0x00000000, 0x00000000, 0x00000000, 0x00000000, 0x00000000, true⟩,
  ⟨"PING_CMD", 0x04401C, 1, 0x0, 1, 0x0, 0x00000000, 0x00000000, 0x00000000, 0x00000000, 0x00000000, true⟩,
  ⟨"PING_CMD_RES", 0x044020, 1, 0x0, 1, 0x0, 0x00000000, 0x00000000, 0x00000000, 0x00000000, 0x00000000, true⟩,
  ⟨"PING_CAL_MISS", 0x044024, 1, 0x0, 1, 0x0, 0x00000000, 0x00000000, 0x00000000, 0x00000000, 0x00000000, true⟩,
  ⟨"PING_EVT", 0x044030, 2, 0x4, 1, 0x0, 0x00000000, 0x00000000, 0x00000000, 0x00000000, 0x00000000, true⟩,
  ⟨"PING_NEAR", 0x044038, 2, 0x4, 1, 0x0, 0x00000000, 0x00000000, 0x00000000, 0x00000000, 0x00000000, true⟩,
  ⟨"PING_SKIP", 0x044040, 2, 0x4, 1, 0x0, 0x00000000, 0x00000000, 0x00000000, 0x00000000, 0x00000000, true⟩,
  ⟨"PING_BASE_SEL", 0x044050, 1, 0x0, 1, 0x0, 0x0000003F, 0x00000000, 0x00000000, 0x00000000, 0x00000000, true⟩,
  ⟨"PING_BASE", 0x044054, 1, 0x0, 1, 0x0, 0x00000000, 0x00000000, 0x00000000, 0x00000000, 0x00000000, true⟩,
  ⟨"PING_MEAS", 0x044058, 1, 0x0, 1, 0x0, 0x00000000, 0x00000000, 0x00000000, 0x00000000, 0x00000000, true⟩,
  ⟨"PING_CNT", 0x044080, 5, 0x4, 1, 0x0, 0x00000000, 0x00000000, 0x00000000, 0x00000000, 0x00000000, true⟩,
  ⟨"TAL_STAT", 0x048000, 1, 0x0, 1, 0x0, 0x00000000, 0x00000000, 0x00000000, 0x00000000, 0x00000000, false⟩,
  ⟨"TAL_AUDIT", 0x048004, 1, 0x0, 1, 0x0, 0x00000000, 0x00000000, 0x00000000, 0x00000000, 0x00000000, false⟩,
  ⟨"TAL_REQ_ARG", 0x048008, 1, 0x0, 1, 0x0, 0xFFFFFFFF, 0x00000000, 0x00000000, 0x00000000, 0x00000000, false⟩,
  ⟨"TAL_REQ", 0x04800C, 1, 0x0, 1, 0x0, 0x00000000, 0x00000000, 0x00000000, 0x00000000, 0x00000000, false⟩,
  ⟨"TAL_REQ_RES", 0x048010, 1, 0x0, 1, 0x0, 0x00000000, 0x00000000, 0x00000000, 0x00000000, 0x00000000, false⟩,
  ⟨"TAL_CNT", 0x048020, 4, 0x4, 1, 0x0, 0x00000000, 0x00000000, 0x00000000, 0x00000000, 0x00000000, false⟩,
  ⟨"MEMP_STAT", 0x04C000, 1, 0x0, 1, 0x0, 0x00000000, 0x00000000, 0x00000000, 0x00000000, 0x00000000, false⟩,
  ⟨"MEMP_FLASH", 0x04C004, 1, 0x0, 1, 0x0, 0x00000000, 0x00000000, 0x00000000, 0x00000000, 0x00000000, false⟩]

/-- Rows 6 of the register map. -/
def regRows6 : List RegDesc := [
  ⟨"MEMP_PSRAM", 0x04C008, 1, 0x0, 1, 0x0, 0x00000000, 0x00000000, 0x00000000, 0x00000000, 0x00000000, false⟩,
  ⟨"MEMP_XIP", 0x04C00C, 1, 0x0, 1, 0x0, 0x00000000, 0x00000000, 0x00000000, 0x00000000, 0x00000000, false⟩,
  ⟨"MEMP_QSTAT", 0x04C010, 1, 0x0, 1, 0x0, 0x00000000, 0x00000000, 0x00000000, 0x00000000, 0x00000000, false⟩,
  ⟨"MEMP_CMD", 0x04C014, 1, 0x0, 1, 0x0, 0x00000000, 0x00000000, 0x00000000, 0x00000000, 0x00000000, false⟩,
  ⟨"MEMP_CMD_RES", 0x04C018, 1, 0x0, 1, 0x0, 0x00000000, 0x00000000, 0x00000000, 0x00000000, 0x00000000, false⟩,
  ⟨"MEMP_CNT", 0x04C040, 6, 0x4, 1, 0x0, 0x00000000, 0x00000000, 0x00000000, 0x00000000, 0x00000000, false⟩,
  ⟨"MGMT_STAT", 0x050000, 1, 0x0, 1, 0x0, 0x00000000, 0x00000000, 0x00000000, 0x00000000, 0x00000000, false⟩,
  ⟨"MGMT_CFG", 0x050004, 1, 0x0, 1, 0x0, 0xFFFF0FFF, 0x00000000, 0x00000000, 0x00000191, 0xFFFF0FFF, false⟩,
  ⟨"MGMT_CMD", 0x050008, 1, 0x0, 1, 0x0, 0x00000000, 0x00000000, 0x00000000, 0x00000000, 0x00000000, false⟩,
  ⟨"MGMT_CMD_RES", 0x05000C, 1, 0x0, 1, 0x0, 0x00000000, 0x00000000, 0x00000000, 0x00000000, 0x00000000, false⟩,
  ⟨"MGMT_DEC_CMD", 0x050010, 1, 0x0, 1, 0x0, 0x00000000, 0x00000000, 0x00000000, 0x00000000, 0x00000000, false⟩,
  ⟨"MGMT_DEC_RES", 0x050014, 1, 0x0, 1, 0x0, 0x00000000, 0x00000000, 0x00000000, 0x00000000, 0x00000000, false⟩,
  ⟨"MGMT_DEC_OOS", 0x050018, 1, 0x0, 1, 0x0, 0x00000000, 0x00000000, 0x00000000, 0x00000000, 0x00000000, false⟩,
  ⟨"MGMT_HEALTH", 0x050020, 1, 0x0, 1, 0x0, 0x00000000, 0x00000000, 0x00000000, 0x00000000, 0x00000000, false⟩,
  ⟨"MGMT_LOG_HEAD", 0x050030, 1, 0x0, 1, 0x0, 0x00000000, 0x00000000, 0x00000000, 0x00000000, 0x00000000, false⟩,
  ⟨"MGMT_LOG_SEL", 0x050034, 1, 0x0, 1, 0x0, 0xFFFFFFFF, 0x00000000, 0x00000000, 0x00000000, 0x00000000, false⟩,
  ⟨"MGMT_LOG_E", 0x050038, 4, 0x4, 1, 0x0, 0x00000000, 0x00000000, 0x00000000, 0x00000000, 0x00000000, false⟩,
  ⟨"MGMT_LOG_LOST", 0x050048, 1, 0x0, 1, 0x0, 0x00000000, 0x00000000, 0x00000000, 0x00000000, 0x00000000, false⟩,
  ⟨"MGMT_CNT", 0x050060, 2, 0x4, 1, 0x0, 0x00000000, 0x00000000, 0x00000000, 0x00000000, 0x00000000, false⟩,
  ⟨"MGMT_SENS", 0x050100, 18, 0x4, 1, 0x0, 0x00000000, 0x00000000, 0x00000000, 0x00000000, 0x00000000, false⟩,
  ⟨"MGMT_PPWR", 0x050200, 64, 0x4, 1, 0x0, 0x00000000, 0x00000000, 0x00000000, 0x00000000, 0x00000000, false⟩,
  ⟨"UPD_STAT", 0x054000, 1, 0x0, 1, 0x0, 0x00000000, 0x00000000, 0x00000000, 0x00000000, 0x00000000, false⟩,
  ⟨"UPD_CFG", 0x054004, 1, 0x0, 1, 0x0, 0xFF000003, 0x00000000, 0x00000000, 0x00000000, 0xFF000003, false⟩,
  ⟨"UPD_BAKE", 0x054008, 1, 0x0, 1, 0x0, 0xFFFFFFFF, 0x00000000, 0x00000000, 0x00000000, 0x00000000, false⟩,
  ⟨"UPD_IMAGE", 0x05400C, 1, 0x0, 1, 0x0, 0x00000000, 0x00000000, 0x00000000, 0x00000000, 0x00000000, false⟩,
  ⟨"UPD_FW", 0x054010, 1, 0x0, 1, 0x0, 0x00000000, 0x00000000, 0x00000000, 0x00000000, 0x00000000, false⟩,
  ⟨"UPD_FWSEQ", 0x054014, 1, 0x0, 1, 0x0, 0x00000000, 0x00000000, 0x00000000, 0x00000000, 0x00000000, false⟩,
  ⟨"UPD_FLOOR", 0x054018, 1, 0x0, 1, 0x0, 0x00000000, 0x00000000, 0x00000000, 0x00000000, 0x00000000, false⟩,
  ⟨"UPD_UTC", 0x054020, 3, 0x4, 1, 0x0, 0xFFFFFFFF, 0x00000000, 0x00000000, 0x00000000, 0x00000000, false⟩,
  ⟨"UPD_BUF", 0x054400, 128, 0x4, 1, 0x0, 0xFFFFFFFF, 0x00000000, 0x00000000, 0x00000000, 0x00000000, false⟩]

/-- Rows 7 of the register map. -/
def regRows7 : List RegDesc := [
  ⟨"UPD_CMD", 0x054600, 1, 0x0, 1, 0x0, 0x00000000, 0x00000000, 0x00000000, 0x00000000, 0x00000000, false⟩,
  ⟨"UPD_CMD_RES", 0x054604, 1, 0x0, 1, 0x0, 0x00000000, 0x00000000, 0x00000000, 0x00000000, 0x00000000, false⟩,
  ⟨"SCHED_ENTRY_0", 0x600000, 256, 0x40, 1, 0x0, 0xFFFEFF7F, 0x00000000, 0x00000000, 0x00000000, 0x00000000, false⟩,
  ⟨"SCHED_ENTRY_1_8", 0x600004, 256, 0x40, 8, 0x4, 0xFFFFFFFF, 0x00000000, 0x00000000, 0x00000000, 0x00000000, false⟩,
  ⟨"SCHED_ENTRY_9", 0x600024, 256, 0x40, 1, 0x0, 0xFCFFFFFF, 0x00000000, 0x00000000, 0x00000000, 0x00000000, false⟩,
  ⟨"SCHED_ENTRY_10", 0x600028, 256, 0x40, 1, 0x0, 0xFF0FFFFF, 0x00000000, 0x00000000, 0x00000000, 0x00000000, false⟩,
  ⟨"SCHED_ENTRY_11_12", 0x60002C, 256, 0x40, 2, 0x4, 0xFFFFFFFF, 0x00000000, 0x00000000, 0x00000000, 0x00000000, false⟩,
  ⟨"SCHED_ENTRY_13_14", 0x600034, 256, 0x40, 2, 0x4, 0x00000000, 0x00000000, 0x00000000, 0x00000000, 0x00000000, false⟩,
  ⟨"SCHED_ENTRY_15", 0x60003C, 256, 0x40, 1, 0x0, 0xFFFF0000, 0x00000000, 0x00000000, 0x00000000, 0x00000000, false⟩,
  ⟨"TAL_WINDOW", 0x500000, 1024, 0x4, 1, 0x0, 0x00000000, 0x00000000, 0x00000000, 0x00000000, 0x00000000, false⟩]

/-- Every register of the module, in the order of their home chapters. -/
def regTable : List RegDesc :=
  regRows0 ++ regRows1 ++ regRows2 ++ regRows3 ++ regRows4 ++ regRows5 ++ regRows6 ++ regRows7

/-- The row's array covers address `a`. -/
def RegDesc.covers (r : RegDesc) (a : Nat) : Bool :=
  (List.range r.cnt).any (fun i =>
    let b := r.base + i * r.stride
    if r.cnt2 = 1 then a == b
    else decide (b ≤ a) && decide (a < b + r.cnt2 * r.stride2) && (a - b) % r.stride2 == 0)

/-- The row of the register at `a`, if a register is there. -/
def regAt (a : Nat) : Option RegDesc := regTable.find? (fun r => r.covers a)

/-- A word as a register holds it: its reserved bits read zero (R11). -/
def rwOnly (a : Nat) (w : Word) : Word := match regAt a with | none => w | some r => w &&& wordOf r.rw

/-- Every address of a row. -/
def RegDesc.addrs (r : RegDesc) : List Nat :=
  (List.range r.cnt).flatMap (fun i => (List.range r.cnt2).map (fun j => r.base + i * r.stride + j * r.stride2))

/-- The word a row's register holds after a reset that reaches it (R12). -/
def RegDesc.resetWord (r : RegDesc) : Word := wordOf r.reset

/-- Offset of the last implemented register of each bank (24_register_index.md, R135); none for an unassigned bank. -/
def lastReg (bank : Nat) : Option Nat :=
  if 0x08 ≤ bank ∧ bank ≤ 0x0B then some 0x30
  else if 0x10 ≤ bank ∧ bank ≤ 0x1F then some 0x114
  else match bank with
  | 0x00 => some 0x68 | 0x01 => some 0x64 | 0x02 => some 0x14 | 0x03 => some 0x04
  | 0x20 => some 0x3F4 | 0x22 => some 0x50 | 0x24 => some 0x1F4 | 0x28 => some 0x1DC
  | 0x2C => some 0x7EC | 0x30 => some 0x1FC | 0x34 => some 0x60 | 0x38 => some 0x1C
  | 0x3C => some 0x800 | 0x40 => some 0x98 | 0x44 => some 0x90 | 0x48 => some 0x2C
  | 0x4C => some 0x54 | 0x50 => some 0x2FC | 0x54 => some 0x604
  | _ => none

end Sys2Proof.Machine
end

