-- ==== Sys2Proof/Machine/Sparse.lean ====
section
/-! DEFINITION. Sparse maps: lists of key and value in one canonical form (keys strictly rising, no entry equal to
what an unlisted key reads as), so that equal maps are equal lists. Every table of the state is one of these. -/
namespace Sys2Proof.Machine

variable {β : Type}

/-- The value at key `k`; `d k` is what an unlisted key reads as. -/
def sget (d : Nat → β) : List (Nat × β) → Nat → β
  | [], k => d k
  | (a, v) :: r, k => if a = k then v else sget d r k

/-- The map with `v` at key `k`. -/
def sput [DecidableEq β] (d : Nat → β) : List (Nat × β) → Nat → β → List (Nat × β)
  | [], k, v => if v = d k then [] else [(k, v)]
  | (a, w) :: r, k, v =>
    if k < a then (if v = d k then (a, w) :: r else (k, v) :: (a, w) :: r)
    else if k = a then (if v = d k then r else (a, v) :: r)
    else (a, w) :: sput d r k v

/-- Every key of the list is above `lo`, the keys rise strictly, and no value is the default. -/
def swfFrom [DecidableEq β] (d : Nat → β) (lo : Option Nat) : List (Nat × β) → Bool
  | [] => true
  | (a, v) :: r =>
    (match lo with | none => true | some l => decide (l < a)) && !decide (v = d a) && swfFrom d (some a) r

/-- The canonical form. -/
def swf [DecidableEq β] (d : Nat → β) (m : List (Nat × β)) : Bool := swfFrom d none m

/-- The map without the keys that `p` accepts. -/
def serase (p : Nat → Bool) (m : List (Nat × β)) : List (Nat × β) := m.filter (fun e => !p e.1)

end Sys2Proof.Machine
end

