-- ==== Sys2Proof/Machine/Types.lean ====
section
/-! DEFINITION. The plain data that State is made of: commands in flight, the host frame, the report FIFO, illuminators,
beams, rounds with their engines, the seen-tag table and the peer engine. -/
namespace Sys2Proof.Machine

/-- The status codes of R14. -/
inductive Status where
  | ok | aborted | abortLate | disabled | timeout | crcFail | noReply | collision | refused | outOfService
  | draftMismatch | locked | aliveRepeat | aliveJump | overload | notReady | portFault
deriving DecidableEq, Repr

/-- The code of a status (R14). -/
def Status.code : Status → Nat
  | .ok => 0x00 | .aborted => 0x01 | .abortLate => 0x02 | .disabled => 0x03 | .timeout => 0x04 | .crcFail => 0x05
  | .noReply => 0x06 | .collision => 0x07 | .refused => 0x08 | .outOfService => 0x09 | .draftMismatch => 0x0A
  | .locked => 0x0B | .aliveRepeat => 0x0C | .aliveJump => 0x0D | .overload => 0x0E | .notReady => 0x0F | .portFault => 0x10

/-- The ten reset causes of R79. -/
inductive Cause where
  | por | vaoBor | wake | vinBor | pin | soft | wdog | therm | tap | clkfail
deriving DecidableEq, Repr

/-- The code of a reset cause (R79). -/
def Cause.code : Cause → Nat
  | .por => 0 | .vaoBor => 1 | .wake => 2 | .vinBor => 3 | .pin => 4 | .soft => 5 | .wdog => 6 | .therm => 7 | .tap => 8 | .clkfail => 9

/-- The targets of a WAIT frame (PWR_MODE.TARGET). -/
inductive Target where
  | active | idle | doze | dormant
deriving DecidableEq, Repr

/-- The code of a target. -/
def Target.code : Target → Nat
  | .active => 0 | .idle => 1 | .doze => 2 | .dormant => 3

/-- The target a code names. -/
def Target.ofCode (n : Nat) : Target :=
  match n % 4 with
  | 0 => .active | 1 => .idle | 2 => .doze | _ => .dormant

/-- Where the main die stands between power and sleep (R79 to R81, R95 to R108): held in reset; running; an entry in QUIESCE;
committed with the result word due; IDLE; powering down; DOZE; DORMANT. A reset that is triggered waits in State.resets (R80). -/
inductive Phase where
  | held
  | active
  | quiesce (t : Target)
  | committed (t : Target)
  | idle
  | poweringDown (t : Target)
  | doze
  | dormant
deriving DecidableEq, Repr

/-- What a live command is (R146), with its operands. -/
inductive CmdKind where
  | txcOut (n : Nat) | txcReturn (n : Nat) | portOut (p : Nat) | portReturn (p : Nat) | rxcOut (n : Nat) | rxcReturn (n : Nat)
  | run (entry : Nat) | find | clear | peerTx (dst len : Nat)
  | clearGuard | unlock | remap (c : Nat) | crumbOut (c : Nat) | crumbReturn (c : Nat)
  | pingCal | talReq (block : Nat) (arg : Word) | mempOut (dev : Nat) | mempReturn (dev : Nat)
  | mgmtOut (half : Nat) | mgmtReturn (half : Nat) | dump | decOut (d : Nat) | decReturn (d : Nat)
  | updLoad (chunk : Nat) | updVerify | updArm | updSwitchNow | updConfirm | updRevert | updAbandon
  | entry (e : Nat)
deriving DecidableEq, Repr

/-- A live command (R147): its number, the result register it shows in (none for a round started from the table), what it
is, and its decision cell (R285): undecided, COMMITTED (true) or ABORTING (false). -/
structure Cmd where
  seq  : Nat
  res  : Option Nat
  kind : CmdKind
  cell : Option Bool
deriving DecidableEq, Repr

/-- The host commands of the frame being performed (R150): how many, the first and the last number, the status of the last
if it completed at the instant of its acceptance, and the command whose acceptance is in progress. -/
structure FrameAcc where
  count : Nat
  first : Nat
  last  : Nat
  done  : Option Status
  cur   : Option Nat
deriving DecidableEq, Repr

/-- Why a frame waits in its response phase (R118, R77, R125, R98, R341). -/
inductive Hold where
  | clock | posted | crumb | fifo | wait
deriving DecidableEq, Repr

/-- The frame types with a response (R116). -/
inductive FrameKind where
  | rd (addr : Nat)
  | wr (addr : Nat) (data : List Word) (tail : TailBits)
  | stat | frd | fdrop
  | abort (seq : Nat)
  | wait | ident
deriving DecidableEq, Repr

/-- How far the present frame has come. -/
inductive FramePhase where
  | ignored
  | opcode
  | held (h : Hold)
  | response
  | data
  | trailer
deriving DecidableEq, Repr

/-- The token that opened the data phase: start 0x4E, empty 0xE5, or none yet (R115, R119). -/
inductive Token where
  | none | start | empty
deriving DecidableEq, Repr

/-- The frame in progress: its opcode, its kind, what the host clocks (as a `Reach` for a read, with the words still to come), its
phase, the words the module has sent, its token, the trailer sent, and whether an LRST is pending. -/
structure Frame where
  op      : Nat
  kind    : Option FrameKind
  reach   : Reach
  phase   : FramePhase
  token   : Token
  out     : List Word
  trailer : Option (BitVec 16)
  lrst    : Bool
deriving DecidableEq, Repr

/-- The host port beside its registers: the frame in progress, the pending trailer flags (bits 14 to 8 of R121 as bits 6 to
0), the posted writes of released frames not yet performed, and the last frame seen whole (what the host received). -/
structure HostPort where
  frame   : Option Frame
  flags   : Nat
  posted  : List (Nat × Word)
  last    : Option Frame
deriving DecidableEq, Repr

/-- A packet or record of the report FIFO: type, flags (bits 23 to 20), length L in bytes, and words 1 onwards (R302). -/
structure Rec where
  ty    : Nat
  flags : Nat
  len   : Nat
  words : List Word
deriving DecidableEq, Repr

/-- A complete packet: its words with the length word first, the time it was completed (R303, R314), and the age in ms that
FIFO_AGE_EXPIRY has reported it to have reached. -/
structure Packet where
  words : List Word
  at_   : Nat
  aged  : Nat
deriving DecidableEq, Repr

/-- The report FIFO beside its registers (R301 to R317): complete unread packets, the unread words of the packet whose
length word was consumed, the packet under construction, room set aside in bytes, the last word FRD sent, the three
pointers with their copies, the input queues, the turn of the warp queues and packets since PEER, TALLY, DIAG were served. -/
structure Fifo where
  packets  : List Packet
  head     : List Word
  building : Option Rec
  setAside : Nat
  /-- How many of the newest peer records that room is for (R307): what discards the room leaves the older ones without. -/
  asideFor : Nat
  lastWord : Word
  wptr : Nat
  wptr2 : Nat
  cptr : Nat
  cptr2 : Nat
  rptr : Nat
  rptr2 : Nat
  fault : List Rec
  warp  : List (List Rec)
  peer  : List Rec
  tally : List Rec
  diag  : List Rec
  turn  : Nat
  sincePeer  : Nat
  sinceTally : Nat
  sinceDiag  : Nat
deriving DecidableEq, Repr

/-- What a carrier that has lost lock does once it locks again (R155): the same as before, the change of its round, or the hop, that its
ramp-down was for. -/
inductive Relocked where
  | same
  | change
  | hop (ch : Nat)
deriving DecidableEq, Repr

/-- Why an illuminator ramps down, which is what happens when it has (R158): nothing; a hop to a channel; the round ends;
three relock attempts follow; a level or port change of its round. -/
inductive After where
  | off
  | hop (ch : Nat)
  | endRound
  | relock (tries : Nat) (next : Relocked)
  | change
deriving DecidableEq, Repr

/-- An illuminator beside its registers: ready or in calibration, what follows its ramp-down, its position in the hop order
(SPREAD), the channel index it is on, and carrier-on microseconds not yet counted in ON_TIME. -/
structure Txc where
  calibrating : Bool
  after   : After
  hopPos  : Nat
  chan    : Option Nat
  onUs    : Nat
  /-- The next ramp-up is suppressed: a ramp-down was requested during a hop (R159). -/
  cancelUp : Bool
  /-- The channel waits out its off-time (R164). -/
  waiting : Bool
  /-- The ramp-down in progress is a fast ramp (R158, R159). -/
  fast : Bool
  /-- When the carrier now on came up, in REF microseconds (R162). -/
  onAt : Option Nat
  /-- It has radiated on its channel since it tuned to it (R162). -/
  aired : Bool
  /-- The steering its synthesiser has taken, in Hz, for transmit and for the local oscillator (R248). -/
  steer : Int
deriving DecidableEq, Repr

/-- How a receive chain stands (R195 to R199): unpowered, in isolated calibration (`ret`: on a RETURN), calibration points
due, points done and joining at the next boundary, in service, standby spare, out. -/
inductive ChainSvc where
  | off | calibrating | points | joining | inService | standby | out
deriving DecidableEq, Repr

/-- A receive chain beside its registers: its service state, its clip count of the round (R181), its gain measured, and the
port it stands on. -/
structure Chain where
  svc  : ChainSvc
  /-- R181: for the rest of the round the gain is 6 dB lower. -/
  clipped : Bool
  /-- Leaves its beam at the next transaction boundary (R196). -/
  leaving : Bool
deriving DecidableEq, Repr

/-- A weft as the engine heard it (R238 to R243): its first tuft, the power at WP0 in 0.5 dBm, the header and payload bits decided, the SNR of
each tuft and that of the beam on SP2 in 0.25 dB, the clock deviation in ppm, and the channel estimates of the chains. -/
structure WeftRx where
  first   : Nat
  power   : Int
  header  : List Bool
  payload : List Bool
  snr     : List Nat
  beam    : Nat
  dev     : Int
  chans   : List (Nat × Cx)
deriving DecidableEq, Repr

/-- What a reception has brought (R182, R188, R203 to R205, R221, R244): whether a valid header was reached, the bits, the first bit marked as
a collision, the chains with their channel estimates, the SNR of the beam in 0.25 dB, the rate deviation, whether the training error was above
-10 dB, whether the slot was refused for its common offset, and its wefts. `ties` says for each weft (one for a frame without wefts) which of the
grid points with equal scores the position search takes (R191, log entry 45); the decoder gives it with the frame. -/
structure RxReport where
  header    : Bool
  bits      : List Bool
  collision : Option Nat
  chains    : List ChainRx
  chans     : List (Nat × Cx)
  snr       : Nat
  dev       : Int
  eqBad     : Bool
  refused   : Bool
  wefts     : List WeftRx
  /-- The time base at the end of the reply (R309). -/
  at_       : Nat
  ties      : List Nat
deriving DecidableEq, Repr

/-- A peer frame as PE decides it (R241, R247, R248): the REP code of its preamble's seed, its 48 header bits, body and CRC-24, the power in 0.5
dBm, the SNR of the 12 tufts in 0.25 dB and the combined offset in mHz. -/
structure PeerFrame where
  seedRep : Nat
  header  : List Bool
  payload : List Bool
  power   : Int
  snr     : List Nat
  offset  : Int
deriving DecidableEq, Repr

/-- The position search of R191 for one decoded reply: x1 in cm and Q. -/
structure PosOne where
  x1 : Int
  q  : Nat
deriving DecidableEq, Repr

/-- A reception in progress (R187): its reference level in 0.5 dBm, and LOOM_CTRL.CAPTURE as it stood at its lock. -/
structure Reception where
  pref   : Int
  margin : Nat
deriving DecidableEq, Repr

/-- A beam beside its registers (R183 to R190): the warp whose ports it listens on, its chains with their ports, whether
the reply window is open, captures in it, the correlators, the reception in progress, a reception that starts when the
present frame has completed, the frame in its decoder, what was heard in this window, and whether it locked. -/
structure Beam where
  warp     : Nat
  /-- Index of the geometry of the round that the beam belongs to (R183). -/
  geo      : Nat
  chains   : List (Nat × Nat)
  window   : Bool
  captures : Nat
  secOff   : Bool
  rec_     : Option Reception
  /-- The last reception that started (R187). -/
  last     : Reception
  /-- The frame is complete and a new primary lock has begun (R189). -/
  next     : Option Reception
  ending   : Bool
  decoding : Option RxReport
  heard    : Option RxReport
  locked   : Bool
  /-- The combined stream of SP0 to SP2 of the train under way, which sends them once (R260). -/
  sp       : List Cx
deriving DecidableEq, Repr

/-- One frame at the CRC and alive unit (R320, R321): the beam it came from, the report, and for a Umaolo slot which weft of the report it is. -/
structure CrcJob where
  beam : Nat
  rx   : RxReport
  weft : Option Nat
deriving DecidableEq, Repr

/-- A frame that the module sent on the air in the last step of a round's engine (R208, R222, R251). -/
inductive Air where
  | select (bank ptr : Nat) (mask : List Bool) (target action : Nat)
  /-- Q, Sel, Session and Target, with the DR, M and TRext of the round's profile (R208). -/
  | query (q sel session : Nat) (target : Bool) (dr : Bool) (m : Nat) (trext : Bool)
  | queryAdjust (session : Nat) (up : Bool)
  | queryRep (session : Nat)
  | ack (rn : Nat)
  | nak
  | reqRn (rn : Nat)
  | read (bank ptr count handle : Nat)
  | write (bank ptr : Nat) (data : Nat) (handle : Nat)
  | blockWrite (bank ptr : Nat) (data : List Nat) (handle : Nat)
  | lock (payload handle : Nat)
  | kill (half handle : Nat)
  | access (half handle : Nat)
  | raw (bits : List Bool) (handle : Bool) (crc : Bool)
  | scan (q : Nat)
  | next
  | ackU0 (token : Nat)
  | readU0 (block : Nat)
  | hush (token : Nat)
  | uquery (scope q hw tpw : Nat)
  | unext (q : Nat)
  | uassign (uid handle group first count : Nat) (link : Nat)
  | upoll (group k slotsym : Nat)
  | ulink (handle : Nat) (link : Nat)
  | uread (handle bank addr len : Nat) (link : Nat)
  | uwrite (handle bank addr : Nat) (data : List Byte) (link : Nat)
  | urelease (handle : Nat)
deriving DecidableEq, Repr

/-- One level of a split (R213): the intact prefix, its depth, the branch being tried and the Query commands sent in it. -/
structure Split where
  pref   : List Bool
  depth  : Nat
  branch : Bool
  tries  : Nat
deriving DecidableEq, Repr

/-- Where the legacy engine stands in a round (R211, R213, R216): awaiting a slot, an identity reply, or a step of an access. -/
inductive LegPhase where
  | slot
  | ident
  | accSlot | accIdent | accHandle | accCoverHi | accPwdHi | accCoverLo | accPwdLo
  | accCover | accHeld | accOp | accRaw | done
deriving DecidableEq, Repr

/-- The legacy singulation engine of a round: Q and Qfp in sixteenths, empty slots, the split stack, attempts of an access,
the handle, the latest RN16, the words confirmed, the data read, whether a Read was retried. -/
structure Leg where
  phase   : LegPhase
  qfp     : Nat
  q       : Nat
  empties : Nat
  split   : List Split
  tries   : Nat
  rn      : Nat
  handle  : Nat
  words   : Nat
  data    : List Word
  retried : Bool
  /-- A sighting was made from this identity reply (R212 step 1). -/
  sighted : Bool
  /-- The reply carrying a CRC-16 passed (R217). -/
  crcOk   : Option Bool
  /-- Seen-tag index of the tag, 0xFFF when not identified (R310). -/
  index   : Nat
  /-- The command in flight expects a delayed reply (R206). -/
  delayed : Bool
  /-- A command that waits for a guard hop (R207), and whether the hop has been made. -/
  held    : Option (Air × Bool)
  /-- How a raw frame sent before the Query ended (R209): its status, the reply bits it counts and the bits. -/
  early   : Option (Status × Nat × List Word)
  /-- The status and error code of a Read that its commit has fixed (R65, R217). -/
  kept    : Option (Status × Nat)
deriving DecidableEq, Repr

/-- How a weft of the slot ended (R246). -/
inductive WeftOut where
  | empty | collided | crcFail | timeout | decoded
deriving DecidableEq, Repr

/-- A weft's result in the present slot: first tuft, tuft count, outcome, and for a decoded one the reply type, body, SNRs,
deviation, LOAD_ID and alive class (0 Advance, 1 ALIVE_REPEAT, 2 ALIVE_JUMP). -/
structure WeftRes where
  first : Nat
  count : Nat
  out   : WeftOut
  ty    : Nat
  body  : List Byte
  snr   : List Nat
  dev   : Int
  load  : Nat
  cls   : Nat
  /-- Seen-tag index, 0xFFF when none. -/
  index : Nat
deriving DecidableEq, Repr

/-- Where the Umaolo engine stands: an inventory slot, a slot of a poll train, a locating slot of an access (R267), a read
attempt, the WR_WAIT after a UWRITE, or ended. -/
inductive UmaPhase where
  | inv | poll | locate | read | wrWait | done
deriving DecidableEq, Repr

/-- The Umaolo engine of a round (R257, R260, R267): Qfp in sixteenths, Q, quiet slots, the group polled and those left,
slot of the train, SLOTSYM, the wefts' results, attempts, the target's index and the data read. -/
structure Uma where
  phase   : UmaPhase
  qfp     : Nat
  q       : Nat
  quiet   : Nat
  group   : Nat
  groups  : List Nat
  slot    : Nat
  slotsym : Nat
  res     : List WeftRes
  tries   : Nat
  index   : Nat
  data    : List Byte
  /-- Frames that wait for the end of the train (R254, R265). -/
  out     : List Air
  /-- How the target's weft ended in the last slot of an access. -/
  last    : Option WeftOut
  /-- The status and error code of a Read that its commit has fixed (R65, R267). -/
  kept    : Option (Status × Nat)
deriving DecidableEq, Repr

/-- What a round is (R278, R281, R270, R353). -/
inductive RoundKind where
  | inventory | access | poll | ping | cal | peerWin | peerRx | pingCal
deriving DecidableEq, Repr

/-- Where a round's carrier stands: before its first ramp-up has ended, running, or ending with its last ramp-down. -/
inductive RoundPhase where
  | starting | running | ending
deriving DecidableEq, Repr

/-- A round in flight. -/
structure Round where
  kind    : RoundKind
  seq     : Nat
  entry   : Nat
  words   : List Word
  warp    : Nat
  warps   : List Nat
  txc     : Option Nat
  port    : Nat
  /-- Indices of the geometries of the round, the one in use first (R151, R183). -/
  geos    : List Nat
  /-- Its channel at the start, in kHz (R291). -/
  chan    : Nat
  start   : Nat
  /-- The same instant, and the start of its first ramp-up (R311; none before it), by `State.up`. -/
  began   : Nat
  upAt    : Option Nat
  phase   : RoundPhase
  /-- No new transaction begins (R282). -/
  noNew   : Bool
  /-- The command's result is reported by this round's ROUND_END. -/
  status  : Option Status
  /-- A disable is draining (R288). -/
  draining : Bool
  /-- A transaction is in flight, and whether it has passed its commit point (R284). -/
  txn     : Option Bool
  /-- Time of the commit point of its access operation (R217, R267, R310). -/
  commitAt : Option Nat
  trans   : Nat
  reported : Nat
  coalesced : Nat
  dropped : Nat
  skipped : Bool
  fifoReset : Bool
  beams   : List Nat
  /-- Decoders reserved, by their index of R419. -/
  decs    : List Nat
  leg     : Option Leg
  uma     : Option Uma
  sent    : List Air
  /-- Calibration points left: geometry and channel group, and whether the point has failed once (R167). -/
  points  : List (Nat × Nat)
  failed  : Bool
  /-- How the point under way came out, until its ramp-down has ended (R167). -/
  verdict : Option Bool
  /-- The points it began with (R409). -/
  owed    : List (Nat × Nat)
  /-- Ports of a ping round left to measure (R353, R354). -/
  ports   : List Nat
  /-- The write data copied at round start (R278). -/
  accData : List Word
  /-- The raw frame taken at round start, LEG_RAW0 to LEG_RAW7 and LEG_RAW_CTRL (R209). -/
  raw     : List Word
  /-- The link profile as it was at round start (R200): LEG_LINKk_A and B, or UMA_LINKk. -/
  link    : List Word
  /-- A hop epoch has passed since the last transaction boundary, and the entry hops at those (R275, R278). -/
  hopDue  : Bool
deriving DecidableEq, Repr

/-- A candidate round waiting for its resources (R281). -/
structure Cand where
  kind  : RoundKind
  seq   : Nat
  entry : Nat
  warp  : Nat
  /-- Due from the table (true) or run by the host. -/
  due   : Bool
  points : List (Nat × Nat)
deriving DecidableEq, Repr

/-- A seen-tag entry (R292) and what the model keeps beside its 32 bytes: whether an alive counter has been taken on chip,
and the first one (R326, R297). `id` holds identity bits 95:0, of which Umaolo and U0 use 63:0. -/
structure Seen where
  id      : Nat
  handle  : Nat
  group   : Nat
  wfirst  : Nat
  wcount  : Nat
  last    : Nat
  first   : Nat
  count   : Nat
  alive   : Nat
  pos     : Word
  best    : Nat
  miss    : Nat
  proto   : Nat
  longId  : Bool
  aliveLate : Bool
  coal    : Bool
  lost    : Bool
  assigned : Bool
  noHist  : Bool
  refTag  : Bool
  tally   : Bool
  valid   : Bool
  aliveTaken : Bool
  firstAlive : Nat
deriving DecidableEq, Repr

/-- A loading issued to a Umaolo tag (R234): LOAD_ID, REP code and two bits per tuft. -/
structure Loading where
  lid : Nat
  rep : Nat
  map : List Nat
deriving DecidableEq, Repr

/-- What the engine keeps for an identified Umaolo tag (R245, R264, R265): the two kept loadings, the next LOAD_ID, the
pending loading and since when, the TRIM of the next LINK, whether the tag has replied under the latest, good replies in a
weak group, class B, the most tufts it drives. -/
structure UmTag where
  index   : Nat
  latest  : Option Loading
  older   : Option Loading
  nextId  : Nat
  pend    : Option Loading
  pendAt  : Nat
  trim    : Int
  confirmed : Bool
  good    : Nat
  classB  : Bool
  tufts   : Nat
  /-- The s of each tuft of its last reply (R231, R259), in 0.25 dB. -/
  meas    : List (Nat × Int)
  /-- The engine that decoded its last reply (R250). -/
  eng     : Nat
  /-- Its last reply came under the older loading kept: the latest LINK is repeated (R266). -/
  again   : Bool
deriving DecidableEq, Repr

/-- A released weft in quarantine (R265): its group, tufts, old handle, and empty polls so far. -/
structure Quar where
  group  : Nat
  first  : Nat
  count  : Nat
  handle : Nat
  empties : Nat
  /-- It showed a reply in the train under way. -/
  shown  : Bool
deriving DecidableEq, Repr

/-- A neighbour heard in peer mode (R272 to R275). -/
structure Neighbour where
  addr    : Nat
  stratum : Nat
  colour  : Nat
  power   : Int
  /-- Whole beacon intervals since it was last heard (R273). -/
  missed  : Nat
  /-- It has been heard in the present beacon interval. -/
  now     : Bool
deriving DecidableEq, Repr

/-- A frame the peer engine has to send, or sent last (R271). -/
structure PeerTx where
  ty   : Nat
  rep  : Nat
  map  : List Nat
  body : List Byte
deriving DecidableEq, Repr

/-- The host DATA frame in delivery (R272): command number, destination, payload, windows tried, waiting for its ACK. -/
structure PeerJob where
  seq  : Nat
  dst  : Nat
  data : List Byte
  num  : Nat
  tries : Nat
  waiting : Bool
deriving DecidableEq, Repr

/-- An image offered by a peer (R276, R443). -/
structure Offer where
  src    : Nat
  image  : Word
  chunks : Nat
  bake   : Word
deriving DecidableEq, Repr

/-- What the last ACK of a destination said (R272): the SNR of the 12 tufts in 0.25 dB, when it came in us, and the loading of the frame it
acknowledged. -/
structure PeerSnr where
  dst : Nat
  snr : List Nat
  at_ : Nat
  rep : Nat
  map : List Nat
deriving DecidableEq, Repr

/-- The peer engine beside its registers. -/
structure Peer where
  neighbours : List Neighbour
  /-- Last SEQ from each of 32 sources (R272). -/
  dups    : List (Nat × Nat)
  snrs    : List PeerSnr
  job     : Option PeerJob
  nextSeq : Nat
  sent    : List PeerTx
  /-- The slot of the window in progress, 0 to 15. -/
  slot    : Option Nat
  windows : Nat
  offer   : Option Offer
  /-- Chunks of the offered image held (R276). -/
  held    : List Nat
  /-- Chunks another module asked for (R276). -/
  asked   : List Nat
  /-- Offset to be slewed into the time base, in us (R274). -/
  slew    : Int
  /-- Microseconds since the slew last moved the time base. -/
  slewUs  : Nat
  /-- The total steering in Hz (R248), which each synthesiser takes while its illuminator is ramped down. -/
  steer   : Int
deriving DecidableEq, Repr

end Sys2Proof.Machine
end

