-- ==== Sys2Proof/Machine/TypesTag.lean ====
section
/-! DEFINITION. The plain data of the tag function, the ping engine and the tally die. -/
namespace Sys2Proof.Machine

/-- The states of an ISO/IEC 18000-63 tag that the tag function can be in (R332; Killed is never reached). -/
inductive TagState where
  | ready | arbitrate | reply | acknowledged | open_ | secured
deriving DecidableEq, Repr

/-- What the tag function last sent on the air (R332, R336). -/
inductive TagReply where
  | none
  | rn16 (rn : Nat)
  | identity (words : List Word)
  | truncated (bits : List Bool)
  | handle (h : Nat)
  | data (words : List Nat) (h : Nat)
  | success (h : Nat)
  | error (code : Nat) (h : Nat)
deriving DecidableEq, Repr

/-- A field session (R329): its front end, the tag state, slot counter, Q, session, the latest RN16 and handle; where in the EPC bank
the truncated reply of the latest Select begins, whether the latest Query asked for SL, and the RN16 that covers the next command. -/
structure Session where
  fe      : FrontEnd
  state   : TagState
  slot    : Nat
  q       : Nat
  session : Nat
  rn      : Nat
  handle  : Nat
  trunc   : Option Nat
  bySl    : Bool
  cover   : Option Nat
deriving DecidableEq, Repr

/-- Who asked for a crumb (R337 to R340): a field command with the handle its reply carries, a wire frame that writes, one that reads and
waits for its turn, the rewrite after a corrected read, or a command of R346. -/
inductive CrumbFor where
  | field (h : Nat)
  | wire
  | read
  | ecc
  | cmd (seq : Nat)
deriving DecidableEq, Repr

/-- A crumb write (R337): the crumb, the bytes of it that change, who asked, whether a verify has failed once, and whether its
reply is still to be sent (R330). -/
structure CrumbJob where
  crumb : Nat
  patch : List (Nat × Byte)
  who   : CrumbFor
  failed : Bool
  reply : Bool
deriving DecidableEq, Repr

/-- The tag function (R328 to R346): the store by wire address (only bytes that differ from the factory content of R335), the
crumb on each spare, spare locations retired, writes of each physical location (0 to 127 the crumbs' own, 128 to 135 the
spares), crumbs that left their own location, out-of-service crumbs by reason (true: WORN), crumbs that read uncorrectable,
the write in progress, writes waiting, the guard record (failure counts, lock, lockout, locks, field write record), the guard
write in progress and what it was for, the first Access half, the session, the flags S0 to S3 and SL, and the last reply. Whether a
field is known at COMM: a command has come from there and no FIELD_LOSS since. -/
structure TagFn where
  bytes   : List (Nat × Byte)
  spares  : List (Option Nat)
  retired : List Nat
  wear    : List (Nat × Nat)
  oos     : List (Nat × Bool)
  bad     : List Nat
  /-- Crumbs whose latest read was corrected, to be rewritten when no command owns them (R338). -/
  fix     : List Nat
  job     : Option CrumbJob
  queue   : List CrumbJob
  consec  : Nat
  cum     : Nat
  locked  : Bool
  /-- A lockout that runs: its length in s and the us left of it (R344). -/
  lockout : Option (Nat × Nat)
  locks   : Nat
  fieldCount : Nat
  fieldCrumb : Nat
  guardBusy  : Bool
  half    : Option Nat
  session : Option Session
  flags   : List Bool
  sl      : Bool
  field   : Bool
  reply   : TagReply
  /-- Sticky bits of TAG_STAT: 4 EARLY, 3 WR_RO, 2 WR_OOS, 1 ECC_FAIL. -/
  sticky  : Nat
  /-- A wire access came before SYS_READY.TAGF (R334). -/
  early   : Bool
  /-- Loaded into the TAG bank (R344): SYS_READY.TAGF has set since the last reset. -/
  loaded  : Bool
deriving DecidableEq, Repr

/-- One port of the ping engine (R350): VALID, baseline, state (0 CLEAR, 1 PRESENCE, 2 NEAR), confirmation and hold counts, and
the last measurement with its D. -/
structure PingPort where
  valid : Bool
  bi    : Int
  bq    : Int
  state : Nat
  pend  : Nat
  hold  : Nat
  mi    : Int
  mq    : Int
  md    : Nat
deriving DecidableEq, Repr

/-- A calibration in progress (R358): command number, sweeps left, and per port the sums of I and Q and their count. -/
structure PingCal where
  seq   : Nat
  left  : Nat
  ports : List Nat
  sums  : List (Nat × (Int × Int × Nat))
deriving DecidableEq, Repr

/-- The ping engine beside its registers: the 64 ports, the sweep in progress under the AO timer, a calibration, the flash copy
of the baselines, whether they changed since it was saved, the wake report to come (R357), PING_THR as it was when the sweep in
progress began (R352), and whether a full reset has cleared the baselines and they have not been restored since (R359). -/
structure Ping where
  ports   : List (Nat × PingPort)
  sweep   : Option (List Nat)
  cal     : Option PingCal
  flash   : Option (List (Nat × PingPort))
  changed : Bool
  wake    : Option (Nat × List Word)
  thr     : Word
  lost    : Bool
deriving DecidableEq, Repr

/-- A sighting item waiting in the tally feed queue (R33, R366). -/
structure FeedItem where
  family : Nat
  zone   : Nat
  qual   : Nat
  rssi   : Nat
  id     : Nat
deriving DecidableEq, Repr

/-- A frame on the publish link (R377): its sequence number, the block it carries by BLOCK code with its ARG, the note it
makes (1 RECORD, 2 HEALTH, 3 SEAL), and its words. -/
structure PubFrame where
  seq   : Nat
  block : Option (Nat × Nat)
  note  : Option Nat
  words : List Word
  /-- Words of the note (R380). -/
  nwords : List Word
deriving DecidableEq, Repr

/-- The main die's side of the tally die (R33, R377 to R381): feed queue, window-request queue, items dropped since the last
sent, when each identity was last queued (us), the last publish sequence number, the item on
the feed link, and frames lost since the last note. -/
structure TalMain where
  queue   : List FeedItem
  reqs    : List (Nat × Word)
  dropped : Nat
  lastQ   : List ((Nat × Nat) × Nat)
  lastSeq : Option Nat
  wire    : Option (List Byte)
  gap     : Bool
deriving DecidableEq, Repr

/-- STATE of an open-dwell entry (R379). -/
inductive DwellState where
  | cand | open_
deriving DecidableEq, Repr

/-- An entry of the open-dwell table (R370) at its index. -/
structure Dwell where
  idx    : Nat
  family : Nat
  id     : Nat
  state  : DwellState
  zone   : Nat
  entry  : Nat
  last   : Nat
  silFrom : Nat
  count  : Nat
  flags  : Nat
  czone  : Nat
  cfirst : Nat
  ccount : Nat
deriving DecidableEq, Repr

/-- A seal-log entry (R379). -/
structure SealEntry where
  audit  : Nat
  result : Nat
  reason : Nat
  tt     : Nat
  ty     : Nat
  seq    : Nat
  params : Word
deriving DecidableEq, Repr

/-- The tally die (R361 to R387): whether it runs, TT in 0.1 s and its saved copy, TT_BREAKS, the legal parameters, firmware
facts, the open-dwell table, the log by RECNO, NEXT_RECNO, the chain head, the seal log (newest first), TAL_AUDIT, HEALTH
bits, counters, the stamp of the last well-formed item, the gap's origin, seal mode and its image, the crystal, the next
publish sequence number, the frames to publish, those on the link, an attestation being signed, the compensation applied in cycles, and the
restart on an accepted image (R386) in progress. -/
structure TalDie where
  running : Bool
  xtal    : Bool
  tt      : Nat
  saved   : Nat
  breaks  : Nat
  params  : TalParams
  fwVer   : Word
  fwSeq   : Nat
  parSeq  : Nat
  dwells  : List Dwell
  log     : List (Nat × List Word)
  next    : Nat
  chain   : List Byte
  sealLog : List SealEntry
  audit   : Nat
  health  : Nat
  feedOk  : Nat
  feedBad : Nat
  sumDrop : Nat
  odFull  : Nat
  lastItem : Nat
  gap     : Option Nat
  sealMode : Bool
  image   : Option TallyImage
  pubSeq  : Nat
  pub     : List PubFrame
  air     : List PubFrame
  attest  : Bool
  comp    : Int
  restart : Bool
deriving DecidableEq, Repr

end Sys2Proof.Machine
end

