-- ==== Sys2Proof/Machine/TypesSvc.lean ====
section
/-! DEFINITION. The plain data of the service side of State: memory port, management halves, update path, board. -/
namespace Sys2Proof.Machine

/-- STATE of the update path (UPD_STAT). -/
inductive UpdState where
  | idle | loading | verified | armed | switching | trial
deriving DecidableEq, Repr

/-- The code of UPD_STAT.STATE. -/
def UpdState.code : UpdState → Nat
  | .idle => 0 | .loading => 1 | .verified => 2 | .armed => 3 | .switching => 4 | .trial => 5

/-- The update record of R440, as it lies in flash. -/
structure UpdRecord where
  state  : UpdState
  slot   : Bool
  trial  : Bool
  bake   : Word
  live   : Bool
  floor  : Nat
  resets : Nat
deriving DecidableEq, Repr

/-- What a queue entry of the memory port is for; its requester builds it (R28, R392). The population and update entries carry
what they do when they end. -/
inductive MemJob where
  | xip (half : Bool) (off : Nat)
  /-- The bucket fetch of an entry (R296), and whether it is its last part. -/
  | popFetch (index : Nat) (last : Bool)
  /-- The write-back of the evicted entry with this key (R294, R296), and whether it is its last part. -/
  | popWrite (family id : Nat) (last : Bool)
  | proof (slot : Nat)
  | log (count : Nat)
  /-- The erase of the oldest sector of the event log (R416). -/
  | logErase
  | stage (seq chunk : Nat)
  /-- A page of a resilver (R401), at its flash address. -/
  | copy (off : Nat)
  /-- A page or sector of a task, by its number. -/
  | task (id : Nat)
  /-- The read-back of the page that was programmed last (R400). -/
  | check
deriving DecidableEq, Repr

/-- An entry of the memory port queue (R392). -/
structure MemEntry where
  /-- false: MCS0_N, true: MCS1_N. -/
  dev   : Bool
  cmd   : Byte
  addr  : Nat
  /-- Bytes of the address phase. -/
  addrBytes : Nat
  dummy : Nat
  len   : Nat
  /-- Lane codes of the command, address and data phases (R391). -/
  cmdLanes  : Nat
  addrLanes : Nat
  lanes : Nat
  dtr   : Bool
  write : Bool
  held  : Bool
  cont  : Bool
  level : Nat
  buf   : Nat
  /-- The entry starts a program or erase that goes on inside the device (R397). -/
  prog  : Bool
  job   : MemJob
deriving DecidableEq, Repr

/-- A part of the flash that is written or erased page by page at the lowest level (R28): what stands there. A store, and the update record, keep what
they held before, for a write that never ends. -/
inductive TaskKind where
  /-- The FIRMWARE part goes to the slot not in use (R429). -/
  | firmware
  /-- The settings in the region of the other format (R429, R431). -/
  | newSettings
  /-- A DRAFT part goes to its slot (R438). -/
  | draft (slot : Nat)
  /-- Staging is erased (R438, R442). -/
  | eraseStaging
  /-- A settings region is erased (R431). -/
  | eraseSettings
  | settings (old : List (Nat × Word))
  | seeds (old : List (Nat × Nat × Nat))
  | offsets (old : Option (Word × List (Nat × Word)))
  | baselines (old : Option (List (Nat × PingPort)))
  /-- A copy of the update record (R440): true for the second one. -/
  | record (second : Bool) (old : Option (Nat × UpdRecord))
deriving DecidableEq, Repr

/-- A task on the flash: its number, the address it has reached, its end, whether the sector there has been erased, whether it only erases, and whether
a write of it has begun. -/
structure FlashTask where
  id     : Nat
  kind   : TaskKind
  pos    : Nat
  stop   : Nat
  erased : Bool
  only   : Bool
  begun  : Bool
deriving DecidableEq, Repr

/-- The memory port beside its registers (R391 to R403): its queue (at most 32), the entry in progress, the program or erase
running inside a device and whether it is suspended, RGAP running, entries served since each level was, times of the last
failure of each device, the flash address that a resilver has reached (R401), the port's own entries (read-backs and the second write of a
mirrored one, R400), the page whose read-back is due, the tasks on the flash, fetches of the population store whose bucket has arrived, chains
that wait for room in the queue, the line last delivered to a half (its half, window offset, and whether it is all ones), and the timing step in
use on each select (R390). -/
structure Memp where
  queue     : List MemEntry
  cur       : Option MemEntry
  prog      : Option MemEntry
  suspended : Bool
  suspending : Bool
  rgap      : Bool
  since     : List Nat
  fail0     : Option Nat
  fail1     : Option Nat
  frozen    : Bool
  copied    : Nat
  owed      : List MemEntry
  checking  : Option MemEntry
  tasks     : List FlashTask
  arrived   : List Nat
  waiting   : List (List MemEntry)
  line      : Option (Bool × Nat × Bool)
  point0    : Nat
  point1    : Nat
deriving DecidableEq, Repr

/-- A device fitted on a select, as discovery finds it (R388 to R390): what its SFDP declares, and what the timing sweep reads. -/
structure MemDevice where
  sfdp     : Bool
  /-- log2 of the density in bytes. -/
  density  : Nat
  fourByte : Bool
  erase4k  : Bool
  suspend  : Bool
  /-- The read modes declared: LANES code, and DTR. -/
  modes    : List (Nat × Bool)
  /-- For each FREQ code, which of the 16 steps return identical data in all their reads (R390). -/
  eye      : List (List Bool)
  tsus     : Nat
  rgap     : Nat
  /-- PSRAM: answers in octal DTR within R388, with its latency and maximum select-low time. -/
  psram    : Bool
  latency  : Nat
  tcem     : Nat
deriving DecidableEq, Repr

/-- What the module is built into: variant (true: -T), serial number, the devices on MCS0_N and MCS1_N, one-time facts of
the firmware slots (R1, R128, R388). -/
structure Board where
  tally  : Bool
  serial : Nat
  dev0   : Option MemDevice
  dev1   : Option MemDevice
deriving DecidableEq, Repr

/-- The supplies and lands the module samples (R41, R42, R51 to R53, R61). -/
structure Lands where
  vin   : Bool
  vao   : Bool
  vio   : Bool
  /-- 3.3 V mode (R52). -/
  vio33 : Bool
  vtal  : Bool
  rstN  : Bool
  /-- Microseconds that WAKE_N has been low without a break, up to 10; none while it is high (R105). -/
  wakeLow : Option Nat
  prof  : Nat
  sealN : Bool
deriving DecidableEq, Repr

/-- The instruction of the test access port (R44). -/
inductive TapInstr where
  | reset | bypass | idcode | sample | extest
deriving DecidableEq, Repr

/-- An entry of the event log (R414). -/
structure LogEntry where
  seq    : Nat
  aoTime : Word
  sev    : Nat
  source : Nat
  code   : Nat
  resets : Nat
  detail : Word
deriving DecidableEq, Repr

/-- The management subsystem beside its registers (R405 to R419): the running half if one runs, the on-chip ring (newest
first), the entries persisted (newest first) and how many of the ring are not, the checkpoint age base, a takeover or
handover in progress, core resets since manufacture, the persistent SEQ, the next DIAG carries TAKEOVER, firmware versions
of the two slots (version, sequence, floor), and the standby's last checkpoint time. -/
structure Mgmt where
  running  : Option Bool
  log      : List LogEntry
  flashLog : List LogEntry
  unsaved  : Nat
  resets   : Nat
  nextSeq  : Nat
  takeover : Option Bool
  handover : Option Bool
  /-- The running half has written the checkpoint of a handover in progress (R410, R421). -/
  handCkpt : Bool
  takeoverDiag : Bool
  /-- Entries lost under R416 that no MGMT entry has recorded yet. -/
  lostNoted : Nat
  /-- Time of the checkpoint last written, in REF microseconds. -/
  ckptAt   : Nat
  /-- A checkpoint has been written since the half that stands by came to SYNCING (R406). -/
  fresh    : Bool
  /-- Decoders reserved by rounds, by their index of R419. -/
  decBusy  : List Nat
  /-- Exports of the event log under way (R417): the command and the entries that have not been queued yet, oldest first. -/
  dumps    : List (Nat × List LogEntry)
deriving DecidableEq, Repr

/-- A firmware slot (R398, R426): version, release sequence, checkpoint layout version. -/
structure FwSlot where
  ver  : Word
  seq  : Nat
  ckpt : Nat
  valid : Bool
deriving DecidableEq, Repr

/-- A Cerrex image as VERIFY read it from staging (R426): its bytes, and what it found beside them. -/
structure CerrexImage where
  bytes : List Byte
  facts : ImageFacts
deriving DecidableEq, Repr

/-- Where the fallback path stands (R437): not taken, waiting for the loaded half to be HOT, handing over, or passing the warps'
round boundaries. -/
inductive FallbackPhase where
  | none | waitHot | handover | boundaries
deriving DecidableEq, Repr

/-- The update path beside its registers (R425 to R443): flash slots PROF0 to PROF3 and FACTORY, the blocks staged, the
image they spell once verified, the two copies of the update record with their generations and validity, the firmware
slots A and B, whether the new-format settings region is written, the settings records and the canceller seeds as flash holds them (R431, R398),
an image that has passed and whose firmware and settings are being written (R429), the slot of the live draft, whether the proof in progress reads
staging, the draft that is live, the slot of a proof in progress, the switch under way, and warps still to pass a boundary on the
fallback path. -/
structure Upd where
  slots   : List (Option DraftImage)
  blocks  : List (Nat × List Word)
  image   : Option CerrexImage
  recA    : Option (Nat × UpdRecord)
  recB    : Option (Nat × UpdRecord)
  fw      : List FwSlot
  newSettings : Bool
  settings : List (Nat × Word)
  seeds   : List (Nat × Nat × Nat)
  copying : Option CerrexImage
  liveSlot : Nat
  fromStaging : Bool
  live    : Option Draft
  proof   : Option Nat
  /-- A scheduled or immediate switch waits for the rounds in flight (R435). -/
  switching : Bool
  reverting : Bool
  fallback : FallbackPhase
  boundary : List Nat
  /-- VERIFY or CONFIRM in progress. -/
  busy    : Bool
  /-- IMAGE_ID of the image in use, once one has been confirmed (R443). -/
  used    : Option Word
  /-- Warps whose first Umaolo inventory uses SCOPE 1 (R436). -/
  scope1  : List Nat
deriving DecidableEq, Repr

end Sys2Proof.Machine
end

