-- ==== Sys2Proof/Machine/State.lean ====
section
/-! DEFINITION. The state of the module as plain data, the reasons a command can stop, and the state after a full reset. -/
namespace Sys2Proof.Machine

/-- Why a command stops with a fault. -/
inductive Fault where
  /-- Raised by VIO_POWER_ON when the stress exceeds the absolute maximum of R48: the spec gives no behaviour there, only
  that damage may result. Safe: the model stops where the hardware may go on in any way. -/
  | absoluteMaximum
deriving DecidableEq, Repr

/-- Why a command is refused. -/
inductive Refusal where
  /-- Raised by an arm of exec that has no meaning yet, with the row's mnemonic. Safe: the model stops. -/
  | notModelled (mnemonic : String)
deriving DecidableEq, Repr

/-- The whole module. -/
structure State where
  /-- Where the main die stands (R79 to R81, R95 to R108). -/
  phase    : Phase
  /-- Core resets and full resets triggered and not yet taken, the earliest first (R80, R81). -/
  resets   : List Cause
  /-- The reset in force has cause THERM: its release waits for the main-die sites (R81). -/
  thermHold : Bool
  /-- The model's own: argument of the free values of Config (log entry 1). No rule rests on its value. -/
  freeCtr  : Nat
  /-- The module time base in microseconds (01_architecture.md, R96, R274). -/
  timeBase : BitVec 64
  /-- Microseconds that REF has counted since the last reset: the time base without the steps and slews of R274. -/
  up       : Nat
  /-- Microseconds of AO time not yet counted in PWR_AO_TIME. -/
  aoFrac   : Nat
  /-- Variant, serial number and fitted devices (R1, R128, R388). -/
  board    : Board
  /-- Supplies and lands (R41, R42, R51 to R53). -/
  lands    : Lands
  /-- The boundary-scan register (R44): one bit for each land of `Land.all`. -/
  bscan    : BitVec 27
  /-- The TAP instruction (R44, R45). -/
  tap      : TapInstr
  /-- Every host register word and every schedule-table and record-window word, by host byte address; unlisted words are 0. -/
  regs     : List (Nat × Word)
  /-- The latch of each multi-word value, by word address (R138). -/
  latches  : List (Nat × Word)
  /-- The staging buffer of each multi-word value, by word address (R139). -/
  staging  : List (Nat × Option Word)
  /-- Frames of the host port (R112 to R126). -/
  hp       : HostPort
  /-- Live commands, oldest first (R146 to R148, R285). -/
  cmds     : List Cmd
  /-- Next COUNT of host commands and whether the counter has wrapped since reset (R147). -/
  hostNext : Nat
  hostWrap : Bool
  /-- The same for the scheduler. -/
  schedNext : Nat
  schedWrap : Bool
  /-- Numbers of commands that ended with the decision ABORTING (R286). -/
  abortedEnded : List Nat
  /-- Host commands of the frame being performed (R150). -/
  acc      : FrameAcc
  /-- The report FIFO (R301 to R317). -/
  fifo     : Fifo
  /-- The four illuminators (R155 to R177). -/
  txc      : List Txc
  /-- The sixteen chains (R178 to R199). -/
  chains   : List Chain
  /-- The sixteen beams, when they belong to a round (R183 to R190). -/
  beams    : List (Option Beam)
  /-- Released frames waiting for the CRC and alive unit (R320). -/
  crcQ     : List CrcJob
  /-- Position offsets phi of 64 ports by 8 channel groups (R193). -/
  phi      : List (Nat × Word)
  /-- Time of the last reference update of each port, in us plus one; 0 none since reset (R193). -/
  refAt    : List (Nat × Nat)
  /-- The flash copy of the offsets with the draft they belong to (R193). -/
  phiFlash : Option (Word × List (Nat × Word))
  /-- Calibrated points as (warp, geometry, channel group) (R167). -/
  seeds    : List (Nat × Nat × Nat)
  /-- The seed of each chain for a point (R167), laid out as RXCn_CANC_TAPk: by 8 times (32 times (4 times chain plus warp) plus geometry) plus
  channel group. -/
  seedWt   : List (Nat × Word)
  /-- Points marked unusable (R167). -/
  unusable : List (Nat × Nat × Nat)
  /-- The weight each chain held at the end of its last reply in a geometry (R185), by 128 times chain plus 32 times warp plus
  geometry. -/
  wts      : List (Nat × Cx)
  /-- Time of the last divergence counted for a point (R169), in us plus one, by 256 times warp plus 8 times geometry plus group. -/
  divAt    : List (Nat × Nat)
  /-- The channel group that the next CAL_PERIOD recalibrates (R169). -/
  calNext  : Nat
  /-- Channels in their off-time (R162, R164). -/
  chanOff  : List Nat
  /-- Carrier time that is over (R162): the channel, its start and its end in REF microseconds. -/
  airLog   : List (Nat × Nat × Nat)
  /-- Position in the hop order under COCHANNEL (R163). -/
  hopPos   : Nat
  /-- Rounds in flight (R281 to R291). -/
  rounds   : List Round
  /-- The millisecond of the last due instant of each schedule entry, plus one; 0 none (R280). -/
  dueAt    : List (Nat × Nat)
  /-- Candidate rounds (R281). -/
  cands    : List Cand
  /-- Shedding level L (R299). -/
  shed     : Nat
  /-- Coalescing is active (R298). -/
  coal     : Bool
  /-- Seen-tag entries by index; an unlisted index is free (R292). -/
  seen     : List (Nat × Option Seen)
  /-- Write-back buffer of evicted entries (R294). -/
  seenWb   : List Seen
  /-- Population store by place: 8 times bucket plus entry (R296, R399). -/
  pop      : List (Nat × Option Seen)
  /-- Indices whose population fetch is pending, oldest first (R296). -/
  fetches  : List Nat
  /-- What the engines keep for assigned Umaolo tags (R245, R264, R265). -/
  umTags   : List UmTag
  /-- UMA_DIAG_SNR0 to UMA_DIAG_CLK of the last weft each engine decoded. -/
  umDiag   : List (List Word)
  /-- Quarantined wefts (R265). -/
  quar     : List Quar
  /-- The peer engine (R269 to R276). -/
  peer     : Peer
  /-- The host CRC computation: the preset words taken at START and the register (R323, R324). -/
  crcHost  : Option (List Word × Nat)
  /-- The tag function (R328 to R346). -/
  tag      : TagFn
  /-- The ping engine (R347 to R360). -/
  ping     : Ping
  /-- The tally feed, publish link and requests (R33, R366 to R381). -/
  tal      : TalMain
  /-- The tally die (R361 to R387); on -N it never runs. -/
  die      : TalDie
  /-- The memory port (R388 to R403). -/
  memp     : Memp
  /-- The management subsystem (R405 to R419). -/
  mgmt     : Mgmt
  /-- Drafts and updates (R422 to R444). -/
  upd      : Upd
  /-- Wake events latched after COMMIT, as bits of PWR_WAKE_EN in order of arrival (R107). -/
  wakes    : List Nat
  /-- The state that the last wake ended and the AO cycle of that wake (R107). -/
  wakeAt   : Option (Target × Nat)
  /-- Sensors above the warning threshold: 0 to 3 die sites, 4 to 7 PAs (R64). -/
  hot      : List Nat
  /-- Sensors above their threshold of 135 degrees less hysteresis after crossing it (R64). -/
  hotOut   : List Nat
  /-- Sensors that a bring-up read at 125 degrees or more and that have not fallen below it since (R64). -/
  hotRead  : List Nat
  /-- Bring-up has been reported complete since the last reset (R91). -/
  broughtUp : Bool
  /-- What the last frame or pin answered: the TAP data register (IDCODE) (R44). -/
  tdo      : Word
  /-- Commands waiting, first in first out: the model's own queue. -/
  pending  : List Instr
deriving DecidableEq, Repr

/-- The Reset column of every register, as the sparse map holds it (R12); on -T SYS_EXPECT has its TAL bit (R91). -/
def resetRegs (tally : Bool) : List (Nat × Word) :=
  let m := (regTable.filter (fun r => r.reset != 0)).foldl
    (fun m r => r.addrs.foldl (fun m a => sput (fun _ => 0) m a r.resetWord) m) []
  if tally then sput (fun _ => 0) m Reg.sysExpect (wordOf 0x83F) else m

/-- No frame in progress, nothing posted, no flag pending. -/
def HostPort.init : HostPort := { frame := none, flags := 0, posted := [], last := none }

/-- The FIFO empty, its pointers at zero, its queues empty (R317). -/
def Fifo.init : Fifo :=
  { packets := [], head := [], building := none, setAside := 0, asideFor := 0, lastWord := 0, wptr := 0, wptr2 := 0, cptr := 0, cptr2 := 0,
    rptr := 0, rptr2 := 0, fault := [], warp := [[], [], [], []], peer := [], tally := [], diag := [], turn := 0,
    sincePeer := 0, sinceTally := 0, sinceDiag := 0 }

/-- An illuminator after a core reset: off, not ready. -/
def Txc.init : Txc :=
  { calibrating := false, after := .off, hopPos := 0, chan := none, onUs := 0, cancelUp := false, waiting := false,
    fast := false, onAt := none, aired := false, steer := 0 }

/-- A chain after a core reset: unpowered until a draft names it (R91). -/
def Chain.init : Chain := { svc := .off, clipped := false, leaving := false }

/-- The peer engine after a core reset. -/
def Peer.init : Peer :=
  { neighbours := [], dups := [], snrs := [], job := none, nextSeq := 0, sent := [], slot := none, windows := 0,
    offer := none, held := [], asked := [], slew := 0, slewUs := 0, steer := 0 }

/-- The tag function as it leaves the factory (R335): nothing written, no spare used, no lock, no failure. -/
def TagFn.init : TagFn :=
  { bytes := [], spares := List.replicate 8 none, retired := [], wear := [], oos := [], bad := [], fix := [], job := none, queue := [],
    consec := 0, cum := 0, locked := false, lockout := none, locks := 0, fieldCount := 0, fieldCrumb := 0, guardBusy := false,
    half := none, session := none, flags := [false, false, false, false], sl := false, field := false, reply := .none, sticky := 0,
    early := false, loaded := false }

/-- A port that has no baseline (R359). -/
def PingPort.init : PingPort :=
  { valid := false, bi := 0, bq := 0, state := 0, pend := 0, hold := 0, mi := 0, mq := 0, md := 0 }

/-- The ping engine after a full reset, with no copy in flash (R359). -/
def Ping.init : Ping := { ports := [], sweep := none, cal := none, flash := none, changed := false, wake := none, thr := 0, lost := true }

/-- The tally feed and publish link with nothing queued. -/
def TalMain.init : TalMain :=
  { queue := [], reqs := [], dropped := 0, lastQ := [], lastSeq := none, wire := none, gap := false }

/-- The factory parameter set of R369. -/
def talFactory : TalParams :=
  { qMin := 64, rssiMin := 170, entryN := 3, entryWin := 200, exitSil := 1200, feedGap := 100, minDwell := 600, gapMax := 86400,
    maxDwell := 2592000, zoneLo := 1, zoneHi := 4094 }

/-- The tally die as it leaves the factory (R363, R369, R374, R376), not powered. -/
def TalDie.init : TalDie :=
  { running := false, xtal := true, tt := 0, saved := 0, breaks := 0, params := talFactory, fwVer := 0, fwSeq := 0, parSeq := 0,
    dwells := [], log := [], next := 1, chain := List.replicate 32 0, sealLog := [], audit := 0, health := 0, feedOk := 0,
    feedBad := 0, sumDrop := 0, odFull := 0, lastItem := 0, gap := none, sealMode := false, image := none, pubSeq := 0, pub := [], air := [],
    attest := false, comp := 0, restart := false }

/-- The memory port with an empty queue. -/
def Memp.init : Memp :=
  { queue := [], cur := none, prog := none, suspended := false, suspending := false, rgap := false, since := [0, 0, 0, 0, 0],
    fail0 := none, fail1 := none, frozen := false, copied := 0, owed := [], checking := none, tasks := [], arrived := [], waiting := [], line := none,
    point0 := 0, point1 := 0 }

/-- No half runs and the log is empty. -/
def Mgmt.init : Mgmt :=
  { running := none, log := [], flashLog := [], unsaved := 0, resets := 0, nextSeq := 1, takeover := none, handover := none, handCkpt := false,
    takeoverDiag := false, lostNoted := 0, ckptAt := 0, fresh := false, decBusy := [], dumps := [] }

/-- Flash with empty slots and no update record; DESIGN CHOICE, log entry 7. -/
def Upd.init : Upd :=
  { slots := [none, none, none, none, none], blocks := [], image := none, recA := none, recB := none,
    fw := [⟨0, 0, 0, true⟩, ⟨0, 0, 0, false⟩], newSettings := false, settings := [], seeds := [], copying := none, liveSlot := 0, fromStaging := false, live := none,
    proof := none, switching := false, reverting := false, fallback := .none, boundary := [], busy := false, used := none, scope1 := [] }

/-- No command issued by the frame (R150). -/
def FrameAcc.init : FrameAcc := { count := 0, first := 0, last := 0, done := none, cur := none }

/-- An octal DTR NOR flash of 64 MiB within R388, with the suspend figures of the worked example of 19_memory_port.md. -/
def MemDevice.nor : MemDevice :=
  { sfdp := true, density := 26, fourByte := true, erase4k := true, suspend := true, modes := [(0, false), (3, true)], eye := [List.replicate 16 true],
    tsus := 25, rgap := 100, psram := false, latency := 0, tcem := 0 }

/-- The board the model starts on: a -T module with serial number 0, a flash on MCS0_N and nothing on MCS1_N.
DESIGN CHOICE, log entry 5. -/
def Board.init : Board := { tally := true, serial := 0, dev0 := some .nor, dev1 := none }

/-- The lands at reset: VIN, VAO and VIO in range in 3.3 V mode, VTAL absent, inactive levels elsewhere. DESIGN CHOICE, log entry 5. -/
def Lands.init : Lands :=
  { vin := true, vao := true, vio := true, vio33 := true, vtal := false, rstN := true, wakeLow := none, prof := 0, sealN := true }

/-- The module right after a POR has taken effect, held in reset until RESET_RELEASE (R79 to R81): every register at its
Reset column, every table and queue empty. -/
def State.reset : State :=
  { phase := .held, resets := [], thermHold := false, freeCtr := 0, timeBase := 0, up := 0, aoFrac := 0, board := .init, lands := .init, bscan := 0, tap := .reset,
    regs := resetRegs true, latches := [], staging := [], hp := .init, cmds := [], hostNext := 1, hostWrap := false,
    schedNext := 1, schedWrap := false, abortedEnded := [], acc := .init, fifo := .init, txc := List.replicate 4 .init,
    chains := List.replicate 16 .init, beams := List.replicate 16 none, crcQ := [], phi := [], refAt := [], phiFlash := none,
    seeds := [], seedWt := [], unusable := [], wts := [], divAt := [], calNext := 0, chanOff := [], airLog := [], hopPos := 0, rounds := [], dueAt := [], cands := [], shed := 16, coal := false, seen := [],
    seenWb := [], pop := [], fetches := [], umTags := [], umDiag := List.replicate 4 [0, 0, 0, 0], quar := [], peer := .init, crcHost := none, tag := .init, ping := .init,
    tal := .init, die := .init, memp := .init, mgmt := .init, upd := .init, wakes := [], wakeAt := none, hot := [], hotOut := [], hotRead := [],
    broughtUp := false, tdo := 0, pending := [] }

end Sys2Proof.Machine
end

