-- ==== Sys2Proof/Machine/Ops.lean ====
section
/-! DEFINITION. The named operations every family uses: registers and their fields, interrupts, free values, the event log,
records for the report FIFO, and the life of a command. -/
namespace Sys2Proof.Machine

/-! ## Registers -/

/-- The word of the register at `a` as the map holds it. -/
def State.reg (s : State) (a : Nat) : Word := sget (fun _ => 0) s.regs a

/-- The state with `w` in the register at `a`. -/
def State.setReg (s : State) (a : Nat) (w : Word) : State := { s with regs := sput (fun _ => 0) s.regs a w }

/-- A field of a register. -/
def State.fld (s : State) (a lo n : Nat) : Nat := fieldN (s.reg a) lo n

/-- The state with a field of a register replaced. -/
def State.setFld (s : State) (a lo n v : Nat) : State := s.setReg a (setFieldN (s.reg a) lo n v)

/-- A bit of a register. -/
def State.bit (s : State) (a b : Nat) : Bool := bitN (s.reg a) b

/-- The state with a bit of a register set or cleared. -/
def State.setBit (s : State) (a b : Nat) (v : Bool) : State := s.setReg a (setBitN (s.reg a) b v)

/-- A wrapping 32-bit counter advances by `k`. -/
def State.addCnt (s : State) (a k : Nat) : State := s.setReg a (s.reg a + wordOf k)

/-- A wrapping 32-bit counter advances by one. -/
def State.cnt (s : State) (a : Nat) : State := s.addCnt a 1

/-- A counter field that saturates advances by one. -/
def State.cntSat (s : State) (a lo n : Nat) : State := s.setFld a lo n (satN n (s.fld a lo n + 1))

/-- A counter field that wraps advances by one. -/
def State.cntWrap (s : State) (a lo n : Nat) : State := s.setFld a lo n (s.fld a lo n + 1)

/-- The time base in microseconds. -/
def State.now (s : State) : Nat := s.timeBase.toNat

/-! ## Free values -/

/-- A free word and the state whose counter has advanced (log entry 1). -/
def State.drawWord (s : State) : Word × State := (Config.freeWord s.freeCtr, { s with freeCtr := s.freeCtr + 1 })

/-- A free Boolean. -/
def State.drawBool (s : State) : Bool × State := (Config.freeBool s.freeCtr, { s with freeCtr := s.freeCtr + 1 })

/-- A free 16-bit number. -/
def State.drawHalf (s : State) : BitVec 16 × State := (Config.freeHalf s.freeCtr, { s with freeCtr := s.freeCtr + 1 })

/-! ## Interrupts and ready bits -/

/-- Interrupt cause `c` becomes pending (R144). -/
def State.raise (s : State) (c : Nat) : State := s.setBit Reg.sysIrqPend c true

/-- Bits of SYS_READY and SYS_EXPECT (R90, R91). -/
def rdHp : Nat := 0
def rdMgmt : Nat := 1
def rdMemp : Nat := 2
def rdTagf : Nat := 3
def rdPing : Nat := 4
def rdDraft : Nat := 5
def rdLdp : Nat := 8
def rdUep : Nat := 9
def rdPe : Nat := 10
def rdTal : Nat := 11
/-- Bit of TXCn. -/
def rdTxc (n : Nat) : Nat := 12 + n
/-- Bit of RXCn. -/
def rdRxc (n : Nat) : Nat := 16 + n

/-- A function is ready (R90). -/
def State.ready (s : State) (b : Nat) : Bool := s.bit Reg.sysReady b

/-- A function is expected (R91). -/
def State.expected (s : State) (b : Nat) : Bool := s.bit Reg.sysExpect b

/-- The state with a bit of SYS_READY set or cleared. -/
def State.setReady (s : State) (b : Nat) (v : Bool) : State := s.setBit Reg.sysReady b v

/-- The state with a bit of SYS_EXPECT set or cleared. -/
def State.setExpect (s : State) (b : Nat) (v : Bool) : State := s.setBit Reg.sysExpect b v

/-- SYS_CLKSTAT bits (R94's register table). -/
def State.coreOn (s : State) : Bool := s.bit Reg.sysClkstat 3
def State.mgmtOn (s : State) : Bool := s.bit Reg.sysClkstat 4
def State.memOn (s : State) : Bool := s.bit Reg.sysClkstat 5
def State.refOn (s : State) : Bool := s.bit Reg.sysClkstat 2

/-- A management half runs (R405), and its clock with it (R95). -/
def State.halfRuns (s : State) : Bool := s.mgmt.running.isSome && s.mgmtOn

/-! ## Event log -/

/-- The severity of an entry: ERROR for a takeover (R409); the spec states no other, so it is free (log entry 8). -/
def sevOf (source code : Nat) : Nat := if source = 0x0D ∧ code = 1 then 3 else (Config.severity source code).toNat

/-- An entry is written to the on-chip log (R414): SOURCE, CODE, DETAIL. A ring of 2,048 loses its oldest entry when full,
and MGMT_LOG_LOST counts it when it was not persisted (R416). WARNING and ERROR raise MGMT_LOG. -/
def State.logEvent (s : State) (source code : Nat) (detail : Word) : State :=
  let e : LogEntry := { seq := s.mgmt.nextSeq, aoTime := s.reg Reg.pwrAoTime, sev := sevOf source code, source := source,
                        code := code, resets := s.mgmt.resets % 65536, detail := detail }
  let lost := decide (s.mgmt.unsaved ≥ 2048)
  let m := { s.mgmt with log := (e :: s.mgmt.log).take 2048, nextSeq := (s.mgmt.nextSeq + 1) % 2 ^ 32,
                         unsaved := min 2048 (s.mgmt.unsaved + 1), lostNoted := s.mgmt.lostNoted + cond lost 1 0 }
  let s : State := { s with mgmt := m }
  let s := if lost then s.cnt Reg.mgmtLogLost else s
  let s := s.setReg Reg.mgmtLogHead (wordOf e.seq)
  if e.sev ≥ 2 then s.raise 11 else s

/-! ## Records for the report FIFO -/

/-- A drop of R305: the counter, FIFO_DROP_LAST with its reason (1 ROOM, 2 QUEUE, 3 RESET), the interrupt, and the
dropped count of every round in flight (DEDUCED, log entry 49). -/
def State.dropRec (s : State) (ty reason len : Nat) : State :=
  let s := s.cnt Reg.fifoDropCnt
  let s := s.setReg Reg.fifoDropLast (wordOf (ty * 2 ^ 24 + reason * 2 ^ 22 + len))
  let s := s.raise 5
  { s with rounds := s.rounds.map (fun r => { r with dropped := r.dropped + 1 }) }

/-- A record is queued, or dropped with reason QUEUE when its queue of `cap` is full (R304, R305). -/
def State.queueRec (s : State) (q : List Rec) (cap : Nat) (r : Rec) (put : List Rec → Fifo) : State :=
  if q.length < cap then { s with fifo := put (q ++ [r]) } else s.dropRec r.ty 2 r.len

/-- A record for the FAULT queue. -/
def State.queueFaultRec (s : State) (r : Rec) : State := s.queueRec s.fifo.fault 32 r (fun q => { s.fifo with fault := q })

/-- A record for the queue of warp `w`. -/
def State.queueWarp (s : State) (w : Nat) (r : Rec) : State :=
  s.queueRec (s.fifo.warp.getD w []) 64 r (fun q => { s.fifo with warp := s.fifo.warp.set w q })

/-- A record for the PEER queue. -/
def State.queuePeer (s : State) (r : Rec) : State := s.queueRec s.fifo.peer 2 r (fun q => { s.fifo with peer := q })

/-- A record for the TALLY queue. -/
def State.queueTally (s : State) (r : Rec) : State := s.queueRec s.fifo.tally 8 r (fun q => { s.fifo with tally := q })

/-- A record for the DIAG queue. -/
def State.queueDiag (s : State) (r : Rec) : State := s.queueRec s.fifo.diag 4 r (fun q => { s.fifo with diag := q })

/-- The low 32 bits of the time base. -/
def State.timeLo (s : State) : Word := wordOf (s.now % 2 ^ 32)

/-- A FAULT packet (R313): SOURCE, INDEX, CODE, DETAIL. -/
def State.faultPacket (s : State) (source index code : Nat) (detail : Word) : State :=
  s.queueFaultRec { ty := 7, flags := 0, len := 16,
                    words := [wordOf (source * 2 ^ 24 + index * 2 ^ 16 + code * 2 ^ 8), s.timeLo, detail] }

/-- The FAULT packet of an event and its event-log entry (R414, R415): the log carries INDEX and CODE in
bits 31:16 of its DETAIL, and the FAULT DETAIL, which has at most 16 bits, below them (DEDUCED, log entry 8). -/
def State.faultEvent (s : State) (source index code : Nat) (detail : Word) : State :=
  let s := s.faultPacket source index code detail
  s.logEvent source 0 (wordOf (index * 2 ^ 24 + code * 2 ^ 16 + fieldN detail 0 16))

/-! ## Commands -/

/-- A live command by its number. -/
def State.cmd? (s : State) (seq : Nat) : Option Cmd := s.cmds.find? (fun c => c.seq == seq)

/-- Live commands issued by the host. -/
def State.hostLive (s : State) : Nat := (s.cmds.filter (fun c => c.seq < 2 ^ 23)).length

/-- The first COUNT from `c` that names no live command of the origin (R147); `true` when the search passed 0x7F_FFFF. -/
def skipLive (live : Nat → Bool) : Nat → Nat → Bool → Nat × Bool
  | 0, c, w => (c, w)
  | f + 1, c, w => if live c then skipLive live f (if c = 0x7FFFFF then 1 else c + 1) (w || c == 0x7FFFFF) else (c, w)

/-- A number is assigned (R146, R147) to a command of the host (`false`) or the scheduler (`true`). -/
def State.assign (s : State) (sched : Bool) : Nat × State :=
  let base := if sched then 2 ^ 23 else 0
  let live := fun c => s.cmds.any (fun k => k.seq == base + c)
  let (c, w) := skipLive live (s.cmds.length + 1) (if sched then s.schedNext else s.hostNext) false
  let nxt := if c = 0x7FFFFF then 1 else c + 1
  let w := w || c == 0x7FFFFF
  let s : State := { s with abortedEnded := s.abortedEnded.filter (fun n => n != base + c) }
  (base + c, if sched then { s with schedNext := nxt, schedWrap := s.schedWrap || w }
             else { s with hostNext := nxt, hostWrap := s.hostWrap || w })

/-- A number was assigned since the last core reset (R149). -/
def State.wasAssigned (s : State) (seq : Nat) : Bool :=
  let c := seq % 2 ^ 23
  let sched := seq / 2 ^ 23 % 2 == 1
  c != 0 && (if sched then s.schedWrap || decide (c < s.schedNext) else s.hostWrap || decide (c < s.hostNext))

/-- A command completes with a status (R147, R474): it is no longer live, its decision ABORTING is remembered (R286), and
its result register takes DONE and STATUS if it still names it. -/
def State.complete (s : State) (seq : Nat) (st : Status) : State :=
  match s.cmd? seq with
  | none => s
  | some c =>
    let s : State :=
      { s with cmds := s.cmds.filter (fun k => k.seq != seq),
                      abortedEnded := if c.cell = some false then seq :: s.abortedEnded else s.abortedEnded,
                      acc := if s.acc.cur = some seq then { s.acc with done := some st } else s.acc }
    match c.res with
    | none => s
    | some a => if s.fld a 0 24 = seq then s.setReg a (wordOf (2 ^ 31 + st.code * 2 ^ 24 + seq)) else s

/-- Every live command that `p` accepts completes with a status. -/
def State.completeAll (s : State) (p : Cmd → Bool) (st : Status) : State :=
  (s.cmds.filter p).foldl (fun s c => s.complete c.seq st) s

/-- A host command is accepted (R146): it gets its number, its result register takes SEQ with DONE and STATUS clear (R474), and
the frame counts it (R150). `cell` is its decision at acceptance (R284) (DEDUCED, log entry 51). -/
def State.accept (s : State) (res : Nat) (kind : CmdKind) (cell : Option Bool) : Nat × State :=
  let (n, s) := s.assign false
  let s : State := { s with cmds := s.cmds ++ [{ seq := n, res := some res, kind := kind, cell := cell }] }
  let s := s.setReg res (wordOf n)
  let a := s.acc
  (n, { s with acc := { a with count := a.count + 1, first := if a.count = 0 then n else a.first, last := n, done := none,
                               cur := some n } })

/-- A host command is issued: accepted, refused when 64 are live already (R148), and otherwise carried out by `body`. -/
def State.issue (s : State) (res : Nat) (kind : CmdKind) (cell : Option Bool) (body : Nat → State → State) : State :=
  let full := s.hostLive ≥ 64
  let (n, s) := s.accept res kind cell
  if full then s.complete n .refused else body n s

/-- A frame that issues commands begins to be performed (R150). -/
def State.beginFrame (s : State) : State := { s with acc := .init }

/-- One write of the frame has been performed: its command is no longer at the instant of its acceptance. -/
def State.endWrite (s : State) : State := { s with acc := { s.acc with cur := none } }

/-- The frame's writes have been performed: SYS_CMD_FIRST, SYS_CMD_LAST and SYS_CMD_STAT are updated if it issued a host
command (R150). -/
def State.endFrame (s : State) : State :=
  if s.acc.count = 0 then s
  else
    let s := s.setReg Reg.sysCmdFirst (wordOf (satN 8 s.acc.count * 2 ^ 24 + s.acc.first))
    let s := s.setReg Reg.sysCmdLast (wordOf s.acc.last)
    s.setReg Reg.sysCmdStat (match s.acc.done with | none => 0 | some st => wordOf (st.code * 256 + 1))

/-- One command of the table, as a frame that carries the one write which issues it (log entry 9). -/
def State.single (s : State) (f : State → State) : State := (f s.beginFrame).endWrite.endFrame

/-! ## Lists -/

/-- Element `i` of a list replaced by its image. -/
def updAt {α : Type} (l : List α) (i : Nat) (f : α → α) : List α := l.modify i f

/-- An illuminator's hidden part. -/
def State.tx (s : State) (n : Nat) : Txc := s.txc.getD n .init

/-- The state with an illuminator's hidden part changed. -/
def State.updTx (s : State) (n : Nat) (f : Txc → Txc) : State := { s with txc := updAt s.txc n f }

/-- A chain's hidden part. -/
def State.chain (s : State) (n : Nat) : Chain := s.chains.getD n .init

/-- The state with a chain's hidden part changed. -/
def State.updChain (s : State) (n : Nat) (f : Chain → Chain) : State := { s with chains := updAt s.chains n f }

/-- A beam that belongs to a round. -/
def State.beam? (s : State) (m : Nat) : Option Beam := (s.beams.getD m none)

/-- The state with a beam changed, if it belongs to a round. -/
def State.updBeam (s : State) (m : Nat) (f : Beam → Beam) : State := { s with beams := updAt s.beams m (fun b => b.map f) }

/-- The round that holds warp `w`, if one does (R281). -/
def State.roundOn (s : State) (w : Nat) : Option Round := s.rounds.find? (fun r => r.warps.contains w)

/-- The state with the rounds that hold warp `w` changed; at most one does. -/
def State.updRound (s : State) (w : Nat) (f : Round → Round) : State :=
  { s with rounds := s.rounds.map (fun r => if r.warps.contains w then f r else r) }

/-- The live draft's contents, if a draft is live (R473). -/
def State.draft (s : State) : Option Draft := s.upd.live

end Sys2Proof.Machine
end

