-- ==== Sys2Proof/Machine/FifoOps.lean ====
section
/-! DEFINITION. The report FIFO (14_report_fifo.md): sizes, levels, room, freeing, and what the host's frames do to it. -/
namespace Sys2Proof.Machine

/-- Bytes of the ring (R301). -/
def fifoBytes : Nat := 131072

/-- The bytes a packet of `l` bytes occupies (R302). -/
def padded (l : Nat) : Nat := (l + 3) / 4 * 4

/-- The length word of a record (R302). -/
def lengthWord (r : Rec) : Word := wordOf (r.ty * 2 ^ 24 + r.flags * 2 ^ 20 + r.len % 4 * 2 ^ 16 + r.len)

/-- Words of unread complete packets. -/
def Fifo.packetWords (f : Fifo) : Nat := (f.packets.map (fun p => p.words.length)).sum + f.head.length

/-- FIFO_LEVEL.BYTES: complete packets, the packet under construction and room set aside, padding included. -/
def Fifo.bytes (f : Fifo) : Nat :=
  4 * f.packetWords + (match f.building with | none => 0 | some r => padded r.len) + f.setAside

/-- Free bytes. -/
def Fifo.free (f : Fifo) : Nat := fifoBytes - f.bytes

/-- FIFO_LEVEL.PKTS: complete packets whose length word has not been consumed. -/
def Fifo.pkts (f : Fifo) : Nat := f.packets.length

/-- The reserve in bytes (R305). -/
def State.reserve (s : State) : Nat := s.fld Reg.fifoCfg 16 4 * 1024

/-- Whether a packet of a type fits (R305): FAULT and ROUND_END may use the reserve. -/
def State.fits (s : State) (ty len : Nat) : Bool :=
  decide (padded len + (if ty = 7 ∨ ty = 3 then 0 else s.reserve) ≤ s.fifo.free)

/-- What follows a change of the level: the high-water mark (FIFO_STAT.HWM) and coalescing (R298). -/
def State.fifoSync (s : State) : State :=
  let b := s.fifo.bytes
  let s := if b > s.fld Reg.fifoStat 14 18 then s.setFld Reg.fifoStat 14 18 b else s
  let th := s.fld Reg.schedLoad 16 8
  let k := s.fifo.free
  if s.coal then { s with coal := decide (k < (th + 8) * 1024) } else { s with coal := decide (k < th * 1024) }

/-- The condition of FIFO_THR (R314). -/
def State.fifoThr (s : State) : Bool :=
  let thr := s.fld Reg.fifoCfg 0 13
  let age := s.fld Reg.fifoCfg 24 8
  (decide (thr ≠ 0) && decide (thr ≤ s.fifo.pkts)) ||
  (decide (age ≠ 0) && (match s.fifo.packets with | [] => false | p :: _ => decide (age ≤ p.aged) || decide (p.at_ + age * 1000 ≤ s.up)))

/-- The read pointer advances over `n` words (R306). -/
def Fifo.advanceRead (f : Fifo) (n : Nat) : Fifo :=
  let p := (f.rptr + 4 * n) % fifoBytes
  { f with rptr := p, rptr2 := p }

/-- FRD consumes the next word of complete packets, if there is one (R125, R306). -/
def State.fifoPop (s : State) : Option Word × State :=
  match s.fifo.head with
  | w :: t => (some w, ({ s with fifo := ({ s.fifo with head := t, lastWord := w } : Fifo).advanceRead 1 } : State).fifoSync)
  | [] =>
    match s.fifo.packets with
    | [] => (none, s)
    | p :: ps => match p.words with
      | [] => (none, s)
      | w :: t =>
        (some w, ({ s with fifo := ({ s.fifo with packets := ps, head := t, lastWord := w } : Fifo).advanceRead 1 } : State).fifoSync)

/-- FDROP discards the rest of a packet that is partly read (R126, R306); the count of bytes freed. -/
def State.fifoDrop (s : State) : Nat × State :=
  let n := s.fifo.head.length
  (4 * n, ({ s with fifo := ({ s.fifo with head := [] } : Fifo).advanceRead n } : State).fifoSync)

/-- Every complete packet and any room set aside are discarded (R315); a packet under construction is kept. -/
def State.fifoFlush (s : State) : State :=
  ({ s with fifo := { s.fifo with packets := [], head := [], setAside := 0, asideFor := 0, rptr := s.fifo.cptr, rptr2 := s.fifo.cptr2 } } : State).fifoSync

/-- The record at the head of the first queue that holds one, in the order of R304 (0 FAULT, 1 warps, 2 PEER, 3 TALLY, 4 DIAG), with
the starved queues first: one that holds a record and has not been served for four packets goes ahead, so that each of the three is
served within eight, one FAULT packet of R316 among them (log entry 57). -/
def Fifo.pick (f : Fifo) : Option (Nat × Nat) :=
  let w := (List.range 4).find? (fun i => !(f.warp.getD ((f.turn + i) % 4) []).isEmpty)
  if f.sincePeer ≥ 4 ∧ !f.peer.isEmpty then some (2, 0)
  else if f.sinceTally ≥ 4 ∧ !f.tally.isEmpty then some (3, 0)
  else if f.sinceDiag ≥ 4 ∧ !f.diag.isEmpty then some (4, 0)
  else if !f.fault.isEmpty then some (0, 0)
  else match w with
    | some i => some (1, (f.turn + i) % 4)
    | none =>
      if !f.peer.isEmpty then some (2, 0) else if !f.tally.isEmpty then some (3, 0) else if !f.diag.isEmpty then some (4, 0) else none

/-- A packet of queue `q` is written: every other queue of 3 to 5 that holds a record has waited for one packet more (R304). -/
def Fifo.served (f : Fifo) (q : Nat) : Fifo :=
  let since := fun (served : Bool) (empty : Bool) (n : Nat) => if served || empty then 0 else n + 1
  { f with sincePeer := since (q == 2) f.peer.isEmpty f.sincePeer,
           sinceTally := since (q == 3) f.tally.isEmpty f.sinceTally,
           sinceDiag := since (q == 4) f.diag.isEmpty f.sinceDiag }

/-- The queue `q` (warp `w`) gives up its first record. -/
def Fifo.take (f : Fifo) (q w : Nat) : Option Rec × Fifo :=
  let g := f.served q
  match q with
  | 0 => (f.fault.head?, { g with fault := f.fault.tail })
  | 1 => ((f.warp.getD w []).head?, { g with warp := f.warp.set w (f.warp.getD w []).tail, turn := (w + 1) % 4 })
  | 2 => (f.peer.head?, { g with peer := f.peer.tail })
  | 3 => (f.tally.head?, { g with tally := f.tally.tail })
  | _ => (f.diag.head?, { g with diag := f.diag.tail })

/-- A packet begins: its length word is reserved and the rest is written (R303 steps 1 to 3). -/
def State.beginPacket (s : State) (r : Rec) : State :=
  let p := (s.fifo.wptr + padded r.len) % fifoBytes
  let s : State := { s with fifo := { s.fifo with building := some r, wptr := p, wptr2 := p } }
  (s.setBit Reg.fifoStat 0 true).fifoSync

/-- The packet under construction is completed by its length word (R303). -/
def completePacket (s : State) : State :=
  match s.fifo.building with
  | none => s
  | some r =>
    let p := (s.fifo.cptr + padded r.len) % fifoBytes
    let done := s.fifo.packets ++ [{ words := lengthWord r :: r.words, at_ := s.up, aged := 0 }]
    let s : State := { s with fifo := { s.fifo with building := none, cptr := p, cptr2 := p, packets := done } }
    ((s.setBit Reg.fifoStat 0 false).cnt Reg.fifoPktCnt).fifoSync

/-- A record is written at once, as a packet begun and completed, if it fits (R305). -/
def State.writeWhole (s : State) (r : Rec) : State :=
  let s : State := { s with fifo := s.fifo.served 1 }
  if s.fits r.ty r.len then completePacket (s.beginPacket r) else s.dropRec r.ty 1 r.len

end Sys2Proof.Machine
end

