-- ==== Sys2Proof/Machine/Crc.lean ====
section
/-! DEFINITION. The CRC presets of 15_crc_and_alive_unit.md (R318, R319), bit by bit. -/
namespace Sys2Proof.Machine

/-- One bit enters a CRC register of `w` bits (R319). -/
def crcBit (w poly reg : Nat) (b : Bool) : Nat :=
  let top := (reg / 2 ^ (w - 1) % 2 == 1) != b
  let sh := reg * 2 % 2 ^ w
  if top then sh ^^^ poly else sh

/-- A run of bits enters. -/
def crcBits (w poly : Nat) (reg : Nat) (l : List Bool) : Nat := l.foldl (crcBit w poly) reg

/-- The `w` low bits of a number in reverse order. -/
def reflect (w v : Nat) : Nat := natOfBits (bitsLow w v)

/-- The result of a register: reflected when REFOUT, then the final XOR (R318). -/
def crcOut (w : Nat) (refout : Bool) (xor reg : Nat) : Nat := (if refout then reflect w reg else reg) ^^^ xor

/-- The bits of a byte in the order they enter: least significant first under REFIN (R319). -/
def byteBits (refin : Bool) (b : Byte) : List Bool := if refin then bitsLow 8 b.toNat else bitsHigh 8 b.toNat

/-- The bits of a byte list in the order they enter. -/
def bytesBits (refin : Bool) (l : List Byte) : List Bool := l.flatMap (byteBits refin)

/-- PRE0, CRC-5 (R318). -/
def crc5 (l : List Bool) : Nat := crcBits 5 0x09 0x09 l
/-- PRE1, CRC-16. -/
def crc16 (l : List Bool) : Nat := crcBits 16 0x1021 0xFFFF l ^^^ 0xFFFF
/-- PRE2, CRC-24. -/
def crc24 (l : List Bool) : Nat := crcBits 24 0x5D6DCB 0xFEDCBA l
/-- PRE3, CRC-8. -/
def crc8 (l : List Bool) : Nat := crcBits 8 0x2F 0xFF l
/-- PRE4, CRC-32 over bytes. -/
def crc32 (l : List Byte) : Nat := crcOut 32 true 0xFFFFFFFF (crcBits 32 0x04C11DB7 0xFFFFFFFF (bytesBits true l))

/-- The CRC-HW hash of a UID (R255): the polynomials x+1, x^2+x+1, x^3+x+1 from zero over 64 bits. -/
def crcHw (hw uid : Nat) : Nat := crcBits hw (if hw = 1 then 1 else 3) 0 (bitsHigh 64 uid)

end Sys2Proof.Machine
end

