-- ==== Sys2Proof/Machine/Images.lean ====
section
/-! DEFINITION. Drafts and Cerrex images as bytes (21_drafts_profiles_updates.md R422, R426): headers, tables, sections and parts. -/
namespace Sys2Proof.Machine

/-! ## Drafts (R422) -/

/-- An entry of a section table: TYPE, whether the three bytes after it are zero, OFFSET, SIZE and CRC. -/
structure SectionEntry where
  ty     : Nat
  zeros  : Bool
  offset : Nat
  size   : Nat
  crc    : Nat
deriving DecidableEq, Repr

/-- LENGTH of a draft. -/
def draftLen (i : DraftImage) : Nat := fieldBE i.bytes 8 4

/-- The section table. -/
def draftTable (i : DraftImage) : List SectionEntry :=
  (List.range (fieldBE i.bytes 5 1)).map (fun k =>
    let f := fun (o n : Nat) => fieldBE i.bytes (64 + 16 * k + o) n
    { ty := f 0 1, zeros := f 1 3 == 0, offset := f 4 4, size := f 8 4, crc := f 12 4 })

/-- The bytes of a section. -/
def sectionBytes (i : DraftImage) (e : SectionEntry) : List Byte := (i.bytes.drop e.offset).take e.size

/-- Stage 0b010 for one section (R85): it is there whole, and its CRC-32 under PRE4 is that of its entry. -/
def sectionCrcOk (i : DraftImage) (e : SectionEntry) : Bool := (sectionBytes i e).length == e.size && crc32 (sectionBytes i e) == e.crc

/-- The bytes of the section of a type. -/
def sectionOf (i : DraftImage) (ty : Nat) : Option (List Byte) := ((draftTable i).find? (fun e => e.ty == ty)).map (sectionBytes i)

/-- What a draft says, with the DRAFT_ID of its header. -/
def draftOf (i : DraftImage) : Draft := { i.draft with id := wordOf (fieldBE i.bytes 16 4) }

/-! ## Cerrex images (R426) -/

/-- An entry of a part table. -/
structure CrxPart where
  ty     : Nat
  target : Nat
  zeros  : Bool
  offset : Nat
  size   : Nat
  crc    : Nat
deriving DecidableEq, Repr

/-- LENGTH of an image. -/
def crxLen (b : List Byte) : Nat := fieldBE b 12 4

/-- The part table. -/
def crxParts (b : List Byte) : List CrxPart :=
  (List.range (fieldBE b 5 1)).map (fun k =>
    let f := fun (o n : Nat) => fieldBE b (64 + 16 * k + o) n
    { ty := f 0 1, target := f 1 1, zeros := f 2 2 == 0, offset := f 4 4, size := f 8 4, crc := f 12 4 })

/-- The bytes of a part. -/
def partBytes (b : List Byte) (p : CrxPart) : List Byte := (b.drop p.offset).take p.size

/-- The parts of a type. -/
def crxOf (b : List Byte) (ty : Nat) : List CrxPart := (crxParts b).filter (fun p => p.ty == ty)

/-- The image carries firmware. -/
def crxFirmware (i : CerrexImage) : Bool := !(crxOf i.bytes 1).isEmpty

/-- IMAGE_ID. -/
def crxId (i : CerrexImage) : Word := wordOf (fieldBE i.bytes 8 4)
/-- STATE_FROM. -/
def crxStateFrom (i : CerrexImage) : Nat := fieldBE i.bytes 18 2
/-- FW_VER. -/
def crxFwVer (i : CerrexImage) : Word := wordOf (fieldBE i.bytes 20 4)
/-- FW_SEQ. -/
def crxFwSeq (i : CerrexImage) : Nat := fieldBE i.bytes 24 4
/-- FLOOR. -/
def crxFloor (i : CerrexImage) : Nat := fieldBE i.bytes 28 4
/-- CKPT_VER. -/
def crxCkpt (i : CerrexImage) : Nat := fieldBE i.bytes 32 2

/-- The DRAFT parts with their target slots, in the order of the part table. -/
def crxDrafts (i : CerrexImage) : List (Nat × DraftImage) :=
  ((crxOf i.bytes 2).zip i.facts.contents).map (fun e => (e.1.target, { bytes := partBytes i.bytes e.1, sigOk := e.2.1, draft := e.2.2 }))

/-- Check 0x1 of R427: MAGIC, FORMAT and DEVICE, a part table that follows R426, and a LENGTH that covers every part. -/
def crxFormOk (b : List Byte) : Bool :=
  let ps := crxParts b
  let n := ps.length
  let ofTy : Nat → List Nat := fun t => (ps.filter (fun p => p.ty == t)).map (fun p => p.target)
  fieldBE b 0 4 == 0x43455258 && fieldBE b 4 1 == 1 && fieldBE b 16 2 == 0x6480 && decide (1 ≤ n) && decide (n ≤ 6) &&
  decide (crxLen b ≤ 6291456) &&
  ps.all (fun p => p.zeros && decide (64 + 16 * n ≤ p.offset) && decide (p.offset + p.size + 64 ≤ crxLen b) &&
    ((p.ty == 1 && p.target == 0) || (p.ty == 2 && decide (p.target ≤ 3)) || (p.ty == 3 && p.target == 0))) &&
  decide ((ofTy 1).length ≤ 1) && decide ((ofTy 2).length ≤ 4) && decide (ofTy 2).Nodup && (ofTy 3).length == (ofTy 1).length

/-- Check 0x2 of R427: the CRC-32 of every part. -/
def crxCrcOk (b : List Byte) : Bool :=
  (crxParts b).all (fun p => (partBytes b p).length == p.size && crc32 (partBytes b p) == p.crc)

end Sys2Proof.Machine
end

