-- ==== Sys2Proof/Machine/MemLanes.lean ====
section
/-! DEFINITION. What an entry of the memory port's queue puts on its lanes (19_memory_port.md R389, R391, R393): phases, transactions, cycles. -/
namespace Sys2Proof.Machine

/-- An entry that the port can run (R391, R393): 0, 3 or 4 address bytes, up to 31 dummy cycles, 0 to 256 data bytes, in words of 4 when select is
released between them. -/
def MemEntry.wf (e : MemEntry) : Bool :=
  (e.addrBytes == 0 || e.addrBytes == 3 || e.addrBytes == 4) && decide (e.dummy ≤ 31) && decide (e.len ≤ 256) && (e.held || e.len % 4 == 0)

/-- The command phase: one byte, or in octal DTR two, the second the complement of the first. -/
def MemEntry.cmdBytes (e : MemEntry) : List Byte := if e.cmdLanes = 3 ∧ e.dtr then [e.cmd, ~~~e.cmd] else [e.cmd]

/-- The address phase, most significant byte first. -/
def MemEntry.addrBits (e : MemEntry) : List Byte := beBytes e.addrBytes e.addr

/-- What bytes put on the lanes of a LANES code, edge by edge: the first bit of an edge is on its highest lane (R113). -/
def onLanes (code : Nat) (bs : List Byte) : List Nat := lanesOf (2 ^ code) (bs.flatMap (fun b => bitsHigh 8 b.toNat))

/-- MCLK cycles of some bytes on the lanes of a code: one edge of each cycle carries data, or both. -/
def phaseCycles (code : Nat) (both : Bool) (bytes : Nat) : Nat :=
  let edges := (8 * bytes + 2 ^ code - 1) / 2 ^ code
  if both then (edges + 1) / 2 else edges

/-- The transactions of an entry (R393): itself where select is held, else one for each 4 data bytes, the address advancing by 4. -/
def MemEntry.transactions (e : MemEntry) : List MemEntry :=
  if e.held then [e] else (List.range (e.len / 4)).map (fun k => { e with addr := e.addr + 4 * k, len := 4 })

/-- MCLK cycles from the command phase of a transaction to its last data byte. -/
def MemEntry.cycles (e : MemEntry) : Nat :=
  phaseCycles e.cmdLanes (decide (e.cmdLanes = 3) && e.dtr) e.cmdBytes.length + phaseCycles e.addrLanes e.dtr e.addrBytes + e.dummy +
    phaseCycles e.lanes e.dtr e.len

/-- MCLK cycles for which each select of a chain lasts (R393): an entry after one with CONT begins with its data phase. -/
def selectCycles : List MemEntry → List Nat
  | [] => []
  | e :: r =>
    match selectCycles r with
    | [] => e.transactions.map MemEntry.cycles
    | c :: cs =>
      if e.held && e.cont then
        let skip := match r with | [] => 0 | x :: _ => x.cycles - phaseCycles x.lanes x.dtr x.len
        (e.cycles + c - skip) :: cs
      else e.transactions.map MemEntry.cycles ++ c :: cs

/-- Half nanoseconds of one MCLK period, by MEMP_STAT.FREQ (R390). -/
def mclkHalfNs (code : Nat) : Nat := [15, 20, 25, 30, 40].getD code 40

/-- A transfer of discovery on one lane: command, address bytes, dummy cycles and data bytes read. -/
def discEntry (dev : Bool) (cmd : Byte) (addrBytes dummy len : Nat) : MemEntry :=
  { dev := dev, cmd := cmd, addr := 0, addrBytes := addrBytes, dummy := dummy, len := len, cmdLanes := 0, addrLanes := 0, lanes := 0, dtr := false,
    write := false, held := true, cont := false, level := 1, buf := 0, prog := false, job := .check }

/-- The transfers with which discovery begins (R389 steps 1, 2 and 5), at REF divided by 4: a software reset of both selects, and the SFDP header of
each. Which tables follow is what SFDP says. -/
def discovery : List MemEntry :=
  [discEntry false 0x66 0 0 0, discEntry false 0x99 0 0 0, discEntry true 0x66 0 0 0, discEntry true 0x99 0 0 0,
   discEntry false 0x5A 3 8 8, discEntry true 0x5A 3 8 8]

end Sys2Proof.Machine
end

