-- ==== Sys2Proof/Machine/TagOps.lean ====
section
/-! DEFINITION. The tag store (R333 to R339): crumbs, their physical locations, spares and the commit of a crumb write. -/
namespace Sys2Proof.Machine

/-- The EPC a module leaves the factory with: 0x4F4C_3634 and the serial number (R335). -/
def factoryEpc (serial : Nat) : Nat := 0x4F4C3634 * 2 ^ 64 + serial % 2 ^ 64

/-- The factory StoredCRC: PRE1 over StoredPC 0x3000 and the EPC (R333, R335). -/
def factoryCrc (serial : Nat) : Nat := crc16 (bitsHigh 16 0x3000 ++ bitsHigh 96 (factoryEpc serial))

/-- The factory content of field word `w` of crumb `c` (R335): StoredCRC, StoredPC and EPC; the serial number in the TID, so that
wire words 1 and 2 read as IDENT words 2 and 3 (R333).
The TID header codes are not stated and read 0 (DESIGN CHOICE, log entry 3). -/
def factoryWord (serial c w : Nat) : Nat :=
  if c = 1 then
    if w = 0 then factoryCrc serial else if w = 1 then 0x3000
    else if w < 8 then factoryEpc serial / 2 ^ (16 * (7 - w)) % 65536 else 0
  else if c = 2 ∧ 2 ≤ w ∧ w < 6 then serial / 2 ^ (16 * [2, 3, 0, 1].getD (w - 2) 0) % 65536
  else 0

/-- What the byte at wire offset `a` of the tag store holds when nothing has written it (R334, R335). -/
def tagFactory (serial a : Nat) : Byte :=
  let w := factoryWord serial (a / 64) (a % 64 / 2)
  BitVec.ofNat 8 (if a % 2 = 0 then w else w / 256)

/-- The byte of the tag store at wire offset `a`. -/
def State.tagByte (s : State) (a : Nat) : Byte := sget (tagFactory s.board.serial) s.tag.bytes a

/-- The state with a byte of the tag store changed. -/
def State.setTagByte (s : State) (a : Nat) (b : Byte) : State :=
  { s with tag := { s.tag with bytes := sput (tagFactory s.board.serial) s.tag.bytes a b } }

/-- Field word `w` of crumb `c` (R334). -/
def State.tagWord (s : State) (c w : Nat) : Nat :=
  (s.tagByte (64 * c + 2 * w)).toNat + 256 * (s.tagByte (64 * c + 2 * w + 1)).toNat

/-- Wire word `m` of crumb `c` as stored (R334). -/
def State.tagWire (s : State) (c m : Nat) : Word := wordOf (s.tagWord c (2 * m) + 65536 * s.tagWord c (2 * m + 1))

/-- Words of EPC that StoredPC declares, at most the 30 that crumb 1 holds (R333) (DEDUCED, log entry 18). -/
def State.epcWords (s : State) : Nat := min 30 (s.tagWord 1 1 / 2048)

/-- StoredPC and the words of EPC it declares (R333). -/
def State.tagIdWords (s : State) : List Nat := (List.range (s.epcWords + 1)).map (fun j => s.tagWord 1 (1 + j))

/-- StoredCRC is recomputed when crumb 1 commits (R333). With L = 31, which only the wire side can write and R333 excludes, the spec
states no result: it is free (log entry 18). -/
def State.restoreCrc (s : State) : State :=
  let put := fun (s : State) (c : Nat) => (s.setTagByte 64 (BitVec.ofNat 8 c)).setTagByte 65 (BitVec.ofNat 8 (c / 256))
  if s.tagWord 1 1 / 2048 ≤ 30 then put s (crc16 (s.tagIdWords.flatMap (bitsHigh 16)))
  else
    let (c, s) := s.drawHalf
    put s c.toNat

/-- The spare a crumb sits on, if it has moved (R339). -/
def State.spareOf (s : State) (c : Nat) : Option Nat := s.tag.spares.findIdx? (fun x => x == some c)

/-- The physical location of a crumb: its own, or 128 plus its spare. -/
def State.locOf (s : State) (c : Nat) : Nat := match s.spareOf c with | none => c | some n => 128 + n

/-- The lowest free spare (R339): holding no crumb and not retired. -/
def State.freeSpare (s : State) : Option Nat :=
  (List.range 8).find? (fun n => (s.tag.spares.getD n none).isNone && !s.tag.retired.contains (128 + n))

/-- Free spares (TAG_STAT.SPARES). -/
def State.freeSpares (s : State) : Nat :=
  ((List.range 8).filter (fun n => (s.tag.spares.getD n none).isNone && !s.tag.retired.contains (128 + n))).length

/-- Writes of a physical location. -/
def State.wearOf (s : State) (loc : Nat) : Nat := sget (fun _ => 0) s.tag.wear loc

/-- A write at a location counts (R339). -/
def State.addWear (s : State) (loc : Nat) : State :=
  { s with tag := { s.tag with wear := sput (fun _ => 0) s.tag.wear loc (s.wearOf loc + 1) } }

/-- The main die's registers hold their state: it is powered and not held in reset. -/
def State.dieUp (s : State) : Bool :=
  match s.phase with | .held => false | .poweringDown _ => false | .doze => false | .dormant => false | _ => true

/-- A counter TAG_CNT advances, unless the main die is unpowered or in reset while the tag function runs on the field (R30). -/
def State.tagCount (s : State) (k : Nat) : State := if s.dieUp then s.cnt (Reg.tagCnt k) else s

/-- An event-log entry of the tag function (R415), while the main die is up. -/
def State.tagLog (s : State) (code c : Nat) : State := if s.dieUp then s.logEvent 0x0A code (wordOf c) else s

/-- Crumb `c` moves to spare `n` (R339): the location it leaves is retired, the move counts and is logged. -/
def State.moveCrumb (s : State) (c n : Nat) : State :=
  let old := s.locOf c
  let t := s.tag
  let sp := (t.spares.map (fun x => if x = some c then none else x)).set n (some c)
  let s : State := { s with tag := { t with spares := sp, retired := old :: t.retired } }
  (s.tagCount 6).tagLog 1 c

/-- The new content of a crumb is committed whole (R337): its bytes change, crumb 1 gets its StoredCRC, and a crumb that read
uncorrectable, or was to be rewritten, is repaired (R338). -/
def State.commitCrumb (s : State) (j : CrumbJob) : State :=
  let s := j.patch.foldl (fun s e => s.setTagByte (64 * j.crumb + e.1) e.2) s
  let s := if j.crumb = 1 then s.restoreCrc else s
  { s with tag := { s.tag with bad := s.tag.bad.filter (fun c => c != j.crumb), fix := s.tag.fix.filter (fun c => c != j.crumb) } }

/-- A crumb is out of service (R339, R346). -/
def State.crumbOos (s : State) (c : Nat) : Bool := s.tag.oos.any (fun e => e.1 == c)

/-- A crumb is out of service with reason WORN. -/
def State.crumbWorn (s : State) (c : Nat) : Bool := s.tag.oos.any (fun e => e.1 == c && e.2)

/-- The main die's regulators supply the TAGF domain (R30, R98): VIN is present, and the state is neither DOZE nor DORMANT. -/
def State.tagFromVin (s : State) : Bool :=
  s.lands.vin && (match s.phase with | .poweringDown _ => false | .doze => false | .dormant => false | _ => true)

/-- The TAGF domain is powered (R30): from VIN, or from a field at COMM. -/
def State.tagPowered (s : State) : Bool := s.tagFromVin || s.tag.field

/-- A command owns a crumb or a crumb write is in progress (R102 TAGSTORE_BUSY, R340). -/
def State.tagBusy (s : State) : Bool := s.tag.job.isSome || !s.tag.queue.isEmpty

/-- A field or wire command has taken a crumb, or a command of R346 (R102); a rewrite after a corrected read is the module's own. -/
def State.tagTaken (s : State) : Bool := (s.tag.job.toList ++ s.tag.queue).any (fun j => j.who != .ecc)

/-- A WR frame released has not been performed whole: words wait for a crumb, or one of its crumb writes has not ended (R123, R340). -/
def State.wrPend (s : State) : Bool :=
  let wire := fun (j : CrumbJob) => j.who == .wire
  !s.hp.posted.isEmpty || (match s.tag.job with | some j => wire j | none => false) || s.tag.queue.any wire

/-- Bits of TAG_STAT that stay set until written one (R334, R338, R339). -/
def State.tagSticky (s : State) (m : Nat) : State := { s with tag := { s.tag with sticky := s.tag.sticky ||| m } }

/-- The tag function backscatters. -/
def State.tagSay (s : State) (r : TagReply) : State := { s with tag := { s.tag with reply := r } }

/-- Who asked for a crumb write learns how it ended; `st` is the status of a command. -/
def State.crumbAnswer (s : State) (j : CrumbJob) (st : Status) : State :=
  match j.who with
  | .field h => if j.reply then s.tagSay (if st = .ok then .success h else .error 0 h) else s
  | .wire => if st = .ok then s else s.tagSticky 4
  | .read => s
  | .ecc => s
  | .cmd seq =>
    let back := st == .ok && (match (s.cmd? seq).map Cmd.kind with | some (.crumbReturn _) => true | _ => false)
    let s : State := if back then { s with tag := { s.tag with oos := s.tag.oos.filter (fun e => e.1 != j.crumb) } } else s
    s.complete seq st

/-- The crumbs of `n` words of the host's address space from the word `a` on. -/
def wireCrumbs (a n : Nat) : List Nat :=
  ((List.range n).filterMap (fun k =>
    let b := a / 4 * 4 + 4 * k
    if 0x480000 ≤ b ∧ b < 0x482000 then some ((b - 0x480000) / 64) else none)).eraseDups

/-- The crumbs that the RD frame in progress owns while its data is sent (R340). -/
def State.frameReads (s : State) : List Nat :=
  match s.hp.frame with
  | some f =>
    (match f.kind, f.phase, f.reach with
     | some (.rd a), .data, .data n _ _ => wireCrumbs a n
     | some (.rd a), .trailer, .data n _ _ => wireCrumbs a n
     | _, _, _ => [])
  | none => []

/-- An uncorrectable read of a crumb (R338): it is counted and logged (R415), and stays so until the crumb is written. -/
def State.eccFail (s : State) (c : Nat) : State :=
  let t := s.tag
  let s : State := { s with tag := { t with sticky := t.sticky ||| 2, bad := if t.bad.contains c then t.bad else t.bad ++ [c] } }
  (s.tagCount 4).tagLog 3 c

/-- A corrected read of a crumb (R338): it is counted, and the crumb is to be rewritten. -/
def State.eccFix (s : State) (c : Nat) : State :=
  let t := s.tag
  ({ s with tag := { t with fix := if t.fix.contains c then t.fix else t.fix ++ [c] } } : State).tagCount 3

/-- A job that changes no crumb content: an OUT, or a RETURN of a crumb that is not WORN (R346). Its crumb goes out of or into service as soon
as it owns it, and its command completes. -/
def State.plainJob (s : State) (j : CrumbJob) : Option State :=
  match j.who with
  | .cmd seq =>
    match (s.cmd? seq).map Cmd.kind with
    | some (.crumbOut c) =>
      some ((({ s with tag := { s.tag with oos := if s.crumbOos c then s.tag.oos else s.tag.oos ++ [(c, false)] } } : State)).complete seq .ok)
    | some (.crumbReturn c) =>
      if s.crumbWorn c then none
      else some (({ s with tag := { s.tag with oos := s.tag.oos.filter (fun e => e.1 != c) } } : State).complete seq .ok)
    | _ => none
  | _ => none

/-- A write that a crumb out of service refuses (R339): every one but the move or return of a command. -/
def State.jobRefused (s : State) (j : CrumbJob) : Bool :=
  s.crumbOos j.crumb && (match j.who with | .field _ => true | .wire => true | .ecc => true | _ => false)

/-- The waiting jobs are taken in the order requested (R340), those of a crumb that a reading frame owns (`held`) staying (`kept`): a
waiting read has its turn and owns its crumb, the jobs that need no write are carried out, a write that its crumb refuses is answered
so (R339), and the first other starts. -/
def State.startCrumbs (held : List Nat) (kept : List CrumbJob) : List CrumbJob → State → State
  | [], s => { s with tag := { s.tag with queue := kept } }
  | j :: r, s =>
    if j.who = .read then State.startCrumbs (j.crumb :: held) kept r s
    else if held.contains j.crumb then State.startCrumbs held (kept ++ [j]) r s
    else if s.jobRefused j then State.startCrumbs held kept r (s.crumbAnswer j .outOfService)
    else match s.plainJob j with
      | some s => State.startCrumbs held kept r s
      | none => { s with tag := { s.tag with job := some j, queue := kept ++ r } }

/-- The next waiting crumb write starts (R340). -/
def State.nextCrumb (s : State) : State := if s.tag.job.isSome then s else State.startCrumbs s.frameReads [] s.tag.queue s

/-- The frame in progress is over: it waits for no crumb any more, and the crumbs it read are free (R340). -/
def State.freeCrumbs (s : State) : State :=
  ({ s with tag := { s.tag with queue := s.tag.queue.filter (fun j => j.who != .read) } } : State).nextCrumb

/-- A crumb is owned (R340): by a write in progress, by a request that waits, or by the frame that reads it. -/
def State.crumbOwned (s : State) (c : Nat) : Bool :=
  (match s.tag.job with | some j => j.crumb == c | none => false) || s.tag.queue.any (fun j => j.crumb == c) || s.frameReads.contains c

/-- A crumb write is requested: it starts, or waits in the order requested (R340). -/
def State.requestCrumb (s : State) (j : CrumbJob) : State :=
  ({ s with tag := { s.tag with queue := s.tag.queue ++ [j] } } : State).nextCrumb

/-- A field crumb write is recorded in the guard record (R345). -/
def State.fieldWritten (s : State) (c : Nat) : State :=
  let s : State := { s with tag := { s.tag with fieldCount := satN 8 (s.tag.fieldCount + 1), fieldCrumb := c } }
  if s.dieUp then s.raise 14 else s

/-- The verified content of a crumb write lands (R337, R339): a location that reaches 90,000 writes is left for a free spare. -/
def State.landCrumb (s : State) (j : CrumbJob) : State :=
  let loc := s.locOf j.crumb
  let s := (s.addWear loc).commitCrumb j
  let s := match s.freeSpare with
    | some n => if s.wearOf loc ≥ 90000 then (s.moveCrumb j.crumb n).addWear (128 + n) else s
    | none => s
  match j.who with
  | .field _ => s.fieldWritten j.crumb
  | _ => s

/-- The seconds of lockout that CONSEC failures bring (R344). -/
def lockoutSecs (consec : Nat) : Option Nat :=
  if consec < 4 then none else if consec ≤ 11 then some (2 ^ (consec - 3)) else some 256

/-- A failed attempt leaves its lockout (R344). -/
def State.applyLockout (s : State) : State :=
  if s.tag.cum ≥ 64 then { s with tag := { s.tag with locked := true } }
  else { s with tag := { s.tag with lockout := (lockoutSecs s.tag.consec).map (fun n => (n, n * 1000000)) } }

/-- An Access attempt stands as a failure (R343, R344). -/
def State.failAttempt (s : State) : State :=
  let s := s.tagCount 5
  ({ s with tag := { s.tag with half := none } } : State).applyLockout

/-- A field session ends (R329): the flags stay, and the attempt of an open Access stands as a failure (R343). A crumb write it started
completes without its reply (R330). -/
def State.endSession (s : State) : State :=
  let s := if s.tag.half.isSome then s.failAttempt else s
  { s with tag := { s.tag with session := none, job := s.tag.job.map (fun j => { j with reply := false }),
                               queue := s.tag.queue.map (fun j => { j with reply := false }) } }

/-- A lockout cut short by loss of power restarts in full at the next power-up (R344). -/
def State.restartLockout (s : State) : State :=
  { s with tag := { s.tag with lockout := s.tag.lockout.map (fun e => (e.1, e.1 * 1000000)) } }

/-- The flags S0 to S3 and SL after a loss of power or a reset of the TAGF domain: S0 is A, the others persist or not, which the standard
leaves to the time elapsed (log entry 17). -/
def State.decayFlags (s : State) : State :=
  let (b1, s) := s.drawBool
  let (b2, s) := s.drawBool
  let (b3, s) := s.drawBool
  let (b4, s) := s.drawBool
  let f := fun (i : Nat) => s.tag.flags.getD i false
  { s with tag := { s.tag with flags := [false, f 1 && b1, f 2 && b2, f 3 && b3], sl := s.tag.sl && b4 } }

/-- The TAGF domain loses its power: a crumb write in progress leaves the old or the new content (R337), what waits is gone, a lockout is to
restart in full (R344), and crumbs that were out of service are so no longer (DEDUCED, log entry 49). -/
def State.tagPowerLost (s : State) : State :=
  let (done, s) := s.drawBool
  let s := match s.tag.job with | some j => if done then s.landCrumb j else s | none => s
  let s := s.endSession
  let s : State := { s with tag := { s.tag with job := none, queue := [], guardBusy := false, reply := .none, oos := [], fix := [] } }
  s.restartLockout.decayFlags

/-- The front end of the session is an ANT port. -/
def State.antSession (s : State) : Bool :=
  match s.tag.session with | some x => (match x.fe with | .comm => false | .ant _ => true) | none => false

end Sys2Proof.Machine
end

