-- ==== Sys2Proof/Machine/Rf.lean ====
section
/-! DEFINITION. Ports, geometries, illuminators and channels: the operations behind 08_rf_ports_and_illuminators.md. -/
namespace Sys2Proof.Machine

/-! ## The live draft -/

/-- The region profile of the live draft, if one is live (R162). -/
def State.region (s : State) : Option RegionProfile := s.draft.map (fun d => d.region)

/-- The geometries of the live draft (R154). -/
def State.geos (s : State) : List Geometry := match s.draft with | none => [] | some d => d.struct_.geos

/-- A geometry by its warp and index. -/
def State.geo? (s : State) (w g : Nat) : Option Geometry := s.geos.find? (fun x => x.warp == w && x.idx == g)

/-- The warps a geometry touches, in the order of its own warp first (R22, R154). -/
def geoWarps (g : Geometry) : List Nat :=
  (g.warp :: g.port / 16 :: g.txc :: g.pairs.flatMap (fun e => [e.2 / 16, e.1 / 4])).eraseDups

/-- A port the draft names (R58). -/
def State.portNamed (s : State) (p : Nat) : Bool := match s.draft with | none => false | some d => d.struct_.ports.contains p

/-- A chain the draft holds as a spare (R198). -/
def State.chainSpare (s : State) (n : Nat) : Bool := match s.draft with | none => false | some d => d.struct_.spares.contains n

/-- A chain that takes part in some geometry. -/
def State.chainInGeo (s : State) (n : Nat) : Bool := s.geos.any (fun g => g.pairs.any (fun e => e.1 == n))

/-- A chain the draft names (R195). -/
def State.chainNamed (s : State) (n : Nat) : Bool := s.chainInGeo n || s.chainSpare n

/-- An illuminator the draft uses (R173). -/
def State.txcUsed (s : State) (n : Nat) : Bool := s.expected (rdTxc n)

/-! ## Ports -/

/-- The class of a port: 0 not named, 1 Intact, 2 Short, 3 Open, 4 DC fault, 5 Overpower (PORT_STATEn). -/
def State.portClass (s : State) (p : Nat) : Nat := s.fld (Reg.portState (p / 8)) (4 * (p % 8)) 3

/-- A port is out of service. -/
def State.portOos (s : State) (p : Nat) : Bool := s.bit (Reg.portState (p / 8)) (4 * (p % 8) + 3)

/-- The state with a port's class changed. -/
def State.setPortClass (s : State) (p c : Nat) : State := s.setFld (Reg.portState (p / 8)) (4 * (p % 8)) 3 c

/-- The state with a port in or out of service. -/
def State.setPortOos (s : State) (p : Nat) (v : Bool) : State := s.setBit (Reg.portState (p / 8)) (4 * (p % 8) + 3) v

/-- The fault classes one sample shows, the one reported first (R58): Overpower, DC fault, Short, Open; `carries` is whether the
port itself carries the carrier. Powers in 0.5 dBm. -/
def faultClass (carries : Bool) (o : PortObs) : Option Nat :=
  if (!carries && decide (o.rf ≥ 46)) || (carries && decide (o.refl + 6 ≥ o.fwd)) then some 5
  else if o.mv > 3000 ∨ o.mv < -3000 then some 4
  else if o.ohms < 1000 then some 2
  else if o.ohms > 50000 then some 3
  else none

/-- A sample meets every condition of Intact (R58). -/
def obsIntact (carries : Bool) (o : PortObs) : Bool :=
  (faultClass carries o).isNone && decide (5000 ≤ o.ohms) && decide (o.ohms ≤ 20000)

/-- The first classification after a bring-up (R58). -/
def firstClass (o : PortObs) : Nat :=
  match faultClass false o with
  | some c => c
  | none => if o.ohms < 5000 then 2 else if o.ohms ≤ 20000 then 1 else 3

/-! ## Illuminators -/

/-- TXCn_STAT.RAMP: 0 OFF, 1 RAMP_UP, 2 ON, 3 RAMP_DOWN, 4 RETUNE, 5 CAL. -/
def State.ramp (s : State) (n : Nat) : Nat := s.fld (Reg.txcStat n) 0 3

/-- The state with TXCn_STAT.RAMP changed. -/
def State.setRamp (s : State) (n v : Nat) : State := s.setFld (Reg.txcStat n) 0 3 v

/-- An illuminator reaches a warp: its own, or the one whose transmit bus it drives (R151, TXCn_STAT.WARP). -/
def State.txReaches (s : State) (n w : Nat) : Bool := n == w || (s.bit (Reg.txcStat n) 23 && s.fld (Reg.txcStat n) 12 2 == w)

/-- A port answers as a tag, as far as no round holds it (R328): named by the draft, enabled, Intact, in service, and no illuminator that reaches its
warp out of OFF. -/
def State.antUp (s : State) (p : Nat) : Bool :=
  s.bit Reg.tagCfg 0 && (match s.draft with | none => false | some d => d.struct_.tagPorts.contains p) &&
  s.portClass p == 1 && !s.portOos p && (List.range 4).all (fun n => s.ramp n == 0 || !s.txReaches n (p / 16))

/-- The session of an ANT port that no longer answers ends at once, and no reply of it is sent (R329, R330). -/
def State.loseAnt (s : State) : State :=
  match s.tag.session with
  | some x => (match x.fe with | .comm => s | .ant p => if s.antUp p then s else s.endSession)
  | none => s

/-- The state with the mode of R156 changed. -/
def State.setMode (s : State) (n v : Nat) : State := s.setFld (Reg.txcStat n) 8 3 v

/-- TXCn_STAT.REASON, the out-of-service reason; 0 in service. -/
def State.txReason (s : State) (n : Nat) : Nat := s.fld (Reg.txcStat n) 24 8

/-- The carrier of an illuminator is not fully ramped down (R155, R163). -/
def State.txOn (s : State) (n : Nat) : Bool := s.ramp n == 1 || s.ramp n == 2 || s.ramp n == 3

/-- An illuminator is off, hop included (TX_ACTIVE of R102 is its opposite). -/
def State.txIdle (s : State) (n : Nat) : Bool := s.ramp n == 0 || s.ramp n == 5

/-- An illuminator can radiate for a calibration (R176): it is ready. -/
def State.txcUp (s : State) (n : Nat) : Bool := s.ready (rdTxc n)

/-- Illuminators whose carrier is on. -/
def State.txcsOn (s : State) : List Nat := (List.range 4).filter s.txOn

/-- How strong the reason of a ramp-down is. -/
def After.rank : After → Nat
  | .change => 0 | .hop _ => 1 | .relock _ _ => 2 | .off => 3 | .endRound => 4

/-- What a ramp-down leads to when two are requested (R159): the stronger one. A hop or change that meets a loss of lock follows the
relock (R155). -/
def After.join (a b : After) : After :=
  match a, b with
  | .relock k _, .hop ch => .relock k (.hop ch)
  | .hop ch, .relock k _ => .relock k (.hop ch)
  | .relock k .same, .change => .relock k .change
  | .change, .relock k .same => .relock k .change
  | a, b => if a.rank < b.rank then b else a

/-- A ramp-down is requested (R158, R159): from a ramp-up or a steady carrier it begins; during a ramp-down the two give one, fast if
either is; during a hop, with the carrier off, it cancels the ramp-up. TXCn_CNT_FAST counts a fast ramp-down once. -/
def State.rampDown (s : State) (n : Nat) (fast : Bool) (aft : After) : State :=
  let t := s.tx n
  match s.ramp n with
  | 0 => s
  | 5 => s
  | 4 => s.updTx n (fun t => { t with cancelUp := true, after := aft, waiting := false })
  | 3 =>
    let s := if fast && !t.fast then s.cnt (Reg.txcCntFast n) else s
    s.updTx n (fun t => { t with fast := t.fast || fast, after := t.after.join aft })
  | _ =>
    let s := if fast then s.cnt (Reg.txcCntFast n) else s
    ((s.setRamp n 3).setMode n 1).updTx n (fun t => { t with fast := fast, after := aft })

/-- A ramp-up begins (R158): TXCn_CNT_RAMP counts it and the mode is CW. -/
def State.rampUp (s : State) (n : Nat) : State :=
  (((s.setRamp n 1).setMode n 1).cnt (Reg.txcCntRamp n)).updTx n (fun t => { t with cancelUp := false, waiting := false, aired := true, onAt := some s.up })

/-! ## Carrier time on a channel (R162) -/

/-- The stretches of carrier on channel `c`, with those still on, as their first and last microsecond of REF. -/
def State.airSpans (s : State) (c : Nat) : List (Nat × Nat) :=
  (s.airLog.filter (fun e => e.1 == c)).map (fun e => e.2) ++
  s.txc.filterMap (fun t => match t.chan, t.onAt with | some k, some u => if k = c then some (u, s.up) else none | _, _ => none)

/-- How far back carrier that reaches to `t` goes without a break, in at most `n` stretches. -/
def unbroken (l : List (Nat × Nat)) : Nat → Nat → Nat
  | 0, t => t
  | n + 1, t => unbroken l n (l.foldl (fun m e => if e.1 < m ∧ t ≤ e.2 then e.1 else m) t)

/-- A stretch takes its place by its start. -/
def insSpan (e : Nat × Nat) : List (Nat × Nat) → List (Nat × Nat)
  | [] => [e]
  | x :: t => if e.1 ≤ x.1 then e :: x :: t else x :: insSpan e t

/-- The time that stretches in the order of their starts cover after `p`. -/
def covered : Nat → List (Nat × Nat) → Nat
  | _, [] => 0
  | p, (a, b) :: t => b - max p a + covered (max p b) t

/-- Less than 25 ms of dwell or of occupancy are left on channel `c` (R162, R207). Both are counted over all illuminators together; two carriers
at once count once (DEDUCED, log entry 28), and a profile without a window has no occupancy limit. -/
def State.airShort (s : State) (c : Nat) : Bool :=
  match s.region with
  | none => false
  | some r =>
    let l := s.airSpans c
    let dwell := s.up - unbroken l l.length s.up
    let occ := covered (s.up - 1000 * r.occWindow) (l.foldr insSpan [])
    decide (1000 * r.dwellMax < dwell + 25000) || (r.occWindow != 0 && decide (1000 * r.occLimit < occ + 25000))

/-- The carrier of an illuminator is off (R158): its stretch is kept as long as the occupancy window may need it, and R413. -/
def State.airEnds (s : State) (n : Nat) : State :=
  let w := max 1000 (match s.region with | some r => 1000 * r.occWindow | none => 0)
  let past := s.airLog.filter (fun e => decide (s.up ≤ e.2.2 + w))
  match (s.tx n).chan, (s.tx n).onAt with
  | some c, some u => ({ s with airLog := past ++ [(c, u, s.up)] } : State).updTx n (fun t => { t with onAt := none })
  | _, _ => s

/-! ## Channels -/

/-- The frequency of a channel in kHz. -/
def regionKhz (r : RegionProfile) (c : Nat) : Nat := r.channels.getD c 0

/-- The channel group that holds a channel (R162). -/
def regionGroup (r : RegionProfile) (c : Nat) : Nat := (r.groups.findIdx? (fun g => g.contains c)).getD 0

/-- Two frequencies lie at least 2 MHz apart (R163). -/
def apart (a b : Nat) : Bool := decide (a + 2000 ≤ b) || decide (b + 2000 ≤ a)

/-- The channels of the other illuminators that transmit. -/
def State.airChans (s : State) (n : Nat) : List Nat :=
  (List.range 4).filterMap (fun k => if k ≠ n ∧ s.txOn k then (s.tx k).chan else none)

/-- The channels of the other illuminators that transmit or hop, those that transmit first. -/
def State.otherChans (s : State) (n : Nat) : List Nat :=
  s.airChans n ++ (List.range 4).filterMap (fun k => if k ≠ n ∧ !s.txIdle k ∧ !s.txOn k then (s.tx k).chan else none)

/-- A carrier on channel `c` would break the coordination with another that transmits (R163): one channel for all under COCHANNEL, 2 MHz
between any two under SPREAD. -/
def State.clash (s : State) (n c : Nat) : Bool :=
  match s.region with
  | none => false
  | some r => (s.airChans n).any (fun d => if r.spread then !apart (regionKhz r c) (regionKhz r d) else c != d)

/-- The channel an illuminator takes next, and the state with its position moved on (R163). `follow`: at a round's start under
COCHANNEL it takes the channel of an illuminator that transmits; `at_` is the index of the first candidate that R275 names. What the rule
leaves open is the model's choice (DESIGN CHOICE, log entry 28): the position is 0 after a reset and entry 0 comes first; under SPREAD an entry
that is skipped returns when the order comes round to it again; and where no entry keeps the spacing the present one is taken, its carrier
staying off until it does (`upOrWait`). -/
def State.pickChan (s : State) (n : Nat) (follow : Bool) (at_ : Option Nat) : Nat × State :=
  match s.region with
  | none => (0, s)
  | some r =>
    let len := r.hopOrder.length
    if r.spread then
      let p := (at_.getD (s.tx n).hopPos)
      let ok := fun i => (s.otherChans n).all (fun c => apart (regionKhz r (r.hopOrder.getD ((p + i) % len) 0)) (regionKhz r c))
      let i := ((List.range len).find? ok).getD 0
      (r.hopOrder.getD ((p + i) % len) 0, s.updTx n (fun t => { t with hopPos := (p + i + 1) % len }))
    else
      match follow, s.otherChans n with
      | true, c :: _ => (c, s)
      | _, _ =>
        let p := at_.getD s.hopPos
        (r.hopOrder.getD (p % len) 0, { s with hopPos := (p + 1) % len })

/-- Another illuminator has radiated on channel `c` and stays on it (R162). -/
def State.chanHeld (s : State) (n c : Nat) : Bool :=
  (List.range 4).any (fun k => k != n && !s.txIdle k && (s.tx k).aired && (s.tx k).chan == some c)

/-- An illuminator leaves its channel. The off-time of a channel on which it has radiated begins unless another one stays on it: it is counted
over all illuminators together (R162). -/
def State.leaveChan (s : State) (n : Nat) : State :=
  let off := match s.region, (s.tx n).chan with
    | some r, some c => if r.offTime ≠ 0 ∧ (s.tx n).aired ∧ !s.chanHeld n c ∧ !s.chanOff.contains c then [c] else []
    | _, _ => []
  ({ s with chanOff := s.chanOff ++ off } : State).updTx n (fun t => { t with chan := none, aired := false })

/-- An illuminator is retuned to a channel (R155, R157, R162), leaving the one it is on: TXCn_FREQ, the cap and the level in effect follow. -/
def State.retune (s : State) (n ch level : Nat) : State :=
  match s.region with
  | none => s
  | some r =>
    let s := if (s.tx n).chan = some ch then s else s.leaveChan n
    let cap := r.caps.getD ch 0
    let s := s.setReg (Reg.txcFreq n) (wordOf (regionKhz r ch))
    let s := s.setReg (Reg.txcPower n) (wordOf (cap * 65536 + min level cap))
    ((s.setRamp n 4).updTx n (fun t => { t with chan := some ch, waiting := false })).loseAnt

/-- The synthesiser has settled on its channel: the ramp-up begins, or waits with the carrier off for the end of the channel's off-time (R164)
or for the carriers that it may not transmit beside (R163). -/
def State.upOrWait (s : State) (n : Nat) : State :=
  match (s.tx n).chan with
  | none => s.rampUp n
  | some c =>
    if s.chanOff.contains c || s.clash n c then s.updTx n (fun t => { t with waiting := true })
    else s.rampUp n

/-- The level code a round asks for (R157). -/
def levelCode (words : List Word) : Nat := fieldN (words.getD 0 0) 0 7

/-! ## Chains and their ports -/

/-- A chain is in service. -/
def State.chainIn (s : State) (n : Nat) : Bool := (s.chain n).svc == .inService

/-- The chain that listens for chain `c` (R198): itself in service, else the spare that stands in for it. -/
def State.standIn (s : State) (c : Nat) : Option Nat :=
  if s.chainIn c then some c
  else (List.range 16).find? (fun n => s.chainIn n && s.bit (Reg.rxcStat n) 22 && s.fld (Reg.rxcStat n) 16 4 == c)

/-- The pairs of a geometry that can listen now (R171, R198): ports in service, chains in service or stood in for. -/
def State.livePairs (s : State) (g : Geometry) : List (Nat × Nat) :=
  g.pairs.filterMap (fun e => if s.portOos e.2 then none else (s.standIn e.1).map (fun c => (c, e.2)))

/-- RXCn_STAT shows the port a chain listens on (PORT_VALID, XOVER, PORT) and BEAM_VALID. -/
def State.showChain (s : State) (n p : Nat) : State :=
  let s := s.setFld (Reg.rxcStat n) 8 8 (128 + cond (n / 4 != p / 16) 64 0 + p)
  s.setBit (Reg.rxcStat n) 7 true

/-- A chain listens on no port and is in no beam. -/
def State.hideChain (s : State) (n : Nat) : State := (s.setFld (Reg.rxcStat n) 8 8 0).setBit (Reg.rxcStat n) 7 false

/-- Bus `k` of the receive buses of a warp carries port `p` (VALID and PORT of PORT_WARP_RXw). -/
def State.busHas (s : State) (p k : Nat) : Bool :=
  s.bit (Reg.portWarpRx (p / 16)) (8 * k + 7) && s.fld (Reg.portWarpRx (p / 16)) (8 * k) 6 == p

/-- The receive bus that a port goes on (R21): the one it is on, else the lowest one that is free. The spec does not say which bus of its warp a
port takes (DESIGN CHOICE, log entry 10). -/
def State.rxBus (s : State) (p : Nat) : Nat :=
  match (List.range 4).find? (s.busHas p) with
  | some k => k
  | none => ((List.range 4).find? (fun k => !s.bit (Reg.portWarpRx (p / 16)) (8 * k + 7))).getD 0

/-- The gain code of a measured peak (R179): the highest G = 2 code, up to 50 dB, that places it at −6 dBFS or below, full scale being
−10 dBm − G; three codes less once the chain has clipped in the round (R181). -/
def gainCode (peak : Int) (clipped : Bool) : Nat :=
  let k := ((-16 - peak) / 2).toNat
  let k := min 25 k
  if clipped then k - 3 else k

/-- FIXED mode holds throughout (R179): GAIN shows RXCn_CFG.GAIN as soon as AGC = 1. -/
def State.fixedGain (s : State) (n : Nat) : State :=
  if s.bit (Reg.rxcCfg n) 7 then s.setFld (Reg.rxcStat n) 0 5 (s.fld (Reg.rxcCfg n) 0 5) else s

/-- A chain listens on port `p` in a calibration point: PORT_VALID, XOVER and PORT, and no beam. -/
def State.listenCal (s : State) (n p : Nat) : State := s.setFld (Reg.rxcStat n) 8 8 (128 + cond (n / 4 != p / 16) 64 0 + p)

/-- PORT_WARP_RXw shows the port of chain `n` on its bus (VALID, XOVER, PORT). -/
def State.showBus (s : State) (n p : Nat) : State :=
  s.setFld (Reg.portWarpRx (p / 16)) (8 * s.rxBus p) 8 (128 + cond (n / 4 != p / 16) 64 0 + p)

/-- Chain `n` listens on port `p` (PORT_VALID and PORT of RXCn_STAT). -/
def State.listensOn (s : State) (n p : Nat) : Bool := s.bit (Reg.rxcStat n) 15 && s.fld (Reg.rxcStat n) 8 6 == p

/-- RXCn_CANC_STAT with what the canceller measures, `v`: SAT, RESID and SUPP, and CONV for a suppression of 45 dB or more. -/
def cancWord (v : Word) : Word := setBitN (v &&& 0x40FFFF00) 31 (decide (45 ≤ fieldN v 8 8))

/-- A carrier is on the air and chain `n` listens: its canceller adapts without a break (R165). -/
def State.cancLive (s : State) (n : Nat) : Bool := s.bit (Reg.rxcStat n) 15 && !s.txcsOn.isEmpty

/-- Where the canceller of a chain has come to (R165): what it measures and its weights are not fixed by the spec (free values). -/
def State.adaptTaps (s : State) (n : Nat) : State :=
  let (v, s) := s.drawWord
  let s := s.setReg (Reg.rxcCancStat n) (cancWord v)
  (List.range 4).foldl (fun (s : State) k => let (x, s) := s.drawWord; s.setReg (Reg.rxcCancTap n k) (x &&& 0x0FFF0FFF)) s

/-- A port is on no receive bus. -/
def State.hideBus (s : State) (p : Nat) : State :=
  (List.range 4).foldl (fun (s : State) k => if s.busHas p k then s.setFld (Reg.portWarpRx (p / 16)) (8 * k) 8 0 else s) s

/-- The receive switches of a port open (R151, R170): the chain that listens there stops, its canceller where it has come to, and the port is on no
bus. -/
def State.deafPort (s : State) (p : Nat) : State :=
  let s := (List.range 16).foldl (fun (s : State) n =>
    if s.listensOn n p then (if s.cancLive n then s.adaptTaps n else s).hideChain n else s) s
  s.hideBus p

/-- The receive switches of a calibration point open (R167): those of every chain that listens on a warp of the round, which owns its warps. The
taps start at zero after a calibration (R166). -/
def State.closePoint (s : State) (r : Round) : State :=
  ((List.range 16).filter (fun n => s.bit (Reg.rxcStat n) 15 && r.warps.contains (s.fld (Reg.rxcStat n) 8 6 / 16))).foldl (fun (s : State) n =>
    (List.range 4).foldl (fun (s : State) k => s.setReg (Reg.rxcCancTap n k) 0) (s.deafPort (s.fld (Reg.rxcStat n) 8 6))) s

/-- The cancellers of the chains that listen hold what they have come to: the carrier falls. -/
def State.holdTaps (s : State) : State := ((List.range 16).filter s.cancLive).foldl State.adaptTaps s

end Sys2Proof.Machine
end

