-- ==== Sys2Proof/Machine/RegRules.lean ====
section
/-! DEFINITION. The values a register or profile may take (R137, R201, R226, R318 and the register tables). A write that breaks one
leaves the register as it was; a draft that carries one fails proof (R473). -/
namespace Sys2Proof.Machine

/-- The value a whole register may hold, given the other registers (R137 and the register tables) (DEDUCED, log entry 32). -/
def State.wordOk (s : State) (a : Nat) (w : Word) : Bool :=
  let f := fun lo n => fieldN w lo n
  if a = Reg.sysProfNext then decide (f 0 3 ≤ 4)
  else if a = Reg.loomCtrl then decide (6 ≤ f 16 5) && decide (f 8 4 ≠ 0)
  else if a = Reg.legCfg then
    decide (1 ≤ f 16 5) && decide (f 16 5 ≤ 16) && decide (f 8 4 ≤ 8) && decide (f 4 4 ≠ 0) && decide (f 0 2 ≠ 3)
  else if a = Reg.umaCfg then decide (f 4 4 ≠ 0)
  else if a = Reg.peerCfg then decide (f 16 16 ≠ 0) && decide (f 16 16 ≠ 0xFFFF)
  else if a = Reg.peerWin then decide (500 ≤ f 16 16) && decide (f 16 16 ≤ 10000)
  else if a = Reg.schedCtrl then decide (f 8 8 ≠ 0)
  else if a = Reg.schedLoad then decide (f 0 8 < f 16 8)
  else if a = Reg.seenCfg then decide (f 16 8 ≠ 0)
  else if a = Reg.fifoCfg then decide (f 16 4 < s.fld Reg.schedLoad 0 8)
  else if a = Reg.pingCfg then decide (f 28 4 ≠ 0) && decide (f 20 4 ≠ 0)
  else if a = Reg.pingSweep then f 0 16 == 0 || decide (32 ≤ f 0 16)
  else if a = Reg.pingThr then decide (f 10 10 < f 0 10) && decide (f 0 10 < f 20 10)
  else if a = Reg.mgmtCfg then decide (10 ≤ f 2 10) && decide (f 2 10 ≤ 1000)
  else if 0x8000 ≤ a ∧ a < 0xC000 ∧ a % 4096 = 0xC then decide (8 ≤ f 0 7) && decide (f 0 7 ≤ 64)
  else if 0x10000 ≤ a ∧ a < 0x20000 ∧ a % 4096 = 0x4 then decide (f 8 2 ≠ 3) && decide (f 0 5 ≤ 25)
  else true

/-- The forward link of a profile word (R201): no rejected code, a pulse of at least 2 us, and the region's modulation and Tari. -/
def State.forwardOk (s : State) (a : Word) : Bool :=
  let tari := fieldN a 28 2
  let pw := fieldN a 24 2
  let region := match s.region with
    | none => true
    | some r => decide (r.modes / 2 ^ fieldN a 23 1 % 2 = 1) && decide (r.minTari ≤ tari)
  decide (tari ≠ 3) && decide (fieldN a 26 2 ≠ 3) && decide (pw ≠ 3) && decide (20000 ≤ 6250 * 2 ^ tari * (3 + pw)) && region

/-- A LEG_LINK profile is valid (R201). TRcal is DR / BLF and `rt4` four times Tari plus data-1, in ns, compared over 3 times BLF; DR, M, TREXT and
BLF are ignored for U0 (DEDUCED, log entry 15). -/
def State.legLinkOk (s : State) (a b : Word) : Bool :=
  let blf := fieldN a 0 10
  let rt4 := 6250 * 2 ^ fieldN a 28 2 * (10 + fieldN a 26 2)
  let tr := if bitN a 22 then 64000000 else 24000000
  let link := bitN a 30 ||
    (decide (40 ≤ blf) && decide (blf ≤ 640) && decide (17200 * 3 * blf ≤ tr) && decide (tr ≤ 200000 * 3 * blf) &&
     decide (11 * rt4 * 3 * blf ≤ 40 * tr) && decide (4 * tr ≤ 3 * rt4 * 3 * blf))
  let q0 := fieldN b 8 4
  let sing := decide (fieldN b 12 4 ≤ q0) && decide (q0 ≤ fieldN b 16 4) && decide (1 ≤ fieldN b 20 4) && decide (fieldN b 20 4 ≤ 8)
  s.forwardOk a && link && sing && decide (fieldN b 6 2 ≠ 1)

/-- The BC of a UMA_LINK word lies in its own range and in that of the region (R226). -/
def State.bcOk (s : State) (a : Word) : Bool :=
  let bc := fieldN a 16 6
  let region := match s.region with | none => true | some r => decide (r.bcLo ≤ bc) && decide (bc ≤ r.bcHi)
  decide (30 ≤ bc) && region

/-- A UMA_LINK word is valid (R201, R226). The codes 0b10 and 0b11 of CONST0, which R235 has for class B rounds, pass in every profile (DESIGN CHOICE,
log entry 33). -/
def State.umaLinkOk (s : State) (a : Word) : Bool := s.forwardOk a && s.bcOk a

/-- A CRC preset may be committed (R318): W from 1 to 32, and no value bit above it. -/
def crcPresetOk (cfg poly init xor : Word) : Bool :=
  let w := fieldN cfg 0 6
  decide (1 ≤ w) && decide (w ≤ 32) && [poly, init, xor].all (fun v => decide (v.toNat < 2 ^ w))

end Sys2Proof.Machine
end

