-- ==== Sys2Proof/Machine/QueueOps.lean ====
section
/-! DEFINITION. The memory port's queue as its requesters see it (19_memory_port.md R391 to R394, R28): devices, submission, and the entries that log,
proof and flash writes submit. -/
namespace Sys2Proof.Machine

/-- MEMP_STAT.DEV1: 0 absent, 1 PSRAM, 2 mirror flash, 3 unusable. -/
def State.dev1 (s : State) : Nat := s.fld Reg.mempStat 20 2

/-- A device is out of service (MEMP_STAT.OOS0 and OOS1). -/
def State.memOos (s : State) (dev : Bool) : Bool := s.bit Reg.mempStat (22 + cond dev 1 0)

/-- A mirror is in service (R400). -/
def State.mirrorIn (s : State) : Bool := s.dev1 == 2 && !s.memOos true

/-- PSRAM is in service. -/
def State.psramIn (s : State) : Bool := s.dev1 == 1 && !s.memOos true

/-- The population store is in use (R296): SEEN_CFG.POP. -/
def State.popIn (s : State) : Bool := s.bit Reg.seenCfg 0

/-- An OUT of a device is live: the port starts nothing more on it from the queue (R401). -/
def State.leaving (s : State) (dev : Bool) : Bool := s.cmds.any (fun c => c.kind == .mempOut (cond dev 1 0))

/-- The device a flash read goes to (R400): the mirror while the flash on MCS0_N is out, once what that had begun is done (R403). -/
def State.readDev (s : State) : Bool := s.memOos false && !s.leaving false && s.mirrorIn

/-- A chain on PSRAM stays within the maximum chip-select low time (R394). -/
def State.tcemOk (s : State) (es : List MemEntry) : Bool :=
  (selectCycles (es.map (fun e => { e with dummy := s.fld Reg.mempPsram 16 8 }))).all
    (fun c => decide (c * mclkHalfNs (s.fld Reg.mempStat 16 3) ≤ 2 * s.fld Reg.mempPsram 0 16))

/-- A chain that the port can run (R394): at most 8 entries of one device, which keep PSRAM selected for no longer than it allows. -/
def State.chainOk (s : State) (es : List MemEntry) : Bool :=
  let one := match es with | [] => true | e :: r => r.all (fun x => x.dev == e.dev)
  let ram := es.any (fun e => e.dev) && s.dev1 == 1
  decide (es.length ≤ 8) && one && es.all MemEntry.wf && (!ram || s.tcemOk es)

/-- The queue accepts a chain now (R394): every entry fits. In QUIESCE only the persistence of the event log is accepted (R98), and nothing under
EXTEST (R45). -/
def State.accepts (s : State) (es : List MemEntry) : Bool :=
  let quiet := match s.phase with | .quiesce _ => true | _ => false
  let isLog := fun (e : MemEntry) => match e.job with | .log _ => true | .logErase => true | _ => false
  !s.memp.frozen && (!quiet || es.all isLog) && decide (s.memp.queue.length + es.length ≤ 32)

/-- What the spec leaves to the requester of an entry (the command byte, the lanes of the first phases, the dummy cycles, the buffer) is free
(DESIGN CHOICE, log entry 40). -/
def State.fillEntries (s : State) (es : List MemEntry) : List MemEntry × State :=
  let ram := es.any (fun e => e.dev) && s.dev1 == 1
  let (w, s) := s.drawWord
  let (b, s) := s.drawWord
  (es.map (fun e => { e with cmd := BitVec.ofNat 8 w.toNat,
                             cmdLanes := if ram then 3 else fieldN w 16 2, addrLanes := if ram then 3 else fieldN w 18 2,
                             dummy := if ram then s.fld Reg.mempPsram 16 8 else fieldN w 8 5, buf := b.toNat }), s)

/-- A chain of entries is submitted whole (R394): one that the port cannot run is refused, and one that the queue does not accept yet waits with its
requester (DESIGN CHOICE, log entry 40). -/
def State.submit (s : State) (es : List MemEntry) : State :=
  if !s.chainOk es then s
  else if !s.accepts es then { s with memp := { s.memp with waiting := s.memp.waiting ++ [es] } }
  else
    let (es, s) := s.fillEntries es
    { s with memp := { s.memp with queue := s.memp.queue ++ es } }

/-- The chains that wait are submitted again, in their order. -/
def State.pumpWaiting (s : State) : State :=
  s.memp.waiting.foldl (fun (s : State) es => s.submit es) { s with memp := { s.memp with waiting := [] } }

/-- An entry of the port's own (R400): it takes no place in the queue. -/
def State.owe (s : State) (e : MemEntry) : State :=
  let (es, s) := s.fillEntries [e]
  { s with memp := { s.memp with owed := s.memp.owed ++ es } }

/-- A flash entry in the read mode that discovery chose (R389, R396). -/
def State.flashEntry (s : State) (addr len level : Nat) (write prog : Bool) (job : MemJob) : MemEntry :=
  { dev := s.readDev, cmd := 0, addr := addr, addrBytes := 4, dummy := 0, len := len, cmdLanes := 0, addrLanes := 0, lanes := s.fld Reg.mempStat 6 2,
    dtr := s.bit Reg.mempStat 9, write := write, held := true, cont := false, level := level, buf := 0, prog := prog, job := job }

/-- Every entry that the port holds: in progress, programmed or being read back, its own, queued, and waiting for room. -/
def Memp.all (m : Memp) : List MemEntry := m.cur.toList ++ m.prog.toList ++ m.checking.toList ++ m.owed ++ m.queue ++ m.waiting.flatten

/-- The next entry of a task (R28, R397): the sector it stands in is erased first, then a page of 256 bytes is programmed. -/
def State.taskEntry (s : State) (t : FlashTask) : MemEntry :=
  if t.only || !t.erased then s.flashEntry (t.pos / 4096 * 4096) 0 5 true true (.task t.id)
  else s.flashEntry t.pos (min 256 (t.stop - t.pos)) 5 true true (.task t.id)

/-- An entry carries a task on. -/
def MemEntry.isTask (e : MemEntry) : Bool := match e.job with | .task _ => true | _ => false

/-- A task that writes the update record. -/
def FlashTask.isRecord (t : FlashTask) : Bool := match t.kind with | .record _ _ => true | _ => false

/-- With no task's entry in the port the running half goes on with the next task where it is: one that writes the update record, or the first
(DESIGN CHOICE, log entry 40). -/
def State.pumpTask (s : State) : State :=
  match (s.memp.tasks.find? FlashTask.isRecord).or s.memp.tasks.head? with
  | none => s
  | some t => if s.mgmt.running.isNone || s.memp.all.any MemEntry.isTask then s else s.submit [s.taskEntry t]

/-- A task on the flash begins, from an address on. -/
def State.addTask (s : State) (kind : TaskKind) (addr len : Nat) (only : Bool) : State :=
  let id := s.memp.tasks.foldl (fun a t => max a (t.id + 1)) 0
  ({ s with memp := { s.memp with tasks := s.memp.tasks ++ [{ id := id, kind := kind, pos := addr, stop := addr + max 1 len, erased := false, only := only, begun := false }] } } :
    State).pumpTask

/-- The end of the regions of R398. -/
def flashEnd : Nat := 0x2000000

/-- The next page of a resilver is read from the flash in service, at level 5 (R401). -/
def State.readCopy (s : State) (off : Nat) : State := s.submit [s.flashEntry off 256 5 false false (.copy off)]

/-- A flash is being resilvered (MEMP_STAT.RESILVER). -/
def State.resilvering (s : State) : Bool := s.bit Reg.mempStat 24

/-- A resilver that nothing in the queue carries on goes on where it is (R401). -/
def State.pumpCopy (s : State) : State :=
  let isCopy := fun (e : MemEntry) => match e.job with | .copy _ => true | _ => false
  if s.resilvering && decide (s.memp.copied < flashEnd) && !s.memp.all.any isCopy then
    s.readCopy s.memp.copied
  else s

/-- Entries of the event log that a batch in the port carries. -/
def State.logQueued (s : State) : Nat :=
  (s.memp.all.filter (fun e => e.write)).foldl (fun a e => match e.job with | .log n => a + n | _ => a) 0

/-- The entries of a batch of `n` event-log entries, of which the first goes to place `at_` of the ring of 262,144 (R398, R416): pages of up to 16
entries that do not cross a sector, and before the first page of a sector that still holds its old entries its erase. `kept` entries lie in the
ring before the first of them. -/
def State.logPages (s : State) : Nat → Nat → Nat → Nat → List MemEntry
  | 0, _, _, _ => []
  | f + 1, n, at_, kept =>
    if n = 0 then []
    else
      let k := min n (16 - at_ % 16)
      let a := 0x1A00000 + 16 * at_
      let erase := if at_ % 256 = 0 ∧ 262144 < kept + 256 then [s.flashEntry a 0 4 true true .logErase] else []
      let kept := if at_ % 256 = 0 ∧ 262144 < kept + 256 then kept - 256 else kept
      erase ++ s.flashEntry a (16 * k) 4 true true (.log k) :: s.logPages f (n - k) ((at_ + k) % 262144) (kept + k)

/-- A batch of the event log is submitted (R28, R416): as many of the entries not persisted as eight queue entries carry. -/
def State.submitLog (s : State) : State :=
  let q := s.logQueued
  let n := min 128 (s.mgmt.unsaved - q)
  if n = 0 then s
  else s.submit ((s.logPages 8 n ((s.mgmt.nextSeq + q - s.mgmt.unsaved) % 262144) (s.mgmt.flashLog.length + q)).take 8)

/-- A page of the event log is in flash (R416): the oldest `k` entries not persisted are, PERSIST_FAIL clears, and a number of lost entries is
recorded in one entry. In QUIESCE the rest follows. -/
def State.persistLog (s : State) (k : Nat) : State :=
  let un := s.mgmt.log.take s.mgmt.unsaved
  let n := s.mgmt.lostNoted
  let s : State := { s with mgmt := { s.mgmt with flashLog := un.drop (un.length - k) ++ s.mgmt.flashLog, unsaved := s.mgmt.unsaved - k,
                                                  lostNoted := 0 } }
  let s := s.setBit Reg.mgmtHealth 31 false
  let s := if n = 0 then s else s.logEvent 0x0D 5 (wordOf n)
  match s.phase with | .quiesce _ => s.submitLog | _ => s

/-- The flash address of a draft slot (R398): PROF0 to PROF3, FACTORY. -/
def slotAddr (slot : Nat) : Nat := if slot = 4 then 0xD00000 else 0xE00000 + 0x100000 * slot

/-- The next part of a draft is read for its proof (R28 level 3): a chain of 8 entries, from byte `off` of what is proofed. -/
def State.readProof (s : State) (slot : Nat) (staged : Bool) (off : Nat) : State :=
  let base := if staged then 0x1200000 else slotAddr slot
  s.submit ((List.range 8).map (fun k =>
    { s.flashEntry (base + off + 256 * k) 256 3 false false (.proof slot) with cont := decide (k < 7) }))

/-- A proof starts (R85): its stage, its slot, and the first reads of the draft. -/
def State.startProof (s : State) (slot : Nat) (staged : Bool) : State :=
  let s := s.setReg Reg.sysDraftStat (wordOf (0xFF0000 + slot * 256 + 0x10 + cond (s.bit Reg.sysDraftStat 2) 4 0 + 1))
  ({ s with upd := { s.upd with proof := some slot, fromStaging := staged } } : State).readProof slot staged 0

end Sys2Proof.Machine
end

