-- ==== Sys2Proof/Machine/DraftOps.lean ====
section
/-! DEFINITION. Drafts: the proof of R85 and R422 to R424, and a draft going live (R88, R91, R473). -/
namespace Sys2Proof.Machine

/-! ## Structure stage (R21 to R23, R154, R162, R163) -/

/-- Two warps are the same or joined by a crossover link (R21). -/
def warpsMeet (a b : Nat) : Bool := a == b || a == b + 1 || b == a + 1

/-- The crossover link between two adjacent warps, by its lower warp; none for one warp. -/
def crossLink (a b : Nat) : Option Nat := if a = b then none else some (min a b)

/-- A geometry obeys R21, R23 and R154. -/
def geoOk (spares : List Nat) (g : Geometry) : Bool :=
  let chains := g.pairs.map (fun e => e.1)
  let ports := g.pairs.map (fun e => e.2)
  let uses := fun l => ((g.pairs.filterMap (fun e => crossLink (e.1 / 4) (e.2 / 16))).filter (fun x => x == l)).length
  let outs := (ports.map (fun p => p / 16)).eraseDups
  decide (g.txc < 4) && decide (g.port < 64) && g.port / 16 == g.warp && warpsMeet g.txc (g.port / 16) &&
  decide (1 ≤ g.pairs.length) && decide (g.pairs.length ≤ 4) &&
  g.pairs.all (fun e => decide (e.1 < 16) && decide (e.2 < 64) && warpsMeet (e.1 / 4) (e.2 / 16) && warpsMeet (e.2 / 16) g.warp &&
    !spares.contains e.1) &&
  decide chains.Nodup && decide ports.Nodup && [0, 1, 2].all (fun l => decide (uses l ≤ 2)) &&
  decide ((outs.filter (fun w => w != g.warp)).length ≤ 1)

/-- STRUCT is sound: its geometries, at most 32 per warp counting those that cross into it, its decoders (R85, R154). -/
def structOk (t : DraftStruct) : Bool :=
  t.geos.all (geoOk t.spares) && [0, 1, 2, 3].all (fun w => decide ((t.geos.filter (fun g => (geoWarps g).contains w)).length ≤ 32)) &&
  decide ((t.geos.map (fun g => (g.warp, g.idx))).Nodup) && t.geos.all (fun g => decide (g.idx < 32)) &&
  t.ports.all (fun p => decide (p < 64)) && t.spares.all (fun n => decide (n < 16)) && t.decoders.all (fun d => decide (d < 13)) &&
  decide t.decoders.Nodup && (match t.peerGeo with | none => true | some g => geoOk t.spares g)

/-- Channels that can carry together at 2 MHz spacing, taken greedily from the lowest (R163). -/
def spreadCount (l : List Nat) : Nat :=
  ((l.mergeSort).foldl (fun (a : Nat × Option Nat) c =>
    match a.2 with | none => (1, some c) | some p => if p + 2000 ≤ c then (a.1 + 1, some c) else a) (0, none)).1

/-- REGION is within the ranges of R162 and R56, holds four carriers under SPREAD (R163), and its ping channel and level are those of R347;
the CW interval reaches the minimum of R166. -/
def regionOk (d : Draft) : Bool :=
  let r := d.region
  let n := r.channels.length
  decide (1 ≤ n) && decide (n ≤ 64) && r.channels.all (fun f => decide (860000 ≤ f) && decide (f ≤ 960000)) &&
  decide (1 ≤ r.hopOrder.length) && decide (r.hopOrder.length ≤ 256) && r.hopOrder.all (fun i => decide (i < n)) &&
  r.caps.length == n && r.caps.all (fun c => decide (c ≤ 74)) &&
  decide (1 ≤ r.dwellMax) && decide (r.dwellMax ≤ 10000) && decide (r.offTime ≤ 10000) &&
  decide (r.groups.length ≤ 8) && (List.range n).all (fun i => (r.groups.filter (fun g => g.contains i)).length == 1) &&
  r.groups.all (fun g => g.all (fun i => g.all (fun j => decide (regionKhz r i ≤ regionKhz r j + 4000)))) &&
  (!r.spread || decide (4 ≤ spreadCount r.channels)) &&
  decide (860000 ≤ r.pingKhz) && decide (r.pingKhz ≤ 960000) && decide (r.pingLevel ≤ 20) && decide (50 ≤ d.cwUs)

/-- The stock profile ETSI-L (R475), with a hop order, which the rule does not give. -/
def etsiL (hopOrder : List Nat) : RegionProfile :=
  { channels := [865700, 866300, 866900, 867500], hopOrder := hopOrder, caps := List.replicate 4 74, modes := 7, minTari := 0, dwellMax := 4000,
    offTime := 100, occLimit := 0, occWindow := 0, spread := false, groups := [[0, 1, 2, 3]], bcLo := 40, bcHi := 64, pingKhz := 866900,
    pingLevel := 10 }

/-- The stock profile FCC-H (R475): 50 channels at 500 kHz, in six groups of 7 and one of 8. -/
def fccH (hopOrder : List Nat) : RegionProfile :=
  { channels := (List.range 50).map (fun k => 902750 + 500 * k), hopOrder := hopOrder, caps := List.replicate 50 74, modes := 7, minTari := 0,
    dwellMax := 400, offTime := 0, occLimit := 400, occWindow := 20000, spread := true,
    groups := (List.range 7).map (fun g => (List.range (if g = 6 then 8 else 7)).map (fun k => 7 * g + k)), bcLo := 30, bcHi := 64,
    pingKhz := 915250, pingLevel := 10 }

/-! ## D fields (R473) -/

/-- The word of a register with the values a list of definitions gives to its bits. -/
def applyDefs (defs : List RegDef) (a : Nat) (w : Word) : Word :=
  defs.foldl (fun w e => if e.addr = a then (w &&& ~~~(wordOf e.mask)) ||| (wordOf e.val &&& wordOf e.mask) else w) w

/-- The D bits of a register as a draft gives them: its sections, else REGDEF, else the hardware default. -/
def draftWord (d : Draft) (r : RegDesc) (a : Nat) : Word :=
  let w := applyDefs (d.regDefs.filter (fun e => e.sec == 0x0D)) a r.resetWord
  applyDefs (d.regDefs.filter (fun e => e.sec != 0x0D)) a w

/-- The registers with D fields and one address of each. -/
def dAddrs : List (RegDesc × Nat) := (regTable.filter (fun r => r.dmask != 0)).flatMap (fun r => r.addrs.map (fun a => (r, a)))

/-- A U0 profile has the one forward setting of R220: Tari 25 us, data-1 of 2.0 Tari, DSB-ASK. -/
def u0Ok (a : Word) : Bool := !bitN a 30 || (fieldN a 28 2 == 2 && fieldN a 26 2 == 2 && !bitN a 23)

/-- A schedule entry keeps the TPW limit of R255 if it uses Umaolo inventory slots, as an inventory or to locate the target of an access (R267): HW = 3
allows TPW = 0 only. -/
def tpwOk (w : List Word) : Bool :=
  let f := fun i lo n => fieldN (w.getD i 0) lo n
  !((f 0 28 3 == 1 || f 0 28 3 == 2) && f 0 26 2 == 2) || decide (2 ^ f 3 10 2 * (f 3 9 1 + 1) ≤ 8)

/-- POSITION is within R191 and R193: an x for every named port, at most 255 bays and at most 32 reference tags. -/
def posOk (t : DraftStruct) (x : DraftPos) : Bool :=
  t.ports.all (fun p => x.portX.any (fun e => e.1 == p)) && decide (x.bays.length ≤ 255) && decide (x.refs.length ≤ 32)

/-- A section gives every D field a value within its range (R473): profiles are judged whole when they are marked VALID (R201), the BC of a
Umaolo profile also without the mark unless it is 0, the hardware default (R226) (DEDUCED, log entry 33). Peer mode needs a dwell maximum of
160 ms whichever section enables it (R269). -/
def State.sectionOk (s : State) (d : Draft) (ty : Nat) : Bool :=
  let s : State := { s with upd := { s.upd with live := some d } }
  let mine := d.regDefs.filter (fun e => e.sec == ty)
  let val := fun a => match regAt a with | none => (0 : Word) | some r => draftWord d r a
  mine.all (fun e => match regAt e.addr with
    | none => false
    | some r =>
      let w := val e.addr
      decide (e.mask &&& r.dmask = e.mask) &&
      (if 0x24000 ≤ e.addr ∧ e.addr < 0x24040 then
         let a := e.addr / 8 * 8
         !bitN (val a) 31 || (s.legLinkOk (val a) (val (a + 4)) && u0Ok (val a))
       else if 0x28000 ≤ e.addr ∧ e.addr < 0x28020 then (if bitN w 31 then s.umaLinkOk w else fieldN w 16 6 == 0 || s.bcOk w)
       else if 0x3C050 ≤ e.addr ∧ e.addr < 0x3C080 then
         let a := 0x3C000 + (e.addr - 0x3C000) / 16 * 16
         !bitN (val a) 31 || crcPresetOk (val a) (val (a + 4)) (val (a + 8)) (val (a + 12))
       else s.wordOk e.addr w)) &&
  (match ty with
   | 0x01 => structOk d.struct_
   | 0x02 => regionOk d
   | 0x05 => decide (1 ≤ d.seen.coal) && decide (d.seen.coal ≤ 255) && !(d.seen.epcw && d.seen.filter.any (fun r => r.family == 0))
   | 0x06 => decide (10 ≤ d.calPeriod) && decide (d.calPeriod ≤ 3600) && decide (10 ≤ d.hopEpoch) && decide (d.hopEpoch ≤ d.region.dwellMax) &&
             d.schedule.all (fun e => decide (e.1 < 256) && tpwOk e.2)
   | 0x04 => decide (1 ≤ d.missMax) && decide (d.missMax ≤ 15) && decide (1 ≤ d.wrWait) && decide (d.wrWait ≤ 20) &&
             d.groups.all (fun g => decide (g.lo ≤ g.hi) && decide (g.hi < 240))
   | 0x09 => (match d.pos with | none => true | some x => posOk d.struct_ x)
   | 0x0B => decide (d.peerLevel ≤ 60)
   | _ => true) &&
  (!mine.any (fun e => e.addr == Reg.peerCfg) || !bitN (val Reg.peerCfg) 0 || decide (160 ≤ d.region.dwellMax))

/-! ## Proof (R85, R422 to R424) -/

/-- Stage 0b001: the header and the section table. -/
def headerOk (tally : Bool) (i : DraftImage) : Bool :=
  let f := fieldBE i.bytes
  let t := draftTable i
  let n := t.length
  let rising := (t.zip (t.drop 1)).all (fun e => decide (e.1.offset + e.1.size ≤ e.2.offset))
  f 0 4 == 0x44524654 && f 4 1 == 1 && decide (1 ≤ n) && decide (n ≤ 32) && f 6 1 / (if tally then 2 else 1) % 2 == 1 &&
  decide (64 + 17 * n + 64 ≤ draftLen i) && decide (draftLen i ≤ 1048576) && f 12 2 == 0x6480 && rising &&
  t.all (fun e => e.zeros && decide (64 + 16 * n ≤ e.offset) && decide (e.offset + e.size + 64 ≤ draftLen i) && decide (1 ≤ e.size) &&
    decide (1 ≤ e.ty) && decide (e.ty ≤ 0x0D))

/-- The section that fails stage 0b100, if one does: 0xFF for a missing required section, the second entry of a type that appears twice,
or the section at fault (R424) (DEDUCED, log entry 47). -/
def State.structFault (s : State) (i : DraftImage) : Option Nat :=
  let tys := (draftTable i).map (fun e => e.ty)
  if !([1, 2, 5, 6, 0x0D].all (fun t => tys.contains t)) then some 0xFF
  else match (List.range tys.length).find? (fun k => (tys.take k).contains (tys.getD k 0)) with
    | some k => some k
    | none => (List.range tys.length).find? (fun k => !s.sectionOk (draftOf i) (tys.getD k 0))

/-- The first failing stage of a proof, with the section it names; none when it passes (R85). An empty slot fails its header (R84), and no
CRC engine in service stage 0b010 (R322). -/
def State.proofFault (s : State) (img : Option DraftImage) : Option (Nat × Nat) :=
  match img with
  | none => some (1, 0xFF)
  | some i =>
    if !headerOk s.board.tally i then some (1, 0xFF)
    else if (List.range 4).all (fun n => s.bit Reg.crcStat (16 + n)) then some (2, 0xFF)
    else match (draftTable i).findIdx? (fun e => !sectionCrcOk i e) with
      | some k => some (2, k)
      | none => if !i.sigOk then some (3, 0xFF) else (s.structFault i).map (fun k => (4, k))

/-! ## Going live -/

/-- Every D field takes the draft's value (R473), with those that STRUCT, SEEN and REPORT define (DEDUCED, log entry 42). -/
def State.loadFields (s : State) (d : Draft) : State :=
  let s := dAddrs.foldl (fun (s : State) e =>
    let m := wordOf e.1.dmask
    s.setReg e.2 ((s.reg e.2 &&& ~~~m) ||| (draftWord d e.1 e.2 &&& m))) s
  let s := (List.range 16).foldl (fun (s : State) n => s.setBit (Reg.rxcStat n) 23 (d.struct_.spares.contains n)) s
  let s := (List.range 16).foldl State.fixedGain s
  let s := (s.setBit Reg.seenCfg 8 d.seen.epcw).setFld Reg.seenCfg 16 8 d.seen.coal
  match d.fifoCfg with | none => s | some w => s.setReg Reg.fifoCfg (rwOnly Reg.fifoCfg w)

/-- The schedule table holds the draft's entries (R278, R424). -/
def State.loadSchedule (s : State) (d : Draft) : State :=
  let s : State := { s with regs := serase inSchedTable s.regs }
  d.schedule.foldl (fun (s : State) e => (List.range 16).foldl (fun (s : State) k => s.setReg (Reg.schedTable e.1 k) (rwOnly (Reg.schedTable e.1 k) (e.2.getD k 0))) s) s
where
  /-- An address of the schedule table. -/
  inSchedTable (a : Nat) : Bool := decide (0x600000 ≤ a) && decide (a < 0x604000)

/-- The bits of SYS_EXPECT that a draft sets (R91): its illuminators, chains and pools. -/
def draftExpects (d : Draft) (b : Nat) : Bool :=
  let t := d.struct_
  if b < 8 then false
  else if b = 8 then t.decoders.any (fun k => decide (k < 8))
  else if b = 9 then t.decoders.any (fun k => decide (8 ≤ k) && decide (k < 12))
  else if b = 10 then t.decoders.contains 12
  else if b = 11 then false
  else if b < 16 then t.geos.any (fun g => g.txc == b - 12) || (match t.peerGeo with | none => false | some g => g.txc == b - 12)
  else t.geos.any (fun g => g.pairs.any (fun e => e.1 == b - 16)) || t.spares.contains (b - 16)

/-- SYS_EXPECT follows the draft; ready bits of parts the draft does not name clear (R91, R435). -/
def State.expectDraft (s : State) (d : Draft) : State :=
  (List.range 32).foldl (fun (s : State) b =>
    if b < 8 ∨ b = 11 then s
    else
      let e := draftExpects d b
      let s := s.setExpect b e
      if e then s else s.setReady b false) s

/-- The AO copy of the region's ping channel and power (R88); a different channel clears every VALID (R360). -/
def State.copyPing (s : State) (d : Draft) : State :=
  let other := s.bit Reg.pingRf 31 && s.fld Reg.pingRf 0 20 != d.region.pingKhz
  let ports := (s.ping.ports.map (fun e => (e.1, { e.2 with valid := false }))).filter (fun e => e.2 != PingPort.init)
  let had := s.ping.ports.any (fun e => e.2.valid)
  let s : State := if other then { s with ping := { s.ping with ports := ports, changed := s.ping.changed || had } } else s
  s.setReg Reg.pingRf (wordOf (2 ^ 31 + d.region.pingLevel * 2 ^ 20 + d.region.pingKhz))

/-- The sensors that R64 names for an illuminator: its PA and the main-die sites. -/
def sensorsOf (n : Nat) : List Nat := [4 + n, 0, 1, 2, 3]

/-- A sensor is known to stand at 125 degrees or more (R64): it crossed 135, or was read so, and has not fallen below 125 since. -/
def State.sensorHot (s : State) (k : Nat) : Bool := s.hotOut.contains k || s.hotRead.contains k

/-- The PA of an illuminator, or a main-die site, is known to stand at 125 degrees or more (R64). -/
def State.txcHot (s : State) (n : Nat) : Bool := (sensorsOf n).any s.sensorHot

/-- The sensors of an illuminator are read (R64): one that crossed 115 and has not fallen below 105 since may stand on either side of 125, which
a free value decides (DESIGN CHOICE, log entry 55). -/
def State.readHot (s : State) (n : Nat) : State :=
  (sensorsOf n).foldl (fun (s : State) k =>
    if s.hot.contains k && !s.sensorHot k then
      let (b, s) := s.drawBool
      if b then { s with hotRead := s.hotRead ++ [k] } else s
    else s) s

/-! ## Update state (R437, R440) -/

/-- The code of UPD_STAT.STATE: 0 IDLE, 1 LOADING, 2 VERIFIED, 3 ARMED, 4 SWITCHING, 5 TRIAL. -/
def State.updState (s : State) : Nat := s.fld Reg.updStat 28 4

/-- The update state a code names. -/
def updStateOf (n : Nat) : UpdState :=
  match n with
  | 1 => .loading | 2 => .verified | 3 => .armed | 4 => .switching | 5 => .trial | _ => .idle

/-- The copy of the update record that governs (R440): the valid one with the higher generation. -/
def State.updRecord (s : State) : Option (Nat × UpdRecord) :=
  match s.upd.recA, s.upd.recB with
  | none, b => b
  | a, none => a
  | some a, some b => if a.1 < b.1 then some b else some a

/-- The update record is written with a STATE, over the older copy (R440), through the memory port (R28). -/
def State.putRecord (s : State) (st : UpdState) : State :=
  let gen := match s.updRecord with | none => 0 | some r => r.1
  let slot := s.bit Reg.updStat 18
  let r : UpdRecord := { state := st, slot := slot, trial := !slot, bake := s.reg Reg.updBake,
                         live := s.bit Reg.updStat 19, floor := (s.reg Reg.updFloor).toNat, resets := s.fld Reg.updStat 16 2 }
  let past : Bool := match s.upd.recA, s.upd.recB with
    | none, _ => true
    | _, none => false
    | some a, some b => decide (a.1 ≤ b.1)
  if past then ({ s with upd := { s.upd with recA := some (gen + 1, r) } } : State).addTask (.record false s.upd.recA) 0x80000 32 false
  else ({ s with upd := { s.upd with recB := some (gen + 1, r) } } : State).addTask (.record true s.upd.recB) 0x81000 32 false

/-- The update record is written as UPD_STAT stands. -/
def State.writeRecord (s : State) : State := s.putRecord (updStateOf s.updState)

/-- UPD_STAT.STATE changes, and the record with it. -/
def State.toUpdState (s : State) (n : Nat) : State := (s.setFld Reg.updStat 28 4 n).writeRecord

/-- An event-log entry of the update path (R444). -/
def State.updLog (s : State) (code : Nat) : State := s.logEvent 0x0E code (s.reg Reg.updImage)

/-- The DRAFT part of the staged image that targets a slot (R426). -/
def State.imageDraft (s : State) (slot : Nat) : Option DraftImage :=
  match s.upd.image with
  | none => none
  | some i => ((crxDrafts i).find? (fun e => e.1 == slot)).map (fun e => e.2)

/-- The draft that runs after the switch (R435): the image's for the live slot, or the live one. -/
def State.nextDraft (s : State) : Option Draft :=
  match s.imageDraft s.upd.liveSlot with
  | some i => some (draftOf i)
  | none => s.draft

/-- The schedule entries of a warp take effect at its boundary (R437 step 3). -/
def State.applyWarp (s : State) (w : Nat) : State :=
  match s.nextDraft with
  | none => s
  | some d => (List.range 256).foldl (fun (s : State) e =>
      let new := (d.schedule.find? (fun x => x.1 == e)).map (fun x => x.2)
      let mine := fun (l : List Word) => fieldN (l.getD 0 0) 20 2 == w
      let old := (List.range 16).map (fun k => s.reg (Reg.schedTable e k))
      match new with
      | some l => if mine l then (List.range 16).foldl (fun (s : State) k => s.setReg (Reg.schedTable e k) (rwOnly (Reg.schedTable e k) (l.getD k 0))) s else s
      | none => if mine old then (List.range 16).foldl (fun (s : State) k => s.setReg (Reg.schedTable e k) 0) s else s) s

/-- STATE becomes TRIAL once every warp has passed a boundary (R437 step 4): the remaining sections have taken effect by then. -/
def State.finishFallback (s : State) : State :=
  if s.upd.fallback = .boundaries ∧ s.upd.boundary = [] then
    let s := match s.nextDraft with
      | none => s
      | some d => (({ s with upd := { s.upd with live := some d } } : State).loadFields d).copyPing d
    let s : State := { s with upd := { s.upd with fallback := .none } }
    let s := ((s.toUpdState 5).raise 10).updLog 5
    s.completeAll (fun c => c.kind == .updSwitchNow) .ok
  else s

/-- Warps pass a round boundary (R437 step 3). -/
def State.passBoundary (s : State) (ws : List Nat) : State :=
  let mine := s.upd.boundary.filter (fun w => ws.contains w)
  let s := mine.foldl State.applyWarp s
  ({ s with upd := { s.upd with boundary := s.upd.boundary.filter (fun w => !ws.contains w) } } : State).finishFallback

end Sys2Proof.Machine
end

