-- ==== Sys2Proof/Machine/RoundOps.lean ====
section
/-! DEFINITION. Rounds in flight: what they hold, how one is stopped and ended, and how parts leave service and return
(13_rounds_and_seen_table.md, 08_rf_ports_and_illuminators.md, 09_receive_chains_and_loom.md). -/
namespace Sys2Proof.Machine

/-! ## Schedule entries (R278) -/

/-- A field of a schedule entry. -/
def ew (words : List Word) (i lo n : Nat) : Nat := fieldN (words.getD i 0) lo n
/-- KIND. -/
def eKind (w : List Word) : Nat := ew w 0 28 3
/-- PROTO. -/
def eProto (w : List Word) : Nat := ew w 0 26 2
/-- PRIO. -/
def ePrio (w : List Word) : Nat := ew w 0 22 4
/-- WARP. -/
def eWarp (w : List Word) : Nat := ew w 0 20 2
/-- SPLIT. -/
def eSplit (w : List Word) : Bool := ew w 0 19 1 == 1
/-- HOPMODE. -/
def eHop (w : List Word) : Nat := ew w 0 17 2
/-- LINK. -/
def eLink (w : List Word) : Nat := ew w 0 13 3
/-- REPORT. -/
def eReport (w : List Word) : Nat := ew w 0 11 2
/-- PERIOD. -/
def ePeriod (w : List Word) : Nat := ew w 1 16 16
/-- DURATION. -/
def eDuration (w : List Word) : Nat := ew w 1 0 16
/-- OP. -/
def eOp (w : List Word) : Nat := ew w 9 28 4
/-- BANK. -/
def eBank (w : List Word) : Nat := ew w 9 26 2
/-- ADDR. -/
def eAddr (w : List Word) : Nat := ew w 9 8 16
/-- LEN. -/
def eLen (w : List Word) : Nat := ew w 9 0 8
/-- TAG. -/
def eTag (w : List Word) : Nat := ew w 15 16 16
/-- The target identity of an ACCESS entry, first bit first (IDLEN bits of words 6 to 8). -/
def eId (w : List Word) : List Bool :=
  ((List.range 3).flatMap (fun k => bitsHigh 32 (w.getD (6 + k) 0).toNat)).take (ew w 5 0 8)

/-- The words of schedule entry `e` as committed (R140). -/
def State.entryWords (s : State) (e : Nat) : List Word := (List.range 16).map (fun k => s.reg (Reg.schedTable e k))

/-- The EPC key width is 96 bits (SEEN_CFG.EPCW). -/
def State.key96 (s : State) : Bool := s.bit Reg.seenCfg 8

/-- The key of an identity: an EPC is cut to the key width (R293). -/
def State.keyOf (s : State) (family : Nat) (bits : List Bool) : Nat :=
  natOfBits (if family = 0 then bits.take (if s.key96 then 96 else 64) else bits.take 64)

/-! ## What rounds use -/

/-- A geometry uses an illuminator or port. -/
def geoUses (g : Geometry) (txc : Option Nat) (port : Option Nat) (chain : Option Nat) : Bool :=
  txc == some g.txc || port == some g.port || g.pairs.any (fun e => port == some e.2 || chain == some e.1)

/-- The illuminator of a round is on a port: it transmits there, or has still to ramp down from it (R177). -/
def State.roundTransmits (s : State) (r : Round) (p : Nat) : Bool :=
  match r.txc with
  | none => false
  | some n => r.port == p || (s.bit (Reg.txcStat n) 23 && s.fld (Reg.txcStat n) 16 6 == p)

/-- A round uses a port: as the transmit port of any of its geometries, on a chain of one of its beams, or in a geometry that it has still to
calibrate. -/
def State.roundUsesPort (s : State) (r : Round) (p : Nat) : Bool :=
  s.roundTransmits r p || r.ports.contains p ||
  r.geos.any (fun g => match s.geo? r.warp g with | none => false | some x => x.port == p) ||
  r.beams.any (fun b => match s.beam? b with | none => false | some x => x.chains.any (fun e => e.2 == p)) ||
  r.points.any (fun e => match s.geo? r.warp e.1 with | none => false | some g => geoUses g none (some p) none)

/-- A round uses a chain. -/
def State.roundUsesChain (s : State) (r : Round) (n : Nat) : Bool :=
  r.beams.any (fun b => match s.beam? b with | none => false | some x => x.chains.any (fun e => e.1 == n))

/-- The round an illuminator serves. -/
def State.roundOfTxc (s : State) (n : Nat) : Option Round := s.rounds.find? (fun r => r.txc == some n)

/-- A port takes part in calibration: it is in service, or a RETURN of it is in progress (R171, R176). -/
def State.portCal (s : State) (p : Nat) : Bool := !s.portOos p || s.cmds.any (fun c => c.kind == .portReturn p)

/-- The chain that is calibrated in the place of chain `c` (R198, R199): itself from the end of its isolated calibration on, else the spare that
stands in for it, else itself while it calibrates at bring-up; none when neither works. -/
def State.calChain (s : State) (c : Nat) : Option Nat :=
  match (s.chain c).svc with
  | .points => some c
  | .joining => some c
  | .inService => some c
  | svc => match (List.range 16).find? (fun k => s.bit (Reg.rxcStat k) 22 && s.fld (Reg.rxcStat k) 16 4 == c) with
    | some k => some k
    | none => if svc == .calibrating then some c else none

/-- The chains of a calibration point with their ports (R167, R171). -/
def State.calPairs (s : State) (g : Geometry) : List (Nat × Nat) :=
  g.pairs.filterMap (fun e => if s.portCal e.2 then (s.calChain e.1).map (fun k => (k, e.2)) else none)

/-- A geometry can be calibrated now (R168, R171): its illuminator is ready, its transmit port takes part, and a chain listens. -/
def State.geoCal (s : State) (g : Geometry) : Bool := s.ready (rdTxc g.txc) && s.portCal g.port && !(s.calPairs g).isEmpty

/-- Calibration points of a warp (R167): per channel group, its geometries that `p` accepts and that can be calibrated. -/
def State.calPoints (s : State) (w : Nat) (p : Geometry → Bool) : List (Nat × Nat) :=
  match s.region with
  | none => []
  | some r =>
    (List.range r.groups.length).flatMap (fun c => ((s.geos.filter (fun g => g.warp == w && p g && s.geoCal g)).map (fun g => (g.idx, c))))

/-- A calibration round over points that keep their seeds until they have run (R169); one whose points are owed already adds nothing. -/
def State.askCal (s : State) (w : Nat) (pts : List (Nat × Nat)) : State :=
  let owed := fun e => s.cands.any (fun c => c.kind == RoundKind.cal && c.warp == w && c.points.contains e)
  let pts := pts.filter (fun e => !owed e)
  if pts.isEmpty then s
  else { s with cands := s.cands ++ [{ kind := .cal, seq := 0, entry := 0, warp := w, due := true, points := pts }] }

/-- The geometries that `p` accepts are calibrated (R168, R169, R198, R199): until then rounds go on with the seeds they have. -/
def State.recalibrate (s : State) (p : Geometry → Bool) : State :=
  (List.range 4).foldl (fun (s : State) w => s.askCal w (s.calPoints w p)) s

/-- A calibration still to run covers a geometry that `p` accepts. -/
def State.calPending (s : State) (p : Geometry → Bool) : Bool :=
  let hit := fun w (pts : List (Nat × Nat)) => pts.any (fun e => match s.geo? w e.1 with | none => false | some g => p g)
  s.cands.any (fun c => c.kind == .cal && hit c.warp c.points) || s.rounds.any (fun r => r.kind == .cal && hit r.warp r.points)

/-! ## Completion of service commands -/

/-- An illuminator calibrates in isolation into its internal load (R176); under EXTEST it is held off (R45). -/
def State.calTxc (s : State) (n : Nat) : State :=
  if s.tap = .extest then s else ((s.setRamp n 5).updTx n (fun t => { t with calibrating := true })).loseAnt

/-- A chain begins its isolated calibration (R199 step 1). -/
def State.startChainCal (s : State) (n : Nat) : State :=
  (s.setBit Reg.sysClkstat (16 + n) true).updChain n (fun c => { c with svc := .calibrating, leaving := false })

/-- Calibration points of geometries whose illuminator has gone are run when it returns (R176): they are owed no longer. -/
def State.forgetPoints (s : State) (n : Nat) : State :=
  let keep := fun (c : Cand) => c.points.filter (fun e => match s.geo? c.warp e.1 with | some g => g.txc != n | none => false)
  let cs := s.cands.map (fun c => if c.kind = .cal then { c with points := keep c } else c)
  { s with cands := cs.filter (fun c => c.kind != .cal || !c.points.isEmpty) }

/-- RETURN commands that waited for the drain of an OUT start (R456): an illuminator or chain that is out and serves no round any more. -/
def State.startReturns (s : State) : State :=
  s.cmds.foldl (fun (s : State) c => match c.kind with
    | .txcReturn n => if s.txReason n ≠ 0 ∧ !(s.tx n).calibrating ∧ (s.roundOfTxc n).isNone then s.calTxc n else s
    | .rxcReturn n => if (s.chain n).svc = .out ∧ s.rounds.all (fun r => !s.roundUsesChain r n) then s.startChainCal n else s
    | _ => s) s

/-- OUT commands whose part no round uses any more complete with OK (R174, R196, R419), and RETURN commands that waited for it start (R456). -/
def State.settleOuts (s : State) : State :=
  let was := s.cmds
  let s := s.completeAll (fun c =>
    match c.kind with
    | .txcOut n => (s.roundOfTxc n).isNone
    | .portOut p => s.rounds.all (fun r => !s.roundUsesPort r p)
    | .rxcOut n => s.rounds.all (fun r => !s.roundUsesChain r n)
    | .decOut d => s.rounds.all (fun r => !r.decs.contains d)
    | _ => false) .ok
  let s := was.foldl (fun (s : State) c => match c.kind with
    | .portOut p => if (s.cmd? c.seq).isNone && s.cmds.any (fun k => k.kind == .portReturn p) then
        s.recalibrate (fun g => geoUses g none (some p) none) else s
    | _ => s) s
  s.startReturns

/-- The weights a chain kept (R185) are dropped. -/
def State.dropWts (s : State) (k : Nat) : State := { s with wts := serase (fun x => x / 128 == k) s.wts }

/-- Chain `n` joins with its weights at zero, and its REASON clears (R185, R197 to R199): a spare that stood in for it returns to standby, as does
a spare that stands in for none. -/
def State.joinChain (s : State) (n : Nat) : State :=
  let s := ((s.setReg (Reg.loomWt n) 0).dropWts n).setFld (Reg.rxcStat n) 24 8 0
  let idle := s.chainSpare n && !s.bit (Reg.rxcStat n) 22
  let s := s.updChain n (fun c => { c with svc := if idle then .standby else .inService, leaving := false })
  (List.range 16).foldl (fun s k =>
    if s.bit (Reg.rxcStat k) 22 && s.fld (Reg.rxcStat k) 16 4 == n && k != n then
      ((s.setBit (Reg.rxcStat k) 22 false).setFld (Reg.rxcStat k) 16 4 0).updChain k (fun c => { c with svc := .standby })
    else s) s

/-- A chain whose geometry points no calibration still owes: by the chain it stands in for, or itself. -/
def State.chainOwes (s : State) (n : Nat) : Bool :=
  let c := if s.bit (Reg.rxcStat n) 22 then s.fld (Reg.rxcStat n) 16 4 else n
  s.calPending (fun g => geoUses g none none (some c))

/-- Chains whose points have run join at this round boundary, and so do the ports and illuminators that return, whose RETURN commands complete
with OK (R175, R176, R198, R199). -/
def State.settleReturns (s : State) : State :=
  let s := (List.range 16).foldl (fun s n =>
    if (s.chain n).svc == .points && (s.roundOn (n / 4)).isNone && !s.chainOwes n then s.joinChain n else s) s
  let s := s.cmds.foldl (fun (s : State) c => match c.kind with
    | .portReturn p =>
      if s.cmds.any (fun k => k.kind == .portOut p) || s.calPending (fun g => geoUses g none (some p) none) then s else s.setPortOos p false
    | .txcReturn n =>
      if s.ready (rdTxc n) && !s.calPending (fun g => geoUses g (some n) none none) then s.setFld (Reg.txcStat n) 24 8 0 else s
    | _ => s) s
  s.completeAll (fun c =>
    match c.kind with
    | .txcReturn n => s.ready (rdTxc n) && s.txReason n == 0
    | .portReturn p => !s.portOos p
    | .rxcReturn n => s.chainIn n || (s.chain n).svc == .standby
    | _ => false) .ok

/-! ## Reports of a round -/

/-- The status a round ends with (R291). -/
def Round.endStatus (r : Round) : Status := r.status.getD .ok

/-- A calibration round or peer round, which carries no number and no entry (R283). -/
def RoundKind.internal : RoundKind → Bool
  | .cal | .peerWin | .peerRx | .pingCal => true
  | _ => false

/-- The ROUND_END record (R291, R311). -/
def State.endRec (s : State) (r : Round) : Rec :=
  let fl := cond (r.kind == .cal || r.kind == .pingCal) 8 0 + cond (r.kind == .peerWin || r.kind == .peerRx) 4 0 +
            cond r.skipped 2 0 + cond r.fifoReset 1 0
  let i := r.kind.internal
  { ty := 3, flags := fl, len := 44,
    words := [wordOf (r.endStatus.code * 2 ^ 24 + r.seq), wordOf (cond i 0 r.entry * 2 ^ 24 + r.chan),
              wordOf (cond i 0 (eTag r.words) * 2 ^ 16 + r.warp * 2 ^ 14 + cond i 0 (eKind r.words) * 2 ^ 11),
              wordOf (r.start % 2 ^ 32), wordOf (r.start / 2 ^ 32), wordOf (s.up - r.upAt.getD r.began), wordOf r.trans, wordOf r.reported,
              wordOf r.coalesced, wordOf r.dropped] }

/-- The class of PROTO in reports (R309): of a seen-tag entry if it is known, else of the entry's protocol. -/
def State.protoCode (s : State) (r : Round) (index : Nat) : Nat :=
  match (if index < 4096 then sget (fun _ => none) s.seen index else none) with
  | some e => if eProto r.words = 2 then e.proto else eProto r.words
  | none => eProto r.words

/-- The TAG_DATA record of an access round (R310): status, error code (255 none), seen-tag index (0xFFF none), count, data. -/
def State.tagDataRec (s : State) (r : Round) (st : Status) (err index count : Nat) (data : List Byte) : Rec :=
  let id := s.keyOf (eProto r.words) (eId r.words)
  let x := s.key96 && eProto r.words == 0
  let part := eOp r.words == 3 && decide (count < eLen r.words)
  let op := eOp r.words
  { ty := 2, flags := cond part 8 0, len := cond x 32 28 + data.length,
    words := [wordOf (st.code * 2 ^ 24 + err * 2 ^ 16 + s.protoCode r index * 2 ^ 14 + r.warp * 2 ^ 12 + index),
              wordOf (op * 2 ^ 28 + eBank r.words * 2 ^ 26 + r.seq), wordOf (eAddr r.words * 2 ^ 16 + count),
              wordOf (r.commitAt.getD s.now % 2 ^ 32),
              wordOf (id / 2 ^ 32 % 2 ^ 32), wordOf (id % 2 ^ 32)] ++ cond x [wordOf (id / 2 ^ 64)] [] ++ wordsOfBytes data }

/-- Bits in the order received, from bit 7 of the first byte (R310). -/
def packBits (l : List Bool) : List Byte :=
  (List.range ((l.length + 7) / 8)).map (fun k => BitVec.ofNat 8 (natOfBits ((l.drop (8 * k)).take 8 ++ List.replicate (8 - ((l.drop (8 * k)).take 8).length) false)))

/-- What a legacy access has read, as TAG_DATA carries it (R310): two bytes of each tag word, the four of a U0 block, which the spec gives no
order for (DESIGN CHOICE, log entry 27), or the bits of a raw reply. -/
def Round.legBytes (r : Round) : List Byte :=
  match r.leg with
  | none => []
  | some l => if eOp r.words = 6 then packBits (l.data.map (fun x => x != 0))
              else l.data.flatMap (fun x => if eProto r.words = 1 then bytesOfWord x else (bytesOfWord x).take 2)

/-- The seen-tag index a round's access knows. -/
def Round.accIndex (r : Round) : Nat := match r.leg, r.uma with | some l, _ => l.index | _, some u => u.index | _, _ => 0xFFF

/-- A legacy access operation that its round's abort, disabling or fault ends counts in ACCESS_FAIL (R223); a BLOCKWRITE reports the words of its
confirmed chunks (R218, R287). -/
def State.cutBlockWrite (s : State) (r : Round) : State :=
  match r.leg with
  | some l =>
    if r.kind == .access && l.phase != .done && r.status.isSome then
      let s := s.cnt (Reg.legCnt (r.port / 16) 9)
      if eOp r.words = 3 then s.queueWarp r.warp (s.tagDataRec r r.endStatus 0xFF l.index l.words []) else s
    else s
  | none => s

/-! ## Release and end -/

/-- A beam is given up (R24): its chains listen on no port, and those that leave do so (R196). -/
def State.freeBeam (s : State) (m : Nat) : State :=
  match s.beam? m with
  | none => s
  | some b =>
    let s := b.chains.foldl (fun (s : State) e =>
      let s := if (s.chain e.1).leaving then s.setReg (Reg.loomWt e.1) 0 else s
      (s.deafPort e.2).updChain e.1 (fun c => { c with clipped := false })) s
    let s := s.setReg (Reg.loomBeam m) 0
    { s with beams := s.beams.set m none }

/-- A decoder is given up (R24). -/
def State.freeDec (s : State) (d : Nat) : State :=
  let s : State := { s with mgmt := { s.mgmt with decBusy := s.mgmt.decBusy.filter (fun x => x != d) } }
  if d < 8 then s.setBit (Reg.legLdStat d) 31 false
  else if d < 12 then (s.setBit (Reg.umaUeStat (d - 8)) 31 false).setFld (Reg.umaUeStat (d - 8)) 24 3 0
  else s

/-- A round gives up everything it holds (R24): a calibration point cut short opens its switches, and its illuminator leaves the channel (R162). -/
def State.releaseRound (s : State) (r : Round) : State :=
  let s := r.beams.foldl State.freeBeam s
  let s := r.decs.foldl State.freeDec s
  let s := if r.kind = .cal then s.closePoint r else s
  let s := match r.txc with
    | none => s
    | some n => (((s.setBit (Reg.txcStat n) 23 false).setRamp n (if s.ramp n = 5 then 5 else 0)).setMode n 0).leaveChan n
  let s := r.warps.foldl (fun (s : State) w => s.setReg (Reg.schedWarp w) 0) s
  { s with rounds := s.rounds.filter (fun x => !x.warps.contains r.warp) }

/-- A round ends (R291): ROUND_END last, resources released, its command completed, and what waits for the boundary follows. Points that a
calibration round has not run become a candidate again (R435). -/
def State.roundEnd (s : State) (r : Round) : State :=
  let s := s.cutBlockWrite r
  let s := s.queueWarp r.warp (s.endRec r)
  let s := match r.status with
    | some .aborted => s.cnt (Reg.schedCnt 3)
    | some .disabled => s.cnt (Reg.schedCnt 4)
    | _ => s
  let s := s.releaseRound r
  let s := if r.seq = 0 then s else s.complete r.seq r.endStatus
  let left := r.points.filter (fun e => match s.geo? r.warp e.1 with | some g => s.ready (rdTxc g.txc) | none => false)
  let s : State := if r.kind = .cal ∧ left ≠ [] then
      { s with cands := s.cands ++ [{ kind := .cal, seq := 0, entry := 0, warp := r.warp, due := true, points := left }] } else s
  (s.passBoundary r.warps).settleOuts.settleReturns

/-- A round completes at once, with no RF (R279, R299): a ROUND_END with zero counts. -/
def State.roundAtOnce (s : State) (c : Cand) (words : List Word) (st : Status) (skipped : Bool) : State :=
  let s := s.queueWarp c.warp
    { ty := 3, flags := cond (c.kind == .cal || c.kind == .pingCal) 8 0 + cond (c.kind == .peerWin || c.kind == .peerRx) 4 0 + cond skipped 2 0, len := 44,
      words := [wordOf (st.code * 2 ^ 24 + c.seq), wordOf (cond c.kind.internal 0 c.entry * 2 ^ 24),
                wordOf (eTag words * 2 ^ 16 + c.warp * 2 ^ 14 + eKind words * 2 ^ 11), wordOf (s.now % 2 ^ 32), wordOf (s.now / 2 ^ 32),
                0, 0, 0, 0, 0] }
  if c.seq = 0 then s else s.complete c.seq st

/-- The reply windows of a round close and its receptions are given up without a trace (R287). -/
def State.quietBeams (s : State) (r : Round) : State :=
  let s : State := { s with crcQ := s.crcQ.filter (fun j => !r.beams.contains j.beam) }
  r.beams.foldl (fun (s : State) m => s.updBeam m (fun b =>
    { b with window := false, rec_ := none, next := none, ending := false, decoding := none, heard := none })) s

/-- A peer window or receive period (R269, R270). -/
def RoundKind.peer (k : RoundKind) : Bool := k == .peerWin || k == .peerRx

/-- A sweep of the ping engine under the scheduler. -/
def RoundKind.sweeps (k : RoundKind) : Bool := k == .ping || k == .pingCal

/-- A round with its carrier on begins its final ramp-down; with the carrier off it ends at once (R282, R287). A ping round ends at
SWEEP_END, which brings the ports measured so far (R360). -/
def State.downRound (s : State) (r : Round) (fast : Bool) : State :=
  let s := s.quietBeams r
  let s := s.updRound r.warp (fun r => { r with phase := .ending, txn := none, noNew := true })
  if r.kind.sweeps then s else
  match r.txc with
  | some n => if s.txOn n then s.rampDown n fast .endRound
              else match s.roundOn r.warp with | some r => s.roundEnd r | none => s
  | none => match s.roundOn r.warp with | some r => s.roundEnd r | none => s

/-- The time bound of a round has passed (R282, R435): no new transaction begins, and the one in flight runs to its end. -/
def State.expireRound (s : State) (r : Round) : State :=
  if r.phase == .ending then s
  else
    let s := s.updRound r.warp (fun r => { r with noNew := true })
    if r.txn.isSome then s else s.downRound r false

/-- The result that the commit of a Read has fixed, in either engine (R65). -/
def Round.kept (r : Round) : Option (Status × Nat) := (r.leg.bind (fun l => l.kept)).or (r.uma.bind (fun u => u.kept))

/-- An access operation past its commit point that loses its carrier keeps its own result (R65, R171): a Read whose reply has passed its CRC that
reply, another operation NO_REPLY under R219 and R267, since no reply can reach it any more (DEDUCED, log entry 11). -/
def State.keepResult (s : State) (r : Round) : State :=
  let acc := r.kind == .access && r.txn == some true
  let l := match r.leg with | some l => acc && l.phase != .done | none => false
  let u := match r.uma with | some u => acc && u.phase != .done | none => false
  if l || u then
    let (st, err) := r.kept.getD (.noReply, 0xFF)
    let (words, data) := match r.leg, r.uma with
      | some l, _ => (if l.kept.isSome then l.data.length else l.words, r.legBytes)
      | _, some u => (u.data.length, u.data)
      | _, _ => (0, [])
    let s := s.queueWarp r.warp (s.tagDataRec r st err r.accIndex words data)
    let s := if l then s.cnt (Reg.legCnt (r.port / 16) (if st = .ok then 8 else 9)) else s
    s.updRound r.warp (fun r => { r with leg := r.leg.map (fun l => { l with phase := .done }),
                                         uma := r.uma.map (fun u => { u with phase := .done }) })
  else s

/-- A round is stopped with a status (R287, R288, R289): the first cause stands. Unless the carrier must fall `now`, a transaction past
its commit point runs on to its end. -/
def State.stopRound (s : State) (r : Round) (st : Status) (fast now : Bool) : State :=
  if r.status.isSome then
    (if !now then s
     else if r.phase == .ending then (match r.txc with | some n => s.rampDown n fast .endRound | none => s)
     else (s.keepResult r).downRound r fast)
  else
    let s := s.updRound r.warp (fun r => { r with status := some st, noNew := true })
    if r.txn = some true ∧ !now ∧ r.phase != .ending then s
    else match s.roundOn r.warp with
      | some r => if r.phase == .ending then (match r.txc with | some n => s.rampDown n fast .endRound | none => s)
                  else (s.keepResult r).downRound r fast
      | none => s

/-- A transaction of a round is over. A round that has been stopped, or may begin no new transaction, now ramps down; otherwise `go`
continues it. -/
def State.txnOver (s : State) (w : Nat) (go : State → State) : State :=
  let s := s.updRound w (fun r => { r with txn := none })
  match s.roundOn w with
  | none => s
  | some r => if r.phase == .ending then s else if r.noNew || r.status.isSome then s.downRound r false else go s

/-! ## Bring-up -/

/-- The REASON of a part that SYS_EXPECT names: an illuminator or a chain; 0 in service. -/
def State.partReason (s : State) (b : Nat) : Nat :=
  if 12 ≤ b ∧ b < 16 then s.txReason (b - 12) else if 16 ≤ b then s.fld (Reg.rxcStat (b - 16)) 24 8 else 0

/-- Every expected function is ready, or a part out of service (STAT.BRINGUP, R127). -/
def State.bringupDone (s : State) : Bool := (List.range 32).all (fun b => !s.expected b || s.ready b || s.partReason b != 0)

/-- Bring-up is complete (R91): every expected function is ready, or a part that the module itself has taken out (R64, R175, R197). -/
def State.bringupOver (s : State) : Bool := (List.range 32).all (fun b => !s.expected b || s.ready b || decide (2 ≤ s.partReason b))

/-- BRINGUP_DONE is raised at the moment bring-up completes, once after each reset (R91). -/
def State.checkBringup (s : State) : State :=
  if s.bringupOver && !s.broughtUp then ({ s with broughtUp := true } : State).raise 0 else s

/-- A function is ready (R90, R91). -/
def State.becomeReady (s : State) (b : Nat) : State := (s.setReady b true).checkBringup

/-! ## Parts out of service -/

/-- An illuminator loses its carrier (R64, R65, R155, R161): a round that it serves ends with OUT_OF_SERVICE. -/
def State.txcDrop (s : State) (n : Nat) (fast : Bool) : State :=
  match s.roundOfTxc n with
  | none => if s.txOn n then s.rampDown n fast .off else s
  | some r => s.stopRound r .outOfService fast true

/-- An illuminator goes out of service by the module itself (R175): its ready bit clears, SERVICE is raised and a FAULT packet written. The first
reason stays: one that the host has taken out still loses its carrier (R64, R177), and one that returns ends its RETURN (R456). -/
def State.txcFail (s : State) (n reason : Nat) (fast : Bool) : State :=
  let back := s.cmds.any (fun c => c.kind == .txcReturn n)
  let out := s.txReason n != 0 && !back
  let s := (if s.txReason n = 0 then s.setFld (Reg.txcStat n) 24 8 reason else s).setReady (rdTxc n) false
  let s := if s.ramp n = 5 then s.setRamp n 0 else s
  let s := (s.updTx n (fun t => { t with calibrating := false })).forgetPoints n
  let s := if out then s else (s.raise 8).faultEvent 2 n reason 0
  let s := s.txcDrop n fast
  ((s.completeAll (fun c => c.kind == .txcReturn n) .outOfService).settleOuts).checkBringup

/-- The lowest-numbered in-service spare of a warp that stands by (R198). -/
def State.freeSpareChain (s : State) (w : Nat) : Option Nat :=
  (List.range 16).find? (fun n => n / 4 == w && s.chainSpare n && (s.chain n).svc == .standby)

/-- A spare stands in for a chain (R198). -/
def State.stoodIn (s : State) (n : Nat) : Bool := (List.range 16).any (fun k => s.bit (Reg.rxcStat k) 22 && s.fld (Reg.rxcStat k) 16 4 == n)

/-- A spare stands in for a chain (R198), unless one does: its points run at the next boundary. -/
def State.standInFor (s : State) (n : Nat) : State :=
  if s.chainSpare n || !s.chainInGeo n || s.stoodIn n then s
  else match s.freeSpareChain (n / 4) with
    | none => s
    | some k =>
      let s := (s.setBit (Reg.rxcStat k) 22 true).setFld (Reg.rxcStat k) 16 4 n
      let s := s.updChain k (fun c => { c with svc := .points })
      let s := s.setReg (Reg.loomWt k) 0
      let s := s.dropWts k
      s.recalibrate (fun g => geoUses g none none (some n))

/-- A spare that has come to stand by takes the place of a chain of its warp that is out (R198). -/
def State.standIns (s : State) (w : Nat) : State :=
  (List.range 16).foldl (fun (s : State) n =>
    let out := n / 4 == w && s.chainInGeo n && (s.chain n).svc == .out
    if out then s.standInFor n else s) s

/-- The pairs that `p` accepts leave a beam (R171, R196): their ports open, and LOOM_BEAMm shows the chains that stay. -/
def State.dropPairs (s : State) (m : Nat) (p : Nat × Nat → Bool) : State :=
  match s.beam? m with
  | none => s
  | some b =>
    let stay := b.chains.filter (fun e => !p e)
    let s := (b.chains.filter p).foldl (fun (s : State) e => if s.listensOn e.1 e.2 then s.deafPort e.2 else s) s
    (s.updBeam m (fun b => { b with chains := stay })).setFld (Reg.loomBeam m) 0 16 (stay.foldl (fun a e => a + 2 ^ e.1) 0)

/-- The chains that leave do so at this transaction boundary, from every beam of the round (R196): weight zero, no port, and nothing kept of the
round's clipping. -/
def State.dropLeavers (s : State) (r : Round) : State :=
  let out := (List.range 16).filter (fun n => (s.chain n).leaving && s.roundUsesChain r n)
  let s := r.beams.foldl (fun (s : State) m => s.dropPairs m (fun e => out.contains e.1)) s
  out.foldl (fun (s : State) n => (s.setReg (Reg.loomWt n) 0).updChain n (fun c => { c with leaving := false, clipped := false })) s

/-- A round in which every chain of some beam is leaving, or has left, loses that beam (R196): it is disabled as under R174. -/
def State.beamLost (s : State) (r : Round) : Bool :=
  r.beams.any (fun m => match s.beam? m with
    | none => false
    | some b => !b.chains.isEmpty && b.chains.all (fun e => (s.chain e.1).leaving))

/-- A chain is removed from service (R196): its ready bit clears, its ADC clock stops, it leaves its beam at the next boundary. -/
def State.chainOut (s : State) (n reason : Nat) : State :=
  let s := if s.fld (Reg.rxcStat n) 24 8 = 0 then s.setFld (Reg.rxcStat n) 24 8 reason else s
  let s := s.setReady (rdRxc n) false
  let s := s.setBit Reg.sysClkstat (16 + n) false
  let s := (s.setBit (Reg.rxcStat n) 22 false).setFld (Reg.rxcStat n) 16 4 0
  let inBeam := s.rounds.any (fun r => s.roundUsesChain r n)
  let s := s.updChain n (fun c => { c with svc := .out, leaving := inBeam })
  let s := s.standInFor n
  s.rounds.foldl (fun (s : State) r => if s.roundUsesChain r n && s.beamLost r then s.updRound r.warp (fun r => { r with draining := true }) else s) s

/-- A chain goes out of service by the module itself (R197). -/
def State.chainFail (s : State) (n reason : Nat) : State :=
  if (s.chain n).svc = .off ∨ (s.chain n).svc = .out then s
  else
    let s := s.chainOut n reason
    let s := s.raise 8
    let s := s.faultEvent 3 n reason 0
    (s.completeAll (fun c => c.kind == .rxcReturn n) .outOfService).checkBringup

end Sys2Proof.Machine
end

