-- ==== Sys2Proof/Machine/MemOps.lean ====
section
/-! DEFINITION. The memory port (19_memory_port.md): devices, submission to its queue, and taking a device out. -/
namespace Sys2Proof.Machine

/-- The data of a bucket fetch or write-back (R399): a HELD entry at level 2, in octal DTR. -/
def popEntry (addr len : Nat) (write : Bool) (job : MemJob) : MemEntry :=
  { dev := true, cmd := 0, addr := addr, addrBytes := 4, dummy := 0, len := len, cmdLanes := 3, addrLanes := 3, lanes := 3, dtr := true, write := write,
    held := true, cont := false, level := 2, buf := 0, prog := false, job := job }

/-- A bucket transfer is submitted as one entry of 256 bytes; where PSRAM cannot stay selected for that, its requester has split it in 2, 4 or 8
(R394). `job` says what each part is for, given whether it is the last. -/
def State.submitBucket (s : State) (bucket : Nat) (write : Bool) (job : Bool → MemJob) : State :=
  let parts := fun (n : Nat) => (List.range n).map (fun k => popEntry (256 * bucket + k * (256 / n)) (256 / n) write (job (k + 1 == n)))
  s.submit (parts (([1, 2, 4].find? (fun n => s.tcemOk (parts n))).getD 8))

/-- Entries that `p` accepts leave the queue; one in progress completes. -/
def State.dropJobs (s : State) (p : MemJob → Bool) : State :=
  let m := s.memp
  let out := fun (l : List MemEntry) => l.filter (fun e => !p e.job)
  { s with memp := { m with queue := out m.queue, owed := out m.owed, waiting := (m.waiting.map out).filter (fun l => !l.isEmpty) } }

/-- A job of the population store. -/
def isPop (j : MemJob) : Bool := match j with | .popFetch _ _ => true | .popWrite _ _ _ => true | _ => false

/-- The memory port is busy (R98, R102 MP_QUEUE_BUSY): an entry queued or in progress, a program or erase running or not read back, or a write on the
flash that is not whole. What waits for room is not in the queue (DESIGN CHOICE, log entry 43). -/
def State.mempBusy (s : State) : Bool := !({ s.memp with waiting := [] } : Memp).all.isEmpty || !s.memp.tasks.isEmpty

/-- Bits of the key laid out as SEEN_KEY0 to SEEN_KEY3 (R399). -/
def keyBytes (family id : Nat) : List Byte :=
  (List.range 12).map (fun k => BitVec.ofNat 8 (id / 2 ^ (8 * k))) ++ [BitVec.ofNat 8 family, 0, 0, 0]

/-- The bucket of a key (R399): bits 13:0 of the CRC-32 over its 16 bytes. -/
def popBucket (family id : Nat) : Nat := crc32 (keyBytes family id) % 16384

/-- The population store ends (R401): POP clears, pending fetches are abandoned (R296) and write-backs discarded (R294). -/
def State.endPop (s : State) : State :=
  let s := s.setBit Reg.seenCfg 0 false
  let s := s.fetches.foldl (fun (s : State) i =>
    let s := s.cnt (Reg.seenCnt 5)
    { s with seen := sput (fun _ => none) s.seen i ((sget (fun _ => none) s.seen i).map (fun e => { e with noHist := false })) }) s
  let s := s.addCnt (Reg.seenCnt 3) s.seenWb.length
  ({ s with fetches := [], seenWb := [], memp := { s.memp with arrived := [] } } : State).dropJobs isPop

/-- A device stops being used (R401 OUT): what waits for the flash on MCS0_N goes to the mirror. -/
def State.memOut (s : State) (dev : Bool) : State :=
  let s := s.setBit Reg.mempStat (22 + cond dev 1 0) true
  let s : State := if dev && s.dev1 == 1 then s.endPop else s
  let toMirror := fun (l : List MemEntry) => l.map (fun e => if !dev && !e.dev then { e with dev := true } else e)
  { s with memp := { s.memp with queue := toMirror s.memp.queue, waiting := s.memp.waiting.map toMirror } }

/-- The read mode used of those a device declares (R389 step 4): widest lanes first, then DTR, which 8 lanes alone take (R388). -/
def readMode (x : MemDevice) : Nat × Bool :=
  x.modes.foldl (fun (b : Nat × Bool) m =>
    let m := (m.1, m.2 && m.1 == 3)
    if decide (m.1 ≤ 3) && (decide (b.1 < m.1) || (b.1 == m.1 && m.2)) then m else b) (0, false)

/-- The longest run of steps that pass, of the first one where several are as long (DESIGN CHOICE, log entry 16): its start and its length. -/
def longestRun (l : List Bool) : Nat × Nat :=
  let f := fun (a : (Nat × Nat) × Nat × Nat) (b : Bool) =>
    let (best, k, n) := a
    let n := if b then n + 1 else 0
    (if best.2 < n then (k + 1 - n, n) else best, k + 1, n)
  (l.foldl f ((0, 0), 0, 0)).1

/-- The frequency accepted for a device and the step used (R390): the first of the five at which 5 or more consecutive steps of 16 return identical
data, and the centre step of the longest run, the lower one of two (DESIGN CHOICE, log entry 16). -/
def memTiming (x : MemDevice) : Option (Nat × Nat) :=
  (List.range 5).findSome? (fun k =>
    let r := longestRun ((x.eye.getD k []).take 16)
    if 5 ≤ r.2 then some (k, r.1 + (r.2 - 1) / 2) else none)

/-- The condition of R388 that a flash on MCS0_N fails first, as its DISC_ERR code (R389); 0 when none. -/
def flashErr (d : Option MemDevice) : Nat :=
  match d with
  | none => 1
  | some x => if !x.sfdp then 1 else if x.density < 25 then 2 else if !x.fourByte then 3 else if !x.erase4k then 4
              else if !x.suspend then 5 else if (memTiming x).isNone then 6 else 0

/-- What MCS1_N holds (R388, R389 step 5), as the code of MEMP_STAT.DEV1: a mirror has the density, lanes and data rate of the flash on MCS0_N. A device
for which no frequency passes is UNUSABLE (DEDUCED, log entry 16). -/
def dev1Code (d0 d1 : Option MemDevice) : Nat :=
  match d1 with
  | none => 0
  | some x =>
    if x.sfdp then
      (if flashErr (some x) = 0 ∧ d0.map (fun y => (y.density, readMode y)) = some (x.density, readMode x) then 2 else 3)
    else if x.psram then (if 23 ≤ x.density ∧ x.density ≤ 26 ∧ (memTiming x).isSome then 1 else 3)
    else 0

/-- The frequency both devices run at (R390): the lower of the accepted ones, which has the higher code. -/
def memFreq (d0 d1 : Option MemDevice) : Nat :=
  let f := fun (d : Option MemDevice) => ((d.bind memTiming).getD (0, 0)).1
  if dev1Code d0 d1 = 1 ∨ dev1Code d0 d1 = 2 then max (f d0) (f d1) else f d0

/-- A device passes the discovery of R389 again: the flash on MCS0_N, or what MCS1_N holds as what it was found to be. -/
def State.passesDiscovery (s : State) (dev : Bool) : Bool :=
  if dev then dev1Code s.board.dev0 s.board.dev1 == s.dev1 else flashErr s.board.dev0 == 0

/-- A RETURN of a device starts (R401): discovery; PSRAM comes back with an empty population store, a flash is resilvered. -/
def State.startMemReturn (s : State) (dev : Bool) (seq : Nat) : State :=
  if !s.passesDiscovery dev then s.complete seq .outOfService
  else if dev && s.dev1 == 1 then
    let s : State := { s with pop := [] }
    ((s.setBit Reg.mempStat 23 false).setBit Reg.seenCfg 0 true).complete seq .ok
  else
    let s := s.setBit Reg.mempStat 24 true
    ({ s with memp := { s.memp with copied := 0 } } : State).readCopy 0

/-- A device has finished what it had begun (R401): no entry in progress on it, and no write on a flash that is not whole on both (R403). -/
def State.memIdle (s : State) (dev : Bool) : Bool :=
  !(match s.memp.cur with | some e => e.dev == dev | none => false) &&
  (s.dev1 == 1 && dev || (s.memp.prog.isNone && s.memp.checking.isNone && s.memp.owed.isEmpty))

/-- OUT commands whose device has finished what it had begun take it out and complete with OK (R401), unless the mirror that a flash on MCS0_N leaves its
work to has gone meanwhile; a RETURN that waited for one starts (R456). -/
def State.settleMemOut (s : State) (dev : Bool) : State :=
  let d := cond dev 1 0
  if !s.leaving dev || !s.memIdle dev then s
  else
    let s := if !dev && !s.mirrorIn then (s.setBit Reg.mempStat 22 false).completeAll (fun c => c.kind == .mempOut d) .refused
      else (s.memOut dev).completeAll (fun c => c.kind == .mempOut d) .ok
    match s.cmds.find? (fun k => k.kind == .mempReturn d) with
    | some k => if s.memOos dev then s.startMemReturn dev k.seq else s.complete k.seq .ok
    | none => s

/-- Both devices. -/
def State.settleMemOuts (s : State) : State := (s.settleMemOut false).settleMemOut true

/-- The slot base in MiB of the half's XIP window (MEMP_XIP). -/
def State.xipBase (s : State) (half : Bool) : Nat := s.fld Reg.mempXip (if half then 16 else 24) 8

end Sys2Proof.Machine
end

