-- ==== Sys2Proof/Machine/SeenOps.lean ====
section
/-! DEFINITION. The seen-tag table, the population store, the alive classes, sightings and their reports (R292 to R298, R326, R33). -/
namespace Sys2Proof.Machine

/-! ## Entries -/

/-- The entry at an index. -/
def State.seenAt (s : State) (i : Nat) : Option Seen := sget (fun _ => none) s.seen i

/-- The state with the entry at an index replaced. -/
def State.setSeen (s : State) (i : Nat) (e : Option Seen) : State := { s with seen := sput (fun _ => none) s.seen i e }

/-- The state with the entry at an index changed. -/
def State.updSeen (s : State) (i : Nat) (f : Seen → Seen) : State := s.setSeen i ((s.seenAt i).map f)

/-- The family of an entry: class P and class B share one (R293). -/
def Seen.family (e : Seen) : Nat := if e.proto ≥ 2 then 2 else e.proto

/-- The index of the entry with a key (R293, R294). -/
def State.findSeen (s : State) (family id : Nat) : Option Nat :=
  (s.seen.find? (fun p => match p.2 with | some e => e.valid && e.family == family && e.id == id | none => false)).map (fun p => p.1)

/-- Entries in use (SEEN_STAT.USED). -/
def State.seenUsed (s : State) : Nat := s.seen.length

/-- Entries with an assignment (SEEN_STAT.ASSIGNED). -/
def State.seenAssigned (s : State) : Nat := (s.seen.filter (fun p => match p.2 with | some e => e.assigned | none => false)).length

/-- The eight words of an entry (R292); a free entry reads zero. -/
def seenWords (e : Option Seen) : List Word :=
  match e with
  | none => List.replicate 8 0
  | some e =>
    let hi := if e.proto ≥ 2 then (if e.assigned then e.handle * 2 ^ 16 + e.group * 256 + e.wfirst * 16 + e.wcount else 0)
              else e.id / 2 ^ 64
    let b := fun (v : Bool) (k : Nat) => cond v (2 ^ k) 0
    [wordOf e.id, wordOf (e.id / 2 ^ 32), wordOf hi, wordOf e.last, wordOf e.first, wordOf (e.count * 65536 + e.alive), e.pos,
     wordOf (e.best * 2 ^ 24 + e.miss * 2 ^ 20 + e.proto * 2 ^ 18 + b e.longId 8 + b e.aliveLate 7 + b e.coal 6 + b e.lost 5 +
             b e.assigned 4 + b e.noHist 3 + b e.refTag 2 + b e.tally 1 + b e.valid 0)]

/-- The time base in ms, low 32 bits. -/
def State.nowMs (s : State) : Nat := s.now / 1000 % 2 ^ 32

/-- The age of an entry's LAST in ms, counted modulo 2^32 from the present (R294). -/
def State.seenAge (s : State) (e : Seen) : Nat := (s.nowMs + 2 ^ 32 - e.last) % 2 ^ 32

/-- The index of the entry that eviction takes (R294): the oldest LAST, never one with ASSIGNED or NO_HIST. -/
def State.evictee (s : State) : Option Nat :=
  (s.seen.foldl (fun (b : Option (Nat × Nat)) p =>
    match p.2 with
    | none => b
    | some e =>
      if e.assigned || e.noHist then b
      else match b with
        | none => some (p.1, s.seenAge e)
        | some (i, a) => if a < s.seenAge e then some (p.1, s.seenAge e) else some (i, a)) none).map (fun p => p.1)

/-- One entry is evicted (R294): to the write-back buffer, or discarded when it is full or there is no population store. -/
def State.evictOne (s : State) : State :=
  match s.evictee with
  | none => s
  | some i =>
    match s.seenAt i with
    | none => s
    | some e =>
      let s := (s.setSeen i none).cnt (Reg.seenCnt 2)
      if s.popIn && decide (s.seenWb.length < 32) then
        ({ s with seenWb := s.seenWb ++ [e] } : State).submitBucket (popBucket e.family e.id) true (.popWrite e.family e.id)
      else s.cnt (Reg.seenCnt 3)

/-- The lowest free index (log entry 12). -/
def State.freeSeen (s : State) : Option Nat := (List.range 4096).find? (fun i => (s.seenAt i).isNone)

/-! ## Population store -/

/-- The entry of the population store at a place. -/
def State.popAt (s : State) (place : Nat) : Option Seen := sget (fun _ => none) s.pop place

/-- The place of a key in its bucket, if the store holds it. -/
def State.popFind (s : State) (family id : Nat) : Option Nat :=
  let b := popBucket family id
  (List.range 8).findSome? (fun j => match s.popAt (8 * b + j) with
    | some e => if e.family = family ∧ e.id = id then some (8 * b + j) else none
    | none => none)

/-- The place a write-back takes (R296): the key's own, a free one, or that of the oldest LAST; true when it replaces another entry. -/
def State.popPlace (s : State) (e : Seen) : Nat × Bool :=
  let b := popBucket e.family e.id
  match s.popFind e.family e.id with
  | some p => (p, false)
  | none =>
    match (List.range 8).find? (fun j => (s.popAt (8 * b + j)).isNone) with
    | some j => (8 * b + j, false)
    | none =>
      let age : Nat → Nat := fun j => match s.popAt (8 * b + j) with | some x => s.seenAge x | none => 0
      (8 * b + (List.range 8).foldl (fun m j => if age m < age j then j else m) 0, true)

/-- The oldest write-back of a key is performed (R296). -/
def State.writeBack (s : State) (family id : Nat) : State :=
  match s.seenWb.find? (fun e => e.family == family && e.id == id) with
  | none => s
  | some e =>
    let (p, other) := s.popPlace e
    let s : State := { s with pop := sput (fun _ => none) s.pop p (some e), seenWb := s.seenWb.erase e }
    if other then s.cnt (Reg.seenCnt 6) else s

/-- A pending fetch is over: nothing of it waits any more. -/
def State.endFetch (s : State) (i : Nat) : State :=
  ({ s with fetches := s.fetches.filter (fun k => k != i), memp := { s.memp with arrived := s.memp.arrived.filter (fun k => k != i) } } : State).dropJobs
    (fun j => match j with | .popFetch k _ => k == i | _ => false)

/-! ## Alive classes -/

/-- The classes of R326 for a difference d: 0 Advance, 1 ALIVE_REPEAT, 2 ALIVE_JUMP. -/
def aliveClass (old new : Nat) : Nat :=
  let d := (new + 65536 - old) % 65536
  if d = 0 then 1 else if d ≤ 32767 then 0 else if 64512 ≤ d then 1 else 2

/-- The class of a reply with counter `a` from a key (R326), with `true` when it counts as FIRST. -/
def State.classify (s : State) (family id a : Nat) : Nat × Bool :=
  match (s.findSeen family id).bind s.seenAt with
  | none => (0, true)
  | some e => if !e.aliveTaken || e.noHist then (0, true) else (aliveClass e.alive a, false)

/-- The counters of the alive classes (R326). -/
def State.countClass (s : State) (c : Nat × Bool) : State :=
  s.cnt (Reg.crcCnt (if c.2 then 3 else if c.1 = 0 then 2 else if c.1 = 1 then 4 else 5))

/-! ## Sightings -/

/-- A sighting: the identity as received, the class in reports (R309), and the figures of R182, R192 and R243. -/
structure Sight where
  family : Nat
  bits   : List Bool
  proto  : Nat
  rssi   : Int
  snr    : Nat
  pos    : Word
  dev    : Int
  alive  : Option Nat
  warp   : Nat
  beam   : Nat
  /-- Receive port of the strongest chain. -/
  port   : Nat
  clip   : Bool
  stale  : Bool
  /-- The time base in us at the end of the reply (R309). -/
  time   : Nat
deriving DecidableEq, Repr

/-- A position word is valid (R192). -/
def posValid (w : Word) : Bool := fieldN w 0 16 != 0xFFFF

/-- BAY of a position word. -/
def posBay (w : Word) : Nat := fieldN w 16 8

/-- BEST and RSSI codes: −2 times dBm, held to one byte (R292). -/
def rssiCode (r : Int) : Nat := min 255 (-r).toNat

/-- An identity passes the draft's tally filter (R33, R368): at most 64 bits and a rule of its family that it begins with. -/
def State.tallyPass (s : State) (family : Nat) (bits : List Bool) : Bool :=
  match s.draft with
  | none => false
  | some d => !(family == 0 && s.key96) && d.seen.filter.any (fun r => r.family == family && r.pref.isPrefixOf bits)

/-- An identity is a reference tag of the draft (R193). -/
def State.refTagOf (s : State) (family id : Nat) : Option RefTag :=
  match s.draft with
  | none => none
  | some d => match d.pos with | none => none | some p => p.refs.find? (fun r => r.family == family && r.id == id)

/-- A miss allocates at once (R32, R294): a new entry with FIRST, and its fetch when the population store is in use (R296). -/
def State.allocSeen (s : State) (x : Sight) : Option Nat × State :=
  let s := if s.freeSeen.isNone then s.evictOne else s
  match s.freeSeen with
  | none => (none, s)
  | some i =>
    let id := s.keyOf x.family x.bits
    let e : Seen :=
      { id := id, handle := 0, group := 0, wfirst := 0, wcount := 0, last := s.nowMs, first := s.now / 1000000 % 2 ^ 32, count := 0,
        alive := 0, pos := wordOf 0xFFFFFF, best := 255, miss := 0, proto := x.proto,
        longId := x.family == 0 && decide (x.bits.length > if s.key96 then 96 else 64), aliveLate := false, coal := false,
        lost := false, assigned := false, noHist := s.popIn, refTag := (s.refTagOf x.family id).isSome,
        tally := s.tallyPass x.family x.bits, valid := true, aliveTaken := false, firstAlive := 0 }
    let s := s.setSeen i (some e)
    if e.noHist then
      let s := (s.cnt (Reg.seenCnt 4)).submitBucket (popBucket x.family id) false (.popFetch i)
      (some i, { s with fetches := s.fetches ++ [i] })
    else (some i, s)

/-- The update of R295 for status OK or ALIVE_JUMP. -/
def sightEntry (s : State) (x : Sight) (e : Seen) : Seen :=
  { e with last := s.nowMs, count := satN 16 (e.count + 1), best := min e.best (rssiCode x.rssi), miss := 0, proto := x.proto,
           alive := x.alive.getD e.alive, aliveTaken := e.aliveTaken || x.alive.isSome,
           firstAlive := if e.aliveTaken then e.firstAlive else x.alive.getD e.firstAlive,
           pos := if posValid x.pos then x.pos else e.pos }

/-- The zone of a reply (R368): what the zone map gives for WARP and BAY, 0 when it gives none. -/
def State.zoneOf (s : State) (warp : Nat) (pos : Word) : Nat :=
  match s.draft with
  | none => 0
  | some d => if !posValid pos then 0
              else match d.zones.find? (fun z => z.1 == warp && z.2.1 == posBay pos) with | some z => z.2.2 | none => 0

/-- The tally item of R33: queued unless one of the same identity was queued in the last 100 ms; with the queue full it replaces one of
the same identity, or is dropped and counted. -/
def State.feedTally (s : State) (x : Sight) : State :=
  let id := s.keyOf x.family x.bits
  let k := (x.family, id)
  let recent := s.tal.lastQ.filter (fun e => decide (s.up < e.2 + 100000))
  if !s.board.tally || recent.any (fun e => e.1 == k) then { s with tal := { s.tal with lastQ := recent } }
  else
    let it : FeedItem := { family := x.family, zone := s.zoneOf x.warp x.pos, qual := fieldN x.pos 24 8,
                           rssi := min 200 (rssiCode x.rssi), id := id }
    let t : TalMain := { s.tal with lastQ := recent ++ [(k, s.up)] }
    if t.queue.length < 1024 then { s with tal := { t with queue := t.queue ++ [it] } }
    else if t.queue.any (fun q => q.family == x.family && q.id == id) then
      { s with tal := { t with queue := t.queue.map (fun q => if q.family = x.family ∧ q.id = id then it else q) } }
    else ({ s with tal := { t with lastQ := recent, dropped := t.dropped + 1 } } : State).cnt (Reg.talCnt 0)

/-- The TAG_READ record of a sighting (R309). -/
def State.tagReadRec (s : State) (x : Sight) (st : Status) (index : Nat) (e : Seen) : Rec :=
  let id := s.keyOf x.family x.bits
  let wide := s.key96 && x.family == 0
  { ty := 1, flags := cond e.noHist 8 0 + cond x.stale 4 0 + cond x.clip 2 0 + cond e.longId 1 0, len := cond wide 36 32,
    words := [wordOf (st.code * 2 ^ 24 + x.proto * 2 ^ 22 + x.warp * 2 ^ 20 + x.beam * 2 ^ 16 + index), wordOf (id / 2 ^ 32), wordOf id,
              wordOf (x.time % 2 ^ 32), wordOf (twos 16 x.rssi * 65536 + x.snr % 256 * 256 + x.port), x.pos,
              wordOf ((match x.alive with | none => 0 | some a => a) * 65536 + twos 16 x.dev)] ++ cond wide [wordOf (id / 2 ^ 64)] [] }

/-- Whether a sighting with status OK writes a packet (R298): `old` is the entry before the update, none when it is new; `start` the
round's start in us. -/
def State.reports (s : State) (report start : Nat) (x : Sight) (old : Option Seen) : Bool :=
  match report with
  | 0 => match old with
    | none => true
    | some e =>
      let rep := !e.noHist && decide (s.seenAge e < s.fld Reg.seenCfg 16 8 * 10) && posValid x.pos && posValid e.pos &&
                 posBay x.pos == posBay e.pos
      !(s.coal && rep)
  | 1 => match old with | none => true | some e => decide (s.seenAge e > (s.nowMs + 2 ^ 32 - start / 1000 % 2 ^ 32) % 2 ^ 32)
  | _ => false

/-- A sighting meets the table and is reported (R294, R295, R298): `status` is OK or the alive class's status, `full` that no weft is
free for it (R258). Answers the entry's index. -/
def State.sighting (s : State) (w : Nat) (x : Sight) (status : Status) (full : Bool) : Option Nat × State :=
  let id := s.keyOf x.family x.bits
  let hit := s.findSeen x.family id
  let s := s.cnt (Reg.seenCnt (if hit.isSome then 0 else 1))
  let old := hit.bind s.seenAt
  let (ix, s) := match hit with | some i => (some i, s) | none => s.allocSeen x
  match ix with
  | none => (none, s)
  | some i =>
    match s.seenAt i, s.roundOn w with
    | some e, some r =>
      let shown : Status := if status = .ok ∧ full then .overload else status
      let out := r.kind != RoundKind.access && (shown != .ok || s.reports (eReport r.words) r.start x old)
      let s := if status = .aliveRepeat then s else s.setSeen i (some (sightEntry s x e))
      let s := if status = .aliveRepeat then s else if e.tally then s.feedTally x else s
      let s := if out then
          (s.queueWarp r.warp (s.tagReadRec x shown i e)).updRound w (fun r => { r with reported := r.reported + 1 })
        else
          ((s.updSeen i (fun e => { e with coal := true })).cnt (Reg.seenCnt 7)).updRound w (fun r => { r with coalesced := r.coalesced + 1 })
      (some i, s)
    | _, _ => (ix, s)

/-! ## Positions -/

/-- The position word of a reply (R192) from the Loom's search and the chains of its beam. An x1 above 65,534 cm, which the spec gives no
code for, leaves DIST free. -/
def State.posWord (s : State) (chains : Nat) (p : PosOne) : Word × State :=
  let q := p.q % 256
  if q < s.fld Reg.loomCtrl 0 8 ∨ chains < 2 ∨ p.x1 < 0 then (wordOf (q * 2 ^ 24 + 0xFFFFFF), s)
  else
    let bay := match s.draft with
      | none => 255
      | some d => match d.pos with
        | none => 255
        | some t => (t.bays.findIdx? (fun b => decide (b.1 ≤ p.x1) && decide (p.x1 < b.2))).getD 255
    if p.x1 ≤ 65534 then (wordOf (q * 2 ^ 24 + bay * 2 ^ 16 + p.x1.toNat), s)
    else
      let (f, s) := s.drawWord
      (wordOf (q * 2 ^ 24 + bay * 2 ^ 16 + fieldN f 0 16), s)

/-- REF_STALE of a reply (R193): a port of its chains has had no reference update for LOOM_REF.MAXAGE seconds. -/
def State.refStale (s : State) (ports : List Nat) : Bool :=
  ports.any (fun p => match sget (fun _ => 0) s.refAt p with
    | 0 => true
    | t => decide (s.up ≥ t - 1 + s.fld Reg.loomRef 16 16 * 1000000))

end Sys2Proof.Machine
end

