-- ==== Sys2Proof/Machine/Flags.lean ====
section
/-! DEFINITION. Status words that show the state of a function at the moment they are read: interrupts, levels, health. -/
namespace Sys2Proof.Machine

/-- SYS_IRQ_PEND as it reads: FIFO_THR follows its conditions (R144, R314). -/
def State.irqPend (s : State) : Word := setBitN (s.reg Reg.sysIrqPend) 3 s.fifoThr

/-- The core is unpowered and the I/O ring holds its lands (R41, R98): in DOZE and DORMANT, the power-down included. -/
def State.asleep (s : State) : Bool := match s.phase with | .poweringDown _ => true | .doze => true | .dormant => true | _ => false

/-- The core is unpowered or held in reset, where every land stands as R41 says. -/
def State.ringHeld (s : State) : Bool := s.phase == .held || s.asleep

/-- IRQ_N is asserted (R131, R144): some cause is pending and enabled, and the lands are not held as in reset, DOZE or DORMANT (R41). -/
def State.irqActive (s : State) : Bool := !s.ringHeld && (s.irqPend &&& s.reg Reg.sysIrqEn) != 0

/-- PORT_OOS_LO (`k` 0) and PORT_OOS_HI (`k` 1): one bit per port out of service (R172). -/
def State.portOosWord (s : State) (k : Nat) : Word :=
  wordOf ((List.range 32).foldl (fun a i => if s.portOos (32 * k + i) then a + 2 ^ i else a) 0)

/-- FIFO_LEVEL (R306). -/
def State.fifoLevelWord (s : State) : Word := wordOf (s.fifo.bytes * 2 ^ 14 + s.fifo.pkts)

/-- SEEN_STAT. -/
def State.seenStatWord (s : State) : Word := wordOf (s.seenAssigned * 65536 + s.seenUsed)

/-- SCHED_STAT: L, the warps in use, coalescing and QUIET (R288, R298, R299), which is zero until the core runs (R12). -/
def State.schedStatWord (s : State) : Word :=
  let busy := (List.range 4).foldl (fun a w => if (s.roundOn w).isSome then a + 2 ^ (8 + w) else a) 0
  wordOf (s.shed * 65536 + busy + cond s.coal 2 0 + cond (s.coreOn && !s.bit Reg.schedCtrl 0 && s.rounds.isEmpty) 1 0)

/-- SCHED_WARPw: the round that holds the warp and the ms since its start. -/
def State.schedWarpWord (s : State) (w : Nat) : Word :=
  match s.roundOn w with
  | none => 0
  | some r =>
    let src := match r.kind with | .cal | .pingCal => 1 | .peerWin | .peerRx => 2 | _ => 0
    wordOf (2 ^ 31 + src * 2 ^ 29 + (if src = 0 then r.entry * 65536 else 0) + satN 16 ((s.up - r.began) / 1000))

/-- MEMP_QSTAT. -/
def State.mempQWord (s : State) : Word :=
  let c := match s.memp.cur with | none => 0 | some e => cond e.cont (2 ^ 31) 0 + e.level * 2 ^ 28
  wordOf (c + s.memp.queue.length)

/-- The state of a half (R406): 0 OFF, 1 LOADING, 2 SYNCING, 3 HOT, 4 RUNNING, 5 OOS; `half` is true for MPB. -/
def State.halfState (s : State) (half : Bool) : Nat := s.fld Reg.mgmtStat (if half then 8 else 0) 4

/-- The reason of a half that is out of service: 1 HOST, 2 WDOG, 3 SELFTEST. -/
def State.halfReason (s : State) (half : Bool) : Nat := s.fld Reg.mgmtStat (if half then 12 else 4) 4

/-- The state with a half's state and reason changed. -/
def State.setHalf (s : State) (half : Bool) (st reason : Nat) : State :=
  s.setFld Reg.mgmtStat (if half then 8 else 0) 8 (reason * 16 + st)

/-- The half that is HOT, if one is. -/
def State.hotHalf (s : State) : Option Bool := if s.halfState false = 3 then some false else if s.halfState true = 3 then some true else none

/-- The age in ms of the standby's checkpoint. -/
def State.ckptAge (s : State) : Nat := (s.up - s.mgmt.ckptAt) / 1000

/-- MGMT_STAT with CKPT_AGE, which is 0 while no half is HOT. -/
def State.mgmtStatWord (s : State) : Word := setFieldN (s.reg Reg.mgmtStat) 16 8 (if s.hotHalf.isSome then satN 8 s.ckptAge else 0)

/-- Decoders out of service, one bit each (R419). -/
def State.decOos (s : State) (d : Nat) : Bool := s.bit Reg.mgmtDecOos d

/-- MGMT_HEALTH: PERSIST_FAIL is stored, the rest follows the parts out of service and, once the core runs (R12), the sensors. -/
def State.healthWord (s : State) : Word :=
  let ports := ((List.range 64).filter s.portOos).length
  let txc := ((List.range 4).filter (fun n => s.txReason n != 0)).length
  let rxc := ((List.range 16).filter (fun n => s.fld (Reg.rxcStat n) 24 8 != 0)).length
  let dec := ((List.range 13).filter s.decOos).length
  let crc := ((List.range 4).filter (fun n => s.bit Reg.crcStat (16 + n))).length
  wordOf (cond (s.bit Reg.mgmtHealth 31) (2 ^ 31) 0 + cond s.hotHalf.isSome (2 ^ 30) 0 + cond (s.coreOn && !s.hot.isEmpty) (2 ^ 29) 0 +
          cond (s.dev1 == 2 && s.memOos true) (2 ^ 28) 0 + ports * 2 ^ 16 + txc * 2 ^ 12 + rxc * 2 ^ 7 + dec * 8 + crc)

end Sys2Proof.Machine
end

