-- ==== Sys2Proof/Machine/Operands.lean ====
section
/-! DEFINITION. Host addresses: their classes, clock domains and multi-word groups, and what a read returns (07_register_access.md). -/
namespace Sys2Proof.Machine

/-! ## Address classes (R133, R135) -/

/-- The class of an address. -/
inductive AddrClass where
  | word
  | hole
  | beyond
  | talAbsent
deriving DecidableEq, Repr

/-- An aligned address (R136). -/
def alignWord (a : Nat) : Nat := a / 4 * 4

/-- An address lies in the seen-tag table, tag store, record window or schedule table. -/
def inSeen (a : Nat) : Bool := decide (0x400000 ≤ a) && decide (a < 0x420000)
/-- The tag store. -/
def inTagStore (a : Nat) : Bool := decide (0x480000 ≤ a) && decide (a < 0x482000)
/-- The tally record window. -/
def inTalWindow (a : Nat) : Bool := decide (0x500000 ≤ a) && decide (a < 0x501000)
/-- The schedule table. -/
def inSched (a : Nat) : Bool := decide (0x600000 ≤ a) && decide (a < 0x604000)

/-- The class of an aligned address (R135). -/
def State.addrClass (s : State) (a : Nat) : AddrClass :=
  if a < 0x100000 then
    if a / 4096 = 0x48 ∧ !s.board.tally ∧ a ≠ Reg.talReq ∧ a ≠ Reg.talReqRes then .talAbsent
    else match lastReg (a / 4096) with
      | none => .beyond
      | some l => if a % 4096 > l then .beyond else if (regAt a).isSome then .word else .hole
  else if inTalWindow a then (if s.board.tally then .word else .talAbsent)
  else if inSeen a || inTagStore a || inSched a then .word
  else .beyond

/-- The clock that an access needs runs (R78, R134). -/
def State.clockRuns (s : State) (a : Nat) : Bool :=
  if a < 0x100000 then
    let b := a / 4096
    if (lastReg b).isNone then true
    else if b = 0x4C then s.memOn
    else if b = 0x40 ∨ b = 0x48 ∨ b = 0x50 ∨ b = 0x54 then s.mgmtOn
    else if b ≤ 3 ∨ b = 0x44 then true
    else s.coreOn
  else if inSeen a || inSched a then s.coreOn
  else if inTagStore a || inTalWindow a then s.mgmtOn
  else true

/-- The address of word `k` of a burst that starts at `a` (R136): none where it lies beyond the end of its bank, whose addresses do not run on
into the next one. The run beyond a table is unmapped as it stands. -/
def burstAt (a k : Nat) : Option Nat :=
  let b := alignWord a + 4 * k
  if a < 0x100000 ∧ b / 4096 ≠ a / 4096 then none else some b

/-- Word `k` of the burst lies beyond the last implemented register of its bank, or is unmapped (R135, R136). -/
def State.burstOver (s : State) (a k : Nat) : Bool :=
  match burstAt a k with | none => true | some b => s.addrClass b == .beyond

/-- The clock that word `k` of the burst needs runs (R143): beyond its bank that of the bank. -/
def State.burstRuns (s : State) (a k : Nat) : Bool := s.clockRuns ((burstAt a k).getD (alignWord a))

/-- Word `k` of the burst is served from the HP domain (R118): the HP bank, an unassigned bank, and unmapped addresses. -/
def burstInHp (a k : Nat) : Bool :=
  let b := (burstAt a k).getD (alignWord a)
  if b < 0x100000 then decide (b / 4096 = 2) || (lastReg (b / 4096)).isNone else !(inSeen b || inTagStore b || inTalWindow b || inSched b)

/-- REGION and BANK of SYS_ACC_STAT for an address (R77). -/
def accRegion (a : Nat) : Nat × Nat :=
  if inSeen a then (1, 0) else if inTagStore a then (2, 0) else if inTalWindow a then (3, 0) else if inSched a then (4, 0)
  else (0, a / 4096)

/-! ## Multi-word values (R138, R139) -/

/-- The arrays of multi-word values: first address, words of one, count, and whether the host commits it by its high word. -/
def groupTable : List (Nat × Nat × Nat × Bool) :=
  [(Reg.sysCmdFirst, 3, 1, false), (Reg.portOosLo, 2, 1, false), (0x24000, 2, 8, true), (0x24060, 8, 1, true), (0x280A4, 4, 1, false),
   (0x34020, 4, 1, true), (0x3C000, 4, 8, true), (0x40040, 4, 1, false), (0x4400C, 2, 1, true), (0x44030, 2, 1, false),
   (0x44038, 2, 1, false), (0x44040, 2, 1, false), (0x50038, 4, 1, false), (0x54020, 3, 1, true), (0x400000, 8, 4096, false),
   (0x480000, 16, 128, true), (0x500000, 32, 1, false), (0x500080, 16, 1, false), (0x5000C0, 64, 1, false), (0x5001C0, 32, 1, false),
   (0x500400, 256, 1, false), (0x500800, 512, 1, false), (0x600000, 16, 256, true)]

/-- The multi-word value that holds an address: its low address, its words and whether it is committed by its high word. -/
def groupOf (a : Nat) : Option (Nat × Nat × Bool) :=
  groupTable.findSome? (fun g =>
    let len := 4 * g.2.1
    if g.1 ≤ a ∧ a < g.1 + len * g.2.2.1 then some (g.1 + (a - g.1) / len * len, g.2.1, g.2.2.2) else none)

/-! ## Views -/

/-- A crumb is out of service, as a bit of TAG_OOSn. The words of the TAG bank that show the tag function are zero from a reset to
SYS_READY.TAGF (R12, R334). -/
def State.tagOosWord (s : State) (n : Nat) : Word :=
  if !s.tag.loaded then 0
  else wordOf ((List.range 32).foldl (fun a i => if s.crumbOos (32 * n + i) then a + 2 ^ i else a) 0)

/-- TAG_STAT (R329, R334, R337, R339). -/
def State.tagStatWord (s : State) : Word :=
  let sess := match s.tag.session with
    | none => 0
    | some x => 2 ^ 31 + (match x.fe with | .comm => 0 | .ant p => 2 ^ 30 + p.val * 2 ^ 24)
  wordOf (sess + cond s.tag.loaded (s.freeSpares * 2 ^ 20) 0 + s.tag.sticky + cond s.tag.job.isSome 1 0)

/-- TAG_GUARD (R344), loaded when SYS_READY.TAGF sets. -/
def State.tagGuardWord (s : State) : Word :=
  if !s.tag.loaded then 0
  else
    let lo := match s.tag.lockout with | none => 0 | some (_, us) => 2 ^ 30 + (us + 999999) / 1000000 * 2 ^ 16
    wordOf (cond s.tag.locked (2 ^ 31) 0 + lo + s.tag.cum * 256 + s.tag.consec)

/-- TAG_WEAR of the crumb that TAG_WEAR_SEL names. -/
def State.tagWearWord (s : State) : Word :=
  if !s.tag.loaded then 0
  else
  let c := s.fld Reg.tagWearSel 0 7
  let sp := match s.spareOf c with | none => 0 | some n => 2 ^ 31 + n * 2 ^ 28
  wordOf (sp + satN 17 (s.wearOf (s.locOf c)))

/-- The state of a ping port. -/
def State.pingPort (s : State) (p : Nat) : PingPort := sget (fun _ => .init) s.ping.ports p

/-- PING_STAT (R358). -/
def State.pingStatWord (s : State) : Word :=
  let sweeping := s.ping.sweep.isSome || s.rounds.any (fun r => r.kind == .ping || r.kind == .pingCal)
  wordOf (cond sweeping (2 ^ 31) 0 + cond s.ping.cal.isSome (2 ^ 30) 0 + (s.ping.ports.filter (fun e => e.2.valid)).length)

/-- PING_BASE of the port that PING_BASE_SEL names. -/
def State.pingBaseWord (s : State) : Word :=
  let p := s.pingPort (s.fld Reg.pingBaseSel 0 6)
  wordOf (cond p.valid (2 ^ 31) 0 + p.state * 2 ^ 29 + twos 12 p.bi * 2 ^ 16 + twos 12 p.bq)

/-- PING_MEAS of that port. -/
def State.pingMeasWord (s : State) : Word :=
  let p := s.pingPort (s.fld Reg.pingBaseSel 0 6)
  wordOf (twos 12 p.mi * 2 ^ 16 + twos 12 p.mq)

/-- CRC_HRES (R323): the result of everything entered so far; zero with no computation. -/
def State.crcHresWord (s : State) : Word :=
  match s.crcHost with
  | none => 0
  | some (p, r) => wordOf (crcOut (fieldN (p.getD 0 0) 0 6) (bitN (p.getD 0 0) 29) (p.getD 3 0).toNat r)

/-- An entry of the event log as words 0 to 3 (R414). -/
def LogEntry.words (e : LogEntry) : List Word :=
  [wordOf e.seq, e.aoTime, wordOf (e.sev * 2 ^ 30 + e.source * 2 ^ 24 + e.code * 2 ^ 16 + e.resets), e.detail]

/-- The entry of a SEQ that is on chip; four zero words when none is (R417). -/
def State.logWords (s : State) (seq : Nat) : List Word :=
  match s.mgmt.log.find? (fun e => e.seq == seq) with | some e => e.words | none => [0, 0, 0, 0]

/-- HP_STATUS with WR_PEND (R123). -/
def State.hpStatusWord (s : State) : Word := setBitN (s.reg Reg.hpStatus) 0 s.wrPend

/-- SYS_READY as it is read (R45, R90): under EXTEST only its HP bit. -/
def State.readyWord (s : State) : Word := if s.tap = .extest then s.reg Reg.sysReady &&& 1 else s.reg Reg.sysReady

/-- The words that the sensors' hardware samples (R412, R413): MGMT_SENSi and MGMT_PPWRp. -/
def sampledAddr (a : Nat) : Bool := (decide (0x50100 ≤ a) && decide (a < 0x50148)) || (decide (0x50200 ≤ a) && decide (a < 0x50300))

/-- The microseconds in which a sensor has been sampled once (R412). -/
def sensPeriod (i : Nat) : Nat := if i < 8 then 10000 else if i < 15 then 1000 else 16000

/-- MGMT_SENSi as it is read: VALUE is a measurement, a free value. VALID is set once its period has passed in ACTIVE since the reset, where every domain is
powered; before, and in the other states, the spec gives neither the moment of a sample nor a sensor's domain, and it is free (DESIGN CHOICE, log
entry 55). Both are zero from a reset until the host port is up (R12). Sensor 15 is reserved, and AUX0 and AUX1 (16 and 17) are codes of 12 bits. -/
def State.sensWord (s : State) (i : Nat) : Word :=
  let w := Config.sensor i s.freeCtr &&& (if 16 ≤ i then 0x80000FFF else 0x8000FFFF)
  if i = 15 || !s.ready rdHp then 0
  else if s.phase = .active ∧ sensPeriod i ≤ s.up then setBitN w 31 true else w

/-- A port carries the carrier: it is on a transmit bus whose illuminator is on (R58). -/
def State.portCarries (s : State) (p : Nat) : Bool :=
  (List.range 4).any (fun n => s.txOn n && s.bit (Reg.txcStat n) 23 && s.fld (Reg.txcStat n) 16 6 == p)

/-- MGMT_PPWRp as it is read (R413): VALID is set while the port carries the carrier, from the first measurement on, and for 1 ms after the last one; with no
carrier on any port in that time it is clear. Between the two it is free, as the powers are (DESIGN CHOICE, log entry 55). -/
def State.ppwrWord (s : State) (p : Nat) : Word :=
  let w := Config.sensor (64 + p) s.freeCtr &&& 0x8000FFFF
  let on := (List.range 4).filter (fun n => s.txOn n && s.bit (Reg.txcStat n) 23 && s.fld (Reg.txcStat n) 16 6 == p)
  if !s.ready rdHp then 0
  else if on.any (fun n => match (s.tx n).onAt with | some t => decide (t + 50 ≤ s.up) | none => false) then setBitN w 31 true
  else if s.portCarries p || s.airLog.any (fun e => decide (s.up < e.2.2 + 1000)) then w
  else setBitN w 31 false

/-- RXCn_CANC_STAT and RXCn_CANC_TAPk of a chain whose canceller adapts, at offset `o` of their five words: present values that the spec does not
fix (DESIGN CHOICE, log entry 45). -/
def State.cancSample (s : State) (n o : Nat) : Word :=
  let v := Config.sensor (256 + 8 * n + o) s.freeCtr
  if o = 0 then cancWord v else v &&& 0x0FFF0FFF

/-- A canceller word of a chain that adapts: the chain and which of its five words. -/
def State.cancAddr (s : State) (a : Nat) : Option (Nat × Nat) :=
  let n := a / 4096 - 16
  if 0x10100 ≤ a ∧ a < 0x20000 ∧ 0x100 ≤ a % 4096 ∧ a % 4096 < 0x114 ∧ s.cancLive n then some (n, (a % 4096 - 0x100) / 4) else none

/-- The sensors take another sample. -/
def State.resample (s : State) : State := { s with freeCtr := s.freeCtr + 1 }

/-- The registers whose value is the present state of a function; none for one that is stored as a word. -/
def State.derived (s : State) (a : Nat) : Option Word :=
  match a / 4096 with
  | 0x00 => if a = Reg.sysIrqPend then some s.irqPend else if a = Reg.sysReady then some s.readyWord else none
  | 0x02 => if a = Reg.hpStatus then some s.hpStatusWord else none
  | 0x22 => if a = Reg.portOosLo then some (s.portOosWord 0) else if a = Reg.portOosHi then some (s.portOosWord 1) else none
  | 0x28 => if 0x280A4 ≤ a ∧ a < 0x280B4 then some ((s.umDiag.getD (s.fld Reg.umaDiagSel 0 2) []).getD ((a - 0x280A4) / 4) 0) else none
  | 0x30 => if a = Reg.schedStat then some s.schedStatWord
            else if 0x30020 ≤ a ∧ a < 0x30030 then some (s.schedWarpWord ((a - 0x30020) / 4)) else none
  | 0x34 => if a = Reg.seenStat then some s.seenStatWord else none
  | 0x38 => if a = Reg.fifoLevel then some s.fifoLevelWord else none
  | 0x3C => if a = Reg.crcHres then some s.crcHresWord else none
  | 0x40 =>
    if a = Reg.tagStat then some s.tagStatWord
    else if a = Reg.tagGuard then some s.tagGuardWord
    else if a = Reg.tagLock then some (if s.tag.loaded then wordOf s.tag.locks else 0)
    else if a = Reg.tagFieldLast then some (if s.tag.loaded then wordOf (s.tag.fieldCount * 2 ^ 24 + s.tag.fieldCrumb) else 0)
    else if 0x40020 ≤ a ∧ a < 0x40040 then
      some (match s.tag.spares.getD ((a - 0x40020) / 4) none with | some c => if s.tag.loaded then wordOf (2 ^ 31 + c) else 0 | none => 0)
    else if 0x40040 ≤ a ∧ a < 0x40050 then some (s.tagOosWord ((a - 0x40040) / 4))
    else if a = Reg.tagWear then some s.tagWearWord
    else none
  | 0x44 => if a = Reg.pingStat then some s.pingStatWord else if a = Reg.pingBase then some s.pingBaseWord
            else if a = Reg.pingMeas then some s.pingMeasWord else none
  | 0x48 => if a = Reg.talStat then some (wordOf (cond (s.bit Reg.sysClkstat 7) (2 ^ 31) 0 + s.fld (Reg.talWindow 0) 0 16))
            else if a = Reg.talAudit then some (wordOf (s.fld (Reg.talWindow 0) 16 16)) else none
  | 0x4C => if a = Reg.mempQstat then some s.mempQWord else none
  | 0x50 => if a = Reg.mgmtStat then some s.mgmtStatWord else if a = Reg.mgmtHealth then some s.healthWord
            else if 0x50038 ≤ a ∧ a < 0x50048 then some ((s.logWords (s.reg Reg.mgmtLogSel).toNat).getD ((a - 0x50038) / 4) 0)
            else if 0x50100 ≤ a ∧ a < 0x50148 then some (s.sensWord ((a - 0x50100) / 4))
            else if 0x50200 ≤ a ∧ a < 0x50300 then some (s.ppwrWord ((a - 0x50200) / 4)) else none
  | _ => (s.cancAddr a).map (fun e => s.cancSample e.1 e.2)

/-- Word `m` of crumb `c` on the wire side (R333, R334): crumb 0 reads zero. -/
def State.wireWord (s : State) (c m : Nat) : Word := if c = 0 then 0 else s.tagWire c m

/-- The present value of an implemented word (R10): a write-only field holds zero in the map. -/
def State.viewWord (s : State) (a : Nat) : Word :=
  if inSeen a then (seenWords (s.seenAt ((a - 0x400000) / 32))).getD (a % 32 / 4) 0
  else if inTagStore a then (if s.tag.loaded then s.wireWord ((a - 0x480000) / 64) (a % 64 / 4) else 0)
  else if inTalWindow a && decide (0x500240 ≤ a) && decide (a < 0x500400) then 0
  else match s.derived a with | some w => w | none => s.reg a

/-! ## Reads -/

/-- A wire read of a crumb meets its error-correcting code (R338): whether the content stored had an error it can or cannot correct is the
chip's, a free outcome, but a crumb that read uncorrectable does so again (DESIGN CHOICE, log entry 49). -/
def State.wireEcc (s : State) (c : Nat) : State :=
  let (wrong, s) := s.drawBool
  let (twice, s) := s.drawBool
  if s.tag.bad.contains c || (wrong && twice) then s.eccFail c
  else if wrong then s.eccFix c else s

/-- What reading a word does beside answering: RC fields restart (R13), and the tag store's wire reads meet R334 and R338. -/
def State.readEffect (s : State) (a : Nat) : State :=
  if a = Reg.hpIgnored then s.setReg a 0
  else if sampledAddr a || (s.cancAddr a).isSome then s.resample
  else if a = Reg.portLastFault then s.setFld a 24 8 0
  else if a = Reg.fifoStat then s.setFld a 14 18 s.fifo.bytes
  else if a = Reg.tagFieldLast then (if s.tag.loaded then { s with tag := { s.tag with fieldCount := 0 } } else s)
  else if inTagStore a then
    (if !s.tag.loaded then { s with tag := { s.tag with early := true } }
     else if a % 64 = 0 ∧ a ≠ 0x480000 then s.wireEcc ((a - 0x480000) / 64)
     else s)
  else s

/-- The latch of R138. -/
def State.latch (s : State) (a : Nat) : Word := sget (fun _ => 0) s.latches a

/-- One word is read whole (R135, R138): its value and whether it sets ADDR_OVER. The low word of a multi-word value latches the rest. -/
def State.readWord (s : State) (a : Nat) : Word × Bool × State :=
  match s.addrClass a with
  | .hole => (0, false, s)
  | .talAbsent => (0, false, s)
  | .beyond => (0, true, s)
  | .word =>
    match groupOf a with
    | none => (s.viewWord a, false, s.readEffect a)
    | some (lo, n, _) =>
      if a = lo then
        let v := s.viewWord a
        let ls := (List.range n).foldl (fun m k => if k = 0 then m else sput (fun _ => 0) m (lo + 4 * k) (s.viewWord (lo + 4 * k))) s.latches
        (v, false, ({ s with latches := ls } : State).readEffect a)
      else (s.latch a, false, s.readEffect a)

end Sys2Proof.Machine
end

