-- ==== Sys2Proof/Machine/HpOps.lean ====
section
/-! DEFINITION. The host port's frames (06_host_port.md): flags, words served, the trailer, and the frames that wait. -/
namespace Sys2Proof.Machine

/-! ## Flags (R121) -/

/-- Bits of the pending trailer flags, 0 to 6 for trailer bits 8 to 14, with the HP_STATUS bit of each. -/
def fAbandon : Nat × Nat := (0, 1)
def fWrOver : Nat × Nat := (1, 2)
def fPartialUsed : Nat × Nat := (2, 3)
def fPartialErr : Nat × Nat := (3, 4)
def fStallTo : Nat × Nat := (4, 5)
def fUnderrun : Nat × Nat := (5, 6)
def fAddrOver : Nat × Nat := (6, 7)

/-- An event of R121: pending for the next trailer, and sticky in HP_STATUS. -/
def State.hpFlag (s : State) (f : Nat × Nat) : State :=
  let s := s.setBit Reg.hpStatus f.2 true
  { s with hp := { s.hp with flags := s.hp.flags ||| 2 ^ f.1 } }

/-- TRAILER (R120). -/
def State.trailerOn (s : State) : Bool := s.bit Reg.hpCtrl 0

/-- Data words of a frame while TRAILER is 1 (R120). -/
def State.burstWords (s : State) : Nat := s.fld Reg.hpCtrl 8 8 + 1

/-- The trailer (R121). -/
def State.trailerWord (s : State) : BitVec 16 :=
  let fr := s.fld Reg.hpFrames 0 4
  let hi := cond s.irqActive 128 0 + s.hp.flags % 128
  let chk := (hi / 16) ^^^ (hi % 16) ^^^ fr
  BitVec.ofNat 16 (hi * 256 + fr * 16 + chk)

/-- The trailer is sent: it reports and clears the pending flags. -/
def State.sendTrailer (s : State) : State :=
  match s.hp.frame with
  | none => s
  | some f =>
    let t := s.trailerWord
    { s with hp := { s.hp with frame := some { f with trailer := some t, phase := .trailer }, flags := 0 } }

/-! ## Words -/

/-- STAT as it reads now (R127). -/
def State.statWord (s : State) : Word :=
  let pk := if s.coreOn then satN 8 s.fifo.pkts else 0
  wordOf (pk * 2 ^ 24 + s.fld Reg.sysClkstat 0 8 * 2 ^ 16 + cond s.irqActive 32768 0 + cond s.bringupDone 16384 0 +
          cond (s.bit Reg.sysDraftStat 1) 8192 0 + fieldN s.hpStatusWord 0 10)

/-- The firmware version of the running half, zero while SYS_READY.MGMT is clear (R128): that of the slot it executes in place from. Until a
takeover is over the copy holds that of the half that failed. -/
def State.fwVersion (s : State) : Word :=
  if !s.ready rdMgmt then 0
  else match s.mgmt.running.or (s.mgmt.takeover.map (fun h => !h)) with
    | none => 0
    | some h => ((s.upd.fw.getD (if s.xipBase h = 7 then 1 else 0) ⟨0, 0, 0, false⟩)).ver

/-- The identity words (R128). -/
def State.identWord (s : State) (k : Nat) : Word :=
  match k with
  | 0 => 0x48F56480
  | 1 => if s.board.tally then 0x541A0100 else 0x4E1A0100
  | 2 => wordOf (s.board.serial / 2 ^ 32)
  | 3 => wordOf s.board.serial
  | 4 => s.fwVersion
  | _ => 0

/-- The answer word of a frame that yields one (ABORT, FDROP, WAIT) is the first of `out`; later words read zero (R120). -/
def Frame.answer (f : Frame) (k : Nat) : Word := if k = 0 then f.out.headD 0 else 0

/-- The next word of the read data phase is clocked out whole (R120, R124, R125, R136). -/
def State.serveWord (s : State) (f : Frame) (k : Nat) : Word × State :=
  match f.kind with
  | some (.rd a) =>
    (match burstAt a k with
     | none => (0, s.hpFlag fAddrOver)
     | some b =>
       let (w, past, s) := s.readWord b
       (w, if past then s.hpFlag fAddrOver else s))
  | some .stat => (s.statWord, s)
  | some .ident => (s.identWord k, s)
  | some .frd =>
    match s.fifoPop with
    | (some w, s) => (w, s)
    | (none, s) => (s.fifo.lastWord, s.hpFlag fUnderrun)
  | some .fdrop => if k = 0 then (let (n, s) := s.fifoDrop; (wordOf n, s)) else (0, s)
  | _ => (f.answer k, s)

/-- Word `k` of a frame hangs (R143): it reads a domain whose clock is stopped. -/
def State.wordHangs (s : State) (f : Frame) (k : Nat) : Bool :=
  match f.kind with | some (.rd a) => !s.burstRuns a k | _ => false

/-- Up to `n` words of the data phase from word `k` on, as far as none hangs (R143). -/
def State.serveWords (s : State) (f : Frame) : Nat → Nat → List Word × State
  | 0, _ => ([], s)
  | n + 1, k =>
    if s.wordHangs f k then ([], s)
    else
      let (w, s) := s.serveWord f k
      let (ws, s) := s.serveWords f n (k + 1)
      (w :: ws, s)

/-- The words that the host takes of a frame with `n` words clocked: with TRAILER it has BURST + 1 and no more (R120). -/
def State.framedWords (s : State) (n : Nat) : Nat := if s.trailerOn then min n s.burstWords else n

/-- Lanes of the response, data and trailer phases: HP_LANES.DATA (R115). -/
def State.dataLanes (s : State) : Nat := 2 ^ s.fld Reg.hpLanes 8 2

/-- How many bits of the trailer the host clocks in a read of `n` words and `b` bits (R120, R124): what follows the BURST + 1 words. -/
def State.readTail (s : State) (n b : Nat) (t : Bool) : Nat := if t then 16 else 32 * (n - s.burstWords) + b

/-- The cycles of a write after its BURST + 1 words (R120): those of bits that the host drives beyond them, and those it clocks after them. -/
def State.writeRest (s : State) (d : List Word) (t : TailBits) (more : Nat) : Nat :=
  (32 * (d.length - s.burstWords) + t.n) / s.dataLanes + more

/-- How many bits of the trailer the host clocks in a write: those after a further turnaround (R115, R120). -/
def State.writeTail (s : State) (d : List Word) (t : TailBits) (more : Nat) : Nat :=
  (s.writeRest d t more - (s.fld Reg.hpCtrl 4 2 + 1)) * s.dataLanes

/-- The trailer is clocked out whole (R120, R124): TRAILER is 1, all BURST + 1 of `n` words have gone before it, and its 16 bits have. -/
def State.clocksTrailer (s : State) (n bits : Nat) : Bool := s.trailerOn && decide (s.burstWords ≤ n) && decide (16 ≤ bits)

/-- An FRD burst takes only the packets complete at its start token (R125): those that complete later follow in the next FRD. The model
serves a burst in one step, so no packet completes inside it. A burst that a stopped clock has hung goes on with the words still to come. -/
def State.startData (s : State) : State :=
  match s.hp.frame with
  | none => s
  | some f =>
    match f.kind with
    | some (.wr a d tail) =>
      let n := s.framedWords d.length
      let s := if (List.range (min n 256)).any (fun k => s.burstOver a k) then s.hpFlag fAddrOver else s
      let s := if 256 < n then s.hpFlag fWrOver else s
      let s : State := { s with hp := { s.hp with frame := some { f with phase := .data, token := .start } } }
      (match f.reach with | .written more => if s.clocksTrailer d.length (s.writeTail d tail more) then s.sendTrailer else s | _ => s)
    | _ =>
      match f.reach with
      | .data n b t =>
        let m := s.framedWords n
        let (ws, s) := s.serveWords f (m - f.out.length) f.out.length
        let out := f.out ++ ws
        let ph : FramePhase := if out.length < m then .held .clock else .data
        let s : State := { s with hp := { s.hp with frame := some { f with phase := ph, token := .start, out := out } } }
        if m ≤ out.length && s.clocksTrailer n (s.readTail n b t) then s.sendTrailer else s
      | _ => s

/-- The rest of an FRD burst underruns (R317, R125): a pointer reset meets it after any of its words but the last, and each later one repeats the last
word clocked out; how many had been is free, since the model serves a burst in one step (DESIGN CHOICE, log entry 57). A trailer already sent
carries the flag too. -/
def State.cutBurst (s : State) : State :=
  match s.hp.frame with
  | none => s
  | some f =>
    if f.kind ≠ some .frd ∨ f.token ≠ .start ∨ f.out.length < 2 then s
    else
      let (c, s) := s.drawWord
      let keep := f.out.take (1 + c.toNat % f.out.length)
      if f.out.length ≤ keep.length then s
      else
        let w := keep.getLastD 0
        let out := keep ++ List.replicate (f.out.length - keep.length) w
        let s : State := { s with fifo := { s.fifo with lastWord := w } }
        match f.trailer with
        | none => ({ s with hp := { s.hp with frame := some { f with out := out } } } : State).hpFlag fUnderrun
        | some t =>
          let t := if t.toNat / 2 ^ 13 % 2 = 1 then t else t ^^^ 0x2002
          { s.setBit Reg.hpStatus fUnderrun.2 true with hp := { s.hp with frame := some { f with out := out, trailer := some t } } }

/-! ## Frames that wait (R118, R77, R125, R340) -/

/-- The crumbs that a frame touches. -/
def Frame.crumbs (f : Frame) : List Nat :=
  match f.kind with
  | some (.rd a) => wireCrumbs a (match f.reach with | .data n _ _ => max 1 n | _ => 1)
  | some (.wr a d _) => wireCrumbs a (max 1 d.length)
  | _ => []

/-- The frame must wait for a crumb it touches (R340): one that is owned, and a read once it waits until its turn has come. -/
def State.crumbHeld (s : State) (f : Frame) : Bool :=
  match f.phase, f.kind with
  | .held .crumb, some (.rd _) => s.tag.queue.any (fun j => j.who == .read)
  | _, _ => f.crumbs.any s.crumbOwned

/-- A read that must wait is in line for its crumbs (R340), and the wait is counted. -/
def State.waitCrumb (s : State) (f : Frame) : State :=
  if f.phase = .held .crumb then s
  else
    let line := match f.kind with
      | some (.rd _) => f.crumbs.map (fun c => ({ crumb := c, patch := [], who := .read, failed := false, reply := false } : CrumbJob))
      | _ => []
    ({ s with tag := { s.tag with queue := s.tag.queue ++ line } } : State).cnt (Reg.tagCnt 2)

/-- The frame is served from the HP domain (R118): STAT, IDENT, and every word of an RD or WR in the HP bank or at no bank or table. -/
def Frame.inHp (f : Frame) : Bool :=
  match f.kind with
  | some .stat => true
  | some .ident => true
  | some (.rd a) => (match f.reach with | .data n _ _ => (List.range (max 1 n)).all (burstInHp a) | _ => burstInHp a 0)
  | some (.wr a d _) => (List.range (max 1 d.length)).all (burstInHp a)
  | _ => false

/-- Why a frame must wait now, if it must (R118). A frame served from the HP domain waits for nothing: its row of R118 is the first that
applies, where R123 speaks of any later frame (DESIGN CHOICE, log entry 38). -/
def State.holdOf (s : State) (f : Frame) : Option Hold :=
  if f.inHp then none
  else if s.wrPend then some .posted
  else match f.kind with
  | some (.rd a) => if !s.burstRuns a f.out.length then some .clock else if s.crumbHeld f then some .crumb else none
  | some (.wr a _ _) => if !s.burstRuns a 0 then some .clock else if s.crumbHeld f then some .crumb else none
  | some .frd => if !s.coreOn then some .clock else if s.fifo.packets.isEmpty && s.fifo.head.isEmpty then some .fifo else none
  | some .fdrop => if !s.coreOn then some .clock else none
  | some (.abort _) => if f.out.isEmpty then some .clock else none
  | some .wait => if f.out.isEmpty then some .wait else none
  | _ => none

/-- The frame in its response phase is served if nothing holds it any more and the host clocks on, and waits otherwise. -/
def State.serveFrame (s : State) : State :=
  match s.hp.frame with
  | none => s
  | some f =>
    match f.phase with
    | .response | .held _ =>
      (match s.holdOf f with
       | some h =>
         let s := if h = .crumb then s.waitCrumb f else s
         { s with hp := { s.hp with frame := some { f with phase := .held h } } }
       | none =>
         match f.reach with
         | .data _ _ _ => s.startData
         | .written _ => s.startData
         | _ => { s with hp := { s.hp with frame := some { f with phase := .response } } })
    | _ => s

/-- A frame that waits is looked at again. -/
def State.resumeFrame (s : State) : State :=
  match s.hp.frame with
  | some f => (match f.phase with | .held _ => s.serveFrame | _ => s)
  | none => s

/-- A WAIT frame gets its result word (R98, R99). -/
def State.answerWait (s : State) (w : Word) : State :=
  match s.hp.frame with
  | some f => if f.kind = some .wait then ({ s with hp := { s.hp with frame := some { f with out := [w] } } } : State).serveFrame else s
  | none => s

end Sys2Proof.Machine
end

