-- ==== Sys2Proof/Machine/DumpOps.lean ====
section
/-! DEFINITION. The export of the event log as DIAG LOG packets (20_management_and_service.md R417, R418). -/
namespace Sys2Proof.Machine

/-- The entries that a DUMP exports (R417): those held, on chip and in flash, from SEQ `sel` onwards, oldest first, at most 4,096. -/
def State.dumpEntries (s : State) (sel : Nat) : List LogEntry :=
  (((s.mgmt.log.take s.mgmt.unsaved ++ s.mgmt.flashLog).reverse).filter (fun e => decide (sel ≤ e.seq))).take 4096

/-- A DIAG LOG packet of up to 63 entries (R418). -/
def State.logRec (s : State) (es : List LogEntry) : Rec :=
  { ty := 0x0F, flags := cond s.mgmt.takeoverDiag 8 0, len := 12 + 16 * es.length,
    words := [wordOf (2 * 2 ^ 24), wordOf (es.headD ⟨0, 0, 0, 0, 0, 0, 0⟩).seq] ++ es.flatMap LogEntry.words }

/-- The exports under way go on (R417): the running half queues the next packet while the DIAG queue has room (DEDUCED, log entry 30), and a
command completes with OK when its last packet is queued. At most `n` packets and ends of commands. -/
def State.feedDumps : Nat → State → State
  | 0, s => s
  | n + 1, s =>
    match s.mgmt.dumps with
    | [] => s
    | (seq, es) :: r =>
      if es.isEmpty then State.feedDumps n (({ s with mgmt := { s.mgmt with dumps := r } } : State).complete seq .ok)
      else if !s.halfRuns || decide (4 ≤ s.fifo.diag.length) then s
      else
        let s := s.queueDiag (s.logRec (es.take 63))
        State.feedDumps n { s with mgmt := { s.mgmt with takeoverDiag := false, dumps := (seq, es.drop 63) :: r } }

/-- The exports go on as far as the DIAG queue has room. -/
def State.dumpOn (s : State) : State := State.feedDumps 80 s

end Sys2Proof.Machine
end

