-- ==== Sys2Proof/Machine/ResetOps.lean ====
section
/-! DEFINITION. Resets (04_clocks_reset_bringup.md R79 to R81): the trigger, and what a core reset and a full reset leave. -/
namespace Sys2Proof.Machine

/-- A reset is triggered (R80): its cause waits for RESET_EFFECT, and every transmitting illuminator ramps down, in 8 us for VIN_BOR,
PIN, CLKFAIL and VAO_BOR. -/
def State.triggerReset (s : State) (c : Cause) : State :=
  let fast := c == .vinBor || c == .pin || c == .clkfail || c == .vaoBor
  let s : State := if s.resets.contains c then s else { s with resets := s.resets ++ [c] }
  (List.range 4).foldl (fun (s : State) n => if s.txOn n then s.rampDown n fast .off else s) s

/-- Addresses whose registers lie in the AO domain and survive a core reset (R79). -/
def aoAddr (a : Nat) : Bool :=
  a == Reg.sysResetCause || a == Reg.sysProfNext || a == Reg.sysAccStat || a / 4096 == 1 || a / 4096 == 3 || a / 4096 == 0x44

/-- Every register at its Reset column but those of the AO domain (R79); LANDS and the AO bits of SYS_CLKSTAT stay as they are,
and so does TALLINK, which R377 has follow the frames of the last 2 s alone. -/
def State.coreRegs (s : State) : List (Nat × Word) :=
  let base := (resetRegs s.board.tally).filter (fun e => !aoAddr e.1)
  let m := (s.regs.filter (fun e => aoAddr e.1)).foldl (fun m e => sput (fun _ => 0) m e.1 e.2) base
  let m := sput (fun _ => 0) m Reg.sysProfStat (wordOf (s.fld Reg.sysProfStat 0 2))
  sput (fun _ => 0) m Reg.sysClkstat (wordOf (s.fld Reg.sysClkstat 0 2 + cond (s.bit Reg.sysClkstat 7) 128 0))

/-- The tag function after a reset of the TAGF domain: a crumb write in progress has completed (R80), the wire side is not loaded, and no
crumb is out of service (DEDUCED, log entry 49); a wake does not touch the domain, and so no field session (R331). -/
def TagFn.afterReset (t : TagFn) (wake : Bool) : TagFn :=
  let t := { t with loaded := false, early := false, sticky := 0 }
  if wake then t
  else { t with job := none, queue := [], guardBusy := false, session := none, half := none, reply := .none, oos := [], fix := [] }

/-- A draft whose flash write was cut off (R80): its first bytes alone are there, a number that is the flash's (a free value), so that its proof fails. -/
def State.tearDraft (s : State) (i : DraftImage) : DraftImage × State :=
  let (w, s) := s.drawWord
  ({ i with bytes := i.bytes.take (w.toNat % max 1 (draftLen i)), sigOk := false }, s)

/-- What stands in flash after a write that replaced `old` was cut off: with nothing begun the old content, else nothing that its checks accept or, with
its last bit written, the new content (free values). -/
def State.tear {α : Type} (s : State) (t : FlashTask) (old new none : α) : α × State :=
  let (whole, s) := s.drawBool
  (if !t.begun then old else if whole then new else none, s)

/-- What a task on the flash that a reset cuts off leaves (R80, R403). -/
def State.tearTask (s : State) (t : FlashTask) : State :=
  match t.kind with
  | .record false old => let (x, s) := s.tear t old s.upd.recA none; { s with upd := { s.upd with recA := x } }
  | .record true old => let (x, s) := s.tear t old s.upd.recB none; { s with upd := { s.upd with recB := x } }
  | .settings old => let (x, s) := s.tear t old s.upd.settings []; { s with upd := { s.upd with settings := x } }
  | .seeds old => let (x, s) := s.tear t old s.upd.seeds []; { s with upd := { s.upd with seeds := x } }
  | .offsets old => let (x, s) := s.tear t old s.phiFlash none; { s with phiFlash := x }
  | .baselines old => let (x, s) := s.tear t old s.ping.flash none; { s with ping := { s.ping with flash := x } }
  | .draft slot =>
    match s.imageDraft slot with
    | some i =>
      if !t.begun then s
      else
        let (x, s) := s.tearDraft i
        { s with upd := { s.upd with slots := s.upd.slots.set slot (some x) } }
    | none => s
  | .firmware =>
    if t.begun then { s with upd := { s.upd with fw := s.upd.fw.modify (cond (s.bit Reg.updStat 18) 0 1) (fun f => { f with valid := false }) } } else s
  | .eraseStaging =>
    if t.begun then { s with upd := { s.upd with blocks := s.upd.blocks.filter (fun b => decide (t.pos + 4096 ≤ 0x1200000 + 512 * b.1)) } } else s
  | .newSettings | .eraseSettings => s

/-- What a reset leaves of the flash writes that it cuts off (R80): those of tasks, the last begun first; a block of staging holds its first words; the
sector of the event log whose erase runs is lost. -/
def State.tearFlash (s : State) : State :=
  let m := s.memp
  let s := m.tasks.reverse.foldl State.tearTask s
  let writing := m.all.filterMap (fun e => match e.job with | .stage n c => some (if n = 0 then c / 2 else c) | _ => none)
  let s := writing.eraseDups.foldl (fun (s : State) c =>
    let (w, s) := s.drawWord
    let k := w.toNat % 129
    { s with upd := { s.upd with blocks := s.upd.blocks.map (fun b => if b.1 = c then (c, b.2.take k ++ List.replicate (b.2.length - k) 0xFFFFFFFF) else b) } }) s
  if (m.cur.or (m.prog.or m.checking)).any (fun e => e.job == .logErase) then
    { s with mgmt := { s.mgmt with flashLog := s.mgmt.flashLog.take (262144 - 256) } }
  else s

/-- Everything that lies outside the AO domain returns to its reset state (R79, R30): what flash, the FRAM and the board hold stays. -/
def State.clearCore (s : State) (wake : Bool) : State :=
  let s : State :=
    if wake then s
    else
      let s := match s.tag.job with | some j => s.landCrumb j | none => s
      s.endSession.decayFlags
  let s := s.tearFlash
  { s with phase := .held, timeBase := 0, up := 0, regs := s.coreRegs, latches := [], staging := s.staging.filter (fun e => aoAddr e.1), hp := .init, cmds := [], hostNext := 1,
           hostWrap := false, schedNext := 1, schedWrap := false, abortedEnded := [], acc := .init, fifo := .init,
           txc := List.replicate 4 .init, chains := List.replicate 16 .init, beams := List.replicate 16 none, crcQ := [], phi := [],
           refAt := [], seeds := [], seedWt := [], unusable := [], wts := [], divAt := [], calNext := 0, chanOff := [], airLog := [], hopPos := 0, rounds := [], dueAt := [], cands := [], shed := 16,
           coal := false, seen := [], seenWb := [], pop := [], fetches := [], umTags := [], umDiag := List.replicate 4 [0, 0, 0, 0], quar := [], peer := .init, crcHost := none,
           tag := s.tag.afterReset wake, ping := { s.ping with sweep := if wake then s.ping.sweep else none, cal := none, wake := if wake then s.ping.wake else none },
           tal := .init, memp := { Memp.init with frozen := s.tap == .extest },
           mgmt := { Mgmt.init with flashLog := s.mgmt.flashLog, resets := s.mgmt.resets + 1, nextSeq := s.mgmt.nextSeq },
           upd := { s.upd with live := none, proof := none, switching := false, reverting := false, fallback := .none,
                               boundary := [], busy := false, copying := none, scope1 := [] },
           broughtUp := false }

/-- A core reset takes effect (R79): LAST takes its code and its own bit sets; one that ends IDLE, DOZE or DORMANT sets TARGET to ACTIVE (R110). -/
def State.coreReset (s : State) (c : Cause) : State :=
  let slept := match s.phase with | .committed _ => true | .poweringDown _ => true | .idle => true | .doze => true | .dormant => true | _ => false
  let s := s.clearCore (c == .wake)
  let s := if slept then s.setReg Reg.pwrMode 0 else s
  (s.setFld Reg.sysResetCause 28 4 c.code).setBit Reg.sysResetCause c.code true

/-- A full reset takes effect (R79): the AO domain too, and exactly one of bits 1:0 is set. -/
def State.fullReset (s : State) (c : Cause) : State :=
  let s := s.clearCore false
  let s : State := { s with regs := resetRegs s.board.tally, aoFrac := 0, wakes := [], wakeAt := none, staging := [],
                            ping := { Ping.init with flash := s.ping.flash } }
  s.setReg Reg.sysResetCause (wordOf (c.code * 2 ^ 28 + (if c = .por then 1 else 2)))

/-- A reset of a cause takes effect. -/
def State.takeReset (s : State) (c : Cause) : State :=
  if c = .por ∨ c = .vaoBor then s.fullReset c else s.coreReset c

end Sys2Proof.Machine
end

