-- ==== Sys2Proof/Machine/LiveOps.lean ====
section
/-! DEFINITION. A draft goes live after its proof: calibration in isolation begins (R64, R91, R176, R199, R473). -/
namespace Sys2Proof.Machine

/-- An illuminator begins its isolated calibration into its internal load (R176), unless its sensors read hot (R64). -/
def State.startTxcCal (s : State) (n : Nat) : State :=
  let s := s.readHot n
  if s.txcHot n then s.txcFail n 2 false
  else s.calTxc n

/-- A draft goes live after its proof (R88, R91, R473): its illuminators and chains calibrate. -/
def State.goLive (s : State) (d : Draft) : State :=
  let s : State := { s with upd := { s.upd with live := some d } }
  let s := ((s.loadFields d).loadSchedule d).copyPing d
  let s := s.expectDraft d
  let phi := match s.phiFlash with | some (i, p) => if i = d.id then p else [] | none => []
  let s : State := { s with phi := phi }
  let s := (List.range 4).foldl (fun (s : State) n => if s.expected (rdTxc n) && s.txReason n = 0 then s.startTxcCal n else s) s
  (List.range 16).foldl (fun (s : State) n => if s.expected (rdRxc n) && s.fld (Reg.rxcStat n) 24 8 = 0 then s.startChainCal n else s) s

end Sys2Proof.Machine
end

