-- ==== Sys2Proof/Machine/UpdOps.lean ====
section
/-! DEFINITION. The update path's shared operations: compatibility, loading a half, the boot of R440, the switch of R435 and R436, revert. -/
namespace Sys2Proof.Machine

/-! ## Firmware slots and halves -/

/-- A firmware slot (false A, true B). -/
def State.fwSlot (s : State) (b : Bool) : FwSlot := s.upd.fw.getD (cond b 1 0) ⟨0, 0, 0, false⟩

/-- The firmware slot in use (UPD_STAT.ACTIVE). -/
def State.fwActive (s : State) : Bool := s.bit Reg.updStat 18

/-- UPD_FW and UPD_FWSEQ show the firmware in use. -/
def State.showFw (s : State) : State :=
  let f := s.fwSlot s.fwActive
  (s.setReg Reg.updFw f.ver).setReg Reg.updFwseq (wordOf f.seq)

/-- The boot code sets a half's XIP_BASE to its firmware slot (R396, R398). -/
def State.setBase (s : State) (half slot : Bool) : State := s.setFld Reg.mempXip (if half then 16 else 24) 8 (if slot then 7 else 1)

/-- A half begins to load a firmware slot (R406, R411). -/
def State.loadHalf (s : State) (half slot : Bool) : State := (s.setHalf half 1 0).setBase half slot

/-- The slot the half not in use loads from ARM on, and that runs in TRIAL (R434, R440): the new firmware if the image carries one. -/
def State.newSlot (s : State) : Bool :=
  match s.upd.image with
  | some i => if crxFirmware i then !s.fwActive else s.fwActive
  | none => s.fwActive

/-- A handover does not come about: the half it was to go to is no longer HOT. OUT of the running half completes with REFUSED (R410), and a fallback
path waits for a half that is HOT (DEDUCED, log entry 41). -/
def State.dropHandover (s : State) : State :=
  if s.mgmt.handover.isNone then s
  else
    let s : State := { s with mgmt := { s.mgmt with handover := none, handCkpt := false },
                              upd := { s.upd with fallback := if s.upd.fallback = .handover then .waitHot else s.upd.fallback } }
    s.completeAll (fun c => match c.kind with | .mgmtOut _ => true | _ => false) .refused

/-- The half that stands by follows MGMT_CFG.STANDBY (R406). -/
def State.syncStandby (s : State) : State :=
  match s.mgmt.running with
  | none => s
  | some h =>
    let st := s.halfState (!h)
    if s.bit Reg.mgmtCfg 0 then (if st = 0 then s.loadHalf (!h) s.fwActive else s)
    else if st = 5 ∨ s.updState = 3 then s else (s.setHalf (!h) 0 0).dropHandover

/-! ## Compatibility (R430) -/

/-- The image of a draft slot (R82); none when it is empty. -/
def State.slotImage (s : State) (c : Nat) : Option DraftImage := s.upd.slots.getD c none

/-- An image is compatible with the firmware in use and with the live draft: STRUCT, REGION and SEEN sections are byte for byte the same. -/
def State.compatWith (s : State) (i : CerrexImage) : Bool :=
  let fw := !crxFirmware i || crxStateFrom i == (s.fwSlot s.fwActive).ckpt
  let dr := match (crxDrafts i).find? (fun e => e.1 == s.upd.liveSlot) with
    | none => true
    | some e => match s.draft, s.slotImage s.upd.liveSlot with
      | some _, some old => [1, 2, 5].all (fun ty => sectionOf e.2 ty == sectionOf old ty)
      | _, _ => false
  fw && dr

/-- UPD_STAT.COMPAT shows R430 for the staged image, once it is verified. -/
def State.showCompat (s : State) : State :=
  match s.upd.image with
  | none => s.setBit Reg.updStat 21 false
  | some i => if s.updState ≥ 2 then s.setBit Reg.updStat 21 (s.compatWith i) else s

/-! ## Boot (R83, R84, R440) -/

/-- The slot of the first source that offers one (R83): code, SRC, and whether the commissioning crumb could not be read. A crumb that is not
asked because SYS_PROF_NEXT chose is not read, and CRUMB_ERR stays zero (DESIGN CHOICE, log entry 49). -/
def State.chooseSlot (s : State) : Nat × Nat × Bool :=
  if s.bit Reg.sysProfNext 31 then (s.fld Reg.sysProfNext 0 3, 2, false)
  else
    let bad := s.tag.bad.contains 3
    let psel := (s.tagByte (3 * 64 + 2)).toNat
    if !bad && decide (0xA0 ≤ psel) && decide (psel ≤ 0xA4) then (psel - 0xA0, 1, false)
    else (s.fld Reg.sysProfStat 0 2, 0, bad)

/-- A slot to be proofed comes from staging while the image under trial targets it (R440). -/
def State.stagedSlot (s : State) (c : Nat) : Bool := s.updState == 5 && (s.imageDraft c).isSome

/-- What a proof of a slot reads. -/
def State.proofImage (s : State) (slot : Nat) (staged : Bool) : Option DraftImage :=
  if staged then s.imageDraft slot else s.slotImage slot

/-- SYS_PROF_STAT is written and the proof starts (R83 to R85). A commissioning crumb that cannot be read is an uncorrectable read (R338). -/
def State.selectDraft (s : State) : State :=
  let (req, src, err) := s.chooseSlot
  let s := if err then s.eccFail 3 else s
  let empty := (s.slotImage req).isNone && !s.stagedSlot req && req != 4
  let used := if empty then 4 else req
  let s := s.setReg Reg.sysProfStat (wordOf (cond err 32768 0 + cond empty 16384 0 + src * 4096 + used * 256 + req * 16 +
    s.fld Reg.sysProfStat 0 2))
  let s := if src = 2 then s.setBit Reg.sysProfNext 31 false else s
  let s : State := { s with upd := { s.upd with liveSlot := used } }
  s.startProof used (s.stagedSlot used)

/-- The settings region that is not live, and the live one (R398, UPD_STAT.SET_LIVE). -/
def State.settingsAt (s : State) (live : Bool) : Nat := if s.bit Reg.updStat 19 == live then 0x1900000 else 0x1800000

/-- The settings region that is not live is erased in the background (R431). -/
def State.eraseOther (s : State) : State := s.addTask .eraseSettings (s.settingsAt false) 4096 true

/-- The update ends in a revert (R439): STATE is VERIFIED, so that the image can be armed again; the new settings region is erased (R431). -/
def State.reverted (s : State) : State :=
  let s : State := { s with upd := { s.upd with newSettings := false, reverting := false, switching := false } }
  let s := ((s.setFld Reg.updStat 16 2 0).toUpdState 2).eraseOther
  s.updLog 8

/-- The update record governs the boot (R440): UPD_STAT and its neighbours are loaded; a trial that has met two resets, or whose firmware
fails, is reverted. -/
def State.bootUpdate (s : State) : State :=
  let r : UpdRecord := match s.updRecord with
    | some r => r.2
    | none => { state := .idle, slot := false, trial := true, bake := 0, live := false, floor := 0, resets := 0 }
  let cause := s.fld Reg.sysResetCause 28 4
  let trial := r.state == .switching || r.state == .trial
  let n := if trial && (cause == 6 || cause == 7 || cause == 9) then min 3 (r.resets + 1) else r.resets
  let oneway := match s.upd.image with | some i => satN 16 i.facts.oneway | none => 0
  let st := if trial then 5 else r.state.code
  let s := s.setReg Reg.updStat (wordOf (st * 2 ^ 28 + cond r.live (2 ^ 19) 0 + cond r.slot (2 ^ 18) 0 + n * 65536 + oneway))
  let s := (s.setReg Reg.updBake r.bake).setReg Reg.updFloor (wordOf r.floor)
  let s := s.setReg Reg.updImage (match s.upd.image with | some i => crxId i | none => 0)
  let s := s.showFw
  if trial then
    (if n ≥ 2 ∨ !(s.fwSlot s.newSlot).valid then s.reverted else s.writeRecord)
  else s

/-! ## The switch (R435, R436) -/

/-- A geometry and channel group are the same under two drafts (R436). -/
def samePoint (a b : Draft) (w g c : Nat) : Bool :=
  let f := fun (d : Draft) => d.struct_.geos.find? (fun x => x.warp == w && x.idx == g)
  let k := fun (d : Draft) => (d.region.groups.getD c []).map (fun i => regionKhz d.region i)
  (f a).isSome && f a == f b && k a == k b && !(k a).isEmpty

/-- The geometries of a port and a channel group are the same under two drafts (R436). -/
def samePort (a b : Draft) (p c : Nat) : Bool :=
  let gs := fun (d : Draft) => d.struct_.geos.filter (fun g => g.pairs.any (fun e => e.2 == p))
  gs a == gs b && (gs a).all (fun g => samePoint a b g.warp g.idx c)

/-- The seen-tag table and the population store are cleared, assigned entries as well (R436); the first Umaolo inventory on each warp then
uses SCOPE 1. -/
def State.clearSeen (s : State) : State :=
  let s : State := { s with seen := [], seenWb := [], pop := [], fetches := [], umTags := [], quar := [],
                            upd := { s.upd with scope1 := [0, 1, 2, 3] }, memp := { s.memp with arrived := [] } }
  s.dropJobs isPop

/-- The pre-proofed configuration is loaded (R435 step 2, R436): fields, schedule, SYS_EXPECT. What is unchanged keeps its seeds and
offsets; geometries that are new or changed are calibrated; a part that the old draft did not name calibrates in isolation. -/
def State.switchDraft (s : State) (d : Draft) : State :=
  let old := s.draft
  let s : State := { s with upd := { s.upd with live := some d } }
  let s := ((s.loadFields d).loadSchedule d).copyPing d
  let before := (List.range 32).filter s.expected
  let s := s.expectDraft d
  let keep := fun w g c => match old with | none => false | some o => samePoint o d w g c
  let s : State := { s with seeds := s.seeds.filter (fun e => keep e.1 e.2.1 e.2.2), unusable := s.unusable.filter (fun e => keep e.1 e.2.1 e.2.2),
                            phi := s.phi.filter (fun e => match old with
                              | none => false
                              | some o => samePort o d (e.1 / 8) (e.1 % 8)) }
  let s := match old with
    | none => s
    | some o => if o.seen == d.seen then s else s.clearSeen
  let s := (List.range 4).foldl (fun (s : State) w => s.askCal w ((s.calPoints w (fun _ => true)).filter (fun e => !s.seeds.contains (w, e)))) s
  let new := fun b => s.expected b && !before.contains b
  let s := s.loseAnt
  let txs := (List.range 4).filter (fun n => new (rdTxc n))
  let rxs := (List.range 16).filter (fun n => new (rdRxc n))
  let gone := (List.range 16).filter (fun n => !s.expected (rdRxc n))
  let s := gone.foldl (fun (s : State) n => (s.setBit Reg.sysClkstat (16 + n) false).updChain n (fun _ => .init)) s
  let s := txs.foldl State.startTxcCal s
  rxs.foldl State.startChainCal s

/-- Commands of R407 that are still live complete with TIMEOUT and change nothing (R409, R435). -/
def CmdKind.byHalf : CmdKind → Bool
  | .txcReturn _ | .portReturn _ | .rxcReturn _ | .clearGuard | .unlock | .remap _ | .crumbOut _ | .crumbReturn _ | .pingCal
  | .talReq _ _ | .mempOut _ | .mempReturn _ | .mgmtOut _ | .mgmtReturn _ | .dump
  | .updLoad _ | .updVerify | .updArm | .updSwitchNow | .updConfirm | .updRevert | .updAbandon => true
  | _ => false

/-- A block of staging whose write has not ended is given up (R402, R409): nothing of it is staged. -/
def State.dropBlock (s : State) (seq c : Nat) : State :=
  let s := s.dropJobs (fun j => j == .stage seq c)
  if seq = 0 then
    { s with upd := { s.upd with blocks := s.upd.blocks.filter (fun b => b.1 != c / 2) },
             peer := { s.peer with held := s.peer.held.filter (fun k => k / 2 != c / 2) } }
  else { s with upd := { s.upd with blocks := s.upd.blocks.filter (fun b => b.1 != c) } }

/-- A write that VERIFY or CONFIRM makes before it can end (R429, R438). -/
def FlashTask.mustEnd (t : FlashTask) : Bool := match t.kind with | .firmware | .newSettings | .draft _ => true | _ => false

/-- A VERIFY or CONFIRM in progress is given up (R402, R409): its writes stop where they are. A CONFIRM whose drafts are all in their slots has
settled the update, which stays so (DESIGN CHOICE, log entry 42). -/
def State.dropUpdate (s : State) : State :=
  let mine := s.memp.tasks.filter FlashTask.mustEnd
  let s := mine.foldl State.tearTask s
  let ids := mine.map (fun t => t.id)
  let s : State := { s with memp := { s.memp with tasks := s.memp.tasks.filter (fun t => !t.mustEnd) }, upd := { s.upd with busy := false, copying := none } }
  let s := s.dropJobs (fun j => match j with | .task i => ids.contains i | _ => false)
  if s.updState = 5 ∧ s.updRecord.any (fun r => r.2.state == .idle) then s.setFld Reg.updStat 28 4 0 else s

/-- A live command of R407 ends with TIMEOUT and changes nothing (R409): what it had begun is undone, and a part whose RETURN ends so
stays out of service. -/
def State.dropServed (s : State) (keep : CmdKind → Bool) : State :=
  let s := s.cmds.foldl (fun (s : State) c => match c.kind with
    | .txcReturn n =>
      if s.txReason n = 0 then s
      else ((s.setRamp n (if s.ramp n = 5 then 0 else s.ramp n)).updTx n (fun t => { t with calibrating := false })).setReady (rdTxc n) false
    | .rxcReturn n =>
      if (s.chain n).svc = .inService then s
      else ((s.updChain n (fun x => { x with svc := .out })).setReady (rdRxc n) false).setBit Reg.sysClkstat (16 + n) false
    | .pingCal => { s with ping := { s.ping with cal := none }, cands := s.cands.filter (fun c => c.kind != .pingCal) }
    | .mempReturn _ => s.setBit Reg.mempStat 24 false
    | .mempOut d => s.setBit Reg.mempStat (22 + d) false
    | .crumbOut c => { s with tag := { s.tag with oos := s.tag.oos.filter (fun e => e != (c, false)) } }
    | .dump => { s with mgmt := { s.mgmt with dumps := [] } }
    | .updLoad k => s.dropBlock c.seq k
    | .updVerify | .updConfirm => s.dropUpdate
    | .updSwitchNow =>
      if keep c.kind then s
      else { s with upd := { s.upd with switching := false, fallback := if s.upd.fallback = .boundaries then .boundaries else .none } }
    | .updRevert => if keep c.kind then s else { s with upd := { s.upd with switching := false, reverting := false } }
    | _ => s) s
  let mine := fun (j : CrumbJob) => match j.who with | .cmd _ => true | _ => false
  let s : State := { s with tag := { s.tag with job := s.tag.job.filter (fun j => !mine j), queue := s.tag.queue.filter (fun j => !mine j) },
                            tal := { s.tal with reqs := [] } }
  (s.completeAll (fun c => c.kind.byHalf && !keep c.kind) .timeout).nextCrumb

/-- Step 1 of R435: the other half takes ownership, the half that stopped reloads the firmware that runs now. -/
def State.switchHalves (s : State) (slot : Bool) : State :=
  match s.mgmt.running with
  | none => s
  | some h =>
    let s := (((s.setHalf (!h) 4 0).setBase (!h) slot).loadHalf h slot).setBit Reg.mgmtStat 31 (!h)
    { s with mgmt := { s.mgmt with running := some (!h), takeover := none, handover := none, handCkpt := false, ckptAt := s.up } }

/-- Every round in flight is disabled with the bound SCHED_CTRL.DRAIN (R288). -/
def State.drainRounds (s : State) : State := { s with rounds := s.rounds.map (fun r => { r with draining := true }) }

/-- A switch of R435 begins at once (R437, R439). -/
def State.switchAtOnce (s : State) : State := ({ s with upd := { s.upd with switching := true } } : State).drainRounds

/-- The fallback path begins (R437): with the loaded half HOT ownership passes under R410. -/
def State.startFallback (s : State) : State :=
  let s := s.setBit Reg.updStat 22 true
  match s.hotHalf with
  | some h => { s with mgmt := { s.mgmt with handover := some h }, upd := { s.upd with fallback := .handover } }
  | none => { s with upd := { s.upd with fallback := .waitHot } }

/-- Ownership has passed on the fallback path: each warp takes the new sections at its next round boundary, a free one at once (R437). -/
def State.fallbackPassed (s : State) : State :=
  let busy := (List.range 4).filter (fun w => (s.roundOn w).isSome)
  let s : State := { s with upd := { s.upd with fallback := .boundaries, boundary := [0, 1, 2, 3] } }
  s.passBoundary ((List.range 4).filter (fun w => !busy.contains w))

end Sys2Proof.Machine
end

