-- ==== Sys2Proof/Machine/Mgmt.lean ====
section
/-! DEFINITION. The commands of the management subsystem (20_management_and_service.md). -/
namespace Sys2Proof.Machine

/-- Ownership passes (R410) to a half that is HOT: the half that handed over is out of service with reason HOST; a RETURN of it that waited starts
(R456). -/
def State.passOver (s : State) : State :=
  match s.mgmt.handover, s.mgmt.running with
  | some h, some old =>
    if s.halfState h ≠ 3 then s.dropHandover else
    let s := ((s.setHalf h 4 0).setHalf old 5 1).setBit Reg.mgmtStat 31 h
    let s : State := { s with mgmt := { s.mgmt with running := some h, handover := none, handCkpt := false, ckptAt := s.up } }
    let s := s.cnt (Reg.mgmtCnt 1)
    let s := s.logEvent 0x0D 2 (wordOf (cond h 1 0))
    let s := s.completeAll (fun c => match c.kind with | .mgmtOut _ => true | _ => false) .ok
    let s := if s.cmds.any (fun c => c.kind == .mgmtReturn (cond old 1 0)) then s.loadHalf old s.fwActive else s
    if s.upd.fallback = .handover then s.fallbackPassed else s
  | _, _ => s

/-- HANDOVER_COMPLETE (R410). -/
def execHandoverComplete (s : State) : Host.Outcome State Fault Refusal := .next (if s.mgmtOn then s.passOver else s)

/-- The entries of the chain in progress that the queue still holds (R393, R394). -/
def Memp.chainRest (m : Memp) : List MemEntry :=
  match m.cur with
  | none => []
  | some e =>
    let l := m.queue.filter (fun x => x.level == e.level && x.dev == e.dev)
    if e.cont then l.take ((l.takeWhile (fun x => x.cont)).length + 1) else []

/-- The failed half's entries that have not started leave the queue (R409): what stays is the population store's, the copy of a resilver, and the rest of
a chain in progress. -/
def State.dropQueued (s : State) : State :=
  let m := s.memp
  let other := fun (e : MemEntry) => e.level == 2 || (match e.job with | .copy _ => true | _ => false)
  { s with memp := { m with queue := m.queue.filter (fun e => other e || m.chainRest.contains e),
                            waiting := (m.waiting.map (fun l => l.filter other)).filter (fun l => !l.isEmpty) } }

/-- WATCHDOG_EXPIRY (R408, R409): a HOT standby with a fresh checkpoint takes over; without one the main die resets with cause WDOG.
During a planned handover whose checkpoint is written ownership passes as planned (R421). -/
def execWatchdogExpiry (s : State) : Host.Outcome State Fault Refusal :=
  match (if s.mgmtOn then s.mgmt.running else none) with
  | none => .next s
  | some h =>
    if s.mgmt.handover = some (!h) ∧ s.mgmt.handCkpt ∧ s.halfState (!h) = 3 then .next s.passOver
    else if s.halfState (!h) = 3 ∧ s.ckptAge ≤ s.fld Reg.mgmtCfg 2 10 + 40 then
      let s := ((s.setHalf h 5 2).dropQueued).dropServed (fun _ => false)
      .next { s with mgmt := { s.mgmt with running := none, takeover := some (!h), handover := none } }
    else .next (s.triggerReset .wdog)

/-- A half goes out of service (R406), which the event log records (R415). -/
def State.halfOut (s : State) (half : Bool) (reason : Nat) : State := (s.setHalf half 5 reason).logEvent 0x0D 3 (wordOf (cond half 1 0))

/-- STANDBY_WATCHDOG_EXPIRY (R408): the standby is out of service with reason WDOG; the running half carries on. Expiring with the running half's, and
until the takeover is complete, it leaves no half to run, and the main die resets (R421) (DEDUCED, log entry 41). -/
def execStandbyWatchdogExpiry (s : State) : Host.Outcome State Fault Refusal :=
  match (if s.mgmtOn then s.mgmt.running else none) with
  | none => .next (if s.mgmtOn && s.mgmt.takeover.isSome then s.triggerReset .wdog else s)
  | some h => if s.halfState (!h) = 3 ∨ s.halfState (!h) = 1 ∨ s.halfState (!h) = 2 then
      .next ((((s.halfOut (!h) 2).dropHandover).raise 8).completeAll (fun c => c.kind == .mgmtReturn (cond (!h) 1 0)) .outOfService)
    else .next s

/-- The settings that the running half keeps (21_drafts_profiles_updates.md): MGMT_CFG, and the D fields that the host has given another value than the
live draft; of the firmware's own records the spec says nothing (DESIGN CHOICE, log entry 42). -/
def State.settingsNow (s : State) : List (Nat × Word) :=
  match s.draft with
  | none => s.upd.settings
  | some d =>
    (Reg.mgmtCfg, s.reg Reg.mgmtCfg) :: dAddrs.filterMap (fun e =>
      let m := wordOf e.1.dmask
      let w := s.reg e.2 &&& m
      if e.2 = Reg.mgmtCfg ∨ w = draftWord d e.1 e.2 &&& m then none else some (e.2, w))

/-- The running half saves settings that have changed (R398, R431), in both regions while both formats are kept. -/
def State.saveSettings (s : State) : State :=
  let now := s.settingsNow
  if now = s.upd.settings then s
  else
    let s := ({ s with upd := { s.upd with settings := now } } : State).addTask (.settings s.upd.settings) (s.settingsAt true) 256 false
    if s.upd.newSettings then s.addTask .newSettings (s.settingsAt false) 256 false else s

/-- The running half saves canceller seeds that have changed to the calibration store (R398). -/
def State.saveSeeds (s : State) : State :=
  if s.seeds = s.upd.seeds then s
  else ({ s with upd := { s.upd with seeds := s.seeds } } : State).addTask (.seeds s.upd.seeds) 0x1E40000 4096 false

/-- CHECKPOINT (R406): the running half writes one; a HOT standby reads it, and one in SYNCING has its first. During a planned handover it is that of
R410. Settings and seeds that have changed since the last one are saved with it (DESIGN CHOICE, log entry 42). -/
def execCheckpoint (s : State) : Host.Outcome State Fault Refusal :=
  if !s.halfRuns then .next s
  else
    let s : State := { s with mgmt := { s.mgmt with ckptAt := s.up, fresh := true, handCkpt := s.mgmt.handCkpt || s.mgmt.handover.isSome } }
    .next s.saveSettings.saveSeeds

/-- HALF_HOT (R406, R411, R434): a half that has verified its firmware waits for its first checkpoint, and with one it is HOT; or it goes out of service
with reason SELFTEST. While ARMED without COMPAT it stays in SYNCING. A fallback path that waited for it hands over (R437). The row stands for
both ends, that of LOADING and that of SYNCING (DESIGN CHOICE, log entry 41). -/
def execHalfHot (half ok : Bool) (s : State) : Host.Outcome State Fault Refusal :=
  let st := s.halfState half
  if (st ≠ 1 ∧ st ≠ 2) ∨ !s.mgmtOn then .next s
  else
    let k := CmdKind.mgmtReturn (cond half 1 0)
    let back := s.cmds.any (fun c => c.kind == k)
    if !ok then .next (((s.halfOut half 3).raise 8).completeAll (fun c => c.kind == k) .outOfService)
    else if st = 1 then .next (({ s with mgmt := { s.mgmt with fresh := false } } : State).setHalf half 2 0)
    else if !s.mgmt.fresh || (s.updState == 3 && !s.bit Reg.updStat 21) then .next s
    else
      let s := s.setHalf half 3 0
      let s := if s.upd.fallback = .waitHot then s.startFallback else s
      let s := if back then s.logEvent 0x0D 4 (wordOf (cond half 1 0)) else s
      .next (s.completeAll (fun c => c.kind == k) .ok)

/-- HEALTH_DIAG (R418): the running half writes a HEALTH packet. -/
def execHealthDiag (s : State) : Host.Outcome State Fault Refusal :=
  if !s.halfRuns then .next s
  else
    let ws := [wordOf (2 ^ 24), s.mgmtStatWord, s.healthWord, s.reg Reg.mgmtDecOos, s.portOosWord 0, s.portOosWord 1, s.readyWord] ++
      (List.range 8).map s.sensWord
    let s' := s.resample.queueDiag { ty := 0x0F, flags := cond s.mgmt.takeoverDiag 8 0, len := 64, words := ws }
    .next { s' with mgmt := { s'.mgmt with takeoverDiag := false } }

/-- LOG_BATCH (R28, R416): a batch is submitted to the memory port, whose end persists it; a failure sets PERSIST_FAIL until a later batch
succeeds. -/
def execLogBatch (ok : Bool) (s : State) : Host.Outcome State Fault Refusal :=
  .next (if !s.halfRuns then s else if ok then s.submitLog else s.setBit Reg.mgmtHealth 31 true)

/-- The SYS_READY bit of a decoder's pool and the pool's decoders (R419). -/
def poolOf (d : Nat) : Nat × List Nat :=
  if d < 8 then (rdLdp, List.range 8) else if d < 12 then (rdUep, [8, 9, 10, 11]) else (rdPe, [12])

/-- A pool's ready bit stays set while one of its decoders in the draft's pool is in service (R419). -/
def State.syncPool (s : State) (d : Nat) : State :=
  let (b, ds) := poolOf d
  let mine := match s.draft with | none => [] | some x => ds.filter (fun k => x.struct_.decoders.contains k)
  if s.ready b && mine.all s.decOos then s.setReady b false else s

/-- A decoder leaves service (R419). -/
def State.decFail (s : State) (d : Nat) : State :=
  ((s.setBit Reg.mgmtDecOos d true).setBit Reg.mgmtDecOos (16 + d) true).syncPool d

/-- DECODER_SELFTEST (R419, R456): once no OUT drains it answers a RETURN that waits, or is the background test of an idle decoder in service. -/
def execDecoderSelftest (d : BitVec 4) (pass : Bool) (s : State) : Host.Outcome State Fault Refusal :=
  let d := d.toNat
  if !s.coreOn || s.cmds.any (fun c => c.kind == .decOut d) then .next s
  else if s.cmds.any (fun c => c.kind == .decReturn d) then
    if pass then
      let s := ((s.setBit Reg.mgmtDecOos d false).setBit Reg.mgmtDecOos (16 + d) false).logEvent 0x0B 2 (wordOf d)
      let s := if s.ready rdDraft && s.expected (poolOf d).1 then s.setReady (poolOf d).1 true else s
      .next (s.completeAll (fun c => c.kind == .decReturn d) .ok)
    else .next ((s.decFail d).completeAll (fun c => c.kind == .decReturn d) .outOfService)
  else if d > 12 ∨ pass ∨ s.decOos d ∨ s.mgmt.decBusy.contains d then .next s
  else .next (((s.decFail d).raise 8).logEvent 0x0B 1 (wordOf d))

/-- POSITION_OFFSET_SAVE (R193): the running half saves the offsets to flash with the draft they belong to. -/
def execPositionOffsetSave (s : State) : Host.Outcome State Fault Refusal :=
  match s.draft with
  | none => .next s
  | some d => .next (if s.halfRuns then ({ s with phiFlash := some (d.id, s.phi) } : State).addTask (.offsets s.phiFlash) 0x1E00000 2048 false else s)

end Sys2Proof.Machine
end

