-- ==== Sys2Proof/Machine/PowerOps.lean ====
section
/-! DEFINITION. Entering and leaving power states (05_power_states.md R97 to R110). -/
namespace Sys2Proof.Machine

/-! ## Refusers (R102, R103) -/

/-- The ID of a refuser. -/
def refuserId : Refuser → Nat
  | .hpBusy => 1 | .fifoNotEmpty => 2 | .txActive => 3 | .roundInFlight => 4 | .tagstoreBusy => 5
  | .updateStaged => 6 | .tallyFeedPending => 7 | .mgmtVeto => 8 | .mpQueueBusy => 9 | .pingCal => 10

/-- The refusers in the order of their IDs. -/
def allRefusers : List Refuser :=
  [.hpBusy, .fifoNotEmpty, .txActive, .roundInFlight, .tagstoreBusy, .updateStaged, .tallyFeedPending, .mgmtVeto, .mpQueueBusy, .pingCal]

/-- A wake source, by its bit of PWR_WAKE_EN, can end a state (R105). -/
def State.wakeActs (s : State) (t : Target) (k : Nat) : Bool :=
  match t with
  | .active => false
  | .idle => k == 4 || s.bit Reg.pwrWakeEn k
  | .doze => s.bit Reg.pwrWakeEn k
  | .dormant => decide (k < 2) && s.bit Reg.pwrWakeEn k

/-- PING can end DOZE (R356): a region copy, a period, and a port of PING_PORTS that is not out of service. -/
def State.pingUsable (s : State) : Bool :=
  s.bit Reg.pingRf 31 && s.fld Reg.pingSweep 0 16 != 0 &&
  (List.range 64).any (fun p => s.bit (Reg.pingPorts (p / 32)) (p % 32) && !s.portOos p)

/-- The lowest reason of R103 that holds; 0 when none does. Reason 4 holds during R409 and R410 too (R421). The last two concern DOZE and DORMANT only (R106, R416) (DEDUCED, log entry 43). -/
def State.vetoReason (s : State) (t : Target) : Nat :=
  let deep := t == .doze || t == .dormant
  let loads := fun (h : Bool) => s.halfState h == 1 || s.halfState h == 2
  if s.bit Reg.sysDraftStat 0 then 1
  else if s.txc.any (fun x => x.calibrating) || s.chains.any (fun c => c.svc == .calibrating) then 2
  else if (List.range 4).any (fun n => s.txReason n == 2 && s.txOn n) then 3
  else if loads false || loads true || s.mgmt.takeover.isSome || s.mgmt.handover.isSome then 4
  else if deep && !(List.range 5).any (fun k => s.wakeActs t k && (k != 2 || s.pingUsable)) then 5
  else if deep && s.bit Reg.mgmtHealth 31 then 6
  else 0

/-- An update is staged with a bake time still ahead, or its handover is in progress (R102, R434, R437); one that the host asked for is
MGMT_VETO (R421) (DEDUCED, log entry 43). -/
def State.updateStaged (s : State) : Bool := s.fld Reg.updStat 28 4 == 3 || (s.mgmt.handover.isSome && s.upd.fallback == .handover)

/-- The tag function may be backscattering on an ANT port (R102): a reader there is owed a reply. -/
def State.tagTalks (s : State) : Bool := s.antSession && s.tag.reply != .none

/-- A refuser holds in CHECK (R102). -/
def State.refuses (s : State) (t : Target) (r : Refuser) : Bool :=
  let deep := t == .doze || t == .dormant
  match r with
  | .hpBusy => s.wrPend
  | .fifoNotEmpty => s.bit Reg.pwrPolicy 0 && s.fifo.bytes != 0
  | .txActive => (List.range 4).any (fun n => s.txOn n || s.fld (Reg.txcStat n) 8 3 == 4)
  | .roundInFlight => !s.rounds.isEmpty
  | .tagstoreBusy => deep && s.tagBusy
  | .updateStaged => s.updateStaged
  | .tallyFeedPending => false
  | .mgmtVeto => s.vetoReason t != 0
  | .mpQueueBusy => s.memp.prog.isSome
  | .pingCal => (t == .idle || t == .doze) && s.ping.cal.isSome

/-- The tally feed is not drained (R98, R111): items wait, or one is still on its way to the tally die. -/
def State.feedPending (s : State) : Bool := s.board.tally && (!s.tal.queue.isEmpty || s.tal.wire.isSome)

/-- A refuser's condition of QUIESCE holds (R102). The bytes, the crumb, the reason and the calibration were absent at CHECK, so that
their presence is what the refuser watches for; the two time limits are asserted by the event. Event-log entries not yet persisted with the queue
empty are named as MP_QUEUE_BUSY (DESIGN CHOICE, log entry 43). -/
def State.aborts (s : State) (t : Target) (r : Refuser) : Bool :=
  let deep := t == .doze || t == .dormant
  match r with
  | .hpBusy => s.hp.frame.isNone
  | .fifoNotEmpty => s.bit Reg.pwrPolicy 0 && s.fifo.bytes != 0
  | .txActive => false
  | .roundInFlight => false
  | .tagstoreBusy => deep && s.tagTaken
  | .updateStaged => false
  | .tallyFeedPending => s.feedPending
  | .mgmtVeto => s.vetoReason t != 0
  | .mpQueueBusy => s.mempBusy || s.mgmt.unsaved != 0
  | .pingCal => (t == .idle || t == .doze) && s.ping.cal.isSome

/-- A refusal or abort is recorded (R104). -/
def State.noteRefusal (s : State) (r : Refuser) (quiesce : Bool) (t : Target) : State :=
  let why := if r = .mgmtVeto then s.vetoReason t else 0
  let s := s.cntSat (Reg.pwrRefuseCnt (refuserId r - 1)) 0 16
  s.setReg Reg.pwrLastRefuser (wordOf (why * 65536 + t.code * 4096 + cond quiesce 256 0 + refuserId r))

/-- The result word of a refused or aborted entry (R99). -/
def refusalWord (r : Refuser) (quiesce : Bool) (t : Target) : Word :=
  wordOf (0x08 * 2 ^ 24 + refuserId r * 65536 + cond quiesce 256 0 + t.code)

/-! ## Entry (R97, R98) -/

/-- QUIESCE begins (R98): the tag function stops answering on ANT ports, and the event log's batch is submitted (R416). -/
def State.beginQuiesce (s : State) (t : Target) : State :=
  let s := match s.tag.session with
    | some x => (match x.fe with | .ant _ => s.endSession | .comm => s)
    | none => s
  ({ s with phase := .quiesce t } : State).submitLog

/-- A WAIT frame has its address bytes (R97, R98): a target ACTIVE completes with OK; otherwise CHECK refuses with the lowest refuser
that holds, or QUIESCE begins. Whether the tag function backscatters at that instant is free (DESIGN CHOICE, log entry 43). -/
def State.waitEntry (s : State) : State :=
  let t := Target.ofCode (s.fld Reg.pwrMode 0 2)
  if t = .active ∨ s.phase ≠ .active then s.answerWait 0
  else
    let (talks, s) := if s.tagTalks then s.drawBool else (false, s)
    match allRefusers.find? (fun r => s.refuses t r || (talks && r == .txActive)) with
    | some r => (s.noteRefusal r false t).answerWait (refusalWord r false t)
    | none => s.beginQuiesce t

/-- The entry aborts (R100, R102): the module stays in ACTIVE, and the abort is logged (R415). -/
def State.abortEntry (s : State) (r : Refuser) (t : Target) : State :=
  let s := s.noteRefusal r true t
  let s := s.logEvent 0x0F 1 (s.reg Reg.pwrLastRefuser)
  ({ s with phase := .active } : State).answerWait (refusalWord r true t)

/-! ## Wake (R105 to R110) -/

/-- The state that a wake source would end: the one entered, or being entered since COMMIT. -/
def State.sleeping (s : State) : Option Target :=
  match s.phase with
  | .committed t => some t
  | .poweringDown t => some t
  | .idle => some .idle
  | .doze => some .doze
  | .dormant => some .dormant
  | _ => none

/-- The AO cycle at present: 32,768 a second. -/
def State.aoCycle (s : State) : Nat := (s.reg Reg.pwrAoTime).toNat * 32 + s.aoFrac * 32 / 1000000

/-- The last wake came in the present AO cycle. -/
def State.sameCycle (s : State) : Bool := match s.wakeAt with | some (_, c) => c == s.aoCycle | none => false

/-- A wake cause is recorded (R107): the first of the stay writes the wake record, and of two in one AO cycle FIRST names the lower bit. -/
def State.recordWake (s : State) (t : Target) (k : Nat) : State :=
  let f := s.fld Reg.pwrWakeCause 16 4
  let s := s.setBit Reg.pwrWakeCause k true
  if f = 0 then
    let s := (s.setFld Reg.pwrWakeCause 16 4 (k + 1)).setReg Reg.pwrWakeAt (s.reg Reg.pwrAoTime)
    ({ s with wakeAt := some (t, s.aoCycle) } : State).setFld Reg.pwrWakeRec 0 2 t.code
  else if s.sameCycle ∧ k + 1 < f then s.setFld Reg.pwrWakeCause 16 4 (k + 1)
  else s

/-- The record of a wake report (R357): FLAGS and SWEPT of the waking sweep in `h`, and its records. -/
def wakeRec (at_ : Word) (h : Nat) (recs : List Word) : Rec :=
  { ty := 4, flags := h / 256, len := 16 + 4 * recs.length, words := [0, at_, wordOf (recs.length * 2 ^ 24 + h % 256 * 65536)] ++ recs }

/-- The wake report of R357: a PRESENCE packet with WAKE set. It belongs to no round; it goes to the queue of warp 0, which its WARP field
names (log entry 19). -/
def State.wakeReport (s : State) : State :=
  match s.ping.wake with
  | none => s
  | some (h, recs) => ({ s with ping := { s.ping with wake := none } } : State).queueWarp 0 (wakeRec (s.reg Reg.pwrWakeAt) h recs)

/-- IDLE is left (R95, R108, R110): the clocks run again. -/
def State.leaveIdle (s : State) : State :=
  let s := (s.setBit Reg.sysClkstat 3 true).setBit Reg.sysClkstat 4 true
  let s := (s.setReg Reg.pwrMode 0).setBit Reg.pwrWakeRec 2 false
  ({ s with phase := .active, wakes := [] } : State).wakeReport

/-- DOZE or DORMANT is left (R96, R110): a core reset with cause WAKE. -/
def State.leaveSleep (s : State) (late : Bool) : State :=
  let s := (s.setReg Reg.pwrMode 0).setBit Reg.pwrWakeRec 2 late
  ({ s with wakes := [] } : State).coreReset .wake

/-- The wake that is latched takes place if it can (R107, R109). -/
def State.takeWake (s : State) : State :=
  if s.wakes.isEmpty then s
  else match s.phase with
    | .idle => s.leaveIdle
    | .doze => if s.lands.vin then s.leaveSleep false else s
    | .dormant => if s.lands.vin then s.leaveSleep false else s
    | _ => s

/-- A wake source fires (R105, R107). The wake commits as the state ends, with the latch of what fired before it; one in the AO cycle of that wake
is recorded still, none later (DESIGN CHOICE, log entry 43). -/
def State.wake (s : State) (k : Nat) : State :=
  match s.sleeping with
  | none => (match s.wakeAt with
    | some (t, _) => if s.sameCycle && s.wakeActs t k then s.recordWake t k else s
    | none => s)
  | some t =>
    if !s.wakeActs t k then s
    else
      let s := s.recordWake t k
      let s : State := if s.wakes.contains k then s else { s with wakes := s.wakes ++ [k] }
      s.takeWake

/-! ## Commit (R98, R104, R107) -/

/-- IDLE is entered (R98): the CORE and MGMT clocks are gated; a wake latched since COMMIT takes place at once. -/
def State.gateClocks (s : State) : State :=
  let s := (s.setBit Reg.sysClkstat 3 false).setBit Reg.sysClkstat 4 false
  ({ s.setFld Reg.pwrMode 8 2 1 with phase := .idle } : State).takeWake

/-- COMMIT: the wake record is written and the wake sources armed, WAKE_N as a level (R105); a commit into DOZE or DORMANT discards the FIFO, one
into IDLE gates the clocks (DEDUCED, log entry 43). -/
def State.commitEntry (s : State) (t : Target) : State :=
  let deep := t == .doze || t == .dormant
  let s := (s.setReg Reg.pwrWakeCause 0).setReg Reg.pwrSleepAt (s.reg Reg.pwrAoTime)
  let s := s.setFld Reg.pwrWakeRec 16 16 (if deep then satN 16 s.fifo.pkts else 0)
  let s : State := if deep then { s with fifo := { s.fifo with packets := [], head := [], building := none, setAside := 0, asideFor := 0 } } else s
  let s := if t = .dormant then s else (s.setReg (Reg.pingSkip 0) (s.portOosWord 0)).setReg (Reg.pingSkip 1) (s.portOosWord 1)
  let s : State := { s with phase := .committed t, wakes := [], wakeAt := none, ping := { s.ping with sweep := none } }
  let s := s.answerWait (wordOf t.code)
  let s := if s.reg Reg.pwrWakeTimer = 0 then s.wake 1 else s
  let s := if s.lands.wakeLow = some 10 then s.wake 0 else s
  if t = .idle then s.gateClocks else s

end Sys2Proof.Machine
end

