-- ==== Sys2Proof/Machine/Clock.lean ====
section
/-! DEFINITION. One microsecond without a command (log entry 13): the counters that run on the module's own clocks. -/
namespace Sys2Proof.Machine

/-- AO time (PWR_AO_TIME, in 1/1024 s) advances by a microsecond while VAO is present. -/
def State.tickAo (s : State) : State :=
  if !s.lands.vao then s
  else if s.aoFrac + 1024 ≥ 1000000 then ({ s with aoFrac := s.aoFrac + 1024 - 1000000 } : State).cnt Reg.pwrAoTime
  else { s with aoFrac := s.aoFrac + 1024 }

/-- TXCn_ON_TIME counts ms of carrier on (R158). -/
def State.tickOn (s : State) (n : Nat) : State :=
  if !s.txOn n then s
  else if (s.tx n).onUs + 1 ≥ 1000 then (s.updTx n (fun t => { t with onUs := 0 })).cnt (Reg.txcOnTime n)
  else s.updTx n (fun t => { t with onUs := t.onUs + 1 })

/-- A lockout runs while the TAGF domain is powered; its end is LOCKOUT_EXPIRY (R344). -/
def State.tickLockout (s : State) : State :=
  match s.tag.lockout with
  | none => s
  | some (n, k) => if s.tagPowered && k > 1 then { s with tag := { s.tag with lockout := some (n, k - 1) } } else s

/-- A slew moves the time base by at most 100 us a second (R274): one in every 10,000. -/
def State.tickSlew (s : State) : State :=
  let p := s.peer
  if p.slew = 0 then s
  else if p.slewUs + 1 < 10000 then { s with peer := { p with slewUs := p.slewUs + 1 } }
  else if 0 < p.slew then { s with timeBase := s.timeBase + 1, peer := { p with slew := p.slew - 1, slewUs := 0 } }
  else { s with timeBase := s.timeBase - 1, peer := { p with slew := p.slew + 1, slewUs := 0 } }

/-- WAKE_N counts from its fall as a level (R105). -/
def State.tickWake (s : State) : State :=
  match s.lands.wakeLow with
  | none => s
  | some n =>
    let s : State := { s with lands := { s.lands with wakeLow := some (min 10 (n + 1)) } }
    if n = 9 then s.wake 0 else s

/-- A proof goes on to its next stage (R86), up to the one that fails: when, within the bounds of R86, is free (log entry 37). -/
def State.tickProof (s : State) : State :=
  match s.upd.proof with
  | none => s
  | some slot =>
    let last := match s.proofFault (s.proofImage slot s.upd.fromStaging) with | some (k, _) => k | none => 4
    let now := s.fld Reg.sysDraftStat 4 3
    if !s.halfRuns || last ≤ now then s
    else
      let (b, s) := s.drawBool
      if b then s.setFld Reg.sysDraftStat 4 3 (now + 1) else s

/-- The tick: the time base counts REF (R29, 01_architecture.md). -/
def State.tick (s : State) : State :=
  let s := s.tickAo.tickLockout.tickWake
  if !s.refOn then s
  else ((List.range 4).foldl State.tickOn ({ s with timeBase := s.timeBase + 1, up := s.up + 1 } : State).tickSlew).tickProof

end Sys2Proof.Machine
end

