-- ==== Sys2Proof/Machine/FaultOps.lean ====
section
/-! DEFINITION. Port faults (08_rf_ports_and_illuminators.md R170, R171): what a change of class reports and does to rounds. -/
namespace Sys2Proof.Machine

/-- A change of class is reported (R170 steps 3 to 5): PORT_FAULT, PORT_LAST_FAULT, the count of changes into a fault class, a FAULT
packet and an event-log entry. -/
def State.reportClass (s : State) (p c : Nat) : State :=
  let s := (s.setPortClass p c).loseAnt
  let n := satN 8 (s.fld Reg.portLastFault 24 8 + 1)
  let s := s.setReg Reg.portLastFault (wordOf (n * 2 ^ 24 + c * 2 ^ 16 + p))
  let s := (if c = 1 then s else s.cnt Reg.portFaultCnt).raise 6
  s.faultEvent 1 p c 0

/-- A port in a fault class is reported and goes out of service, once its ramp-down has ended if it carries the carrier (R170 step 2); a RETURN of
it in progress completes with REFUSED (R177). -/
def State.portFaulted (s : State) (p c : Nat) : State :=
  let s := (if s.portCarries p then s else s.setPortOos p true).reportClass p c
  s.completeAll (fun x => x.kind == .portReturn p) .refused

/-- The ramp-down of an illuminator has ended: its port goes out of service if a fault was found on it (R170 step 2). -/
def State.portOpens (s : State) (n : Nat) : State :=
  let p := s.fld (Reg.txcStat n) 16 6
  if s.bit (Reg.txcStat n) 23 && decide (2 ≤ s.portClass p) then (s.setPortOos p true).loseAnt else s

/-- The rounds that use a faulted port (R170, R171): its transmit port ends a round with PORT_FAULT after a fast ramp-down. Otherwise the round goes
on: a geometry that transmits on the port is left out, and a chain on it leaves its beam at once and its switches open, be it the beam's last. -/
def State.portRounds (s : State) (p : Nat) : State :=
  let on := s.portCarries p
  let s := s.rounds.foldl (fun (s : State) r =>
    match s.roundOn r.warp with
    | none => s
    | some r =>
      if s.roundTransmits r p then s.stopRound r .portFault true true
      else if !s.roundUsesPort r p && r.geos.all (fun g => match s.geo? r.warp g with | some x => x.port != p | none => true) then s
      else
        let s := s.updRound r.warp (fun r => { r with geos := r.geos.filter (fun g => match s.geo? r.warp g with | some x => x.port != p | none => true) })
        r.beams.foldl (fun (s : State) m => s.dropPairs m (fun e => e.2 == p)) s) s
  if on then s else s.deafPort p

end Sys2Proof.Machine
end

