-- ==== Sys2Proof/Machine/Bringup.lean ====
section
/-! DEFINITION. The events of bring-up (04_clocks_reset_bringup.md R82 to R93, R153, R168, R175, R322, R359, R389, R390). -/
namespace Sys2Proof.Machine

/-- HP_READY (R92). -/
def execHpReady (s : State) : Host.Outcome State Fault Refusal :=
  .next (if s.phase = .active ∧ !s.ready rdHp then s.becomeReady rdHp else s)

/-- MEMP_DISCOVERY (R53, R389, R390): with VIO present MEM runs; the registers show what is fitted and the mode and frequency chosen, the timing steps are
set, and PSRAM brings the population store into use (R296). -/
def execMempDiscovery (s : State) : Host.Outcome State Fault Refusal :=
  if s.phase ≠ .active ∨ !s.lands.vio ∨ s.ready rdMemp ∨ s.fld Reg.mempStat 28 4 ≠ 0 then .next s
  else
    let s := s.setBit Reg.sysClkstat 5 true
    let e := flashErr s.board.dev0
    match s.board.dev0, e with
    | some x, 0 =>
      let k := dev1Code s.board.dev0 s.board.dev1
      let (lanes, dtr) := readMode x
      let step := fun (d : Option MemDevice) => ((d.bind memTiming).getD (0, 0)).2
      let s := s.setReg Reg.mempStat (wordOf (k * 2 ^ 20 + memFreq s.board.dev0 s.board.dev1 * 2 ^ 16 + cond dtr 512 0 + lanes * 64))
      let s := s.setReg Reg.mempFlash (wordOf (x.density * 2 ^ 24 + x.tsus * 2 ^ 16 + x.rgap * 256))
      let s := s.setReg Reg.mempPsram (match s.board.dev1 with
        | some x => if k = 1 then wordOf (x.density * 2 ^ 24 + x.latency * 2 ^ 16 + x.tcem) else 0
        | none => 0)
      let s : State := { s with memp := { s.memp with point0 := step s.board.dev0, point1 := if k = 1 ∨ k = 2 then step s.board.dev1 else 0 } }
      .next ((s.setBit Reg.seenCfg 0 (k == 1)).becomeReady rdMemp)
    | _, _ => .next (s.setReg Reg.mempStat (wordOf (e * 2 ^ 28)))

/-- CRC_ENGINE_SELFTEST (R322): the engines named in `bad` give a wrong check value and go out of service, before SYS_READY.MGMT sets. -/
def execCrcEngineSelftest (bad : BitVec 4) (s : State) : Host.Outcome State Fault Refusal :=
  if !s.coreOn || s.ready rdMgmt then .next s
  else
    let bs := (List.range 4).filter (fun n => bad.toNat / 2 ^ n % 2 == 1 && !s.bit Reg.crcStat (16 + n))
    .next (bs.foldl (fun (s : State) n => ((s.setBit Reg.crcStat (16 + n) true).raise 8).logEvent 0x0C 1 (wordOf n)) s)

/-- MGMT_READY (R92, R83, R406, R415, R440): the half that PREFER names runs, the boot of the update record governs, the draft slot is
chosen and its proof starts; the other half loads when STANDBY is set, or while an update is ARMED (R434). -/
def execMgmtReady (s : State) : Host.Outcome State Fault Refusal :=
  if s.phase ≠ .active ∨ s.ready rdMgmt ∨ !s.ready rdMemp ∨ !s.mgmtOn then .next s
  else
    let h := s.bit Reg.mgmtCfg 1
    let s := s.bootUpdate
    let slot := if s.updState = 5 then s.newSlot else s.fwActive
    let s := ((s.setHalf h 4 0).setBit Reg.mgmtStat 31 h).setBase h slot
    let s : State := { s with mgmt := { s.mgmt with running := some h, ckptAt := s.up } }
    let s := if s.updState = 3 then s.loadHalf (!h) s.newSlot
             else if s.bit Reg.mgmtCfg 0 then s.loadHalf (!h) slot else s.setHalf (!h) 0 0
    let s := s.logEvent 7 (s.fld Reg.sysResetCause 28 4) (s.reg Reg.sysResetCause)
    .next (s.selectDraft.becomeReady rdMgmt)

/-- TAGF_READY (R92, R334, R344): crumb map and spares are loaded; a wire access that came before shows in EARLY, and field
writes made meanwhile raise TAGF_FIELD (R345). -/
def execTagfReady (s : State) : Host.Outcome State Fault Refusal :=
  if !s.ready rdMgmt || s.ready rdTagf then .next s
  else
    let t := s.tag
    let s : State := { s with tag := { t with loaded := true, sticky := if t.early then t.sticky ||| 16 else t.sticky, early := false } }
    let s := s.becomeReady rdTagf
    .next (if t.fieldCount = 0 then s else s.raise 14)

/-- PING_READY (R357, R359): the wake report is complete in the FIFO first, after a packet that is under construction; after a full reset the baselines
are restored from flash, if flash holds a copy. -/
def execPingReady (s : State) : Host.Outcome State Fault Refusal :=
  if !s.ready rdMgmt || s.ready rdPing then .next s
  else
    let s : State := match s.ping.flash with
      | some p => if s.ping.lost then { s with ping := { s.ping with ports := p } } else s
      | none => s
    match s.ping.wake, s.fifo.building with
    | none, _ => .next (({ s with ping := { s.ping with lost := false } } : State).becomeReady rdPing)
    | some _, some _ => .next s
    | some (h, recs), none =>
      let s : State := { s with ping := { s.ping with lost := false, wake := none } }
      .next ((s.writeWhole (wakeRec (s.reg Reg.pwrWakeAt) h recs)).resumeFrame.becomeReady rdPing)

/-- A proof passes (R85, R88, R91, R415): the draft goes live, and SYS_READY.DRAFT sets. -/
def State.passProof (s : State) (d : Draft) : State :=
  let s : State := { s with upd := { s.upd with proof := none } }
  let s := ((s.setFld Reg.sysDraftStat 16 8 0xFF).setFld Reg.sysDraftStat 4 3 5).setFld Reg.sysDraftStat 0 2 0
  let s := s.goLive d
  let s := (s.logEvent 8 1 (s.reg Reg.sysDraftStat)).becomeReady rdDraft
  s.showCompat.syncStandby

/-- PROOF_PASSED (R85): the proof in progress ends, and its slot's draft has no fault. -/
def execProofPassed (s : State) : Host.Outcome State Fault Refusal :=
  match s.upd.proof with
  | none => .next s
  | some slot =>
    let i := s.proofImage slot s.upd.fromStaging
    match i, s.proofFault i with
    | some x, none => .next (if s.halfRuns then s.passProof (draftOf x) else s)
    | _, _ => .next s

/-- PROOF_FAILED (R87): the proof in progress ends at its first failing stage. A trial draft that fails is reverted before any RF output,
and the old draft is proofed (R440). -/
def execProofFailed (s : State) : Host.Outcome State Fault Refusal :=
  match s.upd.proof with
  | none => .next s
  | some slot =>
    match s.proofFault (s.proofImage slot s.upd.fromStaging) with
    | none => .next s
    | some (stage, sec) =>
      if !s.halfRuns then .next s
      else if s.upd.fromStaging then
        let s := match s.mgmt.running with | some h => s.setBase h s.fwActive | none => s
        .next (s.reverted.startProof slot false)
      else
        let s : State := { s with upd := { s.upd with proof := none } }
        let s := ((s.setFld Reg.sysDraftStat 16 8 sec).setFld Reg.sysDraftStat 4 3 stage).setFld Reg.sysDraftStat 0 2 2
        .next ((s.raise 1).logEvent 8 2 (s.reg Reg.sysDraftStat))

/-- The SYS_READY bit and the decoders of a pool (R91, R419). -/
def poolBits : Pool → Nat × List Nat
  | .ldp => (rdLdp, List.range 8)
  | .uep => (rdUep, [8, 9, 10, 11])
  | .pe => (rdPe, [12])

/-- POOL_READY (R92): a pool that the draft provides, with a decoder in service. -/
def execPoolReady (pool : Pool) (s : State) : Host.Outcome State Fault Refusal :=
  let (b, ds) := poolBits pool
  let mine := match s.draft with | none => [] | some d => ds.filter (fun k => d.struct_.decoders.contains k)
  .next (if s.coreOn && s.ready rdDraft && s.expected b && !s.ready b && mine.any (fun k => !s.decOos k) then s.becomeReady b else s)

/-- TXC_CAL_END (R153, R175, R176): the isolated calibration ends, once every port of its warp has been classified. A failure takes the illuminator
out with CAL_FAIL; otherwise it is ready, and its geometries are calibrated (R168, R169). -/
def execTxcCalEnd (n : Fin 4) (pass : Bool) (s : State) : Host.Outcome State Fault Refusal :=
  let n := n.val
  if !(s.tx n).calibrating || (List.range 64).any (fun p => p / 16 == n && s.portNamed p && s.portClass p == 0) then .next s
  else
    let s := (s.updTx n (fun t => { t with calibrating := false })).setRamp n 0
    if !pass then .next ((s.setFld (Reg.txcStat n) 24 8 0).txcFail n 5 false)
    else .next (((s.becomeReady (rdTxc n)).recalibrate (fun g => geoUses g (some n) none none)).settleReturns)

/-- An illuminator of a geometry of chain `n` is still to become ready or go out of service (R92). -/
def State.awaitsTxc (s : State) (n : Nat) : Bool :=
  s.geos.any (fun g => geoUses g none none (some n) && s.txcUsed g.txc && !s.ready (rdTxc g.txc) && s.txReason g.txc == 0)

/-- RXC_READY (R92, R168, R199): the isolated calibration ends. At bring-up the chain is ready once its illuminators are ready or out and no point of
its geometries is owed; on a return, or after a switch, its points follow and it joins at a later boundary. -/
def execRxcReady (n : Fin 16) (pass : Bool) (s : State) : Host.Outcome State Fault Refusal :=
  let n := n.val
  if (s.chain n).svc ≠ .calibrating then .next s
  else
    let back := s.broughtUp || s.cmds.any (fun c => c.kind == .rxcReturn n)
    let owed := s.awaitsTxc n || s.calPending (fun g => geoUses g none none (some n))
    if !pass then
      let s := s.setFld (Reg.rxcStat n) 24 8 0
      .next (s.chainFail n 2)
    else if back then
      let s := s.becomeReady (rdRxc n)
      let s := s.updChain n (fun c => { c with svc := .points })
      let s := s.recalibrate (fun g => geoUses g none none (some n))
      .next (if (s.roundOn (n / 4)).isNone then s.settleReturns else s)
    else if owed then .next s
    else
      let s := s.updChain n (fun c => { c with svc := if s.chainSpare n then .standby else .inService })
      .next ((if s.chainSpare n then s.standIns (n / 4) else s).becomeReady (rdRxc n))

/-- TAL_READY (R92): on -T, the tally die runs and MGMT is ready. -/
def execTalReady (s : State) : Host.Outcome State Fault Refusal :=
  .next (if s.board.tally && s.ready rdMgmt && s.die.running && !s.ready rdTal then s.becomeReady rdTal else s)

/-- One port's first classification (R58, R153): a port found faulted goes out of service and is reported. -/
def State.firstClassify (s : State) (o : PortObsAt) : State :=
  let p := o.port.val
  if !s.portNamed p || s.portClass p != 0 then s
  else
    let c := firstClass o.obs
    if c = 1 then s.setPortClass p 1 else s.portFaulted p c

/-- PORT_FIRST_CLASSIFICATION (R153), in ascending port order (R170). -/
def execPortFirstClassification (obs : List PortObsAt) (s : State) : Host.Outcome State Fault Refusal :=
  if !s.ready rdDraft then .next s
  else .next ((List.range 64).foldl (fun (s : State) p =>
    match obs.find? (fun o => o.port.val == p) with | some o => s.firstClassify o | none => s) s)

end Sys2Proof.Machine
end

