-- ==== Sys2Proof/Machine/WireOps.lean ====
section
/-! DEFINITION. The staging of multi-word values (R139) and the wire side of the tag store (R333, R334, R340). -/
namespace Sys2Proof.Machine

/-! ## Staging (R139) -/

/-- A word of a multi-word value is held in its staging buffer. -/
def State.stage (s : State) (a : Nat) (w : Word) : State := { s with staging := sput (fun _ => none) s.staging a (some w) }

/-- The staged word at an address. -/
def State.staged (s : State) (a : Nat) : Option Word := sget (fun _ => none) s.staging a

/-- The words of the value at `lo` as a commit finds them: the staged ones, then the high word. -/
def State.stagedWords (s : State) (lo n : Nat) (hi : Word) : List (Option Word) :=
  (List.range (n - 1)).map (fun k => s.staged (lo + 4 * k)) ++ [some hi]

/-- The staging buffer of the value at `lo` is emptied. -/
def State.unstage (s : State) (lo n : Nat) : State :=
  { s with staging := serase (fun a => decide (lo ≤ a) && decide (a < lo + 4 * n)) s.staging }

/-! ## Wire writes of the tag store -/

/-- The wire side may change byte `k` of crumb `c` (R333). -/
def wireWritable (c k : Nat) : Bool :=
  if c = 0 then decide (4 ≤ k) && decide (k < 8) else if c = 1 then decide (2 ≤ k) else c != 2

/-- The bytes of the words written, with their places in the crumb. -/
def wireBytes (ws : List (Option Word)) : List (Nat × Byte) :=
  (List.range 16).flatMap (fun m => match ws.getD m none with
    | none => []
    | some w => (List.range 4).map (fun k => (4 * m + k, (bytesOfWord w).getD k 0)))

/-- One wire write to the tag store (R334): words 0 to 14 are staged, word 15 commits the crumb as one crumb write,
whose wait for a crumb that another owns is counted (R340). -/
def State.wireStore (s : State) (a : Nat) (w : Word) : State :=
  let c := (a - 0x480000) / 64
  let m := a % 64 / 4
  if !s.tag.loaded then { s with tag := { s.tag with early := true } }
  else if m ≠ 15 then s.stage a w
  else
    let lo := 0x480000 + 64 * c
    let bs := wireBytes (s.stagedWords lo 16 w)
    let s := s.unstage lo 16
    let ok := bs.filter (fun e => wireWritable c e.1)
    let s := if ok.length < bs.length then s.tagSticky 8 else s
    if ok.isEmpty then s
    else if s.crumbOos c then s.tagSticky 4
    else (if s.crumbOwned c then s.cnt (Reg.tagCnt 2) else s).requestCrumb { crumb := c, patch := ok, who := .wire, failed := false, reply := false }

/-- A crumb write of the wire side has not ended. -/
def State.wireBusy (s : State) : Bool :=
  let wire := fun (j : CrumbJob) => j.who == .wire
  (match s.tag.job with | some j => wire j | none => false) || s.tag.queue.any wire

/-- The words of a WR to the tag store are written in address order, one crumb at a time (R340): the rest waits for a crumb write. -/
def State.wireWords : List (Nat × Word) → State → State
  | [], s => { s with hp := { s.hp with posted := [] } }
  | (a, w) :: r, s =>
    let s := s.wireStore a w
    if s.wireBusy then { s with hp := { s.hp with posted := r } } else State.wireWords r s

/-- Words for the tag store are posted: they follow those that wait already. -/
def State.postWire (s : State) (ws : List (Nat × Word)) : State :=
  if s.wrPend then { s with hp := { s.hp with posted := s.hp.posted ++ ws } } else State.wireWords ws s

/-- The posted words go on when no crumb write of the wire side is left. -/
def State.resumeWire (s : State) : State := if s.wireBusy then s else State.wireWords s.hp.posted s

end Sys2Proof.Machine
end

