-- ==== Sys2Proof/Machine/FieldOps.lean ====
section
/-! DEFINITION. The field side of the tag function (16_tag_function.md): front ends, the session, and the tag state machine of ISO/IEC
18000-63 that R332 names (its states and transitions are PRESUMED from the standard, log entry 17). -/
namespace Sys2Proof.Machine

/-! ## Front ends and the session (R328, R329) -/

/-- A front end can take a command now (R25, R328). COMM discards what overlaps the modulation of an illuminator (MODE above CW). -/
def State.feOk (s : State) (fe : FrontEnd) : Bool :=
  match fe with
  | .comm => (List.range 4).all (fun n => decide (s.fld (Reg.txcStat n) 8 3 ≤ 1))
  | .ant p =>
    s.phase == .active && s.antUp p && s.rounds.all (fun r => !s.roundUsesPort r p)

/-- An ANT session whose front end has lost a condition of R328 ends (R329, R330). -/
def State.dropAnt (s : State) : State :=
  match s.tag.session with
  | some x => (match x.fe with | .comm => s | .ant _ => if s.feOk x.fe then s else s.endSession)
  | none => s

/-- A session as it begins: the tag is in Ready. -/
def Session.start (fe : FrontEnd) : Session := 
  { fe := fe, state := .ready, slot := 0, q := 0, session := 0, rn := 0, handle := 0, trunc := none, bySl := false, cover := none }

/-- The session changes. -/
def State.updSession (s : State) (f : Session → Session) : State :=
  { s with tag := { s.tag with session := s.tag.session.map f } }

/-- The tag state changes. -/
def State.tagTo (s : State) (st : TagState) : State := s.updSession (fun x => { x with state := st })

/-- A field command whose reply is still to be sent occupies the field side: field commands run one at a time (R340). -/
def State.fieldBusy (s : State) : Bool :=
  let f := fun (j : CrumbJob) => j.reply && (match j.who with | .field _ => true | _ => false)
  (match s.tag.job with | some j => f j | none => false) || s.tag.queue.any f

/-- What a command does to an Access whose second half is due: Req_RN and Access leave it, Query abandons it, any other command also
returns the tag to Arbitrate. The attempt then stands as a failure (R343). -/
inductive Cut where
  | keep | query | other
deriving DecidableEq, Repr

/-- The Access in progress is cut by another command. -/
def State.cutAccess (s : State) (c : Cut) : State :=
  if s.tag.half.isNone then s
  else match c with
    | .keep => s
    | .query => s.failAttempt
    | .other => s.failAttempt.tagTo .arbitrate

/-- A complete command on COMM shows that a field is there, and is a wake source (R105). -/
def State.commWake (s : State) (fe : FrontEnd) : State :=
  match fe with
  | .comm => ({ s with tag := { s.tag with field := true } } : State).wake 3
  | .ant _ => s

/-- A valid command reaches the field side: it may begin the session, and is carried out if the session is its front end's (R329). The
RN16 that covered it covers no later one. TAG_CNT_FIELD_CMD counts it as one of the commands that R332 lists as answered (DEDUCED, log
entry 49). -/
def State.fieldCmd (s : State) (fe : FrontEnd) (starts : Bool) (cut : Cut) (body : Session → State → State) : State :=
  let s := s.dropAnt
  if !s.feOk fe then s
  else
    let s : State := if starts && s.tag.session.isNone then { s with tag := { s.tag with session := some (Session.start fe) } } else s
    let s := match s.tag.session with
      | some x =>
        if x.fe = fe ∧ !s.fieldBusy then
          let s := ((s.tagCount 0).tagSay .none).cutAccess cut
          (match s.tag.session with | some x => body x (s.updSession (fun x => { x with cover := none })) | none => s)
        else s
      | none => s
    s.commWake fe

/-- A command of R332 that is ignored with no reply; on COMM it still is a complete command (R105). -/
def State.fieldIgnored (s : State) (fe : FrontEnd) : State :=
  let s := s.dropAnt
  if !s.feOk fe then s else s.commWake fe

/-! ## Inventory -/

/-- Flag `i` of S0 to S3; true is B. -/
def State.invFlag (s : State) (i : Nat) : Bool := s.tag.flags.getD i false

/-- Flag `i` is set. -/
def State.setInvFlag (s : State) (i : Nat) (v : Bool) : State := { s with tag := { s.tag with flags := s.tag.flags.set i v } }

/-- S1 may have gone back to A when a Query arrives: its persistence is 0.5 to 5 s (log entry 17). -/
def State.decayS1 (s : State) : State :=
  let (b, s) := s.drawBool
  s.setInvFlag 1 (s.invFlag 1 && b)

/-- The bits of a memory bank that a Select mask is compared with: the EPC bank up to the end of the EPC, TID, User. -/
def State.bankBits (s : State) (bank ptr n : Nat) : Option (List Bool) :=
  let words := if bank = 1 then 2 + s.epcWords else if bank = 2 then 6 else 3744
  if ptr + n > 16 * words then none
  else some ((List.range n).map (fun i =>
    let b := ptr + i
    let w := b / 16
    let v := if bank = 1 then s.tagWord 1 w else if bank = 2 then s.tagWord 2 w else s.tagWord (3 + w / 32) (w % 32)
    v / 2 ^ (15 - b % 16) % 2 == 1))

/-- The Action of a Select for a matching tag (or not): some true asserts SL or sets A, some false deasserts or sets B, none with
`true` negates. -/
def selAction (a : Nat) (hit : Bool) : Option Bool × Bool :=
  match a, hit with
  | 0, true => (some true, false) | 0, false => (some false, false)
  | 1, true => (some true, false) | 2, false => (some false, false)
  | 3, true => (none, true) | 4, true => (some false, false) | 4, false => (some true, false)
  | 5, true => (some false, false) | 6, false => (some true, false) | 7, false => (none, true)
  | _, _ => (none, false)

/-- A Select with a target or bank that is reserved, or one that asks for truncation of anything but the EPC under SL, is not valid
(PRESUMED, log entry 17). -/
def selectValid (a : SelectArgs) : Bool :=
  decide (a.target.toNat ≤ 4) && decide (a.bank.toNat ≠ 0) && (!a.truncate || (decide (a.target.toNat = 4) && decide (a.bank.toNat = 1)))

/-- Select (R332). With Truncate a matching tag is to answer with what follows the mask in its EPC. -/
def State.tagSelect (s : State) (a : SelectArgs) : State :=
  let hit := match s.bankBits a.bank.toNat a.ptr a.mask.length with | some m => m == a.mask | none => false
  let t := a.target.toNat
  let from_ := if a.truncate && hit then some (max 32 (a.ptr + a.mask.length)) else none
  let s := s.updSession (fun x => { x with state := .ready, trunc := from_ })
  match selAction a.action.toNat hit with
  | (some v, _) => if t = 4 then { s with tag := { s.tag with sl := v } } else s.setInvFlag t (!v)
  | (none, true) => if t = 4 then { s with tag := { s.tag with sl := !s.tag.sl } } else s.setInvFlag t (!s.invFlag t)
  | (none, false) => s

/-- The tag replies with a fresh RN16. -/
def State.sayRn (s : State) : State :=
  let (r, s) := s.drawHalf
  (s.updSession (fun x => { x with state := .reply, rn := r.toNat, slot := 0 })).tagSay (.rn16 r.toNat)

/-- The slot counter is drawn: zero replies, any other value waits in Arbitrate. -/
def State.drawSlot (s : State) (q : Nat) : State :=
  let (r, s) := s.drawHalf
  let n := r.toNat % 2 ^ q
  let s := s.updSession (fun x => { x with q := q, slot := n, state := .arbitrate })
  if n = 0 then s.sayRn else s

/-- The tag has been acknowledged, so a Query, QueryAdjust or QueryRep of its session inverts its flag. -/
def Session.acked (x : Session) : Bool := x.state == .acknowledged || x.state == .open_ || x.state == .secured

/-- Query (R332). -/
def State.tagQuery (s : State) (x : Session) (a : QueryArgs) : State :=
  let n := a.session.toNat
  let s := s.decayS1
  let s := if x.acked && x.session == n then s.setInvFlag n (!s.invFlag n) else s
  let s := s.updSession (fun x => { x with session := n, bySl := decide (2 ≤ a.sel.toNat) })
  let sel := match a.sel.toNat with | 2 => !s.tag.sl | 3 => s.tag.sl | _ => true
  if sel && s.invFlag n == a.target then s.drawSlot (a.q % 16) else s.tagTo .ready

/-- A QueryAdjust or QueryRep that ends an acknowledged tag's turn. -/
def State.leaveTurn (s : State) (x : Session) : State := (s.setInvFlag x.session (!s.invFlag x.session)).tagTo .ready

/-- QueryAdjust (R332): Q goes up or down by one, or stays. -/
def State.tagAdjust (s : State) (x : Session) (n : Nat) (up : Int) : State :=
  if n ≠ x.session ∨ x.state = .ready then s
  else if x.acked then s.leaveTurn x
  else s.drawSlot (min 15 ((x.q : Int) + up).toNat)

/-- QueryRep (R332). -/
def State.tagRep (s : State) (x : Session) (n : Nat) : State :=
  if n ≠ x.session ∨ x.state = .ready then s
  else if x.acked then s.leaveTurn x
  else
    let k := (x.slot + 32767) % 32768
    let s := s.updSession (fun x => { x with slot := k, state := .arbitrate })
    if x.state = .arbitrate ∧ k = 0 then s.sayRn else s

/-- The identity as backscattered: StoredPC, EPC and the CRC-16 over them. Truncated, five zeros, the EPC from the place where the mask of
the Select ended, and the same CRC-16 (PRESUMED, log entry 17). -/
def State.sayIdentity (s : State) (x : Session) : State :=
  let ws := s.tagIdWords
  let bits := ws.flatMap (bitsHigh 16)
  let crc := crc16 bits
  match x.bySl, x.trunc with
  | true, some p => s.tagSay (.truncated (List.replicate 5 false ++ bits.drop (p - 16) ++ bitsHigh 16 crc))
  | _, _ => s.tagSay (.identity (ws.map wordOf ++ [wordOf crc]))

/-- ACK (R332). -/
def State.tagAck (s : State) (x : Session) (rn : Nat) : State :=
  match x.state with
  | .ready | .arbitrate => s
  | .reply | .acknowledged => if rn = x.rn then (s.sayIdentity x).tagTo .acknowledged else s.tagTo .arbitrate
  | .open_ | .secured => if rn = x.handle then s.sayIdentity x else s.tagTo .arbitrate

/-- NAK (R332). -/
def State.tagNak (s : State) (x : Session) : State := if x.state = .ready then s else s.tagTo .arbitrate

/-- The access password as its two halves, the first one first (R333). -/
def State.accessPwd (s : State) : Nat × Nat := (s.tagWord 0 2, s.tagWord 0 3)

/-- Req_RN (R332): a handle from Acknowledged; from Open or Secured a fresh RN16, which covers the data of the next command. -/
def State.tagReqRn (s : State) (x : Session) (rn : Nat) : State :=
  match x.state with
  | .ready | .arbitrate => s
  | .reply => s.tagTo .arbitrate
  | .acknowledged =>
    if rn ≠ x.rn then s
    else
      let (h, s) := s.drawHalf
      let st := if s.accessPwd = (0, 0) then TagState.secured else .open_
      (s.updSession (fun x => { x with handle := h.toNat, state := st })).tagSay (.handle h.toNat)
  | .open_ | .secured =>
    if rn ≠ x.handle then s
    else
      let (r, s) := s.drawHalf
      (s.updSession (fun x => { x with rn := r.toNat, cover := some r.toNat })).tagSay (.rn16 r.toNat)

/-! ## Access commands (R336 to R345) -/

/-- An access command: from Reply and Acknowledged it returns the tag to Arbitrate, and in Open or Secured it is carried out if its
handle is the tag's. -/
def State.accessCmd (s : State) (x : Session) (rn : Nat) (body : State → State) : State :=
  match x.state with
  | .ready | .arbitrate => s
  | .reply | .acknowledged => s.tagTo .arbitrate
  | .open_ | .secured => if rn = x.handle then body s else s

/-- A command whose 16 bits of data are covered: it is carried out with the data as it was before the exclusive or with the RN16 of the Req_RN
just before it, and ignored when none was (PRESUMED, log entry 17). -/
def State.covered (s : State) (x : Session) (data : Nat) (body : Nat → State → State) : State :=
  match x.cover with | some r => body (data ^^^ r) s | none => s

/-- Words of a field bank (R333). -/
def bankWords (bank : Nat) : Nat := match bank with | 0 => 4 | 1 => 32 | 2 => 6 | _ => 3744

/-- The crumb of a word of a field bank and its word there (R333). -/
def bankLoc (bank w : Nat) : Nat × Nat := match bank with | 0 => (0, w) | 1 => (1, w) | 2 => (2, w) | _ => (3 + w / 32, w % 32)

/-- The two lock bits of a bank in TAG_LOCK (bit 0 lock, bit 1 permalock): EPC, User, access password. -/
def State.lockBits (s : State) (bank : Nat) : Nat := match bank with | 1 => s.tag.locks % 4 | 3 => s.tag.locks / 4 % 4 | _ => s.tag.locks / 16 % 4

/-- A lock forbids a write: locked for good, or locked and the tag is not secured. -/
def lockForbids (bits : Nat) (secured : Bool) : Bool := bits == 3 || (bits == 1 && !secured)

/-- The words a Read answers: a count of zero reads to the end of the bank, which in the EPC bank is the end of the EPC. -/
def State.readCount (s : State) (bank ptr count : Nat) : Nat :=
  if count ≠ 0 then count
  else
    let e := if bank = 1 ∧ ptr < 2 + s.epcWords then 2 + s.epcWords else bankWords bank
    e - ptr

/-- A field Read (R336, R338, R340): the committed content at one instant. The error-correcting outcome is that of the first crumb read
(DESIGN CHOICE, log entry 49). -/
def State.tagRead (s : State) (x : Session) (bank ptr count : Nat) (ecc : EccResult) : State :=
  let n := s.readCount bank ptr count
  if ptr + n > bankWords bank ∨ n = 0 then s.tagSay (.error 3 x.handle)
  else if bank = 0 then s.tagSay (.error 4 x.handle)
  else
    let locs := (List.range n).map (fun k => bankLoc bank (ptr + k))
    let bad := ecc == .uncorrectable || locs.any (fun l => s.tag.bad.contains l.1)
    let c := (locs.headD (0, 0)).1
    if bad then
      let c := if ecc = .uncorrectable then c else ((locs.map Prod.fst).find? (fun k => s.tag.bad.contains k)).getD c
      (s.eccFail c).tagSay (.error 0 x.handle)
    else
      let s := if ecc = .corrected then s.eccFix c else s
      s.tagSay (.data (locs.map (fun l => s.tagWord l.1 l.2)) x.handle)

/-- A field Write or BlockWrite (R336, R337): the first error of R336 that applies, or a crumb write whose end sends the reply. -/
def State.tagWrite (s : State) (x : Session) (bank ptr : Nat) (data : List Nat) (energy : Bool) : State :=
  let n := data.length
  let at_ := bankLoc bank ptr
  let past := decide (ptr + n > bankWords bank) || decide ((bankLoc bank (ptr + n - 1)).1 ≠ at_.1) ||
    (bank == 1 && decide (ptr ≤ 1) && decide (1 < ptr + n) && decide (data.getD (1 - ptr) 0 / 2048 > 30))
  let sec : Bool := decide (x.state = .secured)
  let locked : Bool := match bank with
    | 0 => decide (ptr < 2) || lockForbids (s.lockBits 0) sec
    | 2 => true
    | b => lockForbids (s.lockBits b) sec
  if past then s.tagSay (.error 3 x.handle)
  else if locked then s.tagSay (.error 4 x.handle)
  else if !(s.tagFromVin || energy) then s.tagSay (.error 11 x.handle)
  else if s.crumbOos at_.1 || (bank == 1 && ptr == 0) then s.tagSay (.error 0 x.handle)
  else
    let bytes := fun (k v : Nat) => [(2 * (at_.2 + k), BitVec.ofNat 8 v), (2 * (at_.2 + k) + 1, BitVec.ofNat 8 (v / 256))]
    s.requestCrumb { crumb := at_.1, patch := data.zipIdx.flatMap (fun (e : Nat × Nat) => bytes e.2 e.1), who := .field x.handle, failed := false,
                     reply := true }

/-- The new lock bits of one memory under a Lock payload's mask and action pairs, of which the high bit is the lock and the low bit the
permalock; none when it would change a permalocked state. -/
def lockPair (cur mask act : Nat) : Option Nat :=
  let bit := fun (m a c : Nat) => if m = 1 then a else c
  let new := bit (mask / 2) (act / 2) (cur % 2) + 2 * bit (mask % 2) (act % 2) (cur / 2)
  if cur ≥ 2 ∧ new ≠ cur then none else some new

/-- Lock (R342): only in Secured; the kill password and the TID bank are permanently locked. -/
def State.tagLock (s : State) (x : Session) (payload : Nat) : State :=
  if x.state ≠ .secured then s
  else
    let m := fun (k : Nat) => payload / 2 ^ (10 + 2 * k) % 4
    let a := fun (k : Nat) => payload / 2 ^ (2 * k) % 4
    match lockPair 3 (m 4) (a 4), lockPair (s.lockBits 0) (m 3) (a 3), lockPair (s.lockBits 1) (m 2) (a 2), lockPair 3 (m 1) (a 1),
          lockPair (s.lockBits 3) (m 0) (a 0) with
    | some _, some p, some e, some _, some u =>
      ({ s with tag := { s.tag with locks := p * 16 + u * 4 + e } } : State).tagSay (.success x.handle)
    | _, _, _, _, _ => s.tagSay (.error 4 x.handle)

/-- Access (R343): the first half is counted as it arrives; the second is compared when that guard write has ended. -/
def State.tagAccess (s : State) (x : Session) (half : Nat) : State :=
  match s.tag.half with
  | none =>
    let t := s.tag
    ({ s with tag := { t with consec := min 15 (t.consec + 1), cum := min 64 (t.cum + 1), half := some half, guardBusy := true } } :
      State).tagSay (.handle x.handle)
  | some h =>
    if s.tag.guardBusy then s
    else if (h, half) = s.accessPwd then
      let s : State := { s with tag := { s.tag with consec := 0, cum := s.tag.cum - 1, half := none } }
      (s.tagTo .secured).tagSay (.handle x.handle)
    else s.failAttempt.tagTo .arbitrate

/-! ## The end of a crumb write (R337, R339) -/

/-- The job moves its crumb to a spare: REMAP, or the RETURN of a WORN crumb (R346). -/
def State.jobMoves (s : State) (j : CrumbJob) : Bool :=
  match j.who with
  | .cmd seq => (match (s.cmd? seq).map Cmd.kind with | some (.remap _) => true | some (.crumbReturn _) => true | _ => false)
  | _ => false

/-- The new content lands on a spare that the crumb moves to (R339). -/
def State.landMoved (s : State) (j : CrumbJob) (n : Nat) : State :=
  let s := ((s.commitCrumb j).moveCrumb j.crumb n).addWear (128 + n)
  match j.who with | .field _ => s.fieldWritten j.crumb | _ => s

/-- A crumb goes out of service as WORN (R339). -/
def State.wearOut (s : State) (c : Nat) : State :=
  let s : State := { s with tag := { s.tag with oos := s.tag.oos.filter (fun e => e.1 != c) ++ [(c, true)] } }
  let s := if s.dieUp then s.raise 8 else s
  s.tagLog 2 c

/-- The crumb write in progress ends (R337, R339): a first failed verify is retried, a second moves the crumb or wears it out. -/
def State.endCrumb (s : State) (verified : Bool) : State :=
  match s.tag.job with
  | none => s
  | some j =>
    if !verified && !j.failed then { s with tag := { s.tag with job := some { j with failed := true } } }
    else
      let s : State := { s with tag := { s.tag with job := none } }
      if verified && !s.jobMoves j then
        let s := s.landCrumb j
        let s := match j.who with | .field _ => s.tagCount 1 | _ => s
        s.crumbAnswer j .ok
      else match s.freeSpare with
        | some n =>
          let s := s.landMoved j n
          let s := match j.who with | .field _ => s.tagCount 1 | _ => s
          s.crumbAnswer j .ok
        | none =>
          if s.jobMoves j then s.crumbAnswer j (if s.crumbWorn j.crumb then .outOfService else .refused)
          else ((s.addWear (s.locOf j.crumb)).wearOut j.crumb).crumbAnswer j .outOfService

end Sys2Proof.Machine
end

