-- ==== Sys2Proof/Machine/StartOps.lean ====
section
/-! DEFINITION. How a round starts (13_rounds_and_seen_table.md R279 to R281): the checks of a candidate, the beams and decoders it needs, and
what starting it does. -/
namespace Sys2Proof.Machine

/-! ## Functions that are not ready (R94) -/

/-- The status of a command for a function that is not ready (R94): `dep` that the function depends on the draft, `oos` that it is out of
service; none when it is ready. -/
def State.fnStatus (s : State) (b : Nat) (dep oos : Bool) : Option Status :=
  if dep && !s.ready rdDraft then some .notReady
  else if !s.expected b then some .draftMismatch
  else if s.ready b then none
  else if oos then some .outOfService
  else some .notReady

/-- The status of a round on an illuminator that cannot serve it (R94, R174): one that returns is out of service until it joins (R176). -/
def State.txcStatus (s : State) (n : Nat) : Option Status :=
  match s.fnStatus (rdTxc n) true (s.txReason n != 0) with
  | some st => some st
  | none => if s.txReason n = 0 then none else some .outOfService

/-- The decoders of the draft in a range of indices. -/
def State.draftDecs (s : State) (lo hi : Nat) : List Nat :=
  match s.draft with
  | none => []
  | some d => (List.range 13).filter (fun k => decide (lo ≤ k) && decide (k < hi) && d.struct_.decoders.contains k)

/-- The decoders of the draft in service, for a protocol of an entry (R186). -/
def State.poolOf (s : State) (proto : Nat) : List Nat :=
  (if proto = 0 then s.draftDecs 0 8 else s.draftDecs 8 12).filter (fun k => !s.decOos k)

/-! ## Words of an entry (R279) -/

/-- The entry holds a code that is rejected (R278, R279). A POLL of another protocol than Umaolo, an OP outside the list, an OP that Umaolo does not
allow and an inventory slot beyond R255 count as rejected (DEDUCED, log entry 22). -/
def rejectedCode (w : List Word) : Bool :=
  let k := eKind w
  let p := eProto w
  let op := eOp w
  decide (k = 0 ∨ 4 < k) || decide (2 ≤ eHop w) || decide (eReport w = 3) ||
  (k != 4 && (decide (p = 3) || (k == 3 && p != 2))) ||
  (k == 2 && (decide (op = 0 ∨ 6 < op) || (p == 2 && decide (2 < op)))) ||
  ((k == 1 || k == 2) && p == 2 && decide (8 < 2 ^ ew w 3 10 2 * (ew w 3 9 1 + 1)))

/-- Words or bytes of write data that an access takes from SCHED_ACCDATA, in words of the buffer. -/
def accWords (w : List Word) : Nat :=
  match eOp w with
  | 2 => if eProto w = 2 then (eLen w + 3) / 4 else eLen w
  | 3 => eLen w
  | _ => 0

/-- The values R279 refuses. LEN binds READ, WRITE and BLOCKWRITE, which have a length; class U0 has no access but READ (log entry 22). -/
def refusedWords (w : List Word) : Bool :=
  let acc := eKind w == 2
  let op := eOp w
  decide (eDuration w = 0 ∨ 10000 < eDuration w) ||
  (acc && (decide ((op = 1 ∨ op = 2 ∨ op = 3) ∧ eLen w = 0) || decide (accWords w ≠ 0 ∧ 64 < ew w 10 24 8 + accWords w) ||
           (eProto w == 2 && op == 2 && decide (16 < eLen w)) || (eProto w == 1 && op != 1)))

/-- LINK names a profile with VALID = 0 (R201, R226), or one of the other protocol than the entry's (R220): the spec does not say what an entry
and a profile of different PROTO do together (DESIGN CHOICE, log entry 27). -/
def State.linkInvalid (s : State) (w : List Word) : Bool :=
  if eProto w = 2 then !s.bit (Reg.umaLink (eLink w)) 31
  else !s.bit (Reg.legLinkA (eLink w)) 31 || (s.bit (Reg.legLinkA (eLink w)) 30 != (eProto w == 1))

/-! ## Beams (R23, R183) -/

/-- The pairs of a geometry divided into its beams (R183): by the warp of the ports, the entry's warp first; SPLIT divides those of one
warp. How it divides them the spec does not say: the first half of the pairs and the rest (DESIGN CHOICE, log entry 23). -/
def splitPairs (w : Nat) (split : Bool) (pairs : List (Nat × Nat)) : List (List (Nat × Nat)) :=
  let k := if pairs.any (fun e => e.2 / 16 == w) then w else (pairs.headD (0, 0)).2 / 16
  let a := pairs.filter (fun e => e.2 / 16 == k)
  let b := pairs.filter (fun e => e.2 / 16 != k)
  if !b.isEmpty then [a, b]
  else if split && decide (2 ≤ a.length) then [a.take ((a.length + 1) / 2), a.drop ((a.length + 1) / 2)]
  else [a]

/-- A beam to form: the geometry's index, the second of its two, its pairs. -/
structure BeamPlan where
  geo    : Nat
  second : Bool
  pairs  : List (Nat × Nat)
deriving DecidableEq, Repr

/-- The receive ports of a geometry lie on two warps (R154): it has one beam for each, with no further division (R183). -/
def geoTwoWarps (g : Geometry) : Bool := decide (2 ≤ (g.pairs.map (fun e => e.2 / 16)).eraseDups.length)

/-- The beams of a round (R183) (DEDUCED, log entry 48). -/
def State.planBeams (s : State) (w : Nat) (split : Bool) (geos : List Geometry) : List BeamPlan :=
  geos.flatMap (fun g => match splitPairs w (split && !geoTwoWarps g) (s.livePairs g) with
    | [a] => [⟨g.idx, false, a⟩]
    | [a, b] => [⟨g.idx, false, a⟩, ⟨g.idx, true, b⟩]
    | _ => [])

/-- The position in the decoders of a round of the decoder of each beam (R186, R261): one for each beam of 18000-63; a Umaolo engine for up to
four beams, the second beams of a split on engines of their own. -/
def beamDecs (proto : Nat) (split : Bool) (bs : List BeamPlan) : List Nat :=
  let firsts := (bs.filter (fun b => !b.second)).length
  (List.range bs.length).map (fun k =>
    if proto = 0 then k
    else if !split then k / 4
    else
      let b := bs.getD k ⟨0, false, []⟩
      let j := ((bs.take k).filter (fun x => x.second == b.second)).length
      if b.second then (firsts + 3) / 4 + j / 4 else j / 4)

/-! ## Candidates -/

/-- What a candidate would be if it started now. -/
structure Plan where
  status  : Option Status
  words   : List Word
  warps   : List Nat
  txc     : Option Nat
  geos    : List Geometry
  beams   : List BeamPlan
  /-- Decoders of the pool in service, and the position in the round's decoders of each beam's. -/
  pool    : List Nat
  decOf   : List Nat
  skipped : Bool
deriving DecidableEq, Repr

/-- A plan that has failed its checks. -/
def Plan.fail (words : List Word) (w : Nat) (skipped : Bool) (st : Status) : Plan :=
  { status := some st, words := words, warps := [w], txc := none, geos := [], beams := [], pool := [], decOf := [], skipped := skipped }

/-- The decoders a plan needs. -/
def Plan.need (p : Plan) : Nat := p.decOf.foldl (fun m k => max m (k + 1)) 0

/-- Every warp the scheduler may use (SCHED_CTRL.WARP_EN). -/
def State.warpsOn (s : State) (ws : List Nat) : Bool := ws.all (fun w => s.bit Reg.schedCtrl (4 + w))

/-- An illuminator can serve a round (R94, R174). -/
def State.txcUsable (s : State) (n : Nat) : Bool := s.ready (rdTxc n) && s.txReason n == 0

/-- The ports of a ping entry (R278). -/
def pingEntryPorts (w : List Word) : List Nat :=
  (List.range 64).filter (fun p => ew w (5 + p / 32) (p % 32) 1 == 1)

/-- The first two checks of R279, before any part is looked at. -/
def State.checkCodes (s : State) (w : List Word) (host : Bool) : Option Status :=
  let warp := eWarp w
  let gs := (List.range 32).filter (fun g => ew w 2 g 1 == 1)
  if host && ew w 0 31 1 == 0 then some .refused
  else if rejectedCode w then some .draftMismatch
  else if eKind w = 4 then none
  else if gs.isEmpty || gs.any (fun g => (s.geo? warp g).isNone) || s.linkInvalid w then some .draftMismatch
  else none

/-- The plan of a ping round (R354). -/
def State.pingPlan (s : State) (w : List Word) : Plan :=
  let p : Plan := { status := none, words := w, warps := [0, 1, 2, 3], txc := none, geos := [], beams := [], pool := [], decOf := [], skipped := false }
  let skipped := (pingEntryPorts w).any s.portOos
  if !s.warpsOn [0, 1, 2, 3] then .fail w (eWarp w) skipped .disabled
  else match (if s.ready rdDraft then s.fnStatus rdPing false false else some .notReady) with
    | some st => .fail w (eWarp w) skipped st
    | none => if refusedWords w then .fail w (eWarp w) skipped .refused else { p with skipped := skipped }

/-- A geometry has passed its calibration for the group of a channel (R167, R168). -/
def State.seeded (s : State) (w g c : Nat) : Bool := s.seeds.contains (w, g, c) && !s.unusable.contains (w, g, c)

/-- A chain of a geometry is still in its first calibration (R168). -/
def State.chainFirst (s : State) (n : Nat) : Bool := !s.ready (rdRxc n) && s.fld (Reg.rxcStat n) 24 8 == 0 && s.expected (rdRxc n)

/-- The plan of an inventory, access or poll round (R171, R174, R279). Its illuminator is that of its first geometry in service; geometries
of another illuminator take no part (DEDUCED, log entry 22). -/
def State.rfPlan (s : State) (w : List Word) : Plan :=
  let warp := eWarp w
  let sel := s.geos.filter (fun g => g.warp == warp && ew w 2 g.idx 1 == 1)
  let use := sel.filter (fun g => !s.portOos g.port)
  let skipped := decide (use.length < sel.length) || use.any (fun g => g.pairs.any (fun e => s.portOos e.2))
  let own := match use, sel with | g :: _, _ => g.txc | [], g :: _ => g.txc | [], [] => warp
  let alt := ew w 0 8 2
  let swap := !s.txcUsable own && ew w 0 10 1 == 1 && (alt + 1 == warp || warp + 1 == alt) && s.txcUsable alt
  let txc := if swap then alt else own
  let use := use.filter (fun g => g.txc == own)
  let warps := (warp :: txc :: use.flatMap (fun g => geoWarps { g with txc := txc })).eraseDups
  let pool := s.poolOf (eProto w)
  let bit := if eProto w = 0 then rdLdp else rdUep
  let beams := (s.planBeams warp (eSplit w) use).filter (fun b => !b.pairs.isEmpty)
  let decOf := beamDecs (eProto w) (eSplit w) beams
  let use := use.filter (fun g => beams.any (fun b => b.geo == g.idx))
  let p : Plan := { status := none, words := w, warps := warps, txc := some txc, geos := use, beams := beams, pool := pool, decOf := decOf,
                    skipped := skipped }
  let c := match s.region with | none => 0 | some r => regionGroup r (s.pickChan txc true none).1
  if !s.warpsOn warps then .fail w warp skipped .disabled
  else match s.fnStatus bit true pool.isEmpty with
  | some st => .fail w warp skipped st
  | none =>
    if (sel.filter (fun g => !s.portOos g.port)).isEmpty then
      .fail w warp skipped (if sel.any (fun g => decide (2 ≤ s.portClass g.port)) then .portFault else .outOfService)
    else match (if swap then none else s.txcStatus own) with
    | some st => .fail w warp skipped st
    | none =>
      if use.any (fun g => g.pairs.any (fun e => s.chainFirst e.1)) then .fail w warp skipped .notReady
      else if beams.isEmpty || decide (pool.length < p.need) then .fail w warp skipped .outOfService
      else if use.any (fun g => !s.seeded warp g.idx c) then .fail w warp skipped .notReady
      else if refusedWords w then .fail w warp skipped .refused
      else p

/-- The plan of an entry (R279). -/
def State.entryPlan (s : State) (e : Nat) (host : Bool) : Plan :=
  let w := s.entryWords e
  match s.checkCodes w host with
  | some st => .fail w (eWarp w) false st
  | none => if eKind w = 4 then s.pingPlan w else s.rfPlan w

/-- The plan of a calibration round: every warp that its geometries touch (R22, R167). -/
def State.calPlan (s : State) (c : Cand) : Plan :=
  let gs := c.points.filterMap (fun e => s.geo? c.warp e.1)
  { status := none, words := [], warps := (c.warp :: gs.flatMap geoWarps).eraseDups, txc := gs.head?.map (fun g => g.txc), geos := gs,
    beams := [], pool := [], decOf := [], skipped := false }

/-- The plan of a peer window or receive period (R269, R270): the peer warp and those its geometry is joined to, one beam for each warp of its
receive ports (R23, R183), PE, which takes one beam (R186), and an illuminator. What a round does when PEER_CFG.WARP is not the warp of the draft's
peer geometry is not stated: the illuminator of PEER_CFG.WARP drives the geometry's transmit port if it reaches it (R21), else the geometry's own
does (DESIGN CHOICE, log entry 10). A window of a geometry with no chain left is held with no beam. -/
def State.peerPlan (s : State) (_c : Cand) : Plan :=
  let w := s.fld Reg.peerCfg 10 2
  let gs := match s.draft with | none => [] | some d => d.struct_.peerGeo.toList
  let txc := match gs with | g :: _ => if warpsMeet w (g.port / 16) then w else g.txc | [] => w
  let beams := (s.planBeams w false gs).filter (fun b => !b.pairs.isEmpty)
  let pool := (s.draftDecs 12 13).filter (fun k => !s.decOos k)
  { status := if pool.length < beams.length then some .outOfService else none, words := [],
    warps := (w :: txc :: gs.flatMap geoWarps).eraseDups, txc := some txc, geos := gs, beams := beams, pool := pool,
    decOf := List.range beams.length, skipped := false }

/-- The plan of a candidate. -/
def State.planOf (s : State) (c : Cand) : Plan :=
  match c.kind with
  | .cal => s.calPlan c
  | .pingCal => { status := none, words := [], warps := [0, 1, 2, 3], txc := none, geos := [], beams := [], pool := [], decOf := [], skipped := false }
  | .peerWin => s.peerPlan c
  | .peerRx => s.peerPlan c
  | _ => s.entryPlan c.entry (!c.due)

/-- A RETURN in progress needs the calibration of a point (R176, R199). -/
def State.returnNeeds (s : State) (w g : Nat) : Bool :=
  match s.geo? w g with
  | none => false
  | some g => s.cmds.any (fun c => match c.kind with
    | .txcReturn n => geoUses g (some n) none none
    | .portReturn p => geoUses g none (some p) none
    | .rxcReturn n => geoUses g none none (some n)
    | _ => false)

/-- A candidate may start as far as RUN and WARP_EN say (R288): calibration rounds of a RETURN or of bring-up always, and host-run rounds,
whose warps R279 checks. Calibration rounds and those of a CAL start only while a management half runs (R405). -/
def State.candLive (s : State) (c : Cand) : Bool :=
  let run := s.bit Reg.schedCtrl 0
  match c.kind with
  | .cal => s.halfRuns && (!s.broughtUp || c.points.any (fun e => s.returnNeeds c.warp e.1) || (run && s.warpsOn (s.calPlan c).warps))
  | .pingCal => s.halfRuns && run && s.warpsOn [0, 1, 2, 3]
  | .peerWin => run && s.warpsOn (s.peerPlan c).warps
  | .peerRx => run && s.warpsOn (s.peerPlan c).warps
  | _ => !c.due || run

/-- The order of R281 as a number: calibration rounds, peer rounds, then PRIO and entry index. -/
def State.candRank (s : State) (c : Cand) : Nat :=
  match c.kind with
  | .cal => 0
  | .pingCal => 0
  | .peerWin => 1
  | .peerRx => 1
  | _ => 2 + ePrio (s.entryWords c.entry) * 256 + c.entry

/-- The candidates that want a warp, with their plans. -/
def State.candsOn (s : State) (w : Nat) : List (Cand × Plan) :=
  ((s.cands.filter s.candLive).map (fun c => (c, s.planOf c))).filter (fun e => e.2.warps.contains w)

/-- The first candidate of a warp (R281) (DEDUCED, log entry 36). -/
def State.firstCand (s : State) (w : Nat) : Option (Cand × Plan) :=
  (s.candsOn w).foldl (fun (b : Option (Cand × Plan)) e =>
    match b with
    | none => some e
    | some x => if s.candRank e.1 < s.candRank x.1 then some e else b) none

/-- The time bound of a candidate in us (R282); that of a calibration round from R167. -/
def State.candBound (c : Cand) (p : Plan) : Nat :=
  match c.kind with
  | .cal => 130 * c.points.length
  | .pingCal => 0
  | .peerWin => 0
  | .peerRx => 0
  | _ => 1000 * eDuration p.words

/-- Peer windows are held (R269): the peer engine is ready and peer mode enabled. -/
def State.peerOn (s : State) : Bool := s.ready rdPe && s.bit Reg.peerCfg 0

/-- The round would reach past the start of the next peer window on the peer warp (R269). -/
def State.meetsWindow (s : State) (c : Cand) (p : Plan) : Bool :=
  let per := s.fld Reg.peerWin 16 16 * 1000
  let peer := c.kind == .peerWin || c.kind == .peerRx
  if peer || !s.peerOn || decide (per = 0) then false
  else p.warps.contains (s.fld Reg.peerCfg 10 2) && decide (per < s.now % per + State.candBound c p)

/-- Every resource of a plan is free (R24, R281): its warps, decoders and beams. -/
def State.resFree (s : State) (p : Plan) : Bool :=
  p.warps.all (fun w => (s.roundOn w).isNone) &&
  decide (p.need ≤ (p.pool.filter (fun k => !s.mgmt.decBusy.contains k)).length) &&
  decide (p.beams.length ≤ ((List.range 16).filter (fun m => (s.beam? m).isNone)).length)

end Sys2Proof.Machine
end

