-- ==== Sys2Proof/Machine/BeginOps.lean ====
section
/-! DEFINITION. What starting a round does (R24, R155, R167, R183 to R186, R281, R283), and the points of a calibration round. -/
namespace Sys2Proof.Machine

/-- An illuminator drives the transmit bus of a port's warp (R151): PORT_VALID, PORT and WARP of TXCn_STAT. -/
def State.linkTx (s : State) (n p : Nat) : State := s.setFld (Reg.txcStat n) 12 12 (2048 + p * 16 + p / 16)

/-- No port is on the bus of an illuminator. -/
def State.unlinkTx (s : State) (n : Nat) : State := s.setFld (Reg.txcStat n) 12 12 0

/-- The number of a round's warp block of counters in LEG: the warp its illuminator drives (R223). -/
def Round.legWarp (r : Round) : Nat := r.port / 16

/-! ## Beams -/

/-- A new beam. -/
def newBeam (b : BeamPlan) : Beam :=
  { warp := (b.pairs.headD (0, 0)).2 / 16, geo := b.geo, chains := b.pairs, window := false, captures := 0, secOff := false, rec_ := none, last := ⟨0, 0⟩,
    next := none, ending := false, decoding := none, heard := none, locked := false, sp := [] }

/-- The place of the seed of chain `n` for a geometry of warp `w` and a channel group (R167). -/
def seedKey (n w g c : Nat) : Nat := 8 * (32 * (4 * n + w) + g) + c

/-- The channel group of an illuminator's channel. -/
def State.chanGroup (s : State) (n : Nat) : Nat :=
  match s.region, (s.tx n).chan with | some rg, some c => regionGroup rg c | _, _ => 0

/-- The serving tap of a chain starts from its seed for the geometry and channel group (R151, R166). -/
def State.loadSeed (s : State) (n w g txc : Nat) : State :=
  s.setReg (Reg.rxcCancTap n txc) (sget (fun _ => 0) s.seedWt (seedKey n w g (s.chanGroup txc)))

/-- The gain of a chain is fixed for the transactions that follow (R178, R179): RXCn_CFG.GAIN in FIXED mode, else the one that a measured peak
selects. -/
def State.setGain (s : State) (n : Nat) (peak : Int) : State :=
  s.setFld (Reg.rxcStat n) 0 5 (if s.bit (Reg.rxcCfg n) 7 then s.fld (Reg.rxcCfg n) 0 5 else gainCode peak (s.chain n).clipped)

/-- The gain of a chain is selected from a peak that no operand brings: a free value (log entry 45). -/
def State.regain (s : State) (n : Nat) : State :=
  let (h, s) := s.drawHalf
  s.setGain n (ofTwos 16 h.toNat)

/-- The weight a chain held at the end of the last reply it combined in a geometry (R185). -/
def State.weightAt (s : State) (warp geo n : Nat) : Cx := sget (fun _ => (0, 0)) s.wts (128 * n + 32 * warp + geo)

/-- LOOM_WTn of a weight: zero for zero; the unit of its fields the spec does not give (log entry 45). -/
def weightWord (w : Cx) : Word :=
  if w = (0, 0) then 0 else wordOf ((Config.weightCode w.1).toNat * 65536 + (Config.weightCode w.2).toNat)

/-- The chains of a beam listen on their ports with the weights they last had in its geometry (R185) and, under an illuminator, its seeds (R151). -/
def State.listenBeam (s : State) (warp m : Nat) (txc : Option Nat) : State :=
  match s.beam? m with
  | none => s
  | some b => b.chains.foldl (fun (s : State) e =>
      let s := ((s.showChain e.1 e.2).showBus e.1 e.2).setReg (Reg.loomWt e.1) (weightWord (s.weightAt warp b.geo e.1))
      match txc with | some n => s.loadSeed e.1 warp b.geo n | none => s) s

/-- The chains of a beam listen on no port. -/
def State.deafBeam (s : State) (m : Nat) : State :=
  match s.beam? m with
  | none => s
  | some b => b.chains.foldl (fun (s : State) e => s.deafPort e.2) s

/-- One beam is formed on beam `m` and routed to a decoder of R419 (R183, R186): LOOM_BEAMm and the decoder's status show it. The clipping of
an earlier round is forgotten (R181). -/
def State.formBeam (s : State) (proto m dec : Nat) (b : BeamPlan) : State :=
  let chains := b.pairs.foldl (fun a e => a + 2 ^ e.1) 0
  let idx := if dec < 8 then dec else if dec < 12 then dec - 8 else 0
  let s : State := { s with beams := s.beams.set m (some (newBeam b)) }
  let s := b.pairs.foldl (fun (s : State) e => s.updChain e.1 (fun c => { c with clipped := false })) s
  let s := s.setReg (Reg.loomBeam m) (wordOf (2 ^ 31 + proto * 2 ^ 28 + idx * 2 ^ 24 + chains))
  if dec < 8 then (s.setBit (Reg.legLdStat dec) 31 true).setFld (Reg.legLdStat dec) 24 4 m
  else if dec < 12 then
    let u := Reg.umaUeStat (dec - 8)
    (s.setBit u 31 true).setFld u 24 3 (s.fld u 24 3 + 1)
  else s

/-- The beams and decoders of a plan are reserved (R24): the lowest-numbered free ones. Answers the beams and decoders taken. -/
def State.reserveBeams (s : State) (proto : Nat) (p : Plan) : List Nat × List Nat × State :=
  let decs := (p.pool.filter (fun k => !s.mgmt.decBusy.contains k)).take p.need
  let ms := ((List.range 16).filter (fun m => (s.beam? m).isNone)).take p.beams.length
  let s : State := { s with mgmt := { s.mgmt with decBusy := s.mgmt.decBusy ++ decs } }
  let s := (List.range p.beams.length).foldl (fun (s : State) k =>
    s.formBeam proto (ms.getD k 0) (decs.getD (p.decOf.getD k 0) 0) (p.beams.getD k ⟨0, false, []⟩)) s
  (ms, decs, s)

/-! ## Rounds -/

/-- A round of a candidate before it holds anything. -/
def newRound (s : State) (c : Cand) (p : Plan) (seq : Nat) : Round :=
  { kind := c.kind, seq := seq, entry := c.entry, words := p.words, warp := c.warp, warps := p.warps, txc := p.txc, port := 0, geos := [],
    chan := 0, start := s.now, began := s.up, upAt := none, phase := .starting, noNew := false, status := none, draining := false, txn := none, commitAt := none, trans := 0, reported := 0,
    coalesced := 0, dropped := 0, skipped := p.skipped, fifoReset := false, beams := [], decs := [], leg := none, uma := none, sent := [],
    points := [], failed := false, verdict := none, owed := [], ports := [], accData := [], raw := [], link := [], hopDue := false }

/-- A candidate is no longer one. -/
def State.dropCand (s : State) (c : Cand) : State := { s with cands := s.cands.erase c }

/-- The number of a round (R283): that of its RUN, a new one of the scheduler for an entry that fell due, none for the others. -/
def State.roundSeq (s : State) (c : Cand) : Nat × State :=
  if c.kind.internal then (0, s)
  else if c.due then
    let (n, s) := s.assign true
    (n, { s with cmds := s.cmds ++ [{ seq := n, res := none, kind := .entry c.entry, cell := none }] })
  else (c.seq, s)

/-- A round joins those in flight. -/
def State.addRound (s : State) (r : Round) : State := { s with rounds := s.rounds ++ [r] }

/-- The level a calibration round radiates at: +10 dBm (R167). -/
def calLevel : Nat := 40

/-- The centre channel of a group (R167): its middle entry, the later one of two (DESIGN CHOICE, log entry 23). -/
def groupCentre (r : RegionProfile) (c : Nat) : Nat :=
  let g := r.groups.getD c []
  g.getD (g.length / 2) 0

/-- The first point of a calibration round that can be run is set up (R167, R171): its illuminator tunes to the centre channel of its group unless the
round has tuned it there, or to `on` after the guard (R164), and its switches close. One that the round has used before leaves its channel. A round
with no such point left ends. -/
def State.nextPoint (s : State) (r : Round) (on : Option Nat) : State :=
  let runs := fun (e : Nat × Nat) => match s.geo? r.warp e.1 with | none => false | some g => s.txcUp g.txc && s.geoCal g
  let pts := r.points.dropWhile (fun e => !runs e)
  let s := s.updRound r.warp (fun r => { r with points := pts, failed := r.failed && r.points.head? == pts.head? })
  match pts, s.region with
  | (g, c) :: _, some rg =>
    (match s.geo? r.warp g with
     | none => s.roundEnd r
     | some x =>
       let s : State := match r.txc with | some m => if m = x.txc then s else s.leaveChan m | none => s
       let s := s.updRound r.warp (fun r => { r with txc := some x.txc, port := x.port })
       let s := s.linkTx x.txc x.port
       let s := (s.calPairs x).foldl (fun (s : State) e => (s.listenCal e.1 e.2).showBus e.1 e.2) s
       match on with
       | some ch => s.retune x.txc ch calLevel
       | none =>
         if (s.tx x.txc).chan = some (groupCentre rg c) then ((s.setRamp x.txc 4).loseAnt).upOrWait x.txc
         else s.retune x.txc (groupCentre rg c) calLevel)
  | _, _ => match s.roundOn r.warp with | some r => s.roundEnd r | none => s

/-- A calibration round starts (R167). -/
def State.startCal (s : State) (c : Cand) (p : Plan) : State :=
  let ch := match s.region, c.points with | some rg, (_, g) :: _ => regionKhz rg (groupCentre rg g) | _, _ => 0
  let r := { newRound s c p 0 with points := c.points, owed := c.points, phase := .running, chan := ch }
  (s.addRound r).nextPoint r none

/-- A ping round or a sweep of a CAL starts (R354, R358): no illuminator, every warp; PING_THR holds from its start (R352). -/
def State.startPing (s : State) (c : Cand) (p : Plan) : State :=
  let (seq, s) := s.roundSeq c
  let ports := match c.kind with
    | .pingCal => (match s.ping.cal with | none => [] | some k => k.ports)
    | _ => pingEntryPorts p.words
  let r := { newRound s c p seq with phase := .running, ports := ports.filter (fun q => !s.portOos q), chan := s.fld Reg.pingRf 0 20 }
  let s : State := { s with ping := { s.ping with thr := s.reg Reg.pingThr, sweep := none } }
  let s := if c.kind == RoundKind.ping then s.cnt (Reg.schedCnt 0) else s
  s.addRound r

/-- A peer window or receive period starts (R269, R270): its illuminator (`peerPlan`) tunes to the peer channel with its PA off. A
window without a geometry has no transmit port. -/
def State.startPeer (s : State) (c : Cand) (p : Plan) : State :=
  let (ms, decs, s) := s.reserveBeams 3 p
  let ch := s.fld Reg.peerCfg 4 6
  let khz := match s.region with | none => 0 | some rg => regionKhz rg ch
  let n := p.txc.getD 0
  let port := match p.geos with | g :: _ => g.port | [] => 0
  let r := { newRound s c p 0 with phase := .running, port := port, geos := p.geos.map (fun g => g.idx), chan := khz, beams := ms, decs := decs }
  let s := s.addRound r
  let s := ms.foldl (fun (s : State) m => s.listenBeam c.warp m none) s
  let s := (p.beams.flatMap (fun b => b.pairs)).foldl (fun (s : State) e => s.regain e.1) s
  let s : State := { s with peer := { s.peer with windows := s.peer.windows + cond (c.kind == .peerWin) 1 0,
                                                  slot := if c.kind == RoundKind.peerWin then some 0 else s.peer.slot } }
  let level := match s.draft with | none => 0 | some d => min 60 d.peerLevel
  (if p.geos.isEmpty then s else s.linkTx n port).retune n ch level

/-- An inventory, access or poll round starts (R183, R209, R278, R282, R283): its resources are reserved, the data of a write and a raw frame
are copied, and its illuminator tunes to its channel. -/
def State.startRf (s : State) (c : Cand) (p : Plan) : State :=
  let (seq, s) := s.roundSeq c
  let n := p.txc.getD 0
  let (ms, decs, s) := s.reserveBeams (if eProto p.words = 0 then 1 else 2) p
  let (ch, s) := s.pickChan n true none
  let khz := match s.region with | none => 0 | some rg => regionKhz rg ch
  let port := match p.geos with | g :: _ => g.port | [] => 0
  let off := ew p.words 10 24 8
  let acc := (List.range (accWords p.words)).map (fun k => s.reg (Reg.schedAccdata (off + k)))
  let raw := (List.range 8).map (fun k => s.reg (Reg.legRaw k)) ++ [s.reg Reg.legRawCtrl]
  let k := eLink p.words
  -- a round whose HOPMODE is 0b00 holds its channel (R282)
  let due := eHop p.words == 1 && match s.region with | some rg => !rg.spread && s.rounds.any (fun r => r.hopDue && r.phase != .ending) | none => false
  let link := if eProto p.words = 2 then [s.reg (Reg.umaLink k)] else [s.reg (Reg.legLinkA k), s.reg (Reg.legLinkB k)]
  let r := { newRound s c p seq with port := port, geos := p.geos.map (fun g => g.idx), chan := khz, beams := ms, decs := decs, accData := acc,
                                     raw := raw, link := link, hopDue := due }
  let s := (s.addRound r).cnt (Reg.schedCnt 0)
  let s := (s.linkTx n port).retune n ch (levelCode p.words)
  (ms.filter (fun m => match s.beam? m with | none => false | some b => r.geos.head? == some b.geo)).foldl
    (fun (s : State) m => s.listenBeam r.warp m (some n)) s

/-- A candidate that fails its checks, or is shed, completes at once (R279, R299). -/
def State.failCand (s : State) (c : Cand) (p : Plan) (st : Status) : State :=
  let s := s.dropCand c
  let (seq, s) := s.roundSeq c
  s.roundAtOnce { c with seq := seq, warp := eWarp p.words } p.words st p.skipped

/-- The bits of the raw frame of a round: LEN of them from bit 31 of LEG_RAW0 (R209). -/
def Round.rawBits (r : Round) : List Bool :=
  ((List.range 8).flatMap (fun k => bitsHigh 32 (r.raw.getD k 0).toNat)).take (fieldN (r.raw.getD 8 0) 0 9)

/-- Nothing may be transmitted for a raw frame (R210): 1 when LEN lies outside 1 to 256, 2 when it begins with the Untraceable code
0xE200 (PRESUMED from the standard, log entry 24). R210 names LEN = 0 alone; that 257 to 511, more bits than LEG_RAW0 to LEG_RAW7 hold, are
refused too is the model's choice (DESIGN CHOICE, log entry 24). -/
def rawRefused (bits : List Bool) (len : Nat) : Nat :=
  if len = 0 ∨ 256 < len then 1 else if (bitsHigh 16 0xE200).isPrefixOf bits then 2 else 0

/-- A RAW operation that R210 refuses completes at once (R209, R210): TAG_DATA with REFUSED and a ROUND_END, with no RF. -/
def State.refuseRaw (s : State) (c : Cand) (p : Plan) (why : Nat) : State :=
  let s := s.dropCand c
  let (seq, s) := s.roundSeq c
  let s := if why = 2 then s.setBit Reg.legStat 1 true else s
  let r := newRound s c p seq
  let s := s.queueWarp (eWarp p.words) (s.tagDataRec { r with warp := eWarp p.words } .refused 0xFF 0xFFF 0 [])
  let s := s.cnt (Reg.legCnt (match p.geos with | g :: _ => g.port / 16 | [] => 0) 9)
  s.roundAtOnce { c with seq := seq, warp := eWarp p.words } p.words .ok p.skipped

/-- A candidate whose resources are free starts, is shed, or completes at once under R279. -/
def State.startCand (s : State) (c : Cand) (p : Plan) : State :=
  let w := if c.kind.internal then c.warp else eWarp p.words
  let go := { c with warp := w }
  let prio := ePrio p.words
  match p.status with
  | some st => s.failCand c p st
  | none =>
    match c.kind with
    | .cal => (s.dropCand c).startCal go p
    | .pingCal => (s.dropCand c).startPing go p
    | .peerWin => (s.dropCand c).startPeer go p
    | .peerRx => (s.dropCand c).startPeer go p
    | k =>
      if prio ≠ 0 ∧ s.shed ≤ prio then (s.cnt (Reg.schedCnt 1)).failCand c p .overload
      else if k = .ping then (s.dropCand c).startPing go p
      else
        let raw := { newRound s go p 0 with raw := (List.range 8).map (fun k => s.reg (Reg.legRaw k)) ++ [s.reg Reg.legRawCtrl] }
        let why := if k = .access ∧ eProto p.words = 0 ∧ eOp p.words = 6 then rawRefused raw.rawBits (s.fld Reg.legRawCtrl 0 9) else 0
        if why ≠ 0 then s.refuseRaw go p why else (s.dropCand c).startRf go p

/-- What a candidate of an entry is (R278): a rejected KIND is settled by R279. -/
def kindOf (words : List Word) : RoundKind :=
  match eKind words with | 2 => .access | 3 => .poll | 4 => .ping | _ => .inventory

/-- The scheduler may start rounds: the module is in ACTIVE, no switch is under way, and the lands are not held in EXTEST (R45, R98, R435). -/
def State.mayStart (s : State) : Bool :=
  s.phase == .active && s.coreOn && !s.upd.switching && s.tap != .extest && s.resets.isEmpty

/-- Rounds whose entry was due do not start while RUN is clear, and an entry no longer VALID has none (R278, R288). -/
def State.sweepCands (s : State) : State :=
  { s with cands := s.cands.filter (fun c => c.kind.internal || !c.due || ew (s.entryWords c.entry) 0 31 1 == 1) }

/-- The first candidate of a warp starts if it can (R24, R269, R281): every warp and resource it needs is free, and it comes first on each of
its warps. -/
def State.tryStart (s : State) (w : Nat) : State :=
  if !s.mayStart then s
  else
    let s := s.sweepCands
    match s.firstCand w with
    | none => s
    | some (c, p) =>
      let first := p.warps.all (fun v => match s.firstCand v with | none => true | some x => x.1 == c)
      if first && s.resFree p && !s.meetsWindow c p then (s.startCand c p).dropAnt else s

end Sys2Proof.Machine
end

