-- ==== Sys2Proof/Machine/EngineOps.lean ====
section
/-! DEFINITION. What both singulation engines share: the beams in use, sending commands, commit points, transaction boundaries with their hops and
geometry changes (R151, R160, R163, R275, R284). -/
namespace Sys2Proof.Machine

/-- A field of word A of the round's legacy link profile. -/
def Round.la (r : Round) (lo n : Nat) : Nat := fieldN (r.link.getD 0 0) lo n
/-- A field of word B. -/
def Round.lb (r : Round) (lo n : Nat) : Nat := fieldN (r.link.getD 1 0) lo n
/-- The round reads class U0: its legacy profile has PROTO = 1 (R220). -/
def Round.isU0 (r : Round) : Bool := eProto r.words != 2 && r.la 30 1 == 1

/-- The beams of the geometry a round uses now. -/
def State.liveBeams (s : State) (r : Round) : List Nat :=
  r.beams.filter (fun m => match s.beam? m with | none => false | some b => r.geos.head? == some b.geo)

/-- The beams in use with what they hold. -/
def State.liveBeamList (s : State) (r : Round) : List (Nat × Beam) :=
  (s.liveBeams r).filterMap (fun m => (s.beam? m).map (fun b => (m, b)))

/-- Every reply window of a round is closed and nothing received is still in a decoder or at the CRC and alive unit. -/
def State.roundQuiet (s : State) (r : Round) : Bool :=
  (s.liveBeamList r).all (fun e => !e.2.window && e.2.rec_.isNone && e.2.next.isNone && e.2.decoding.isNone) &&
  s.crcQ.all (fun j => !r.beams.contains j.beam)

/-- The engine sends commands (R208, R251): what the beams heard before is forgotten, and a transaction is in
flight; the mode is that of the profile (R156), DSB-ASK for class U0 (R220). -/
def State.sendAir (s : State) (w : Nat) (cmds : List Air) : State :=
  match s.roundOn w with
  | none => s
  | some r =>
    let s := (s.liveBeams r).foldl (fun (s : State) m => s.updBeam m (fun b =>
      { b with heard := none, locked := false, captures := 0, secOff := false })) s
    let s := match r.txc with | some n => s.setMode n (if r.isU0 then 2 else 2 + fieldN (r.link.getD 0 0) 23 1) | none => s
    s.updRound w (fun r => { r with sent := cmds, txn := some (r.txn.getD false) })

/-- The round's illuminator modulates: a command is still on air (R156). -/
def State.onAir (s : State) (r : Round) : Bool := match r.txc with | some n => decide (2 ≤ s.fld (Reg.txcStat n) 8 3) | none => false

/-- The command on air has ended: the carrier is CW (R156). -/
def State.airOver (s : State) (r : Round) : State := match r.txc with | some n => if s.ramp n = 2 then s.setMode n 1 else s | none => s

/-- The decision cell of a command takes COMMITTED if it is undecided (R285). -/
def State.commitCell (s : State) (seq : Nat) : State :=
  { s with cmds := s.cmds.map (fun c => if c.seq = seq ∧ c.cell = none then { c with cell := some true } else c) }

/-- The transaction in flight passes its commit point (R284); `whole` when it is that of the round's command too. -/
def State.commitTxn (s : State) (w : Nat) (whole : Bool) : State :=
  match s.roundOn w with
  | none => s
  | some r =>
    let s := s.updRound w (fun r => { r with txn := r.txn.map (fun _ => true), commitAt := if r.txn = some true then r.commitAt else some s.now })
    if whole then s.commitCell r.seq else s

/-! ## Geometries (R151) -/

/-- The round goes on in its next geometry (R151): its chains listen there; another transmit port needs a ramp-down, which is asked for. -/
def State.changeGeo (s : State) (w : Nat) : State :=
  match s.roundOn w with
  | none => s
  | some r =>
    match r.geos with
    | g :: h :: t =>
      let s := (s.liveBeams r).foldl State.deafBeam s
      let s := s.updRound w (fun r => { r with geos := h :: t ++ [g] })
      let s := match s.roundOn w with | none => s | some r => (s.liveBeams r).foldl (fun (s : State) m => s.listenBeam r.warp m r.txc) s
      (match s.geo? r.warp h, r.txc with
       | some x, some n => if x.port = r.port then s
                           else (s.updRound w (fun r => { r with port := x.port })).rampDown n false .change
       | _, _ => s)
    | _ => s

/-! ## Hops at transaction boundaries (R163, R275) -/

/-- A round of the schedule is on air with illuminator `k`: an inventory, access or poll round that does not end. -/
def State.serving (s : State) (k : Nat) : Bool :=
  !s.txIdle k && (match s.roundOfTxc k with
    | some r => (r.kind == .inventory || r.kind == .access || r.kind == .poll) && r.phase != .ending
    | none => false)

/-- The illuminators of the rounds that hop together (R163): under COCHANNEL all that serve, else one. -/
def State.hopSet (s : State) (n : Nat) : List Nat :=
  match s.region with
  | some rg => if rg.spread then [n] else (List.range 4).filter (fun k => k == n || s.serving k)
  | none => [n]

/-- A round stands at a boundary with a hop due, the start of the round being one. -/
def Round.atHop (r : Round) : Bool := r.hopDue && r.txn.isNone && r.phase != .ending

/-- Illuminators hop (R163): one channel is taken for all of them, and each ramps down. -/
def State.hopAll (s : State) (ns : List Nat) : State :=
  match ns with
  | [] => s
  | n :: _ =>
    let (ch, s) := s.pickChan n false none
    let s := ns.foldl (fun (s : State) k => s.rampDown k false (.hop ch)) s
    { s with rounds := s.rounds.map (fun r => match r.txc with
        | some k => if ns.contains k then { r with hopDue := false } else r
        | none => r) }

/-- A round that stands at a boundary with a hop due hops, once every illuminator that hops with it stands at one (R163); until then it
holds its carrier. -/
def State.hopIfTogether (s : State) (n : Nat) : State :=
  let ns := s.hopSet n
  if ns.all (fun k => match s.roundOfTxc k with | some r => r.atHop | none => false) then s.hopAll ns else s

/-- A free value decides whether the round goes on in its next geometry at this boundary: the spec does not say when it does (log entry 23). -/
def State.maybeChange (s : State) (w : Nat) : State :=
  match s.roundOn w with
  | none => s
  | some r => if r.geos.length < 2 then s
              else let (b, s) := s.drawBool
                   if b then s.changeGeo w else s

/-- The chains in use select their gain for the next transaction (R179). -/
def State.regainRound (s : State) (w : Nat) : State :=
  match s.roundOn w with
  | none => s
  | some r => ((s.liveBeamList r).flatMap (fun e => e.2.chains)).foldl (fun (s : State) e => s.regain e.1) s

/-- A transaction is over (R282, R284): chains that leave do so, then the round ends, hops, changes its geometry, or `go` begins its next
transaction with the carrier still up. -/
def State.boundary (s : State) (w : Nat) (go : State → State) : State :=
  let s := s.updRound w (fun r => { r with trans := r.trans + 1 })
  let s := match s.roundOn w with | none => s | some r => (s.dropLeavers r).settleOuts
  s.txnOver w (fun s =>
    match s.roundOn w with
    | none => s
    | some r =>
      match r.txc with
      | none => go s
      | some n =>
        if r.hopDue then s.hopIfTogether n
        else
          let s := s.maybeChange w
          if s.ramp n = 2 then go (s.regainRound w) else s)

/-- A round ends by its own rule, with status OK (R211, R257, R291). -/
def State.endByRule (s : State) (w : Nat) : State :=
  let s := s.updRound w (fun r => { r with txn := none, noNew := true, trans := r.trans + 1 })
  match s.roundOn w with | none => s | some r => s.downRound r false

end Sys2Proof.Machine
end

