-- ==== Sys2Proof/Machine/RampOps.lean ====
section
/-! DEFINITION. What follows a ramp-down (08_rf_ports_and_illuminators.md R155 to R164): carriers that wait, hops that wait for one another,
calibration points given up, and the transaction that a lost carrier cuts. -/
namespace Sys2Proof.Machine

/-- The first ramp-up of a round has begun (R311). -/
def State.noteUp (s : State) (n : Nat) : State :=
  if s.ramp n ≠ 1 then s
  else match s.roundOfTxc n with
    | none => s
    | some r => s.updRound r.warp (fun r => { r with upAt := some (r.upAt.getD s.up) })

/-- Illuminators that wait with the carrier off ramp up if they now may (R163, R164). -/
def State.wakeWaiting (s : State) : State :=
  (List.range 4).foldl (fun (s : State) n => if (s.tx n).waiting && s.ramp n == 4 then (s.upOrWait n).noteUp n else s) s

/-- Rounds that wait for a hop of the others make it if they now all can (R163), and carriers that wait for others come up. -/
def State.recheckHops (s : State) : State :=
  ((List.range 4).foldl (fun (s : State) n => match s.roundOfTxc n with
    | some r => if r.hopDue && s.serving n then s.hopIfTogether n else s
    | none => s) s).wakeWaiting

/-- A run of the first point of a calibration round has failed (R167): it is repeated once, or is unusable. -/
def State.pointFailed (s : State) (r : Round) : State :=
  match r.points with
  | [] => s
  | (g, c) :: _ =>
    let pt := (r.warp, g, c)
    if r.failed then
      let s : State := { s with unusable := if s.unusable.contains pt then s.unusable else s.unusable ++ [pt] }
      let s := if s.halfRuns then s.logEvent 8 3 (s.reg Reg.sysDraftStat) else s
      s.updRound r.warp (fun r => { r with points := r.points.drop 1, failed := false })
    else s.updRound r.warp (fun r => { r with failed := true })

/-- A calibration point under way is given up (R164, R177): it counts as failed once, when its carrier is down. -/
def State.cutPoint (s : State) (r : Round) : State := s.updRound r.warp (fun r => { r with verdict := some false })

/-- The ramp-down of a calibration point has ended (R167): its switches open, and the point counts as it came out. A point that has passed is
done; one whose carrier never came up has not run. -/
def State.pointOver (s : State) (r : Round) : State :=
  let s := (s.closePoint r).updRound r.warp (fun r => { r with verdict := none })
  match r.verdict, r.points with
  | some true, (g, c) :: _ =>
    let pt := (r.warp, g, c)
    ({ s with seeds := if s.seeds.contains pt then s.seeds else s.seeds ++ [pt], unusable := s.unusable.filter (fun e => e != pt) } : State).updRound r.warp
      (fun r => { r with points := r.points.drop 1, failed := false })
  | some false, _ => s.pointFailed r
  | _, _ => s

/-- The transaction in flight ends with TIMEOUT (R155, R164): an access operation reports it, and chains that leave do so (R196). -/
def State.txnTimeout (s : State) (r : Round) : State :=
  let s := s.quietBeams r
  let acc := r.kind == .access && r.txn.isSome
  let l := match r.leg with | some l => acc && l.phase != .done | none => false
  let u := match r.uma with | some u => acc && u.phase != .done | none => false
  let s := if l || u then
      let words := match r.leg with | some l => l.words | none => 0
      (if l then s.cnt (Reg.legCnt r.legWarp 9) else s).queueWarp r.warp (s.tagDataRec r .timeout 0xFF r.accIndex words r.legBytes)
    else s
  let lg : Option Leg := if l then r.leg.map (fun l => { l with phase := .done }) else r.leg
  let um : Option Uma := if u then r.uma.map (fun u => { u with phase := .done }) else r.uma
  let ran := cond r.txn.isSome 1 0
  let s := s.updRound r.warp (fun r => { r with txn := none, trans := r.trans + ran, leg := lg, uma := um })
  match s.roundOn r.warp with | none => s | some r => (s.dropLeavers r).settleOuts

/-- The level of a round (R156, R157, R167): a calibration's, a peer round's of at most 20 dBm, or the entry's. -/
def State.roundLevel (s : State) (r : Round) : Nat :=
  match r.kind with
  | .cal => calLevel
  | .peerWin | .peerRx => (match s.draft with | none => 0 | some d => min 60 d.peerLevel)
  | _ => levelCode r.words

/-- A calibration round goes on with its next point, or with the one under way again (R167). -/
def State.pointNext (s : State) (n : Nat) (r : Round) (on : Option Nat) : State :=
  let s := ((s.setRamp n 0).unlinkTx n).pointOver r
  match s.roundOn r.warp with | some r => s.nextPoint r on | none => s

/-- The illuminator of a round drives the bus of its transmit port (R151); a peer window without a geometry has none (R269). -/
def State.linkRound (s : State) (n : Nat) (r : Round) : State := if r.geos.isEmpty then s else s.linkTx n r.port

/-- A carrier that a ramp-down has taken to zero, or whose ramp-up was cancelled, goes on to what was asked for (R155, R158, R159). A hop to the
channel it is on leaves that channel all the same (R164). A carrier comes up again only where it clashes with none (R163). In a peer round the port stays linked between frames (R269), and the synthesiser takes the
steering (R248). -/
def State.afterDown (s : State) (n : Nat) : State :=
  let s := (s.setMode n 0).updTx n (fun t => { t with steer := s.peer.steer })
  match (s.tx n).after, s.roundOfTxc n with
  | .off, r => if r.any (fun r => r.kind.peer) then s.setRamp n 0 else (s.setRamp n 0).setBit (Reg.txcStat n) 23 false
  | .relock _ _, _ => s.setRamp n 4
  | .hop ch, some r =>
    let s := s.cnt (Reg.txcCntHop n)
    let s := s.leaveChan n
    if r.kind == RoundKind.cal then s.pointNext n r (some ch)
    else (s.linkRound n r).retune n ch (s.roundLevel r)
  | .endRound, some r => s.roundEnd r
  | .change, some r =>
    if r.kind == RoundKind.cal then s.pointNext n r none
    else (((s.linkRound n r).setRamp n 4).upOrWait n).noteUp n
  | _, none => ((s.setRamp n 0).setBit (Reg.txcStat n) 23 false).leaveChan n

end Sys2Proof.Machine
end

