-- ==== Sys2Proof/Machine/Faults.lean ====
section
/-! DEFINITION. Faults that the module detects: temperatures (R64), ports (R58, R170), synthesisers (R155), amplifiers (R161) and receive
chains (R197). -/
namespace Sys2Proof.Machine

/-- A FAULT packet and event-log entry of a thermal action: sensor, CODE and the temperature (R64, R313, R415). -/
def State.thermEvent (s : State) (k code : Nat) (temp : BitVec 16) : State :=
  (s.raise 7).faultEvent 4 k code (wordOf (ofTwos 16 temp.toNat % 2 ^ 32).toNat)

/-- A list with an element in it once. -/
def withNat (l : List Nat) (k : Nat) : List Nat := if l.contains k then l else l ++ [k]

/-- THERMAL_WARNING (R64): a sensor rises through 115 degrees. -/
def execThermalWarning (sensor : Fin 8) (temp : BitVec 16) (s : State) : Host.Outcome State Fault Refusal :=
  let k := sensor.val
  if !s.coreOn || s.hot.contains k then .next s
  else .next (({ s with hot := withNat s.hot k } : State).thermEvent k 1 temp)

/-- PA_OVERTEMP (R64): the PA of an illuminator rises through 135 degrees; it ramps down and goes out of service. One that the draft does not use is
unpowered and unaffected. -/
def execPaOvertemp (n : Fin 4) (temp : BitVec 16) (s : State) : Host.Outcome State Fault Refusal :=
  let k := 4 + n.val
  if !s.coreOn || !s.txcUsed n.val || s.hotOut.contains k then .next s
  else
    let s := ({ s with hot := withNat s.hot k, hotOut := withNat s.hotOut k } : State)
    .next ((s.thermEvent k 2 temp).txcFail n.val 2 false)

/-- DIE_OVERTEMP (R64): a main-die site rises through 135 degrees; every illuminator that the draft uses goes out of service. -/
def execDieOvertemp (site : Fin 4) (temp : BitVec 16) (s : State) : Host.Outcome State Fault Refusal :=
  let k := site.val
  if !s.coreOn || s.hotOut.contains k then .next s
  else
    let s := ({ s with hot := withNat s.hot k, hotOut := withNat s.hotOut k } : State)
    let s := s.thermEvent k 3 temp
    .next (((List.range 4).filter s.txcUsed).foldl (fun (s : State) n => s.txcFail n 2 false) s)

/-- THERM (R64, R79, R81, R145): a main-die site rises through 145 degrees; the main die resets, also from IDLE, and a reset that is held records
the cause as well. In DOZE and DORMANT the core is unpowered. -/
def execTherm (site : Fin 4) (_temp : BitVec 16) (s : State) : Host.Outcome State Fault Refusal :=
  let k := site.val
  if s.asleep then .next s
  else
    let s := ({ s with hot := withNat s.hot k, hotOut := withNat s.hotOut k } : State)
    .next ((s.raise 7).triggerReset .therm)

/-- THERMAL_FALL (R64): a sensor falls below a threshold less the hysteresis: 125 degrees after it crossed 135, 105 degrees after it
crossed 115. The temperature tells how far. -/
def execThermalFall (sensor : Fin 8) (temp : BitVec 16) (s : State) : Host.Outcome State Fault Refusal :=
  let k := sensor.val
  let t := ofTwos 16 temp.toNat
  let out := s.hotOut.contains k && decide (t < 1250)
  let warn := s.hot.contains k && decide (t < 1050)
  let s : State := { s with hotRead := if t < 1250 then s.hotRead.filter (fun x => x != k) else s.hotRead }
  if !out && !warn then .next s
  else
    let s : State := { s with hotOut := if out then s.hotOut.filter (fun x => x != k) else s.hotOut,
                              hot := if warn then s.hot.filter (fun x => x != k) else s.hot }
    .next (if s.coreOn then s.thermEvent k 4 temp else s)

/-- PORT_FAULT (R58, R170, R171): a sample shows a fault class on a port that was Intact. -/
def execPortFault (p : Fin 64) (obs : PortObs) (s : State) : Host.Outcome State Fault Refusal :=
  let p := p.val
  if !s.portNamed p || s.portClass p != 1 then .next s
  else
    match faultClass (s.portCarries p) obs with
    | none => .next s
    | some c =>
      let s := (s.portFaulted p c).portRounds p
      .next s.settleOuts

/-- PORT_INTACT (R58, R170): the port has measured Intact for 10 ms; it stays out of service. -/
def execPortIntact (p : Fin 64) (s : State) : Host.Outcome State Fault Refusal :=
  let p := p.val
  .next (if s.portNamed p && decide (2 ≤ s.portClass p) then s.reportClass p 1 else s)

/-- LOSS_OF_LOCK (R155): with the carrier on, a fast ramp-down starts and up to three relock attempts follow. A calibration point under way,
its ramp-down included, counts as failed once (R177). -/
def execLossOfLock (n : Fin 4) (s : State) : Host.Outcome State Fault Refusal :=
  let n := n.val
  if !s.txOn n then .next s
  else match s.roundOfTxc n with
    | some r =>
      if r.kind == RoundKind.cal then .next ((s.cutPoint r).rampDown n true (.relock 0 .change))
      else .next (s.rampDown n true (.relock 0 .same))
    | none => .next (s.rampDown n true (.relock 0 .same))

/-- A relock attempt has settled (R155): the transaction in flight ends with TIMEOUT, or keeps its result in a round already stopped, and the
round goes on with what its ramp-down was for, or with a ramp-up; in a peer round the PA stays off until the next own slot. -/
def State.relocked (s : State) (n : Nat) (next : Relocked) : State :=
  let s := s.updTx n (fun t => { t with after := match next with | .same => .off | .change => .change | .hop ch => .hop ch })
  match s.roundOfTxc n with
  | none => s.afterDown n
  | some r =>
    let s := if r.status.isSome then s.keepResult r else s.txnTimeout r
    if r.status.isSome || r.noNew then s.downRound r false
    else if r.kind.peer then s.setRamp n 0
    else match next with
      | .same => (s.upOrWait n).noteUp n
      | _ => s.afterDown n

/-- RELOCK_ATTEMPT_END (R155): after the third failure the illuminator goes out of service. -/
def execRelockAttemptEnd (n : Fin 4) (ok : Bool) (s : State) : Host.Outcome State Fault Refusal :=
  let n := n.val
  match (s.tx n).after with
  | .relock k next =>
    if s.ramp n ≠ 4 ∨ (s.tx n).cancelUp then .next s
    else if ok then .next (s.relocked n next).recheckHops
    else if k + 1 ≥ 3 then .next ((s.setRamp n 0).txcFail n 4 true).recheckHops
    else .next (s.updTx n (fun t => { t with after := .relock (k + 1) next }))
  | _ => .next s

/-- PA_FAULT (R161): the forward power has deviated for 100 us on a port that is not in class Overpower. -/
def execPaFault (n : Fin 4) (s : State) : Host.Outcome State Fault Refusal :=
  let n := n.val
  if s.ramp n ≠ 2 ∨ s.portClass (s.fld (Reg.txcStat n) 16 6) = 5 then .next s else .next (s.txcFail n 3 true)

/-- CANC_SAT (R197): a tap weight has been at its limit for 10 ms, and SAT shows it. -/
def execCancSat (n : Fin 16) (s : State) : Host.Outcome State Fault Refusal :=
  let n := n.val
  if !s.chainIn n then .next s
  else .next ((s.chainFail n 4).setBit (Reg.rxcCancStat n) 30 true)

/-- ADC_FAIL (R197): the ADC clock of a chain has stopped, or its self-check failed. -/
def execAdcFail (n : Fin 16) (s : State) : Host.Outcome State Fault Refusal :=
  let n := n.val
  if (s.chain n).svc = .off ∨ (s.chain n).svc = .out then .next s else .next (s.chainFail n 3)

end Sys2Proof.Machine
end

