-- ==== Sys2Proof/Machine/LegOps.lean ====
section
/-! DEFINITION. The legacy singulation engine (10_legacy_air_interface.md R208 to R223): slots, splits and access operations. -/
namespace Sys2Proof.Machine

/-! ## The profile of a round (R200) -/

/-- C, in sixteenths of Q (PRESUMED, log entry 46). -/
def Round.qStep (r : Round) : Nat := r.lb 20 4

/-- A legacy counter of the warp that the round's illuminator drives (R223). -/
def State.legCount (s : State) (r : Round) (k : Nat) : State := s.cnt (Reg.legCnt r.legWarp k)

/-- The Selects of the schedule entry (R211). -/
def selectsOf (w : List Word) : List Air :=
  if ew w 5 31 1 = 0 then []
  else [.select (ew w 5 23 2) (ew w 5 0 16)
          (((List.range 3).flatMap (fun k => bitsHigh 32 (w.getD (6 + k) 0).toNat)).take (ew w 5 16 7)) (ew w 5 28 3) (ew w 5 25 3)]

/-- The Query of a round (R208), or the SCAN of a U0 round (R222). -/
def Round.query (r : Round) (q : Nat) : Air :=
  if r.isU0 then .scan q else .query q (r.lb 6 2) (r.lb 4 2) (r.lb 3 1 == 1) (r.la 22 1 == 1) (r.la 20 2) (r.la 19 1 == 1)

/-- The Query of a split or an access: Q 0 and Sel SL, with the round's Session and Target (R213, R216). -/
def Round.querySL (r : Round) : Air :=
  if r.isU0 then .scan 0 else .query 0 3 (r.lb 4 2) (r.lb 3 1 == 1) (r.la 22 1 == 1) (r.la 20 2) (r.la 19 1 == 1)

/-- A Select on MemBank EPC with Target SL and Action 0b000 (R213, R216). -/
def selectSL (ptr : Nat) (mask : List Bool) : Air := .select 1 ptr mask 4 0

/-- Commands are sent, and those that begin a slot counted (R223). -/
def State.legSend (s : State) (w : Nat) (cmds : List Air) : State :=
  let q := (cmds.filter (fun a => match a with | .query _ _ _ _ _ _ _ => true | .scan _ => true | _ => false)).length
  let s := match s.roundOn w with | none => s | some r => s.addCnt (Reg.legCnt r.legWarp 0) q
  s.sendAir w cmds

/-- The legacy engine of the round on a warp changes. -/
def State.updLeg (s : State) (w : Nat) (f : Leg → Leg) : State := s.updRound w (fun r => { r with leg := r.leg.map f })

/-! ## Starting (R211, R216) -/

/-- The engine before its first command. -/
def legInit (q : Nat) (ph : LegPhase) : Leg :=
  { phase := ph, qfp := 16 * q, q := q, empties := 0, split := [], tries := 0, rn := 0, handle := 0, words := 0, data := [], retried := false,
    sighted := false, crcOk := none, index := 0xFFF, delayed := false, held := none, early := none, kept := none }

/-- The command in flight expects a delayed reply (R206). -/
def Round.awaitsDelayed (r : Round) : Bool := match r.leg with | some l => l.delayed && (l.phase == .accOp || l.phase == .accRaw) | none => false

/-- The phase in which the reply to a command of the operation is awaited. -/
def phaseOf : Air → LegPhase
  | .raw _ _ _ => .accRaw
  | _ => .accOp

/-- A command of the operation goes out. -/
def State.sendOp (s : State) (w : Nat) (delayed : Bool) (a : Air) : State :=
  (s.updLeg w (fun l => { l with phase := phaseOf a, crcOk := none, delayed := delayed, held := none })).sendAir w [a]

/-- Less than 25 ms of dwell or occupancy are left on the channel of a warp's round (R207). -/
def State.hopsFirst (s : State) (w : Nat) : Bool :=
  match (s.roundOn w).bind (fun r => r.txc.bind (fun n => (s.tx n).chan)) with
  | some c => s.airShort c
  | none => false

/-- A command that expects a delayed reply goes out, or waits for the guard hop when less than 25 ms of dwell or occupancy are left on the
channel (R207). -/
def State.sendLate (s : State) (w : Nat) (a : Air) : State :=
  if s.hopsFirst w then (s.updLeg w (fun l => { l with phase := .accHeld, crcOk := none, delayed := true, held := some (a, false) })).updRound w
    (fun r => { r with txn := some (r.txn.getD false) })
  else s.sendOp w true a

/-- The raw frame of the round stands before its Query: PHASE is 1 (R209). -/
def Round.rawFirst (r : Round) : Bool := !r.isU0 && eOp r.words == 6 && bitN (r.raw.getD 8 0) 30

/-- The raw frame goes out (R209): with the handle and CRC-16 that LEG_RAW_CTRL selects. -/
def State.sendRaw (s : State) (w : Nat) (r : Round) : State :=
  let c := r.raw.getD 8 0
  let a : Air := .raw r.rawBits (bitN c 28) (bitN c 27)
  if bitN c 29 then s.sendLate w a else s.sendOp w false a

/-- The first command of the round, or of its next transaction after the carrier was off (R160, R211, R215): a tag without carrier has lost its
slot, so that the Selects and a Query follow (DEDUCED, log entry 25). What is left of a split under way is dropped; an ordinary hop or a change of the transmit
port counts no SPLIT_FAIL for it, which R215 has for the guard hop alone (DESIGN CHOICE, log entry 25). -/
def State.legBegin (s : State) (w : Nat) : State :=
  match s.roundOn w with
  | none => s
  | some r =>
    if r.kind == .access then
      let s := s.updRound w (fun r => { r with leg := some (legInit 0 .accSlot) })
      if r.rawFirst then s.sendRaw w r
      else
        let s := s.updLeg w (fun l => { l with tries := 1 })
        s.legSend w (cond r.isU0 [] [selectSL 0x20 (eId r.words)] ++ [r.querySL])
    else
      let l := match r.leg with | none => legInit (r.lb 8 4) .slot | some l => { l with phase := .slot, split := [], sighted := false, crcOk := none }
      let s := s.updRound w (fun r => { r with leg := some l })
      s.legSend w (cond r.isU0 [] (selectsOf r.words) ++ [r.query l.q])

/-! ## Slots (R211, R212) -/

/-- The outcome of a slot. -/
inductive SlotOut where
  | empty | collided | single (rn : Nat)
deriving DecidableEq, Repr

/-- The decoder takes a reply of this deviation: it lies within R203, or within R221 for U0. -/
def Round.devOk (r : Round) (dev : Int) : Bool :=
  let lim : Int := if r.isU0 then 60 else 100
  decide (-lim ≤ dev) && decide (dev ≤ lim)

/-- A reply holds 16 clean bits after a valid header (R188, R205). -/
def clean16 (x : RxReport) : Bool :=
  x.header && decide (16 ≤ x.bits.length) && (match x.collision with | none => true | some b => decide (16 ≤ b))

/-- The CRC-16 over a reply agrees with its last 16 bits (R322). -/
def crc16Ok (l : List Bool) : Bool := decide (16 ≤ l.length) && crc16 (l.take (l.length - 16)) == natOfBits (l.drop (l.length - 16))

/-- A slot reply that the decoder takes: a clean RN16 (R212), or for class U0 a type, the slot token and a CRC-16 that passes (R220). -/
def Round.clean (r : Round) (x : RxReport) : Bool :=
  r.devOk x.dev && (if r.isU0 then x.header && x.collision.isNone && decide (40 ≤ x.bits.length) && crc16Ok (x.bits.take 40) else clean16 x)

/-- The RN16 of a slot reply, or the slot token, which follows the type (R220). -/
def Round.tokenOf (r : Round) (x : RxReport) : Nat := natOfBits ((x.bits.drop (if r.isU0 then 8 else 0)).take 16)

/-- A beam has locked on a reply within the rate range (R203, R212, R221). -/
def Round.replied (r : Round) (b : Beam) : Bool := b.locked && (match b.heard with | none => true | some x => r.devOk x.dev)

/-- The outcome over all beams (R212): a clean RN16 of the highest SNR, else COLLIDED when a beam has locked on a reply within the rate range. Of
beams with equal SNR the first counts (DESIGN CHOICE, log entry 27). -/
def slotOutcome (r : Round) (bs : List Beam) : SlotOut :=
  match (bs.filterMap (fun b => b.heard)).filter r.clean with
  | x :: t => .single (r.tokenOf (t.foldl (fun (m : RxReport) y => if m.snr < y.snr then y else m) x))
  | [] => if bs.any r.replied then .collided else .empty

/-- SLOT counters (R223). -/
def State.countSlot (s : State) (r : Round) (o : SlotOut) : State :=
  s.legCount r (match o with | .empty => 1 | .single _ => 2 | .collided => 3)

/-- The next command of R211 after a slot, its outcome and what ended it (a NAK or HUSH in `pre`, if any). -/
def State.legNext (s : State) (w : Nat) (o : SlotOut) (pre : List Air) : State :=
  match s.roundOn w with
  | none => s
  | some r =>
    match r.leg with
    | none => s
    | some l =>
      let lo := 16 * r.lb 12 4
      let hi := 16 * r.lb 16 4
      let qfp := match o with
        | .empty => max lo (l.qfp - r.qStep)
        | .collided => min hi (l.qfp + r.qStep)
        | .single _ => l.qfp
      let empties := match o with | .empty => if l.q = r.lb 12 4 then l.empties + 1 else l.empties | _ => 0
      let e := r.lb 24 4
      let q := (qfp + 8) / 16
      let q' := if l.q < q then l.q + 1 else if q < l.q then l.q - 1 else l.q
      let s := s.updLeg w (fun l => { l with qfp := qfp, empties := empties, phase := .slot, sighted := false, crcOk := none })
      if e ≠ 0 ∧ empties = e then s.endByRule w
      else s.boundary w (fun s =>
        let s := s.updLeg w (fun l => { l with q := q' })
        s.legSend w (pre ++ [if r.isU0 then (if q' = l.q then .next else .scan q')
                     else if l.q < q' then .queryAdjust (r.lb 4 2) true else if q' < l.q then .queryAdjust (r.lb 4 2) false
                     else .queryRep (r.lb 4 2)]))

/-- After a split the round's Selects and Query follow (R213): it counts as SINGLE and leaves Q unchanged. -/
def State.afterSplit (s : State) (w : Nat) (pre : List Air) : State :=
  let s := s.updLeg w (fun l => { l with empties := 0, phase := .slot, split := [], sighted := false, crcOk := none })
  s.boundary w (fun s => match s.roundOn w with
    | none => s
    | some r => s.legSend w (pre ++ selectsOf r.words ++ [r.query (match r.leg with | some l => l.q | none => 0)]))

/-- One branch of a split begins (R213), after `pre`. -/
def State.splitBranch (s : State) (w : Nat) (pre : List Air) : State :=
  match s.roundOn w with
  | none => s
  | some r =>
    match r.leg with
    | none => s
    | some l =>
      match l.split with
      | [] => s
      | x :: t =>
        let s := s.updLeg w (fun l => { l with phase := .slot, sighted := false, crcOk := none, split := { x with tries := 1 } :: t })
        s.legSend w (pre ++ [selectSL 0x10 (x.pref ++ [x.branch]), r.querySL])

/-- The stack of a split after a branch is over: the second branch of the innermost level, else of the next outer one. -/
def splitNext : List Split → List Split
  | [] => []
  | x :: t => if x.branch then splitNext t else { x with branch := true } :: t

/-- A branch of a split is over (R213). `pre` goes out first; a round that may begin no new transaction ends here (R215). -/
def State.branchOver (s : State) (w : Nat) (pre : List Air) : State :=
  match (s.roundOn w).bind (fun r => r.leg) with
  | none => s
  | some l =>
    let s := if pre.isEmpty then s else s.sendAir w pre
    match splitNext l.split with
    | [] => s.afterSplit w pre
    | st => (s.updLeg w (fun l => { l with split := st })).boundary w (fun s => s.splitBranch w pre)

/-- A slot is over (R211, R213). -/
def State.slotOver (s : State) (w : Nat) (o : SlotOut) : State :=
  match s.roundOn w with
  | none => s
  | some r =>
    match r.leg with
    | none => s
    | some l =>
      let s := s.countSlot r o
      match o with
      | .single rn =>
        (s.updLeg w (fun l => { l with phase := .ident, rn := rn, sighted := false, crcOk := none })).sendAir w
          [if r.isU0 then .ackU0 rn else .ack rn]
      | _ =>
        match l.split with
        | [] => s.legNext w o []
        | x :: t =>
          if o = .collided ∧ x.tries < 3 then
            let s := s.updLeg w (fun l => { l with split := { x with tries := x.tries + 1 } :: t })
            s.boundary w (fun s => s.legSend w [r.querySL])
          else
            let s := if o = .collided then s.legCount r 7 else s
            s.branchOver w []

/-! ## Identity replies (R212, R213) -/

/-- The longest intact prefix among beams that show a collision at bit 8 or later (R205, R212); of beams with equally long ones that of the first
(DESIGN CHOICE, log entry 27). -/
def splitPrefix (r : Round) (bs : List Beam) : Option (List Bool) :=
  bs.foldl (fun (m : Option (List Bool)) b =>
    match b.heard with
    | none => m
    | some x =>
      match x.collision with
      | none => m
      | some k =>
        if k < 8 ∨ !x.header ∨ !r.devOk x.dev then m
        else match m with
          | none => some (x.bits.take k)
          | some p => if p.length < k then some (x.bits.take k) else m) none

/-- An identity reply is resolved (R212, R213). In a branch of a split a collision that lies not beyond its prefix, of which R213 says nothing, is a
failed identity: NAK and ID_CRC_FAIL (DESIGN CHOICE, log entry 25). -/
def State.identOver (s : State) (w : Nat) : State :=
  match s.roundOn w with
  | none => s
  | some r =>
    match r.leg with
    | none => s
    | some l =>
      let bs := (s.liveBeamList r).map (fun e => e.2)
      let next := fun (s : State) (pre : List Air) =>
        if l.split.isEmpty then
          (if pre.isEmpty then s else s.sendAir w pre).legNext w (.single l.rn) pre
        else s.branchOver w pre
      if l.sighted then next s (cond r.isU0 [.hush l.rn] [])
      else
        let heard := bs.any r.replied
        let max_ := s.fld Reg.legCfg 8 4
        let depth := match l.split with | [] => 0 | x :: _ => x.depth
        match (if r.isU0 ∨ max_ = 0 then none else splitPrefix r bs) with
        | some p =>
          let plen := match l.split with | [] => 7 | x :: _ => x.pref.length
          if plen < p.length ∧ depth < max_ then
            let s := if depth = 0 then s.legCount r 6 else s
            let s := s.updLeg w (fun l => { l with split := { pref := p, depth := depth + 1, branch := false, tries := 0 } :: l.split })
            s.boundary w (fun s => s.splitBranch w [.nak])
          else if plen < p.length then (next (s.legCount r 7) [.nak])
          else next (s.legCount r 5) [.nak]
        | none => if heard && !r.isU0 then next (s.legCount r 5) [.nak] else next s []

/-! ## Access (R216 to R219) -/

/-- The operation of an access round is over (R219, R223, R290): its TAG_DATA, and the end of the round. -/
def State.accFinish (s : State) (w : Nat) (st : Status) (err : Nat) : State :=
  match s.roundOn w with
  | none => s
  | some r =>
    match r.leg with
    | none => s
    | some l =>
      let s := s.legCount r (if st = .ok then 8 else 9)
      let s := s.queueWarp r.warp (s.tagDataRec r st err l.index l.words r.legBytes)
      (s.updLeg w (fun l => { l with phase := .done })).endByRule w

/-- One step of an access is over without an end of the operation: a round decided in the meantime stops here (R287), its transaction being
uncommitted again when `free`. -/
def State.accStep (s : State) (w : Nat) (free : Bool) (go : State → State) : State :=
  let s := if free then s.updRound w (fun r => { r with txn := some false }) else s
  match s.roundOn w with
  | none => s
  | some r => if r.status.isSome && (r.txn != some true) then s.downRound r false else go s

/-- An attempt of steps 2 to 4 has failed (R216, R219): another Query, or the end after the third. -/
def State.accRetry (s : State) (w : Nat) (pre : List Air) (col : Bool) : State :=
  match s.roundOn w with
  | none => s
  | some r =>
    match r.leg with
    | none => s
    | some l =>
      let s := s.updLeg w (fun l => { l with phase := .accSlot, tries := l.tries + 1, sighted := false, crcOk := none })
      if 3 ≤ l.tries then (if pre.isEmpty then s else s.sendAir w pre).accFinish w (if col then .collision else .noReply) 0xFF
      else s.legSend w (pre ++ [r.querySL])

/-- A Req_RN with the handle, for the next cover code (R216). -/
def State.reqCover (s : State) (w : Nat) (ph : LegPhase) : State :=
  let h := match (s.roundOn w).bind (fun r => r.leg) with | some l => l.handle | none => 0
  (s.updLeg w (fun l => { l with phase := ph, crcOk := none, delayed := false })).sendAir w [.reqRn h]

/-- A raw frame is over with what it brought (R209): its status, the bits counted and the bits. -/
def State.rawDone (s : State) (w : Nat) (x : Option (Status × Nat × List Word)) : State :=
  let (st, n, bits) := x.getD (.noReply, 0, [])
  (s.updLeg w (fun l => { l with words := n, data := bits })).accFinish w st 0xFF

/-- A raw frame has ended (R209): the operation is over with its result, or, when the frame stood before the Query, the tag is still to be
addressed in steps 2 to 5 of R216, after which the operation ends with that result (DEDUCED, log entry 24). -/
def State.rawOver (s : State) (w : Nat) (r : Round) (st : Status) (n : Nat) (bits : List Word) : State :=
  if r.rawFirst then
    let s := s.updLeg w (fun l => { l with phase := .accSlot, tries := 1, sighted := false, crcOk := none, early := some (st, n, bits) })
    s.accStep w false (fun s => s.legSend w [r.querySL])
  else s.rawDone w (some (st, n, bits))

/-- The operation's command goes out, or the Req_RN it needs first (R216, R218). A raw frame sent before the Query has been the operation. -/
def State.startOp (s : State) (w : Nat) : State :=
  match s.roundOn w with
  | none => s
  | some r =>
    match r.leg with
    | none => s
    | some l =>
      if r.isU0 then s.sendOp w false (.readU0 ((eAddr r.words + l.words) % 256))
      else match eOp r.words with
        | 1 => s.sendOp w false (.read (eBank r.words) (eAddr r.words) (eLen r.words) l.handle)
        | 3 =>
          let n := s.fld Reg.legCfg 16 5
          let ch := ((r.accData.drop l.words).take n).map (fun x => x.toNat % 65536)
          s.sendLate w (.blockWrite (eBank r.words) (eAddr r.words + l.words) ch l.handle)
        | 4 => s.sendLate w (.lock (ew r.words 10 0 20) l.handle)
        | 6 => if r.rawFirst then s.rawDone w l.early else s.sendRaw w r
        | _ => s.reqCover w .accCover

/-- What an access step received (R219): the bits of the reply without its CRC-16 when that passes; `true` when something was received whose CRC
fails. A bit marked as a collision has no part in it. -/
def accReplyOf (r : Round) (bs : List Beam) : Option (List Bool) × Bool :=
  let heard := (bs.filterMap (fun b => b.heard)).filter (fun x => x.header && r.devOk x.dev)
  let good := heard.filter (fun x => crc16Ok x.bits)
  match good with
  | x :: t =>
    let b := t.foldl (fun (m : RxReport) y => if m.snr < y.snr then y else m) x
    (some (b.bits.take (b.bits.length - 16)), false)
  | [] => (none, !heard.isEmpty)

/-- The words of the chunk that the last BlockWrite carried (R218). -/
def Round.chunkLen (r : Round) : Nat := match r.sent.getLast? with | some (.blockWrite _ _ d _) => d.length | _ => 0

/-- A reply to the first half of a Kill (R216): the bare handle, with no error bit in front (PRESUMED from the standard, log entry 25). -/
def bareHandle (op words : Nat) (bits : List Bool) : Bool := op == 5 && words == 0 && bits.length == 16

/-- What the reply to a Read says, without its CRC-16 (R219): its status and the tag's error code. -/
def readStatus (r : Round) (bits : List Bool) : Status × Nat :=
  if r.isU0 || !bits.headD false then (.ok, 0xFF)
  else let err := natOfBits ((bits.drop 1).take 8); (if err = 4 then .locked else .refused, err)

/-- The words that an operation has read once such a reply is in: one more block of class U0, or the words of the Read. -/
def readData (r : Round) (l : Leg) (bits : List Bool) : List Word :=
  if r.isU0 then l.data ++ [wordOf (natOfBits ((bits.drop 8).take 32))]
  else if bits.headD false then l.data
  else (List.range (eLen r.words)).map (fun k => wordOf (natOfBits ((bits.drop (1 + 16 * k)).take 16)))

/-- The reply to a command of the operation (R217 to R219): a Read that has committed ends with the result it has kept. -/
def State.opReply (s : State) (w : Nat) (r : Round) (l : Leg) (rep : Option (List Bool)) (bad : Bool) : State :=
  let op := eOp r.words
  match l.kept, rep with
  | some (st, err), _ => (s.updLeg w (fun l => { l with words := l.data.length })).accFinish w st err
  | none, none =>
    if bad ∧ op = 1 ∧ !l.retried then
      let s := s.updLeg w (fun l => { l with retried := true })
      s.accStep w false (fun s => s.startOp w)
    else s.accFinish w (if bad ∨ (op = 1 ∧ l.retried) then .crcFail else .noReply) 0xFF
  | none, some bits =>
    if r.isU0 then
      let s := s.updLeg w (fun l => { l with words := l.words + 1, data := readData r l bits, retried := false })
      if l.words + 1 = eLen r.words then s.accFinish w .ok 0xFF else s.accStep w false (fun s => s.startOp w)
    else if bits.headD false && !bareHandle op l.words bits then
      let err := natOfBits ((bits.drop 1).take 8)
      s.accFinish w (if err = 4 then .locked else .refused) err
    else match op with
      | 1 => (s.updLeg w (fun l => { l with words := eLen r.words, data := readData r l bits })).accFinish w .ok 0xFF
      | 2 =>
        let s := s.updLeg w (fun l => { l with words := l.words + 1 })
        if eLen r.words ≤ l.words + 1 then s.accFinish w .ok 0xFF else s.reqCover w .accCover
      | 3 =>
        let d := min (eLen r.words) (l.words + r.chunkLen)
        let s := s.updLeg w (fun l => { l with words := d })
        if eLen r.words ≤ d then s.accFinish w .ok 0xFF else s.accStep w true (fun s => s.startOp w)
      | 5 =>
        if l.words = 0 then
          let s := s.updLeg w (fun l => { l with words := 1 })
          s.accStep w false (fun s => s.reqCover w .accCover)
        else (s.updLeg w (fun l => { l with words := 0 })).accFinish w .ok 0xFF
      | _ => s.accFinish w .ok 0xFF

/-- The reply to a raw frame (R209, R310): its last 16 bits are checked as a CRC-16, and its bits are returned whether that passes or not. A reply of 1 to 16 bits has no room for data and a CRC-16: what is
received then ends with CRC_FAIL (DESIGN CHOICE, log entry 24). -/
def State.rawReply (s : State) (w : Nat) (r : Round) (bs : List Beam) : State :=
  let n := fieldN (r.raw.getD 8 0) 16 10
  let heard := (bs.filterMap (fun b => b.heard)).filter (fun x => x.header && r.devOk x.dev)
  if n = 0 then s.rawOver w r .ok 0 []
  else match heard with
    | [] => s.rawOver w r .noReply 0 []
    | x :: t =>
      let b := t.foldl (fun (m : RxReport) y => if m.snr < y.snr then y else m) x
      let bits := b.bits.take n
      s.rawOver w r (if 16 < n ∧ n ≤ b.bits.length ∧ crc16Ok bits then .ok else .crcFail) bits.length (bits.map (fun v => cond v 1 0))

/-- One step of an access is resolved from what the beams hold (R216, R219). The table of R219 speaks of the operation's reply: a Req_RN for a
cover code or a first Access without a reply ends NO_REPLY, and a step whose reply has a failing CRC-16 ends CRC_FAIL (DESIGN CHOICE, log
entry 25). The delayed-reply window serves the second half of a Kill alone, the half that kills (DESIGN CHOICE, log entry 25). -/
def State.accOver (s : State) (w : Nat) : State :=
  match s.roundOn w with
  | none => s
  | some r =>
    match r.leg with
    | none => s
    | some l =>
      let bs := (s.liveBeamList r).map (fun e => e.2)
      let (rep, bad) := accReplyOf r bs
      let rn := natOfBits ((rep.getD []).take 16)
      let apwd := (r.words.getD 11 0).toNat
      let kpwd := (r.words.getD 12 0).toNat
      let cover := fun (s : State) (st : Status) (go : State → State) =>
        match rep with
        | some _ => go s
        | none => s.accFinish w (if bad then .crcFail else st) 0xFF
      match l.phase with
      | .accSlot =>
        (match slotOutcome r bs with
         | .single rn =>
           let s := s.countSlot r (.single rn)
           s.accStep w false (fun s => (s.updLeg w (fun l => { l with phase := .accIdent, rn := rn, sighted := false, crcOk := none })).sendAir w
             [if r.isU0 then .ackU0 rn else .ack rn])
         | o => (s.countSlot r o).accStep w false (fun s => s.accRetry w [] (o == .collided)))
      | .accIdent =>
        if l.sighted then s.accStep w false (fun s =>
          if r.isU0 then s.startOp w
          else (s.updLeg w (fun l => { l with phase := .accHandle, crcOk := none })).sendAir w [.reqRn l.rn])
        else
          let nak := bs.any r.replied && !r.isU0
          let s := if nak && l.crcOk != some true then s.legCount r 5 else s
          s.accStep w false (fun s => s.accRetry w (cond nak [.nak] []) false)
      | .accHandle =>
        (match rep with
         | none => s.accStep w false (fun s => s.accRetry w [] false)
         | some _ =>
           let s := s.updLeg w (fun l => { l with handle := rn })
           s.accStep w false (fun s => if apwd = 0 then s.startOp w else s.reqCover w .accCoverHi))
      | .accCoverHi => cover s .noReply (fun s =>
          s.accStep w false (fun s => (s.updLeg w (fun l => { l with phase := .accPwdHi, crcOk := none })).sendAir w [.access (apwd / 65536 ^^^ rn) l.handle]))
      | .accPwdHi => cover s .noReply (fun s => s.accStep w true (fun s => s.reqCover w .accCoverLo))
      | .accCoverLo => cover s .noReply (fun s =>
          s.accStep w false (fun s => (s.updLeg w (fun l => { l with phase := .accPwdLo, crcOk := none })).sendAir w [.access (apwd % 65536 ^^^ rn) l.handle]))
      | .accPwdLo => cover s .locked (fun s => s.accStep w true (fun s => s.startOp w))
      | .accCover => cover s .noReply (fun s => s.accStep w false (fun s =>
          let a : Air := if eOp r.words = 5 then .kill ((if l.words = 0 then kpwd / 65536 else kpwd % 65536) ^^^ rn) l.handle
                         else .write (eBank r.words) (eAddr r.words + l.words) ((r.accData.getD l.words 0).toNat % 65536 ^^^ rn) l.handle
          let dl := eOp r.words == 2 || l.words == 1
          if dl then s.sendLate w a else s.sendOp w false a))
      | .accOp => s.opReply w r l rep bad
      | .accRaw => s.rawReply w r bs
      | _ => s

/-- The step of the engine whose reply window is over and whose receptions are resolved. -/
def State.legOver (s : State) (w : Nat) : State :=
  match s.roundOn w with
  | none => s
  | some r =>
    match r.leg with
    | none => s
    | some l =>
      match l.phase with
      | .slot => s.slotOver w (slotOutcome r ((s.liveBeamList r).map (fun e => e.2)))
      | .ident => s.identOver w
      | .done => s
      | _ => s.accOver w

/-- The end of the last bit of the engine's command on air (R217): the commit point of Write, Lock, Access, the second half of a Kill, a chunk of
a BlockWrite and a raw frame. A WRITE of several words commits at its first (DEDUCED, log entry 25). An Access ends with its own reply. -/
def State.legLastBit (s : State) (w : Nat) : State :=
  match s.roundOn w with
  | none => s
  | some r =>
    match r.leg, r.sent.getLast? with
    | some l, some (.write _ _ _ _) => if l.phase = .accOp then s.commitTxn w true else s
    | some l, some (.lock _ _) => if l.phase = .accOp then s.commitTxn w true else s
    | some l, some (.kill _ _) => if l.phase = .accOp ∧ l.words = 1 then s.commitTxn w true else s
    | some _, some (.access _ _) => s.updRound w (fun r => { r with txn := r.txn.map (fun _ => true) })
    | some l, some (.blockWrite _ _ d _) => if l.phase = .accOp then s.commitTxn w (decide (eLen r.words ≤ l.words + d.length)) else s
    | some l, some (.raw _ _ _) =>
      if l.phase = .accRaw then
        let s := s.commitTxn w true
        if fieldN (r.raw.getD 8 0) 16 10 = 0 then s.rawOver w r .ok 0 [] else s
      else s
    | _, _ => s

end Sys2Proof.Machine
end

