-- ==== Sys2Proof/Machine/Signal.lean ====
section
/-! DEFINITION. Arithmetic on samples and cells (09_receive_chains_and_loom.md R184, R191, R193; 11_umaolo_physical_layer.md R241 to R244). Amplitudes
are integers in units of 2^-32 and angles in units of 2^-32 turn, rounded to nearest: the spec fixes no width (DESIGN CHOICE, log entry 45). -/
namespace Sys2Proof.Machine

/-- The amplitude 1. -/
def unit : Int := 2 ^ 32

/-- Sum, difference, conjugate and squared magnitude of samples. -/
def cadd (a b : Cx) : Cx := (a.1 + b.1, a.2 + b.2)
def csub (a b : Cx) : Cx := (a.1 - b.1, a.2 - b.2)
def cconj (a : Cx) : Cx := (a.1, -a.2)
def cabs2 (a : Cx) : Int := a.1 * a.1 + a.2 * a.2

/-- The product of two samples, unscaled. -/
def cmulRaw (a b : Cx) : Cx := (a.1 * b.1 - a.2 * b.2, a.1 * b.2 + a.2 * b.1)

/-- A sample times an integer. -/
def cscale (k : Int) (a : Cx) : Cx := (k * a.1, k * a.2)

/-- The sum of a list. -/
def csum (l : List Cx) : Cx := l.foldl cadd (0, 0)

/-- The rounded quotient by a divisor that is not negative; a quotient by zero, which the spec gives no value, is free. -/
def qdiv (n d : Int) : Int := if d = 0 then Config.overZero n else (2 * n + d) / (2 * d)

/-- The rounded quotient of a sample by an integer. -/
def cquot (a : Cx) (d : Int) : Cx := (qdiv a.1 d, qdiv a.2 d)

/-- The product and the quotient of amplitudes. -/
def cmul (a b : Cx) : Cx := cquot (cmulRaw a b) unit
def cdiv (a b : Cx) : Cx := cquot (cscale unit (cmulRaw a (cconj b))) (cabs2 b)

/-! ## Angles -/

/-- The arc tangents of 2^-i in units of 2^-32 turn. -/
def arcTable : List Int :=
  [536870912, 316933406, 167458907, 85004756, 42667331, 21354465, 10679838, 5340245, 2670163, 1335087, 667544, 333772, 166886, 83443, 41722,
   20861, 10430, 5215, 2608, 1304, 652, 326, 163, 81, 41, 20, 10, 5, 3, 1, 1]

/-- An angle taken to the half turn on either side of zero. -/
def wrapAngle (a : Int) : Int := (a + 2 ^ 31) % 2 ^ 32 - 2 ^ 31

/-- A vector of the right half plane is turned onto the axis step by step; the angle turned is its argument. -/
def argSteps : Nat → List Int → Cx → Int → Int
  | _, [], _, z => z
  | i, a :: r, v, z =>
    let d : Cx := (v.1 / 2 ^ i, v.2 / 2 ^ i)
    if 0 ≤ v.2 then argSteps (i + 1) r (v.1 + d.2, v.2 - d.1) (z + a) else argSteps (i + 1) r (v.1 - d.2, v.2 + d.1) (z - a)

/-- arg(v); of zero it is free. -/
def argOf (v : Cx) : Int :=
  if v = (0, 0) then Config.overZero 0
  else
    let w := cscale (2 ^ 32) v
    wrapAngle (if w.1 < 0 then argSteps 0 arcTable (-w.1, -w.2) (2 ^ 31) else argSteps 0 arcTable w 0)

/-- A vector is turned by an angle of at most a quarter turn step by step. -/
def turnSteps : Nat → List Int → Cx → Int → Cx
  | _, [], v, _ => v
  | i, a :: r, v, z =>
    let d : Cx := (v.1 / 2 ^ i, v.2 / 2 ^ i)
    if 0 ≤ z then turnSteps (i + 1) r (v.1 - d.2, v.2 + d.1) (z - a) else turnSteps (i + 1) r (v.1 + d.2, v.2 - d.1) (z + a)

/-- exp(j a) in units of 2^-40: the start length makes up for the growth of the steps. -/
def expJ (a : Int) : Cx :=
  let a := wrapAngle a
  let k : Int := 667681663043
  if 2 ^ 30 < a ∨ a < -(2 ^ 30) then turnSteps 0 arcTable (-k, 0) (wrapAngle (a + 2 ^ 31)) else turnSteps 0 arcTable (k, 0) a

/-! ## Roots and levels -/

/-- The bits of a square root from bit `k` down. -/
def rootBits : Nat → Nat → Nat → Nat
  | 0, r, _ => r
  | k + 1, r, n => rootBits k (if (r + 2 ^ k) * (r + 2 ^ k) ≤ n then r + 2 ^ k else r) n

/-- The integer part of the square root. -/
def rootOf (n : Nat) : Nat := rootBits (Nat.log2 n / 2 + 1) 0 n

/-- The ratio of two powers in steps of 0.25 dB, rounded, from 0 to 63.75 dB (R242): ten to the n fortieths is the ratio of n steps. -/
def dB4 (sig noise : Int) : Nat :=
  let s := sig.toNat ^ 80
  let n := noise.toNat ^ 80
  let ge := fun (k : Nat) => k = 0 || decide (n * 10 ^ (2 * k - 1) ≤ s)
  if sig = 0 then 0
  else [128, 64, 32, 16, 8, 4, 2, 1].foldl (fun (a : Nat) b => if ge (a + b) then a + b else a) 0

end Sys2Proof.Machine
end

