-- ==== Sys2Proof/Machine/Cells.lean ====
section
/-! DEFINITION. The cells of a Umaolo or peer signal (11_umaolo_physical_layer.md R225 to R229, R236, R237): subcarriers, constellations, repetition,
preambles and pilots. -/
namespace Sys2Proof.Machine

/-- The repetition factor of a REP code (R229). -/
def repN (rep : Nat) : Nat := 2 ^ rep

/-! ## Subcarriers and cells -/

/-- The four subcarriers of a tuft (R225). -/
def tuftSubs (t : Nat) : List Int :=
  let k : Int := if t < 6 then 9 * (t / 2 : Nat) + 4 * (t % 2 : Nat) - 27 else 9 * ((t - 6) / 2 : Nat) + 4 * (t % 2 : Nat) + 2
  [k, k + 1, k + 2, k + 3]

/-- The subcarriers of the pilots P0 to P7 (R225). -/
def pilotSubs : List Int := [-28, -19, -10, -1, 1, 10, 19, 28]

/-- The 56 used subcarriers in ascending order (R225). -/
def usedSubs : List Int := ((List.range 57).map (fun i : Nat => (i : Int) - 28)).filter (fun k => k != 0)

/-- The frequency of subcarrier `k` in Hz above the carrier, for a band centre in Hz (R225): 15.625 kHz apart. -/
def subHz (bc : Int) (k : Int) : Int := bc + k * 15625

/-- The point of a PSK cell as a multiple of pi/4 (R227). A 16-QAM cell has none. -/
def pskPoint (c : Nat) (b : List Bool) : Option Nat :=
  match c, b with
  | 0, [x] => some (if x then 4 else 0)
  | 1, [x, y] => some (match x, y with | false, false => 1 | true, false => 3 | true, true => 5 | false, true => 7)
  | 2, [_, _, _] => [0, 1, 3, 2, 7, 6, 4, 5][natOfBits b]?
  | _, _ => none

/-- One axis of a 16-QAM cell (R227), before the division by the square root of 10. -/
def qamAxis (x y : Bool) : Int := match x, y with | false, false => 3 | false, true => 1 | true, true => -1 | true, false => -3

/-- The 16-QAM point of a cell: I by b0 b1 and Q by b2 b3 (R227). -/
def qamPoint : List Bool → Option (Int × Int)
  | [a, b, c, d] => some (qamAxis a b, qamAxis c d)
  | _ => none

/-- The point of a cell as an amplitude (R227): 2^32 over the square roots of 1, 2 and 10. -/
def cellPoint (c : Nat) (b : List Bool) : Cx :=
  match pskPoint c b, qamPoint b with
  | some m, _ => [(unit, 0), (3037000500, 3037000500), (0, unit), (-3037000500, 3037000500), (-unit, 0), (-3037000500, -3037000500), (0, -unit),
                  (3037000500, -3037000500)].getD m (0, 0)
  | none, some (x, y) => cscale 1358187913 (x, y)
  | none, none => (0, 0)

/-- The bits and the point nearest to `z` in a constellation (R241); of points equally near the one of the lowest bits (DESIGN CHOICE, log
entry 45). -/
def nearest (c : Nat) (z : Cx) : List Bool × Cx :=
  let l := (List.range (2 ^ (c + 1))).map (fun v => (bitsHigh (c + 1) v, cellPoint c (bitsHigh (c + 1) v)))
  l.foldl (fun m e => if cabs2 (csub z e.2) < cabs2 (csub z m.2) then e else m) (l.headD ([], (0, 0)))

/-- The bits of one symbol of a weft, tuft by tuft, four cells each (R228): the first bits go to the lowest tuft, and zeros follow the last. -/
def symbolCells : List Nat → List Bool → List (List (List Bool))
  | [], _ => []
  | c :: m, l =>
    let n := c + 1
    let cell := fun i => (List.range n).map (fun j => l.getD (n * i + j) false)
    [cell 0, cell 1, cell 2, cell 3] :: symbolCells m (l.drop (4 * n))

/-- Copy `c` of a block (R229): what copy 0 has on the i-th tuft stands on the ((i + c) mod t)-th. -/
def copyCells (c : Nat) (l : List (List (List Bool))) : List (List (List Bool)) :=
  (List.range l.length).map (fun j => l.getD ((j + l.length - c % l.length) % l.length) [])

/-- A bit stream on a weft under a loading (R228, R229): block by block, each in `repN rep` copies. `k` blocks are made. -/
def weftSymbols (rep : Nat) (map : List Nat) : Nat → List Bool → List (List (List (List Bool)))
  | 0, _ => []
  | k + 1, l =>
    let cells := symbolCells map l
    (List.range (repN rep)).map (fun c => copyCells c cells) ++ weftSymbols rep map k (l.drop (4 * (map.map (fun c => c + 1)).sum))

/-- The blocks that a number of bits takes. -/
def blocksFor (map : List Nat) (bits : Nat) : Nat :=
  let b := 4 * (map.map (fun c => c + 1)).sum
  if b = 0 then 0 else (bits + b - 1) / b

/-! ## Preambles and pilots (R237) -/

/-- One step of the generator: s6 leaves, and s6 xor s3 enters at s0. -/
def pnStep (x : Nat) : Nat := x * 2 % 128 + (x / 64 + x / 8) % 2

/-- The first `n` outputs from a seed; true stands for -1. -/
def pnBits : Nat → Nat → List Bool
  | 0, _ => []
  | n + 1, x => (x / 64 % 2 == 1) :: pnBits n (pnStep x)

/-- The seed of a tag's reply slot. -/
def slotSeed : Nat := 0x7F

/-- The seed of a peer frame by its REP code. -/
def peerSeed (rep : Nat) : Nat := match rep with | 0 => 0x35 | 1 => 0x4B | 2 => 0x5C | _ => 0x66

/-- The three preamble symbols over the 56 used subcarriers: the second repeats the first. -/
def preamble (seed : Nat) : List (List Bool) :=
  let p := pnBits 112 seed
  [p.take 56, p.take 56, p.drop 56]

/-- The 8 pilot cells of the `j`-th symbol after the preamble. -/
def pilotCells (seed j : Nat) : List Bool := (pnBits (120 + 8 * j) seed).drop (112 + 8 * j)

/-- A weft pilot on one tuft: what the first preamble symbol has on its subcarriers. -/
def weftPilot (seed t : Nat) : List Bool :=
  (tuftSubs t).map (fun k => (pnBits 56 seed).getD (usedSubs.findIdx (fun x => x == k)) false)

end Sys2Proof.Machine
end

