-- ==== Sys2Proof/Machine/Equaliser.lean ====
section
/-! DEFINITION. The Loom's weights (09_receive_chains_and_loom.md R184) and the equaliser of the Umaolo engines with what it measures
(11_umaolo_physical_layer.md R241 to R244), as functions of the samples a reception brings. -/
namespace Sys2Proof.Machine

/-! ## The combined stream (R184) -/

/-- The sum of each chain's sample times its weight. -/
def combine (w x : List Cx) : Cx := csum ((List.range w.length).map (fun k => cmulRaw (w.getD k (0, 0)) (x.getD k (0, 0))))

/-- One training symbol updates every weight of a beam by normalised least mean squares (R184): `neg` tells the known symbol -1 from 1. -/
def nlms (mu : Nat) (w x : List Cx) (neg : Bool) : List Cx :=
  let e := csub (if neg then -unit else unit, 0) (combine w x)
  let p := (x.map cabs2).sum
  (List.range w.length).map (fun k =>
    cadd (w.getD k (0, 0)) (cquot (cscale mu (cmulRaw e (cconj (x.getD k (0, 0))))) (16 * p)))

/-- The weights after the training symbols of a reply, with the samples of each chain. -/
def trained (mu : Nat) (xs : List (List Cx)) (known : List Bool) (w : List Cx) : List Cx :=
  (List.range (xs.foldl (fun m l => min m l.length) known.length)).foldl
    (fun w i => nlms mu w (xs.map (fun l => l.getD i (0, 0))) (known.getD i false)) w

/-- The stream of a beam from the samples of its chains. -/
def stream (w : List Cx) (xs : List (List Cx)) : List Cx :=
  (List.range (xs.foldl (fun m l => max m l.length) 0)).map (fun i => combine w (xs.map (fun l => l.getD i (0, 0))))

/-- The channel estimate on known symbols: the mean of each sample over its symbol, up to a positive factor (R191). -/
def chanEst (x : List Cx) (known : List Bool) : Cx :=
  csum ((List.range (min x.length known.length)).map (fun i => cscale (if known.getD i false then -1 else 1) (x.getD i (0, 0))))

/-- The symbols of a stream without an offset of `a` in units of 2^-32 turn per symbol (R244, R248): symbol `n` is turned back by `n` times it. -/
def unturn (a : Int) (n : Nat) (y : List Cx) : List Cx :=
  if a * n = 0 then y else y.map (fun v => cquot (cmulRaw v (expJ (-(a * n)))) (2 ^ 40))

/-- The three preamble symbols without an offset. -/
def unturnPre (a : Int) (sp : List Cx) : List Cx := unturn a 0 (sp.take 56) ++ unturn a 1 ((sp.drop 56).take 56) ++ unturn a 2 (sp.drop 112)

/-! ## The preamble of an 18000-63 or U0 reply (R184, R220) -/

/-- The half symbols of a Miller sequence: the phase turns between two zeros and inside a one (PRESUMED from ISO/IEC 18000-63, log entry 27). -/
def millerHalves : Bool → Bool → List Bool → List (Bool)
  | _, _, [] => []
  | ph, last, b :: t =>
    let p := if last || b then ph else !ph
    let q := if b then !p else p
    p :: q :: millerHalves q b t

/-- The preamble of an 18000-63 reply in halves of Tpri, true for -1, by M and TRext (PRESUMED from ISO/IEC 18000-63, log entry 27): FM0 with its
violation after twelve zeros of pilot tone or none, Miller subcarriers with 16 or 4 zeros before 010111. -/
def isoPreamble (m : Nat) (trext : Bool) : List Bool :=
  if m = 0 then
    (if trext then (List.range 12).flatMap (fun _ => [false, true]) else []) ++
      [false, false, true, false, true, true, false, true, true, true, false, false]
  else
    let l := List.replicate (if trext then 16 else 4) false ++ [false, true, false, true, true, true]
    (millerHalves false true l).flatMap (fun p => (List.range (2 ^ m)).map (fun k => p != (k % 2 == 1)))

/-- The 16 symbols of the U0 preamble 0xFF4D (R220) in DBPSK: a one turns the phase (PRESUMED, log entry 27). -/
def u0Preamble : List Bool :=
  ((bitsHigh 16 0xFF4D).foldl (fun (a : List Bool × Bool) b => (a.1 ++ [a.2 != b], a.2 != b)) ([], false)).1

/-! ## The decision-feedback equaliser of a legacy decoder (R204) -/

/-- Eight feed-forward and four feedback taps. -/
structure Dfe where
  fwd : List Cx
  fbk : List Cx
deriving DecidableEq, Repr

/-- Pass-through: the centre feed-forward tap at 1; of the two in the middle of eight the fourth (DESIGN CHOICE, log entry 27). -/
def Dfe.pass : Dfe := { fwd := [(0, 0), (0, 0), (0, 0), (unit, 0), (0, 0), (0, 0), (0, 0), (0, 0)], fbk := List.replicate 4 (0, 0) }

/-- One half symbol of the preamble trains the taps by least mean squares with step `mu` / 64: its samples, the four half symbols before it and the
known one. Answers the error as well. -/
def Dfe.step (mu : Nat) (e : Dfe) (x prev : List Cx) (d : Cx) : Cx × Dfe :=
  let sum := fun (w y : List Cx) => cquot (combine w y) unit
  let err := csub d (cadd (sum e.fwd x) (sum e.fbk prev))
  let move := fun (w y : List Cx) => (List.range w.length).map (fun k =>
    cadd (w.getD k (0, 0)) (cquot (cscale mu (cmulRaw err (cconj (y.getD k (0, 0))))) (64 * unit)))
  (err, { fwd := move e.fwd x, fbk := move e.fbk prev })

/-- The amplitude of a half symbol. -/
def halfAmp (neg : Bool) : Cx := (if neg then -unit else unit, 0)

/-- The errors of the training on the preamble's half symbols, of which half symbol `h` is centred on sample 2h. -/
def Dfe.train (mu : Nat) (wave : List Cx) (known : List Bool) : List Cx × Dfe :=
  (List.range known.length).foldl (fun (a : List Cx × Dfe) h =>
    let x := (List.range 8).map (fun k => if 2 * h + k < 3 then (0, 0) else wave.getD (2 * h + k - 3) (0, 0))
    let prev := (List.range 4).map (fun k => if h < k + 1 then (0, 0) else halfAmp (known.getD (h - k - 1) false))
    let (e, d) := a.2.step mu x prev (halfAmp (known.getD h false))
    (a.1 ++ [e], d)) ([], Dfe.pass)

/-- The training error at the end of the preamble lies above -10 dB relative to the signal (R204): the mean over its last eight half symbols (DESIGN
CHOICE, log entry 27). -/
def dfeBad (mu : Nat) (wave : List Cx) (known : List Bool) : Bool :=
  let l := (Dfe.train mu wave known).1
  let l := l.drop (l.length - 8)
  decide ((l.length : Int) * unit * unit < 10 * (l.map cabs2).sum)

/-! ## The equaliser of a weft (R241) -/

/-- The tap of each tuft, the sums of |d|^2 and of |d - z|^2 (R242), and the phase of each tap at the symbols so far (R243). -/
structure Equal where
  w   : List Cx
  sig : List Int
  err : List Int
  ph  : List (Nat × List Int)
deriving DecidableEq, Repr

/-- Cell `j` of tuft `i` of a symbol. -/
def cellOf (y : List Cx) (i j : Nat) : Cx := y.getD (4 * i + j) (0, 0)

/-- The cells of the pilot of a weft of `t` tufts from `first` on (R237). -/
def pilotOf (first t : Nat) : List Bool := (List.range t).flatMap (fun i => weftPilot slotSeed (first + i))

/-- On known cells `x` the tap of each tuft is the inverse of the mean of Y / X. -/
def Equal.startOn (x : List Bool) (y : List Cx) : Equal :=
  let t := x.length / 4
  let w := (List.range t).map (fun i => cdiv (4 * unit, 0) (csum ((List.range 4).map (fun j =>
    cscale (if x.getD (4 * i + j) false then -1 else 1) (cellOf y i j)))))
  { w := w, sig := List.replicate t 0, err := List.replicate t 0, ph := [(0, w.map argOf)] }

/-- A weft's taps start on WP0. -/
def Equal.start (first t : Nat) (y : List Cx) : Equal := Equal.startOn (pilotOf first t) y

/-- z of cell `j` of what copy 0 puts on tuft `i`: the copies of a block combined by maximum ratio (R229), or the one cell there is. -/
def Equal.cell (e : Equal) (blk : List (List Cx)) (i j : Nat) : Cx :=
  match blk with
  | [y] => cmul (e.w.getD i (0, 0)) (cellOf y i j)
  | _ =>
    let t := e.w.length
    let part := (List.range blk.length).map (fun c =>
      let k := (i + c) % t
      let h := cdiv (unit, 0) (e.w.getD k (0, 0))
      (cmulRaw (cconj h) (cellOf (blk.getD c []) k j), cabs2 h))
    cquot (cscale unit (csum (part.map (fun p => p.1)))) ((part.map (fun p => p.2)).sum)

/-- One block of a header or payload, up to symbol `at_` of the reply, under the constellations `map`: its bits, and the equaliser after it. Of the
copies of a block the tap of tuft i learns with Y = z / w[i], and the phases of R243 take one point per block, at its last symbol (DESIGN CHOICE, log
entry 26). -/
def Equal.block (mu : Nat) (map : List Nat) (at_ : Nat) (blk : List (List Cx)) (e : Equal) : List Bool × Equal :=
  let tuft := fun (i : Nat) =>
    (List.range 4).map (fun j =>
      let z := e.cell blk i j
      let (b, d) := nearest (map.getD i 0) z
      let y := match blk with | [y] => cellOf y i j | _ => cdiv z (e.w.getD i (0, 0))
      (b, cdiv (csub d z) y, cabs2 d, cabs2 (csub d z)))
  let all := (List.range map.length).map tuft
  let of_ := fun (i : Nat) => all.getD i []
  let w := (List.range map.length).map (fun i => cadd (e.w.getD i (0, 0)) (cquot (cscale mu (csum ((of_ i).map (fun c => c.2.1)))) 64))
  (all.flatMap (fun l => l.flatMap (fun c => c.1)),
   { w := w, sig := (List.range map.length).map (fun i => e.sig.getD i 0 + ((of_ i).map (fun c => c.2.2.1)).sum),
     err := (List.range map.length).map (fun i => e.err.getD i 0 + ((of_ i).map (fun c => c.2.2.2)).sum),
     ph := e.ph ++ [(at_, w.map argOf)] })

/-- `k` blocks of `n` symbols from symbol `at_` on, as far as the symbols reach. -/
def Equal.run (mu n : Nat) (map : List Nat) : Nat → Nat → List (List Cx) → Equal → List Bool × Equal
  | 0, _, _, e => ([], e)
  | k + 1, at_, l, e =>
    if l.length < n then ([], e)
    else
      let (b, e) := e.block mu map (at_ + n - 1) (l.take n)
      let (r, e) := Equal.run mu n map k (at_ + n) (l.drop n) e
      (b ++ r, e)

/-- On WP1, symbol `at_`, the taps move once more towards the pilot. -/
def Equal.finish (mu first at_ : Nat) (y : List Cx) (e : Equal) : Equal :=
  let x := pilotOf first e.w.length
  let w := (List.range e.w.length).map (fun i =>
    cadd (e.w.getD i (0, 0)) (cquot (cscale mu (csum ((List.range 4).map (fun j =>
      cdiv (csub (if x.getD (4 * i + j) false then -unit else unit, 0) (cmul (e.w.getD i (0, 0)) (cellOf y i j))) (cellOf y i j))))) 64))
  { e with w := w, ph := e.ph ++ [(at_, w.map argOf)] }

/-! ## What it measures (R242, R243) -/

/-- The SNR of each tuft in 0.25 dB. -/
def Equal.snr (e : Equal) : List Nat := (List.range e.w.length).map (fun i => dB4 (e.sig.getD i 0) (e.err.getD i 0))

/-- A run of angles without its jumps. -/
def unwrap : Int → List Int → List Int
  | _, [] => []
  | p, a :: r => (p + wrapAngle (a - p)) :: unwrap (p + wrapAngle (a - p)) r

/-- The mean over the tufts of the slopes of the lines that fit the taps' phases best, in units of 2^-32 turn per symbol, as a quotient (R243). -/
def Equal.slope (e : Equal) : Int × Int :=
  let t : List Int := e.ph.map (fun p => (p.1 : Int))
  let n : Int := t.length
  let st := t.sum
  let den := n * (t.map (fun a => a * a)).sum - st * st
  let slope := fun (i : Nat) =>
    let p := unwrap 0 (e.ph.map (fun q => q.2.getD i 0))
    n * ((t.zip p).map (fun q => q.1 * q.2)).sum - st * p.sum
  (((List.range e.w.length).map slope).sum, e.w.length * den)

/-- The deviation of the tag's clock in ppm (R243), for a band centre in Hz, a symbol lasting 80 us. The sign is that of the taps' phase (DEDUCED, log
entry 26). -/
def Equal.dev (e : Equal) (bc : Int) : Int := qdiv (e.slope.1 * 12500 * 1000000) (e.slope.2 * 2 ^ 32 * bc)

/-- The offset of a slot or peer frame in units of 2^-32 turn per symbol (R244, R248), from the phase change between the first two symbols of its
preamble in the combined stream; with no preamble there is none. -/
def slotOffset (sp : List Cx) : Int :=
  let v := csum ((List.range 56).map (fun k => cmulRaw (sp.getD (56 + k) (0, 0)) (cconj (sp.getD k (0, 0)))))
  if sp.isEmpty then 0 else argOf v

/-- The offset exceeds 0.15 per cent of the band centre in Hz (R244). -/
def offsetOut (a bc : Int) : Bool :=
  decide (15 * bc * 2 ^ 32 < a * 12500 * 10000) || decide (a * 12500 * 10000 < -(15 * bc * 2 ^ 32))

/-- The cells of a tuft on the third symbol of a preamble, with what the seed puts there. -/
def pre2Cells (seed i : Nat) (sp : List Cx) : List (Cx × Bool) :=
  (tuftSubs i).map (fun k =>
    let q := usedSubs.findIdx (fun x => x == k)
    (sp.getD (112 + q) (0, 0), ((preamble seed).getD 2 []).getD q false))

/-- The SNR over the cells of `t` tufts on SP2 (R242): each tuft has the one tap that its own cells give (DEDUCED, log entry 26). -/
def sp2Snr (seed first t : Nat) (sp : List Cx) : Nat :=
  let cells := fun (i : Nat) => pre2Cells seed (first + i) sp
  let pair := fun (i : Nat) =>
    let l := cells i
    let w := cdiv (4 * unit, 0) (csum (l.map (fun c => cscale (if c.2 then -1 else 1) c.1)))
    (l.map (fun c => cabs2 (csub (if c.2 then -unit else unit, 0) (cmul w c.1)))).sum
  if sp.isEmpty then 0 else dB4 (4 * t * unit * unit) ((List.range t).map pair).sum

/-! ## A weft's fields (R236, R238, R239) -/

/-- The number that `n` bits of a header or payload spell. -/
def bitsN (l : List Bool) (lo n : Nat) : Nat := natOfBits ((l.drop lo).take n)

/-- The header's HCRC agrees (R238, R239). -/
def hcrcOk (h : List Bool) : Bool := decide (24 ≤ h.length) && crc8 (h.take 16) == bitsN h 16 8

/-- The header under a REP code, the symbols it takes, and the equaliser after it. -/
def headerAs (mu t rep : Nat) (l : List (List Cx)) (e : Equal) : List Bool × Nat × Equal :=
  let map := List.replicate t 0
  let k := blocksFor map 24
  let (b, e) := Equal.run mu (repN rep) map k 1 l e
  (b.take 24, repN rep * k, e)

/-- A weft of `t` tufts is decoded from its symbols, WP0 first (R236, R241 to R245): the header under the REP of one of the loadings its tag may
use, taken in the order given until HCRC agrees (DEDUCED, log entry 26), and the payload under the loading that its LOAD_ID names. `h` are the
channel estimates of the chains. -/
def hearWeft (mu : Nat) (bc : Int) (first t : Nat) (power : Int) (reps : List Nat) (load : Nat → Option Loading) (l : List (List Cx))
    (sp : List Cx) (h : List (Nat × Cx)) : WeftRx :=
  let e := Equal.start first t (l.headD [])
  let tries := reps.map (fun r => headerAs mu t r (l.drop 1) e)
  let (hd, n, e) := (tries.find? (fun x => hcrcOk x.1)).getD (tries.headD ([], 0, e))
  let snr := sp2Snr slotSeed first t sp
  match (if hcrcOk hd then load (bitsN hd 12 4) else none) with
  | none => { first := first, power := power, header := hd, payload := [], snr := e.snr, beam := snr, dev := e.dev bc, chans := h }
  | some x =>
    let bits := 8 * bitsN hd 4 8 + 40
    let k := blocksFor x.map bits
    let (p, e) := Equal.run mu (repN x.rep) x.map k (1 + n) (l.drop (1 + n)) e
    let at_ := 1 + n + repN x.rep * k
    let e := match l[at_]? with | some y => e.finish mu first at_ y | none => e
    { first := first, power := power, header := hd, payload := p.take bits, snr := e.snr, beam := snr, dev := e.dev bc, chans := h }

/-! ## Peer frames (R241, R247, R248) -/

/-- The header of a peer frame passes its check (R247): HCRC, REP as the preamble said, and a length. -/
def peerHdOk (seedRep : Nat) (h : List Bool) : Bool :=
  h.length == 48 && crc8 (h.take 40) == bitsN h 40 8 && bitsN h 4 2 == seedRep % 4 && bitsN h 30 10 != 0

/-- The constellations a MAP names, tuft 0 first. -/
def mapOf (m : Nat) : List Nat := (List.range 12).map (fun k => m / 4 ^ k % 4)

/-- PE decides a frame from the combined stream of its preamble and the cells of its symbols (R241, R247, R248): the coarse offset between PP0 and
PP1 is removed, the equaliser starts from PP2 over all 12 tufts, the header comes in BPSK under the seed's REP and the payload as the header says. The
combined offset is the coarse one and what the taps still turn, against their sign since they undo the channel (DEDUCED, log entry 26). -/
def hearPeer (mu seedRep : Nat) (power : Int) (pp : List Cx) (cells : List (List Cx)) : PeerFrame :=
  let a := slotOffset pp
  let pp := unturnPre a pp
  let l := (List.range cells.length).map (fun k => unturn a (3 + k) (cells.getD k []))
  let two := (List.range 12).flatMap (fun i => pre2Cells (peerSeed (seedRep % 4)) i pp)
  let n := repN (seedRep % 4)
  let e := Equal.startOn (two.map (fun c => c.2)) (two.map (fun c => c.1))
  let (hd, e) := Equal.run mu n (List.replicate 12 0) 1 1 l e
  let hd := hd.take 48
  let (p, e) :=
    if peerHdOk seedRep hd then
      let map := mapOf (bitsN hd 6 24)
      let bits := 8 * bitsN hd 30 10 + 24
      let (p, e) := Equal.run mu n map (blocksFor map bits) (1 + n) (l.drop n) e
      (p.take bits, e)
    else ([], e)
  { seedRep := seedRep, header := hd, payload := p, power := power, snr := e.snr,
    offset := qdiv ((a * e.slope.2 - e.slope.1) * 12500000) (e.slope.2 * 2 ^ 32) }

end Sys2Proof.Machine
end

