-- ==== Sys2Proof/Machine/UmaOps.lean ====
section
/-! DEFINITION. What the Umaolo engines keep of their tags (11_umaolo_physical_layer.md, 12_umaolo_access_and_peer.md): bit loading, LINK blocks,
wefts and assignments, misses. -/
namespace Sys2Proof.Machine

/-! ## Bit loading (R229 to R231) -/

/-- The SNR threshold of a constellation code in 0.25 dB (R230). -/
def constThr (c : Nat) : Int := match c with | 0 => 28 | 1 => 40 | 2 => 60 | _ => 68

/-- The constellation codes of a class (R230). -/
def classCodes (classB : Bool) : List Nat := if classB then [0, 1, 2, 3] else [0, 1]

/-- The highest constellation of the class whose threshold, raised by `add`, is met. -/
def highest (classB : Bool) (add s : Int) : Option Nat := (classCodes classB).reverse.find? (fun c => decide (constThr c + add ≤ s))

/-- 10 log10 of a repetition factor in 0.25 dB, by its REP code (R231): 3, 6 and 9 dB (DEDUCED, log entry 26). -/
def repGain (rep : Nat) : Int := 12 * rep

/-- The constellation R231 gives a tuft; a class P tag has none above QPSK (R249). -/
def tuftConst (classB : Bool) (hyst : Int) (s : Int) (cur : Nat) : Option Nat :=
  let cur := if classB then cur else min cur 1
  match highest classB hyst s with
  | some up => if cur < up then some up else if constThr cur ≤ s then some cur else highest classB 0 s
  | none => if constThr cur ≤ s then some cur else highest classB 0 s

/-- The loading of R231 for the s and present constellation of each tuft: REP code and map, and whether it ends WEAK. -/
def loadingOf (classB : Bool) (hyst : Int) (l : List (Int × Nat)) : Nat × List Nat × Bool :=
  let c := l.map (fun e => tuftConst classB hyst e.1 e.2)
  if c.all (fun x => x.isSome) then (0, c.map (fun x => x.getD 0), false)
  else
    let m := l.foldl (fun (m : Int) e => min m e.1) (l.headD (0, 0)).1
    match [1, 2, 3].findSome? (fun rep => (highest classB 0 (m + repGain rep)).map (fun k => (rep, k))) with
    | some (rep, k) => (rep, l.map (fun _ => k), false)
    | none => (3, l.map (fun _ => 0), true)

/-- Symbols of a reply from WP0 to WP1 (R236) under a loading, for a body of `len` bytes. -/
def replySyms (rep : Nat) (map : List Nat) (len : Nat) : Nat :=
  let t := map.length
  let n := repN rep
  let bits := 4 * (map.map (fun c => c + 1)).sum
  let up := fun a b => if b = 0 then 0 else (a + b - 1) / b
  2 + n * up 24 (4 * t) + n * up (8 * len + 40) bits

/-! ## Tags the engines know -/

/-- The engine's record of a tag, by its seen-tag index. -/
def State.umTag? (s : State) (i : Nat) : Option UmTag := s.umTags.find? (fun t => t.index == i)

/-- A new record. -/
def UmTag.new (i : Nat) (classB : Bool) (tufts : Nat) : UmTag :=
  { index := i, latest := none, older := none, nextId := 1, pend := none, pendAt := 0, trim := 0, confirmed := true, good := 0,
    classB := classB, tufts := tufts, meas := [], eng := 0, again := false }

/-- The state with a tag's record replaced, or added. -/
def State.setUmTag (s : State) (t : UmTag) : State :=
  { s with umTags := if s.umTags.any (fun x => x.index == t.index) then s.umTags.map (fun x => if x.index = t.index then t else x)
                     else s.umTags ++ [t] }

/-- The state without a tag's record. -/
def State.dropUmTag (s : State) (i : Nat) : State := { s with umTags := s.umTags.filter (fun t => t.index != i) }

/-- A loading and a TRIM as the 40-bit LINK block of a weft that starts at `first` (R234). -/
def linkBlock (l : Loading) (first : Nat) (trim : Int) : Nat :=
  l.lid * 2 ^ 36 + l.rep * 2 ^ 34 +
  ((List.range l.map.length).foldl (fun a k => a + (l.map.getD k 0) * 2 ^ (10 + 2 * (first + k))) 0) + twos 8 trim * 4

/-- A LINK is sent to a tag (R264): the pending loading once the tag has replied under the latest, with the next LOAD_ID, else the latest
again; TRIM goes with it once. -/
def State.issueLink (s : State) (i first : Nat) : Nat × State :=
  match s.umTag? i with
  | none => (0, s)
  | some t =>
    let fresh := t.latest.isNone || t.confirmed
    match (if fresh then t.pend else none) with
    | some p =>
      let same := match t.latest with | some l => l.rep == p.rep && l.map == p.map | none => false
      if same then
        let l := t.latest.getD p
        (linkBlock l first t.trim, s.setUmTag { t with pend := none, trim := 0, again := false })
      else
        let l := { p with lid := t.nextId }
        (linkBlock l first t.trim,
         s.setUmTag { t with latest := some l, older := t.latest, nextId := t.nextId % 15 + 1, pend := none, confirmed := false, trim := 0, again := false })
    | none =>
      match t.latest with
      | some l => (linkBlock l first t.trim, s.setUmTag { t with trim := 0, again := false })
      | none => (0, s)

/-! ## Wefts and handles (R258, R259, R265) -/

/-- A tuft of a group is held by an assigned entry or in quarantine. -/
def State.tuftTaken (s : State) (group tuft : Nat) : Bool :=
  s.seen.any (fun p => match p.2 with
    | some e => e.assigned && e.group == group && decide (e.wfirst ≤ tuft) && decide (tuft < e.wfirst + e.wcount)
    | none => false) ||
  s.quar.any (fun q => q.group == group && decide (q.first ≤ tuft) && decide (tuft < q.first + q.count))

/-- The lowest free run of `n` tufts in the groups listed. -/
def State.freeWeft (s : State) (groups : List Nat) (n : Nat) : Option (Nat × Nat) :=
  groups.findSome? (fun g => ((List.range (13 - n)).find? (fun f => (List.range n).all (fun k => !s.tuftTaken g (f + k)))).map (fun f => (g, f)))

/-- The normal groups of a geometry (R258). -/
def State.groupRange (s : State) (w g : Nat) : List Nat :=
  match s.draft with
  | none => []
  | some d => match d.groups.find? (fun r => r.warp == w && r.geo == g) with
    | none => []
    | some r => (List.range 240).filter (fun k => decide (r.lo ≤ k) && decide (k ≤ r.hi))

/-- The weak groups (R259). -/
def weakGroups : List Nat := (List.range 15).map (fun k => 240 + k)

/-- The tufts of a weak weft: 4 for class B, 2 for class P, and never more than the tag drives (DEDUCED, log entry 26). -/
def weakCount (classB : Bool) (tufts : Nat) : Nat := max 1 (min (if classB then 4 else 2) tufts)

/-- The lowest handle that no entry holds (R258): one of the first of the entries in use plus one. -/
def State.freeHandle (s : State) : Nat :=
  let used := s.seen.filterMap (fun p => match p.2 with | some e => if e.assigned then some e.handle else none | none => none)
  ((List.range (used.length + 1)).map (fun k => k + 1)).find? (fun h => !used.contains h) |>.getD 1

/-- MARGIN and HYST of R231 in 0.25 dB. -/
def State.umaMargin (s : State) : Int := s.fld Reg.umaCfg 16 8
def State.umaHyst (s : State) : Int := s.fld Reg.umaCfg 8 8

/-- The s and constellations for a weft from what was measured (R259): a tuft not measured takes the lowest s measured. -/
def weftLoad (meas : List (Nat × Int)) (first count cur : Nat) : List (Int × Nat) :=
  let low := meas.foldl (fun (m : Int) e => min m e.2) (meas.headD (0, 0)).2
  (List.range count).map (fun k => (match meas.find? (fun e => e.1 == first + k) with | some e => e.2 | none => low, cur))

/-- A tag's record takes a loading for a new weft (R259), issued with its UASSIGN. The engine that heard the tag counts WEAK (R250). -/
def State.loadForWeft (s : State) (t : UmTag) (first count cur : Nat) : State :=
  let (rep, map, weak) := loadingOf t.classB s.umaHyst (weftLoad t.meas first count cur)
  (if weak then s.cnt (Reg.umaCnt t.eng 7) else s).setUmTag { t with pend := some { lid := 0, rep := rep, map := map }, pendAt := s.up, confirmed := true, good := 0 }

/-- An entry takes an assignment. -/
def State.assignWeft (s : State) (i handle group first count : Nat) : State :=
  s.updSeen i (fun e => { e with handle := handle, group := group, wfirst := first, wcount := count, assigned := true, lost := false })

/-- A UASSIGN for the tag of an entry, with its LINK (R251, R258). -/
def State.uassign (s : State) (i : Nat) : List Air × State :=
  match s.seenAt i with
  | none => ([], s)
  | some e =>
    if !e.assigned then ([], s)
    else
      let (l, s) := s.issueLink i e.wfirst
      ([.uassign e.id e.handle e.group e.wfirst e.wcount l], s)

/-- The constellation of LOAD_ID 0 in a Umaolo round (R235). -/
def Round.const0 (r : Round) : Nat := fieldN (r.link.getD 0 0) 8 2

/-- A tag of a normal group whose loading needs REP above 1 moves to a weak weft, and one of a weak group that has twice been strong moves
back (R264), once the tag has replied under the latest loading issued to it. The loading for the new weft starts from that of LOAD_ID 0 (R259). -/
def State.moveTag (s : State) (r : Round) (i : Nat) : List Air × State :=
  match s.umTag? i, s.seenAt i with
  | some t, some e =>
    if !e.assigned then ([], s)
    else
      let weak := e.group < 240 && (match t.pend.or t.latest with | some p => decide (0 < p.rep) | none => false)
      let back := decide (240 ≤ e.group) && decide (2 ≤ t.good)
      let goal := if !(t.latest.isNone || t.confirmed) then none
                  else if weak then (let n := weakCount t.classB t.tufts; (s.freeWeft weakGroups n).map (fun x => (x.1, x.2, n)))
                  else if back then (s.freeWeft (s.groupRange r.warp (r.geos.headD 0)) 1).map (fun x => (x.1, x.2, 1))
                  else none
      match goal with
      | none => ([], s)
      | some (gr, f, n) => ((s.assignWeft i e.handle gr f n).loadForWeft t f n r.const0).uassign i
  | _, _ => ([], s)

/-- The assignment of a tag ends (R265): its weft is quarantined, and the entry is marked lost. The train in which it ends is no poll of the
released weft, so that it is not counted. -/
def State.releaseWeft (s : State) (i : Nat) : List Air × State :=
  match s.seenAt i with
  | none => ([], s)
  | some e =>
    let s : State := { s with quar := s.quar ++ [{ group := e.group, first := e.wfirst, count := e.wcount, handle := e.handle, empties := 0, shown := true }] }
    let s := s.updSeen i (fun e => { e with assigned := false, lost := true, handle := 0, group := 0, wfirst := 0, wcount := 0 })
    ([.urelease e.handle, .urelease e.handle], s.dropUmTag i)

/-- Every tuft one step down (R265): at BPSK, a repetition, which R264 turns into a move to a weak group. -/
def stepDown (l : Loading) : Loading :=
  if l.map.all (fun c => decide (0 < c)) then { l with map := l.map.map (fun c => c - 1) }
  else { l with map := l.map.map (fun _ => 0), rep := min 3 (l.rep + 1) }

/-- A miss of an assigned tag (R265). -/
def State.missTag (s : State) (i : Nat) : List Air × State :=
  match s.seenAt i with
  | none => ([], s)
  | some e =>
    let n := satN 4 (e.miss + 1)
    let mx := match s.draft with | none => 4 | some d => d.missMax
    let s := s.updSeen i (fun e => { e with miss := n })
    if mx ≤ n then s.releaseWeft i
    else if n = 2 then
      match s.umTag? i with
      | some t => ([], match t.latest with
          | some l => s.setUmTag { t with pend := some (stepDown l), pendAt := s.up, confirmed := true }
          | none => s)
      | none => ([], s)
    else ([], s)

/-! ## Replies (R238 to R246, R252) -/

/-- The payload's CRC-24 agrees (R239): header, body and ALIVE, for a body of `len` bytes. -/
def payloadOk (x : WeftRx) (len : Nat) : Bool :=
  let n := 8 * len + 16
  decide (n + 24 ≤ x.payload.length) && crc24 (x.header.take 24 ++ x.payload.take n) == bitsN x.payload n 24

/-- The body of a reply. -/
def bodyOf (x : WeftRx) (len : Nat) : List Byte := (List.range len).map (fun k => BitVec.ofNat 8 (bitsN x.payload (8 * k) 8))

/-- The detection threshold of Umaolo replies (R187). -/
def State.thrUma (s : State) : Int := match s.draft with | none => 0 | some d => d.thrUma

/-- The assigned tag of a group whose weft starts at a tuft. -/
def State.tagAt (s : State) (group first : Nat) : Option Nat :=
  (s.seen.find? (fun p => match p.2 with | some e => e.assigned && e.group == group && e.wfirst == first | none => false)).map (fun p => p.1)

/-- The tags of a group, by ascending weft. -/
def State.groupTags (s : State) (group : Nat) : List Nat := (List.range 12).filterMap (fun f => s.tagAt group f)

/-- The wefts a slot of the present phase may hold, as first tuft and count (R255, R260, R267). -/
def State.slotWefts (s : State) (r : Round) (u : Uma) : List (Nat × Nat) :=
  match u.phase with
  | .inv | .locate =>
    let t := ew r.words 3 9 1 + 1
    (List.range (2 ^ ew r.words 3 10 2)).map (fun j => (2 + j * t, t))
  | .poll =>
    (List.range 12).filterMap (fun f => match s.tagAt u.group f with
      | some i => (s.seenAt i).map (fun e => (f, e.wcount))
      | none => (s.quar.find? (fun q => q.group == u.group && q.first == f)).map (fun q => (f, q.count)))
  | .read => match s.seenAt u.index with | some e => if e.assigned then [(e.wfirst, e.wcount)] else [] | none => []
  | _ => []

/-- The loading that a header's LOAD_ID names for the tag of a weft (R245): 0 the profile's default, else one of its two kept. -/
def State.loadingNamed (s : State) (r : Round) (tag : Option Nat) (count lid : Nat) : Option Loading :=
  if lid = 0 then some { lid := 0, rep := fieldN (r.link.getD 0 0) 10 2, map := List.replicate count r.const0 }
  else match tag.bind s.umTag? with
    | none => none
    | some t => match t.latest, t.older with
      | some a, some b => if a.lid = lid then some a else if b.lid = lid then some b else none
      | some a, none => if a.lid = lid then some a else none
      | _, _ => none

/-- The tag that a weft belongs to in the present phase. -/
def State.weftTag (s : State) (u : Uma) (first : Nat) : Option Nat :=
  match u.phase with
  | .poll => s.tagAt u.group first
  | .read => some u.index
  | _ => none

/-- The symbols that the slot of the present phase allows a reply (R246): SLOTSYM in a train, an IDENT under the default loading in an inventory
slot, and in a UREAD slot the bytes asked for under either loading kept. R246 leaves the last two windows unsaid (DESIGN CHOICE, log entry 26). -/
def State.slotWindow (s : State) (r : Round) (u : Uma) (count : Nat) : Nat :=
  let need := fun (n : Nat) (l : Option Loading) => match l with | none => 0 | some x => replySyms x.rep x.map n
  match u.phase with
  | .poll => u.slotsym
  | .read => match s.umTag? u.index with
    | some t => max (need (max 1 (eLen r.words)) t.latest) (need (max 1 (eLen r.words)) t.older)
    | none => 0
  | _ => need 10 (s.loadingNamed r none count 0)

/-- How a weft of a released slot stands before its CRC-24 (R244 to R246): an outcome, or the loading it used. -/
def State.weftBefore (s : State) (r : Round) (u : Uma) (x : RxReport) (f : WeftRx) (count : Nat) : WeftOut ⊕ Loading :=
  if x.refused || decide (f.power < s.thrUma) then .inl .empty
  else if !hcrcOk f.header then .inl .collided
  else
    let len := bitsN f.header 4 8
    let lid := bitsN f.header 12 4
    match s.loadingNamed r (s.weftTag u f.first) count lid with
    | none => .inl .crcFail
    | some l =>
      if s.slotWindow r u count < replySyms l.rep l.map len then .inl .crcFail else .inr l

/-- The reply type answers the command that opened the slot (R252). -/
def typeAnswers (ph : UmaPhase) (ty : Nat) : Bool :=
  match ph with
  | .poll => ty == 2
  | .read => ty == 3 || ty == 4
  | _ => ty == 1

/-- The engine counters of R250 on the engine that a beam is routed to. -/
def State.umaCount (s : State) (m k : Nat) : State := s.cnt (Reg.umaCnt (s.fld (Reg.loomBeam m) 24 4 % 4) k)

/-! ## What a good reply changes -/

/-- The s of each tuft of a reply (R231): its SNR less MARGIN, or under repetition the lowest of them plus the gain. -/
def State.tuftS (s : State) (f : WeftRx) (l : Loading) : List (Nat × Int) :=
  let raw := (List.range l.map.length).map (fun k => (f.first + k, ((f.snr.getD k 0 : Nat) : Int) - s.umaMargin))
  if l.rep = 0 then raw
  else
    let m := raw.foldl (fun (m : Int) e => min m e.2) (raw.headD (0, 0)).2
    raw.map (fun e => (e.1, m + repGain l.rep))

/-- The TRIM of the next LINK (R243): zero below 20 ppm, else the rounded tenth of the deviation, half away from zero (PRESUMED, log entry
26). -/
def trimOf (dev : Int) : Int :=
  if -20 < dev ∧ dev < 20 then 0
  else max (-127) (min 127 (if dev < 0 then (-dev + 5) / 10 else -((dev + 5) / 10)))

/-- A reply computes its tag's next loading and TRIM (R231, R264): `l` is the loading it used. -/
def State.nextLoading (s : State) (m i : Nat) (f : WeftRx) (l : Loading) : State :=
  match s.umTag? i with
  | none => s
  | some t =>
    let ms := s.tuftS f l
    let (rep, map, weak) := loadingOf t.classB s.umaHyst ((List.range ms.length).map (fun k => ((ms.getD k (0, 0)).2, l.map.getD k 0)))
    let s := if weak then s.umaCount m 7 else s
    let conf := t.confirmed || (match t.latest with | some x => x.lid == l.lid | none => true)
    let low := ms.foldl (fun (a : Int) e => min a e.2) (ms.headD (0, 0)).2
    let good := if constThr 0 + s.umaHyst ≤ low then t.good + 1 else 0
    let same := match t.latest with | some x => x.rep == rep && x.map == map | none => false
    let late := match t.latest with | some x => x.lid != l.lid && l.lid != 0 | none => false
    s.setUmTag { t with eng := s.fld (Reg.loomBeam m) 24 4 % 4, again := late,
                        pend := if same then none else some { lid := 0, rep := rep, map := map },
                        pendAt := if t.pend.isSome then t.pendAt else s.up, trim := trimOf f.dev, confirmed := conf, good := good, meas := ms }

/-- The words of UMA_DIAG for a weft decoded (R242, R243). -/
def diagWords (f : WeftRx) (l : Loading) : List Word :=
  let b := fun k => if f.first ≤ k ∧ k < f.first + l.map.length then satN 8 (f.snr.getD (k - f.first) 0) else 255
  (List.range 3).map (fun w => wordOf (b (4 * w) + b (4 * w + 1) * 256 + b (4 * w + 2) * 65536 + b (4 * w + 3) * 16777216)) ++
  [wordOf (l.lid * 2 ^ 28 + l.rep * 2 ^ 26 + twos 8 (trimOf f.dev) * 65536 + twos 16 f.dev)]

end Sys2Proof.Machine
end

