-- ==== Sys2Proof/Machine/UmaRun.lean ====
section
/-! DEFINITION. The Umaolo engine of a round (12_umaolo_access_and_peer.md R251 to R268): inventory slots, poll trains, access operations. -/
namespace Sys2Proof.Machine

/-- The Umaolo engine of the round on a warp changes. -/
def State.updUma (s : State) (w : Nat) (f : Uma → Uma) : State := s.updRound w (fun r => { r with uma := r.uma.map f })

/-- The engine before its first command. -/
def umaInit (ph : UmaPhase) (q : Nat) : Uma :=
  { phase := ph, qfp := 16 * q, q := q, quiet := 0, group := 0, groups := [], slot := 0, slotsym := 0, res := [], tries := 0, index := 0xFFF,
    data := [], out := [], last := none, kept := none }

/-- The UQUERY of a round. -/
def uqueryOf (w : List Word) (scope q : Nat) : Air := .uquery scope q (ew w 3 10 2) (ew w 3 9 1)

/-- The groups of a POLL round in ascending order. -/
def pollGroups (w : List Word) : List Nat := (List.range 255).filter (fun g => decide (ew w 4 8 8 ≤ g) && decide (g ≤ ew w 4 0 8))

/-- SLOTSYM of a group (R260). -/
def State.slotSymOf (s : State) (w : List Word) (group : Nat) : Nat :=
  let tags := s.groupTags group
  let need := fun (l : Option Loading) => match l with | none => 0 | some x => replySyms x.rep x.map 0
  let longest := tags.foldl (fun m i => match s.umTag? i with | none => m | some t => max m (max (need t.latest) (need t.older))) 0
  let first := (tags.filter (fun i => match s.seenAt i with | some e => decide (e.wfirst < 6) | none => false)).length
  let n := if eSplit w then max first (tags.length - first) else tags.length
  max longest (max 8 ((n * 100 + 79) / 80))

/-- A train begins (R260), after the frames `pre`. -/
def State.sendPoll (s : State) (w g : Nat) (pre : List Air) : State :=
  match s.roundOn w with
  | none => s
  | some r =>
    let y := s.slotSymOf r.words g
    let s := s.updUma w (fun u => { u with phase := .poll, group := g, slot := 0, slotsym := y, res := [], out := [] })
    let s : State := { s with quar := s.quar.map (fun q => if q.group = g then { q with shown := false } else q) }
    s.sendAir w (pre ++ [.upoll g (ew r.words 3 0 4) y])

/-- The target of an access round (R267): its seen-tag index, when the entry holds an assignment. -/
def State.accTarget (s : State) (r : Round) : Option Nat :=
  match s.findSeen 2 (natOfBits (eId r.words)) with
  | none => none
  | some i => match s.seenAt i with | some e => if e.assigned then some i else none | none => none

/-- The operation on the located tag begins, after the frames `pre` (R267): a UREAD, or a UWRITE. A tag that is to move does so first (R264). -/
def State.umaOp (s : State) (w i : Nat) (read : Bool) (pre : List Air) : State :=
  match s.roundOn w with
  | none => s
  | some r =>
    let (mv, s) := s.moveTag r i
    match s.seenAt i with
    | none => s
    | some e =>
      let (l, s) := s.issueLink i e.wfirst
      if read || eOp r.words == 1 then
        let s := s.updUma w (fun u => { u with phase := .read, index := i, res := [] })
        s.sendAir w (pre ++ mv ++ [.uread e.handle (eBank r.words) (eAddr r.words % 2 ^ 14) (eLen r.words) l])
      else
        let d := ((r.accData.flatMap bytesOfWord).take (eLen r.words))
        let s := s.updUma w (fun u => { u with phase := .wrWait, index := i, res := [] })
        s.sendAir w (pre ++ mv ++ [.uwrite e.handle (eBank r.words) (eAddr r.words % 2 ^ 14) d l])

/-- The first command of the round, or of its next transaction after the carrier was off. After a hop the UQUERY goes out again with SCOPE 0
(DEDUCED, log entry 25). -/
def State.umaBegin (s : State) (w : Nat) : State :=
  match s.roundOn w with
  | none => s
  | some r =>
    match r.kind with
    | .poll =>
      (match r.uma with
       | none =>
         let gs := pollGroups r.words
         let s := s.updRound w (fun r => { r with uma := some { umaInit .poll 0 with groups := gs } })
         s.sendPoll w (gs.headD (ew r.words 4 8 8)) []
       | some u => s.sendPoll w u.group u.out)
    | .access =>
      let s := s.updRound w (fun r => { r with uma := some { umaInit .locate 0 with tries := 1 } })
      (match s.accTarget r with
       | some i => (s.updUma w (fun u => { u with tries := 1 })).umaOp w i false []
       | none => s.sendAir w [uqueryOf r.words 0 0])
    | _ =>
      match r.uma with
      | none =>
        let q := ew r.words 3 28 4
        let all := s.upd.scope1.contains w
        let s : State := { s with upd := { s.upd with scope1 := s.upd.scope1.filter (fun v => v != w) } }
        let s := s.updRound w (fun r => { r with uma := some (umaInit .inv q) })
        s.sendAir w [uqueryOf r.words (if all then 1 else ew r.words 3 8 1) q]
      | some u => (s.updUma w (fun u => { u with phase := .inv, res := [] })).sendAir w (u.out ++ [uqueryOf r.words 0 u.q])

/-! ## Outcomes of a slot (R246) -/

/-- The beam whose decoder takes a weft (R183, R261): under SPLIT the first of the geometry's two, or in poll slots the one of the weft's half;
else the one that heard the weft with the higher SNR on SP2, of two with the same the lower-listed (DESIGN CHOICE, log entry 27). -/
def State.weftBeam (s : State) (r : Round) (u : Uma) (first : Nat) : Nat :=
  let bs := s.liveBeamList r
  let nth := fun (k : Nat) => match bs[k]? with | some e => e.1 | none => 16
  if eSplit r.words && decide (2 ≤ bs.length) then nth (if u.phase == .poll && decide (6 ≤ first) then 1 else 0)
  else
    let snr := fun (e : Nat × Beam) => (e.2.heard.bind (fun x => x.wefts.find? (fun f => f.first == first))).map (fun f => f.beam)
    match bs.foldl (fun (m : Option (Nat × Nat)) e => match m, snr e with
      | m, none => m
      | none, some v => some (e.1, v)
      | some x, some v => if x.2 < v then some (e.1, v) else some x) none with
    | some x => x.1
    | none => nth 0

/-- The outcome of one weft (R246), with its counters (R250). -/
def State.weftResult (s : State) (r : Round) (u : Uma) (f c : Nat) : WeftRes × State :=
  let mk := fun (o : WeftOut) => ({ first := f, count := c, out := o, ty := 0, body := [], snr := [], dev := 0, load := 0, cls := 0, index := 0xFFF } : WeftRes)
  match u.res.find? (fun x => x.first == f) with
  | some x => (x, s)
  | none =>
    let m := s.weftBeam r u f
    match ((s.beam? m).bind (fun b => b.heard)).bind (fun x => (x.wefts.find? (fun y => y.first == f)).map (fun y => (x, y))) with
    | none => (mk .empty, s.umaCount m 2)
    | some (x, y) =>
      match s.weftBefore r u x y c with
      | .inl .empty => (mk .empty, s.umaCount m 2)
      | .inl .collided => (mk .collided, s.umaCount m 3)
      | .inl o =>
        let unknown := (s.loadingNamed r (s.weftTag u f) c (bitsN y.header 12 4)).isNone
        (mk o, (if unknown then s.umaCount m 5 else s).umaCount m 4)
      | .inr _ => (mk .crcFail, s.umaCount m 4)

/-- The outcomes of all wefts of the slot; an engine that refused it under R244 counts it once, on however many beams it came. -/
def State.slotResults (s : State) (r : Round) (u : Uma) : List WeftRes × State :=
  let out := (s.liveBeamList r).filter (fun e => e.2.heard.any (fun x => x.refused))
  let s := ((out.map (fun e => s.fld (Reg.loomBeam e.1) 24 4)).eraseDups).foldl (fun (s : State) d => s.cnt (Reg.umaCnt (d % 4) 6)) s
  (s.slotWefts r u).foldl (fun (a : List WeftRes × State) f =>
    let (x, s) := a.2.weftResult r u f.1 f.2
    (a.1 ++ [x], s)) ([], s)

/-- UASSIGNs for the tags decoded in an inventory slot, in ascending weft order (R257, R258). A loading that needs REP above 1 is not issued within
a normal group, so that the UASSIGN names a weak weft if one is free (R264) (DEDUCED, log entry 26). -/
def State.uassigns (s : State) (r : Round) (res : List WeftRes) : List Air × State :=
  (res.filter (fun x => x.out == .decoded)).foldl (fun (a : List Air × State) x =>
    let (l, s) := a.2.moveTag r x.index
    let (l, s) := if l.isEmpty then s.uassign x.index else (l, s)
    (a.1 ++ l, s)) ([], s)

/-- An inventory slot is over (R257). -/
def State.invOver (s : State) (w : Nat) (r : Round) (u : Uma) : State :=
  let (res, s) := s.slotResults r u
  let col := (res.filter (fun x => x.out == .collided || x.out == .crcFail)).length
  let dec := (res.filter (fun x => x.out == .decoded)).length
  let c := ew r.words 3 16 4
  let lo := ew r.words 3 24 4
  let qfp := if 0 < col then min (16 * ew r.words 3 20 4) (u.qfp + col * c) else if dec = 0 then max (16 * lo) (u.qfp - c) else u.qfp
  let q := (qfp + 8) / 16
  let q := if 0 < col ∧ q = 0 then 1 else q
  let quiet := if col = 0 ∧ dec = 0 ∧ q = lo then u.quiet + 1 else 0
  let (ua, s) := s.uassigns r res
  let s := s.updUma w (fun u => { u with qfp := qfp, q := q, quiet := quiet, res := [], out := [] })
  let e := ew r.words 3 12 4
  if e ≠ 0 ∧ quiet = e then (if ua.isEmpty then s else s.sendAir w ua).endByRule w
  else
    let s := if ua.isEmpty then s else s.sendAir w ua
    s.boundary w (fun s => s.sendAir w (ua ++ [.unext q]))

/-! ## Poll trains (R260, R264, R265) -/

/-- A weft of a poll slot ends: a miss of its tag, or a sign of life from a quarantined weft. -/
def State.pollWeft (a : List Air × State) (group : Nat) (x : WeftRes) : List Air × State :=
  let (out, s) := a
  match s.tagAt group x.first with
  | some i =>
    if x.out = .decoded ∨ x.out = .timeout then (out, s)
    else (let (l, s) := s.missTag i; (out ++ l, s))
  | none =>
    match s.quar.find? (fun q => q.group == group && q.first == x.first) with
    | none => (out, s)
    | some q =>
      if x.out = .empty then (out, s)
      else (out ++ (if q.shown then [] else [.urelease q.handle]),
            { s with quar := s.quar.map (fun y => if y.group = group ∧ y.first = x.first then { y with empties := 0, shown := true } else y) })

/-- A poll of a group is over (R265): a quarantined weft that stayed empty counts one more, and is free after eight. -/
def State.pollQuar (s : State) (group : Nat) : State :=
  let l := s.quar.map (fun q => if q.group = group ∧ !q.shown then { q with empties := q.empties + 1 } else q)
  { s with quar := l.filter (fun q => decide (q.empties < 8)) }

/-- The order of R264 for a tag's ULINK: 0 a loading that lowers a tuft, 1 another pending one, 2 a TRIM, or the latest LINK once more for a tag that
has answered under the older loading (R266; its place in the order is not said: DESIGN CHOICE, log entry 26); none for no LINK to send. -/
def UmTag.linkClass (t : UmTag) : Option Nat :=
  let fresh := t.latest.isNone || t.confirmed
  let bare := if t.trim = 0 && !t.again then none else some 2
  match t.pend with
  | some p =>
    if !fresh then bare
    else
      let low := match t.latest with
        | some l => (List.range p.map.length).any (fun k => decide (p.map.getD k 0 < l.map.getD k 0)) || decide (l.rep < p.rep)
        | none => false
      some (if low then 0 else 1)
  | none => bare

/-- The tag that R264 serves next among those listed. -/
def State.nextLink (s : State) (tags : List Nat) : Option Nat :=
  let key := fun (i : Nat) => match s.umTag? i with
    | none => none
    | some t => (t.linkClass).map (fun c => (c, if c = 1 then t.pendAt else 0, match s.seenAt i with | some e => e.handle | none => 0))
  let lt := fun (a b : Nat × Nat × Nat) => a.1 < b.1 || (a.1 == b.1 && (a.2.1 < b.2.1 || (a.2.1 == b.2.1 && a.2.2 < b.2.2)))
  (tags.foldl (fun (m : Option (Nat × (Nat × Nat × Nat))) i => match key i with
    | none => m
    | some k => match m with | none => some (i, k) | some x => if lt k x.2 then some (i, k) else m) none).map (fun x => x.1)

/-- Up to `n` ULINK frames (R264; structural on `n`). -/
def State.ulinks (s : State) (tags : List Nat) : Nat → List Air × State
  | 0 => ([], s)
  | n + 1 =>
    match s.nextLink tags with
    | none => ([], s)
    | some i =>
      match s.seenAt i with
      | none => ([], s)
      | some e =>
        let (l, s) := s.issueLink i e.wfirst
        let (r, s) := s.ulinks (tags.filter (fun k => k != i)) n
        (.ulink e.handle l :: r, s)

/-- The group after the present one, in ascending order and round again. -/
def nextGroup (gs : List Nat) (g : Nat) : Nat := match gs.find? (fun x => decide (g < x)) with | some x => x | none => gs.headD g

/-- A slot of a train is over (R260): the next slot of the train goes on in the same reception; after the last, moves and ULINKs go out, also
where the round ends here (R264, R265), and the next train follows. -/
def State.pollOver (s : State) (w : Nat) (r : Round) (u : Uma) : State :=
  let (res, s) := s.slotResults r u
  let (out, s) := res.foldl (fun a x => State.pollWeft a u.group x) (u.out, s)
  if u.slot < ew r.words 3 0 4 then
    let s := s.updUma w (fun u => { u with slot := u.slot + 1, res := [], out := out })
    let s := s.updRound w (fun r => { r with trans := r.trans + 1 })
    (s.liveBeams r).foldl (fun (s : State) m => s.updBeam m (fun b =>
      { b with heard := none, rec_ := if b.locked then some b.last else none })) s
  else
    let s := s.pollQuar u.group
    let tags := s.groupTags u.group
    let (mv, s) := tags.foldl (fun (a : List Air × State) i =>
      let (l, s) := a.2.moveTag r i
      (a.1 ++ l, s)) ([], s)
    let all := u.groups.flatMap s.groupTags
    let (ul, s) := s.ulinks all (min 12 (ew r.words 3 4 4))
    let g := nextGroup u.groups u.group
    let pre := out ++ mv ++ ul
    let s := s.updUma w (fun u => { u with res := [], out := [], group := g })
    let s := if pre.isEmpty then s else s.sendAir w pre
    s.boundary w (fun s => s.sendPoll w g pre)

/-! ## Access (R267) -/

/-- The operation is over: its TAG_DATA, and the end of the round. -/
def State.umaFinish (s : State) (w : Nat) (st : Status) (err : Nat) (out : List Air) : State :=
  match s.roundOn w with
  | none => s
  | some r =>
    match r.uma with
    | none => s
    | some u =>
      let ok := st == .ok
      let data := if ok && eOp r.words == 1 then u.data else []
      let count := if !ok then 0 else if eOp r.words = 1 then u.data.length else eLen r.words
      let s := s.queueWarp r.warp (s.tagDataRec r st err u.index count data)
      let s := if out.isEmpty then s else s.sendAir w out
      (s.updUma w (fun u => { u with phase := .done })).endByRule w

/-- One step is over without an end of the operation: a round decided before its commit point stops (R287). -/
def State.umaStep (s : State) (w : Nat) (go : State → State) : State :=
  match s.roundOn w with
  | none => s
  | some r => if r.status.isSome && (r.txn != some true) then s.downRound r false else go s

/-- A locating slot is over (R267). -/
def State.locateOver (s : State) (w : Nat) (r : Round) (u : Uma) : State :=
  let (res, s) := s.slotResults r u
  let (ua, s) := s.uassigns r res
  let t := ew r.words 3 9 1 + 1
  let hw := ew r.words 3 10 2
  let j := if hw = 0 then 0 else crcHw hw (natOfBits (eId r.words))
  let last := (res.find? (fun x => x.first == 2 + j * t)).map (fun x => x.out)
  let s := s.updUma w (fun u => { u with res := [], last := last })
  match s.accTarget r with
  | some i => (s.updUma w (fun u => { u with tries := 1 })).umaStep w (fun s => s.umaOp w i false ua)
  | none =>
    if 3 ≤ u.tries then s.umaFinish w (if last = some .collided then .collision else .noReply) 0xFF ua
    else (s.updUma w (fun u => { u with tries := u.tries + 1 })).umaStep w (fun s => s.sendAir w (ua ++ [uqueryOf r.words 0 0]))

/-- What a decoded reply to a UREAD says (R267): its status and the tag's error code, by its alive class, type and body. -/
def readStatusU (cls ty : Nat) (body : List Byte) : Status × Nat :=
  if cls = 1 then (.aliveRepeat, 0xFF)
  else if ty = 4 then let c := (body.headD 0).toNat; (if c = 1 then .locked else .refused, c)
  else (.ok, 0xFF)

/-- A UREAD slot is over (R267). -/
def State.readOver (s : State) (w : Nat) (r : Round) (u : Uma) : State :=
  let (res, s) := s.slotResults r u
  match res.head? with
  | none => s.umaFinish w .noReply 0xFF []
  | some x =>
    if x.out = .decoded then
      let (st, err) := readStatusU x.cls x.ty x.body
      let want := (r.accData.flatMap bytesOfWord).take (eLen r.words)
      (s.updUma w (fun u => { u with data := x.body })).umaFinish w (if st = .ok ∧ eOp r.words = 2 ∧ x.body ≠ want then .refused else st) err []
    else
      let (out, s) := s.missTag u.index
      let gone := match s.seenAt u.index with | some e => !e.assigned | none => true
      if gone || decide (3 ≤ u.tries) then
        s.umaFinish w (match x.out with | .collided => .collision | .crcFail => .crcFail | _ => .noReply) 0xFF out
      else
        (s.updUma w (fun u => { u with tries := u.tries + 1, res := [] })).umaStep w (fun s => s.umaOp w u.index true out)

/-- The slot of the present phase is over. -/
def State.umaOver (s : State) (w : Nat) : State :=
  match s.roundOn w with
  | none => s
  | some r =>
    match r.uma with
    | none => s
    | some u =>
      match u.phase with
      | .inv => s.invOver w r u
      | .poll => s.pollOver w r u
      | .locate => s.locateOver w r u
      | .read => s.readOver w r u
      | _ => s

/-- A train in which no beam has locked: each of its slots is over, every weft EMPTY (structural on the slots). -/
def State.emptyTrain (s : State) (w : Nat) : Nat → State
  | 0 => s
  | n + 1 => (s.umaOver w).emptyTrain w n

/-- A slot, or the rest of a train, with no reception is over (R206, R246). -/
def State.umaEmpty (s : State) (w : Nat) : State :=
  match (s.roundOn w).bind (fun r => r.uma.map (fun u => (r, u))) with
  | none => s
  | some (r, u) => if u.phase = .poll then s.emptyTrain w (ew r.words 3 0 4 + 1 - u.slot) else s.umaOver w

end Sys2Proof.Machine
end

