-- ==== Sys2Proof/Machine/Carrier.lean ====
section
/-! DEFINITION. The commands of the carrier: ramps, hops, calibration points and the CW interval (08_rf_ports_and_illuminators.md R155 to R169,
R179, R275). -/
namespace Sys2Proof.Machine

/-! ## Hops -/

/-- A command that waits for the guard hop (R207). -/
def Round.heldCmd (r : Round) : Option (Air × Bool) := match r.leg with | some l => if l.phase == .accHeld then l.held else none | none => none

/-- The channel of its group that a calibration round goes on with after the guard (R164): the next in the group (DESIGN CHOICE, log entry 28). -/
def State.nextInGroup (s : State) (n : Nat) : Nat :=
  match s.region, (s.tx n).chan with
  | some rg, some ch =>
    let g := rg.groups.getD (regionGroup rg ch) []
    g.getD (((g.findIdx? (fun x => x == ch)).getD 0 + 1) % g.length) ch
  | _, _ => 0

/-- The guard meets the own slot of a peer window (R277): the frame on the air is lost. -/
def State.guardPeer (s : State) (r : Round) : State :=
  if r.kind == RoundKind.peerWin then { s with peer := { s.peer with sent := s.peer.sent.dropLast } } else s

/-- The guard acts on one illuminator (R164) with its carrier on: the transaction in flight ends with TIMEOUT, one that is past its commit point in
a round already stopped keeps its result, and there is one ramp-down (R177). A split it cuts counts as failed (R213), and a transaction whose
command waits for this hop goes on after it (R207) (DEDUCED, log entry 28). -/
def State.guardOn (s : State) (n ch : Nat) : State :=
  let s := s.cnt (Reg.txcCntGuard n)
  match s.roundOfTxc n with
  | none => s.rampDown n false .off
  | some r =>
    if r.status.isSome then (s.keepResult r).downRound r false
    else if r.kind == RoundKind.cal then (s.cutPoint r).rampDown n false (.hop (s.nextInGroup n))
    else match r.heldCmd with
    | some (a, _) => (s.updLeg r.warp (fun l => { l with held := some (a, true) })).rampDown n false (.hop ch)
    | none =>
      let s := match r.leg with | some l => if l.split.isEmpty then s else s.legCount r 7 | none => s
      let s := (s.guardPeer r).txnTimeout r
      if r.noNew then s.downRound r false
      else (s.updRound r.warp (fun r => { r with hopDue := false })).rampDown n false (.hop ch)

/-- The guard acts on one illuminator of the channel (R163, R164): a carrier on hops, one that ramps down to come back hops as well, and one
that tunes tunes to the next channel instead. -/
def State.guardOne (s : State) (n ch : Nat) : State :=
  let up := s.ramp n == 1 || s.ramp n == 2
  if up then s.guardOn n ch
  else match s.roundOfTxc n with
    | none => s
    | some r =>
      let rf := r.kind == .inventory || r.kind == .access || r.kind == .poll
      if s.ramp n = 3 then (if r.phase == .ending then s else s.rampDown n false (.hop (if rf then ch else s.nextInGroup n)))
      else if s.ramp n = 4 && !(s.tx n).cancelUp then
        (if rf then s.retune n ch (levelCode r.words) else if r.kind == RoundKind.cal then s.retune n (s.nextInGroup n) calLevel else s)
      else s

/-- GUARD_HOP (R164): every illuminator on the channel that has reached its limit hops (DEDUCED, log entry 28). The guard never cuts a delayed-reply
window, for which 25 ms were left when its command was sent (R207). -/
def execGuardHop (n : Fin 4) (s : State) : Host.Outcome State Fault Refusal :=
  let n := n.val
  if s.ramp n != 1 && s.ramp n != 2 then .next s
  else
    let ns := (List.range 4).filter (fun k => k == n || (!s.txIdle k && (s.tx k).chan == (s.tx n).chan))
    if ns.any (fun k => match s.roundOfTxc k with | some r => r.awaitsDelayed | none => false) then .next s
    else
      let (ch, s) := s.pickChan n false none
      .next (ns.foldl (fun (s : State) k => s.guardOne k ch) s).recheckHops

/-- OFF_TIME_EXPIRY (R164): a hop that waits for the channel ramps up. -/
def execOffTimeExpiry (ch : BitVec 6) (s : State) : Host.Outcome State Fault Refusal :=
  let c := ch.toNat
  let s : State := { s with chanOff := s.chanOff.filter (fun k => k != c) }
  .next s.wakeWaiting

/-- HOP_EPOCH (R275, R278): with coordination the colour names the next entry of the hop order; a round whose entry allows it hops at its next
transaction boundary, under COCHANNEL all rounds on air or none. -/
def execHopEpoch (s : State) : Host.Outcome State Fault Refusal :=
  match s.draft, s.region with
  | some d, some rg =>
    if !s.coreOn then .next s
    else
      let len := rg.hopOrder.length
      let e := if d.hopEpoch = 0 then 0 else s.now / (1000 * d.hopEpoch)
      let p := (e + s.fld Reg.peerColour 0 2 * (len / 4)) % len
      let s : State := if s.bit Reg.peerCfg 1 then { s with hopPos := p, txc := s.txc.map (fun t => { t with hopPos := p }) } else s
      let on := (List.range 4).filter s.serving
      let may := fun n => match s.roundOfTxc n with | some r => eHop r.words == 1 | none => false
      let go := if rg.spread then on.filter may else if on.all may then on else []
      let s : State := { s with rounds := s.rounds.map (fun r => match r.txc with
        | some n => if go.contains n then { r with hopDue := true } else r
        | none => r) }
      .next s.recheckHops
  | _, _ => .next s

/-! ## Ramps -/

/-- RAMP_DOWN_END (R158). -/
def execRampDownEnd (n : Fin 4) (s : State) : Host.Outcome State Fault Refusal :=
  let n := n.val
  if s.ramp n ≠ 3 then .next s else .next (((s.holdTaps.portOpens n).airEnds n).afterDown n).recheckHops

/-- SYNTH_SETTLED (R155, R159, R160, R164): the ramp-up begins, waits out an off-time, or is cancelled. In a peer round the PA stays off (R178). -/
def execSynthSettled (n : Fin 4) (s : State) : Host.Outcome State Fault Refusal :=
  let n := n.val
  let relock := match (s.tx n).after with | .relock _ _ => !(s.tx n).cancelUp | _ => false
  if s.ramp n != 4 || relock || (s.tx n).waiting then .next s
  else if (s.tx n).cancelUp then .next ((s.updTx n (fun t => { t with cancelUp := false })).afterDown n).recheckHops
  else match s.roundOfTxc n with
    | none => .next (s.setRamp n 0)
    | some r =>
      .next (if r.kind.peer then s.setRamp n 0 else (s.upOrWait n).noteUp n)

/-- RAMP_UP_END (R158): the CW interval, or a calibration point, begins; in the module's own peer slot its frames go out in mode OFDM (R156,
R247). -/
def execRampUpEnd (n : Fin 4) (s : State) : Host.Outcome State Fault Refusal :=
  let n := n.val
  if s.ramp n ≠ 1 then .next s
  else
    let s := (s.setRamp n 2).setMode n 1
    match s.roundOfTxc n with
    | none => .next s
    | some r => .next (((if r.kind.peer then s.setMode n 4 else s).updRound r.warp (fun r => { r with phase := if r.phase == .starting then .running else r.phase })).recheckHops)

/-! ## Calibration (R165 to R169) -/

/-- What one run of a point leaves in the canceller of a chain (R166, R167): the serving tap at the seed it found, the others at zero, and a
suppression of 45 dB or more when it has passed. -/
def State.calTaps (s : State) (n txc : Nat) (pass : Bool) : State :=
  let s := s.adaptTaps n
  let v := s.reg (Reg.rxcCancStat n)
  let s := if pass then s.setReg (Reg.rxcCancStat n) (cancWord (setFieldN v 8 8 (max 45 (fieldN v 8 8)))) else s
  (List.range 4).foldl (fun (s : State) k => if k = txc then s else s.setReg (Reg.rxcCancTap n k) 0) s

/-- One run of a point (R167) is verified: its chains count it, and a point that has passed gives each of them its seed. Its switches open when its
ramp-down has ended (`pointOver`). -/
def State.pointEnd (s : State) (r : Round) (n g c : Nat) (pass : Bool) : State :=
  let pairs := match s.geo? r.warp g with | some x => s.calPairs x | none => []
  let s := pairs.foldl (fun (s : State) e => (s.cntSat (Reg.rxcCancRecal e.1) 0 16).calTaps e.1 n pass) s
  let s : State := if pass then
      { s with seedWt := pairs.foldl (fun m e => sput (fun _ => 0) m (seedKey e.1 r.warp g c) (s.reg (Reg.rxcCancTap e.1 n))) s.seedWt }
    else s
  s.updRound r.warp (fun r => { r with verdict := some pass })

/-- CAL_POINT_END (R167). -/
def execCalPointEnd (w : Fin 4) (pass : Bool) (s : State) : Host.Outcome State Fault Refusal :=
  match s.roundOn w with
  | none => .next s
  | some r =>
    match r.txc, r.points with
    | some n, (g, c) :: _ => .next (if r.kind == RoundKind.cal && s.ramp n == 2 then (s.pointEnd r n g c pass).rampDown n true .change else s)
    | _, _ => .next s

/-- CAL_PERIOD (R169): one channel group, taken in turn, on every warp. -/
def execCalPeriod (s : State) : Host.Outcome State Fault Refusal :=
  match s.region with
  | none => .next s
  | some rg =>
    if !s.coreOn ∨ rg.groups.length = 0 then .next s
    else
      let c := s.calNext % rg.groups.length
      let s : State := { s with calNext := (c + 1) % rg.groups.length }
      .next ((List.range 4).foldl (fun (s : State) w => s.askCal w ((s.calPoints w (fun _ => true)).filter (fun e => e.2 == c))) s)

/-- DIVERGE (R169): the serving suppression of a chain in a beam has stayed below 40 dB; counted at most once a second for a point. -/
def execDiverge (n : Fin 16) (s : State) : Host.Outcome State Fault Refusal :=
  let n := n.val
  match s.rounds.find? (fun r => (s.liveBeamList r).any (fun e => e.2.chains.any (fun x => x.1 == n))) with
  | none => .next s
  | some r =>
    match r.txc, r.geos, s.region with
    | some t, g :: _, some rg =>
      (match (s.tx t).chan with
       | none => .next s
       | some ch =>
         if s.ramp t ≠ 2 then .next s
         else
           let c := regionGroup rg ch
           let k := 256 * r.warp + 8 * g + c
           let last := sget (fun _ => 0) s.divAt k
           if last ≠ 0 ∧ s.up + 1 < last + 1000000 then .next s
           else
             let s : State := { s with divAt := sput (fun _ => 0) s.divAt k (s.up + 1) }
             .next ((s.cntSat (Reg.rxcCancRecal n) 16 16).askCal r.warp [(g, c)]))
    | _, _, _ => .next s

/-! ## The CW interval (R166, R179, R181) -/

/-- The gain of a chain is fixed by the peak it measured. -/
def State.fixGain (s : State) (gains : List ChainGain) (n : Nat) : State :=
  match gains.find? (fun g => g.chain.val == n) with
  | some g => s.setGain n g.peak
  | none => if s.bit (Reg.rxcCfg n) 7 then s.setGain n 0 else s

/-- CW_INTERVAL_END (R166, R179, R211, R257): the gains are fixed, and the engine sends its first command, unless the round's operation is over
or a hop is due. A command that waited for a guard hop goes out after it (R207), inside its transaction
and with the gain that has. -/
def execCwIntervalEnd (w : Fin 4) (gains : List ChainGain) (s : State) : Host.Outcome State Fault Refusal :=
  match s.roundOn w with
  | none => .next s
  | some r =>
    match r.txc with
    | none => .next s
    | some n =>
      let rf := r.kind == .inventory || r.kind == .access || r.kind == .poll
      if !rf || s.ramp n != 2 || r.phase != .running || (r.txn.isSome && !(match r.heldCmd with | some (_, made) => made | none => false)) then .next s
      else
        let chains := (s.liveBeamList r).flatMap (fun e => e.2.chains.map (fun x => x.1))
        let past := (match r.leg with | some l => l.phase == .done | none => false) || (match r.uma with | some u => u.phase == .done | none => false)
        match r.heldCmd with
        | some (a, true) => .next (s.sendOp w true a)
        | _ =>
        let s := chains.foldl (fun (s : State) k => s.fixGain gains k) s
        if past then .next (s.downRound r false)
        else if r.hopDue then .next (s.hopIfTogether n)
        else if eProto r.words = 2 then .next (s.umaBegin w)
        else .next (s.legBegin w)

end Sys2Proof.Machine
end

