-- ==== Sys2Proof/Machine/AbortOps.lean ====
section
/-! DEFINITION. ABORT of a command by its number (13_rounds_and_seen_table.md R284 to R289). -/
namespace Sys2Proof.Machine

/-- A command is decided ABORTING (R285): a round that waits ends at once, one in flight is stopped (R287, R289). -/
def State.abortLive (s : State) (seq : Nat) : State :=
  let s : State := { s with cmds := s.cmds.map (fun c => if c.seq == seq then { c with cell := some false } else c) }
  match s.cands.find? (fun c => c.seq == seq) with
  | some c =>
    let w := s.entryWords c.entry
    ((s.dropCand c).cnt (Reg.schedCnt 3)).roundAtOnce { c with warp := eWarp w } w .aborted false
  | none => match s.rounds.find? (fun r => r.seq == seq) with
    | some r => s.stopRound r .aborted false false
    | none => s

/-- The status of an ABORT (R286), and its effect. -/
def State.hostAbort (s : State) (seq : Nat) : Status × State :=
  if !s.wasAssigned seq then (.refused, s)
  else match s.cmd? seq with
    | none => (if s.abortedEnded.contains seq then .ok else .abortLate, s)
    | some c => match c.cell with
      | some true => (.abortLate, s)
      | some false => (.ok, s)
      | none => (.ok, s.abortLive seq)

end Sys2Proof.Machine
end

