-- ==== Sys2Proof/Machine/LoomOps.lean ====
section
/-! DEFINITION. What the Loom and the decoders make of the samples of a reception (09_receive_chains_and_loom.md R184, R185, R188, R191, R193; 10_legacy_air_interface.md
R203, R205, R221; 11_umaolo_physical_layer.md R241 to R246). -/
namespace Sys2Proof.Machine

/-! ## Weights and decoding -/

/-- The samples of the chains of a beam on the training symbols, in the beam's order. -/
def Beam.trains (b : Beam) (x : RxSignal) : List (List Cx) :=
  b.chains.map (fun e => match x.chains.find? (fun c => c.chain.val == e.1) with | some c => c.train | none => [])

/-- A later slot of a poll train, which sends no preamble of its own (R260). -/
def Round.laterSlot (r : Round) : Bool := r.uma.any (fun u => u.phase == .poll && decide (0 < u.slot))

/-- The signs of the training symbols (R184): the preamble of R237 of the slot, none in a later slot of a train, or of a peer frame, that of R220, or
that of an 18000-63 reply. -/
def Round.knownSigns (r : Round) (x : RxSignal) : List Bool :=
  if r.laterSlot then [] else if r.uma.isSome then (preamble slotSeed).flatten
  else if r.leg.isNone then (preamble (peerSeed (x.seedRep % 4))).flatten
  else if r.isU0 then u0Preamble else isoPreamble (r.la 20 2) (r.la 19 1 == 1)

/-- The weights of a beam at the end of the training symbols of a reception (R184), from those its chains held before (R185). -/
def State.weightsAfter (s : State) (r : Round) (b : Beam) (x : RxSignal) : List Cx :=
  trained (s.fld Reg.loomCtrl 8 4) (b.trains x) (r.knownSigns x) (b.chains.map (fun e => s.weightAt r.warp b.geo e.1))

/-- The chains of a beam keep the weights that the training symbols of a reception gave them, and LOOM_WTn shows them (R184, R185). -/
def State.adaptWeights (s : State) (r : Round) (b : Beam) (x : RxSignal) : State :=
  let w := s.weightsAfter r b x
  (List.range b.chains.length).foldl (fun (s : State) k =>
    let n := (b.chains.getD k (0, 0)).1
    let v := w.getD k (0, 0)
    ({ s with wts := sput (fun _ => (0, 0)) s.wts (128 * n + 32 * r.warp + b.geo) v } : State).setReg (Reg.loomWt n) (weightWord v)) s

/-- The band centre of a Umaolo or peer round in Hz (R226): that of its link profile, else the default of 1.25 MHz, which a code of 0 stands for
(DEDUCED, log entry 33). -/
def Round.bcHz (r : Round) : Int :=
  let c := fieldN (r.link.getD 0 0) 16 6
  25000 * (if c = 0 then 50 else c)

/-- The REP codes under which a weft's header may come (R235, R245): those of the two loadings kept of its tag, latest first, and of LOAD_ID 0. -/
def State.weftReps (s : State) (r : Round) (tag : Option Nat) : List Nat :=
  let kept := match tag.bind s.umTag? with | some t => t.latest.toList ++ t.older.toList | none => []
  kept.map (fun l => l.rep) ++ [fieldN (r.link.getD 0 0) 10 2]

/-- The cells of several chains in the stream of the beam, symbol by symbol (R184). -/
def Beam.cellsOf (b : Beam) (w : List Cx) (cells : List (Fin 16 × List (List Cx))) : List (List Cx) :=
  let per := b.chains.map (fun e => match cells.find? (fun c => c.1.val == e.1) with | some c => c.2 | none => [])
  (List.range (per.foldl (fun m l => max m l.length) 0)).map (fun k => stream w (per.map (fun l => l.getD k [])))

/-- The cells of a weft in the stream of the beam from symbol `n` on, without the common offset `a` of the slot (R244). -/
def Beam.weftCells (b : Beam) (w : List Cx) (a : Int) (n : Nat) (f : WeftSig) : List (List Cx) :=
  let l := b.cellsOf w f.cells
  (List.range l.length).map (fun k => unturn a (n + k) (l.getD k []))

/-- The channel estimates of a weft (R191, R241): of each chain on WP0, before the beam is combined. -/
def Beam.weftChans (b : Beam) (f : WeftSig) (t : Nat) : List (Nat × Cx) :=
  b.chains.map (fun e => (e.1, match f.cells.find? (fun c => c.1.val == e.1) with
    | some c => chanEst (c.2.headD []) (pilotOf f.first t)
    | none => (0, 0)))

/-- The wefts of a slot as the engine hears them on one beam (R241 to R245), those that the slot may hold (R255, R260, R267). The slots of a train
follow one preamble (R260). -/
def State.hearWefts (s : State) (r : Round) (u : Uma) (b : Beam) (w sp : List Cx) (x : RxSignal) : List WeftRx :=
  let a := slotOffset sp
  let n := 3 + (if u.phase == .poll then u.slot * u.slotsym else 0)
  (s.slotWefts r u).filterMap (fun e =>
    (x.wefts.find? (fun f => f.first == e.1)).map (fun f =>
      let tag := s.weftTag u f.first
      hearWeft (s.fld Reg.umaCfg 4 4) r.bcHz f.first e.2 f.power (s.weftReps r tag) (s.loadingNamed r tag e.2) (b.weftCells w a n f)
        (unturnPre a sp) (b.weftChans f e.2)))

/-- The chain of a beam that heard a reply strongest, with its RSSI (R182); of chains with equal RSSI the first of the beam's report (DESIGN CHOICE, log
entry 27). -/
def Beam.strongest (b : Beam) (l : List ChainRx) : Nat × Int :=
  match l.filter (fun c => b.chains.any (fun e => e.1 == c.chain.val)) with
  | [] => ((b.chains.headD (0, 0)).1, -200)
  | c :: t => let k := t.foldl (fun (m : ChainRx) y => if m.rssi < y.rssi then y else m) c
              (k.chain.val, k.rssi)

/-- A peer frame as PE decides it from what a beam has received (R247, R248). -/
def State.peerFrame (s : State) (b : Beam) (w : List Cx) (x : RxSignal) : PeerFrame :=
  hearPeer (s.fld Reg.umaCfg 4 4) x.seedRep (b.strongest x.chains).2 (stream w (b.trains x)) (b.cellsOf w x.cells)

/-- The stream of the slot preamble that a reception in a slot has: that of the train in its later slots (R260). -/
def Beam.spOf (b : Beam) (r : Round) (w : List Cx) (x : RxSignal) : List Cx := if r.laterSlot then b.sp else stream w (b.trains x)

/-- What a reception has brought (R188): in a Umaolo slot a header that passes its check (R246), none when the slot is refused (R244), with the SNR of
the highest weft whose header passes (R242); of a peer frame a header that passes its own (R247); else the first 8 bits without a code violation
(R205), of a reply within the range of its decoder (R203, R221), which R188 leaves to a rule that class U0 has not (DESIGN CHOICE, log entry 27). `w` are
the weights that combine the beam. -/
def State.report (s : State) (r : Round) (b : Beam) (w : List Cx) (x : RxSignal) : RxReport :=
  let xs := b.trains x
  let chans := (List.range b.chains.length).map (fun k => ((b.chains.getD k (0, 0)).1, chanEst (xs.getD k []) (r.knownSigns x)))
  let base : RxReport := { header := false, bits := x.bits, collision := x.collision, chains := x.chains, chans := chans, snr := x.snr, dev := x.dev,
                           eqBad := false, refused := false, wefts := [], at_ := s.now,
                           ties := [] }
  match r.uma, r.leg with
  | some u, _ =>
    let sp := b.spOf r w x
    if offsetOut (slotOffset sp) r.bcHz then { base with snr := 0, refused := true }
    else
      let l := s.hearWefts r u b w sp x
      let good := l.filter (fun f => hcrcOk f.header)
      { base with snr := (good.getLast?.map (fun f => f.beam)).getD 0, wefts := l, header := !good.isEmpty }
  | none, some _ =>
    let wave := stream w (b.chains.map (fun e => match x.chains.find? (fun c => c.chain.val == e.1) with | some c => c.wave | none => []))
    { base with header := r.devOk x.dev && decide (8 ≤ x.bits.length) && x.collision.all (fun k => decide (8 ≤ k)),
                eqBad := !r.isU0 && dfeBad (s.fld Reg.legCfg 4 4) wave (isoPreamble (r.la 20 2) (r.la 19 1 == 1)) }
  | none, none =>
    { base with snr := sp2Snr (peerSeed (x.seedRep % 4)) 0 12 (unturnPre (slotOffset (stream w xs)) (stream w xs)),
                header := peerHdOk x.seedRep (s.peerFrame b w x).header }

/-- What one chain measured on a reply (R181, R182): RXCn_RSSI, the reply and clip counts, the CLIP flag and the lower gain that follows. -/
def State.chainRx (s : State) (snr : Nat) (c : ChainRx) : State :=
  let n := c.chain.val
  let s := s.setReg (Reg.rxcRssi n) (wordOf (satN 8 snr * 2 ^ 24 + twos 16 c.rssi))
  let s := (s.cnt (Reg.rxcCntReply n)).setBit (Reg.rxcStat n) 6 c.clip
  if c.clip then (s.cnt (Reg.rxcCntClip n)).updChain n (fun x => { x with clipped := true }) else s

/-- What the chains of a beam measured on a reply. -/
def State.chainsRx (s : State) (b : Beam) (x : RxReport) : State :=
  x.chains.foldl (fun (s : State) c => if b.chains.any (fun e => e.1 == c.chain.val) then s.chainRx x.snr c else s) s

/-! ## Position (R191, R193) -/

/-- The x of a port in cm; the draft names one for every port. -/
def portXOf (d : DraftPos) (p : Nat) : Int := match d.portX.find? (fun e => e.1 == p) with | some e => e.2 | none => 0

/-- The distance from a port to a tag at `x` in units of 2^-16 cm. -/
def portDist (d : DraftPos) (p : Nat) (x : Int) : Nat :=
  let dx := (x - portXOf d p).natAbs
  rootOf ((dx * dx + d.depth * d.depth) * 2 ^ 32)

/-- theta_k at `x` without the offset (R191): minus the turns that a carrier of `hz` makes over both distances, light travelling
29,979,245,800 cm in a second. -/
def thetaAt (d : DraftPos) (hz t r : Nat) (x : Int) : Int :=
  -((hz * (portDist d t x + portDist d r x) * 65536 / 29979245800 : Nat) : Int)

/-- phi of a port and channel group (R193) in units of 2^-32 turn. -/
def State.phiOf (s : State) (p g : Nat) : Int := (sget (fun _ => 0) s.phi (8 * p + g)).toInt

/-- The channel group and the carrier of a round's illuminator now in Hz, with its steering (R248). -/
def State.groupOfRound (s : State) (r : Round) : Nat :=
  match s.region, r.txc.bind (fun n => (s.tx n).chan) with | some rg, some c => regionGroup rg c | _, _ => 0
def State.hzOfRound (s : State) (r : Round) : Nat :=
  match s.region, r.txc with
  | some rg, some n => (match (s.tx n).chan with | some c => (1000 * (regionKhz rg c : Int) + (s.tx n).steer).toNat | none => 0)
  | _, _ => 0

/-- The transmit port of a beam's geometry. -/
def State.txPortOf (s : State) (r : Round) (b : Beam) : Nat :=
  match s.geo? r.warp b.geo with | some g => g.port | none => r.port

/-- The score of a grid point in units of 2^-40 (R191), from the argument of each chain's estimate less its offset, with its port. -/
def posScore (d : DraftPos) (hz t : Nat) (l : List (Int × Nat)) (x : Int) : Nat :=
  let v := csum (l.map (fun e => expJ (e.1 - thetaAt d hz t e.2 x)))
  rootOf (cabs2 v).toNat / l.length

/-- The grid points of R191: 5 cm apart, 300 cm beyond the ports of the geometry on either side. -/
def posGrid (d : DraftPos) (ports : List Nat) : List Int :=
  let xs := ports.map (portXOf d)
  let lo := xs.foldl min (xs.headD 0) - 300
  let hi := xs.foldl max (xs.headD 0) + 300
  (List.range ((hi - lo) / 5 + 1).toNat).map (fun k : Nat => lo + 5 * (k : Int))

/-- The position search of a reply (R191). Of grid points with equal scores `tie`, taken modulo their number, says which counts (log entry 45).
One chain alone scores 1 at every point. -/
def State.locate (s : State) (r : Round) (b : Beam) (chans : List (Nat × Cx)) (tie : Nat) : PosOne :=
  match s.draft.bind (fun d => d.pos) with
  | none => { x1 := -1, q := 0 }
  | some d =>
    let t := s.txPortOf r b
    let ports := t :: (match s.geo? r.warp b.geo with | some g => g.pairs.map (fun e => e.2) | none => b.chains.map (fun e => e.2))
    let g := s.groupOfRound r
    let l := b.chains.map (fun e => (argOf (match chans.find? (fun c => c.1 == e.1) with | some c => c.2 | none => (0, 0)) - s.phiOf e.2 g, e.2))
    let pts := posGrid d ports
    if l.length < 2 then { x1 := pts.getD (tie % pts.length) 0, q := 0 }
    else
      let sc := pts.map (fun x => (x, posScore d (s.hzOfRound r) t l x))
      let top := fun (m : List (Int × Nat)) => m.foldl (fun a e => max a e.2) 0
      let best := sc.filter (fun e => e.2 == top sc)
      let one := best.getD (tie % best.length) (0, 0)
      let two := top (sc.filter (fun e => decide (20 < (e.1 - one.1).natAbs)))
      { x1 := one.1, q := satN 8 ((510 * (one.2 - two) + 2 ^ 40) / 2 ^ 41) }

/-- A reference tag at `x` has replied (R193): the offsets of its chains' ports move by a quarter of each chain's deviation from their circular
mean, and LOOM_REF counts the update. -/
def State.refUpdate (s : State) (r : Round) (b : Beam) (chans : List (Nat × Cx)) (x : Int) : State :=
  match s.draft.bind (fun d => d.pos) with
  | none => s
  | some d =>
    let g := s.groupOfRound r
    let t := s.txPortOf r b
    let e := b.chains.map (fun c =>
      (c.2, wrapAngle (argOf (match chans.find? (fun h => h.1 == c.1) with | some h => h.2 | none => (0, 0)) -
        (thetaAt d (s.hzOfRound r) t c.2 x + s.phiOf c.2 g))))
    let m := argOf (csum (e.map (fun p => expJ p.2)))
    let s := e.foldl (fun (s : State) p =>
      let v := s.phiOf p.1 g + qdiv (wrapAngle (p.2 - m)) 4
      { s with phi := sput (fun _ => 0) s.phi (8 * p.1 + g) (BitVec.ofInt 32 v), refAt := sput (fun _ => 0) s.refAt p.1 (s.up + 1) }) s
    s.cntSat Reg.loomRef 0 16

end Sys2Proof.Machine
end

