-- ==== Sys2Proof/Machine/UpdCmdOps.lean ====
section
/-! DEFINITION. What the OPs of UPD_CMD do (21_drafts_profiles_updates.md R428 to R443). Modules fed by peers use the same operations. -/
namespace Sys2Proof.Machine

/-- UTC_VALID (R432). -/
def State.utcValid (s : State) : Bool := s.bit Reg.updStat 20

/-- The time-base value of a bake time (R432). -/
def State.bakeAt (s : State) (bake : Word) : Int :=
  (s.reg (Reg.updUtc 1)).toNat + (s.reg (Reg.updUtc 2)).toNat * 2 ^ 32 + (bake.toNat - (s.reg (Reg.updUtc 0)).toNat : Int) * 1000000

/-- T_b (R432, R434): that of the bake time armed, which the update record holds. -/
def State.switchAt (s : State) : Int := s.bakeAt (match s.updRecord with | some r => r.2.bake | none => 0)

/-- The half not in use is out of service with reason WDOG or SELFTEST. -/
def State.otherHalfOut (s : State) : Bool :=
  match s.mgmt.running with
  | none => true
  | some h => s.halfState (!h) == 5 && s.halfReason (!h) ≥ 2

/-- A switch is under way: STATE has not followed yet (R435, R437). -/
def State.updMoving (s : State) : Bool := s.upd.switching || s.upd.fallback != .none

/-- A block of 512 bytes goes to staging (R428), as two entries of the 256 bytes that R392 allows; the first block after IDLE or VERIFIED makes
STATE LOADING. -/
def State.loadBlock (s : State) (seq chunk : Nat) (ws : List Word) : State :=
  let s := if s.updState = 1 then s else (s.toUpdState 1).setBit Reg.updStat 21 false
  let s : State := { s with upd := { s.upd with image := none, blocks := s.upd.blocks.filter (fun b => b.1 != chunk) ++ [(chunk, ws)] } }
  s.submit ((List.range 2).map (fun k => s.flashEntry (0x1200000 + 512 * chunk + 256 * k) 256 5 true true (.stage seq chunk)))

/-- A chunk of 256 bytes from a peer goes to staging (R276, R428): it is half of a block. -/
def State.loadChunk (s : State) (chunk : Nat) (ws : List Word) : State :=
  let s := if s.updState = 1 then s else (s.toUpdState 1).setBit Reg.updStat 21 false
  let b := chunk / 2
  let old := match s.upd.blocks.find? (fun x => x.1 == b) with | some x => x.2 | none => List.replicate 128 0xFFFFFFFF
  let new := if chunk % 2 = 0 then ws ++ old.drop 64 else old.take 64 ++ ws
  let s : State := { s with upd := { s.upd with image := none, blocks := s.upd.blocks.filter (fun x => x.1 != b) ++ [(b, new)] } }
  s.submit [s.flashEntry (0x1200000 + 256 * chunk) 256 5 true true (.stage 0 chunk)]

/-- LOAD may be performed (R428, R442). -/
def State.loadAllowed (s : State) : Bool := decide (s.updState ≤ 2) && !s.upd.busy

/-- LOAD of a chunk by command `n`. -/
def State.cmdLoad (s : State) (chunk n : Nat) : State :=
  if !s.loadAllowed || chunk > 12287 then s.complete n .refused
  else s.loadBlock n chunk ((List.range 128).map (fun k => s.reg (Reg.updBuf k)))

/-- VERIFY begins: by command in LOADING or VERIFIED. -/
def State.cmdVerify (s : State) (n : Nat) : State :=
  if (s.updState ≠ 1 ∧ s.updState ≠ 2) ∨ s.upd.busy then s.complete n .refused
  else { s with upd := { s.upd with busy := true } }

/-- The half not in use loads the staged firmware (R434). -/
def State.loadNew (s : State) : State :=
  match s.mgmt.running with | some h => s.loadHalf (!h) s.newSlot | none => s

/-- ARM is refused (the status table of UPD_CMD); none when it arms. -/
def State.armFault (s : State) : Option Status :=
  if (s.updState ≠ 2 ∧ s.updState ≠ 3) ∨ s.updMoving ∨ s.upd.busy then some .refused
  else if !s.utcValid ∨ s.bakeAt (s.reg Reg.updBake) < s.now + 1000000 then some .refused
  else if s.otherHalfOut then some .outOfService
  else none

/-- The staged image is armed (R434). -/
def State.armNow (s : State) : State :=
  let s := if s.updState = 3 then s else s.loadNew
  ((s.toUpdState 3).showCompat).updLog 3

/-- ARM. -/
def State.cmdArm (s : State) (n : Nat) : State :=
  match s.armFault with
  | some st => s.complete n st
  | none => s.armNow.complete n .ok

/-- SWITCH_NOW (R437): by handover when COMPAT holds, else at once with rounds disabled. From VERIFIED the other half begins to load. -/
def State.cmdSwitchNow (s : State) (n : Nat) : State :=
  if (s.updState ≠ 2 ∧ s.updState ≠ 3) ∨ s.updMoving ∨ s.upd.busy then s.complete n .refused
  else if s.otherHalfOut then s.complete n .outOfService
  else
    let s := if s.updState = 3 then s else s.loadNew
    let s := s.setBit Reg.updStat 23 false
    if s.bit Reg.updStat 21 then s.startFallback else (s.setBit Reg.updStat 22 false).switchAtOnce

/-- Staging is erased as far as blocks have been loaded (R438, R442). -/
def State.eraseStaging (s : State) : State := s.addTask .eraseStaging 0x1200000 (512 * s.upd.blocks.foldl (fun a b => max a (b.1 + 1)) 0) true

/-- Nothing is staged: the image and its marks are gone. -/
def State.unstageImage (s : State) : State :=
  let s : State := { s with upd := { s.upd with image := none } }
  ((s.setReg Reg.updImage 0).setBit Reg.updStat 21 false).setFld Reg.updStat 0 16 0

/-- The drafts are in their slots (R438 steps 2 to 5): the new firmware slot is the one in use, the floor and the settings are settled, the update record
says IDLE, and staging is erased; STATE follows when that has ended. The old settings region is erased in the background (R431). -/
def State.settleUpdate (s : State) : State :=
  match s.upd.image with
  | none => (s.putRecord .idle).eraseStaging
  | some i =>
    let new := s.newSlot
    let live := s.upd.newSettings
    let s : State := { s with upd := { s.upd with used := some (crxId i), newSettings := false } }
    let s := (s.setBit Reg.updStat 18 new).setReg Reg.updFloor (wordOf (crxFloor i))
    let s := if live then s.setBit Reg.updStat 19 (!s.bit Reg.updStat 19) else s
    let s := ((s.setFld Reg.updStat 16 2 0).putRecord .idle).eraseStaging
    if live then s.eraseOther else s

/-- CONFIRM begins (R438): the drafts of the image go to their slots. -/
def State.cmdConfirm (s : State) (n : Nat) : State :=
  if s.updState ≠ 5 ∨ s.updMoving ∨ s.upd.busy then s.complete n .refused
  else
    let ds := match s.upd.image with | some i => crxDrafts i | none => []
    let s : State := { s with upd := { s.upd with busy := true } }
    if ds.isEmpty then s.settleUpdate
    else ds.foldl (fun (s : State) e => s.addTask (.draft e.1) (slotAddr e.1) e.2.bytes.length false) s

/-- A revert begins (R439). -/
def State.startRevert (s : State) : State := ({ s with upd := { s.upd with reverting := true } } : State).switchAtOnce

/-- REVERT. -/
def State.cmdRevert (s : State) (n : Nat) : State :=
  if s.updState ≠ 5 ∨ s.updMoving ∨ s.upd.busy then s.complete n .refused else s.startRevert

/-- ABANDON (R442): disarmed, the loaded half reloads the firmware in use, and the new settings region and staging are erased; it completes when they
are. -/
def State.cmdAbandon (s : State) (n : Nat) : State :=
  let st := s.updState
  if st = 0 ∨ st > 3 ∨ s.updMoving ∨ s.upd.busy then s.complete n .refused
  else
    let s := s.updLog 9
    let s := if st = 3 then (match s.mgmt.running with | some h => s.loadHalf (!h) s.fwActive | none => s) else s
    let s := if s.upd.newSettings then ({ s with upd := { s.upd with newSettings := false } } : State).eraseOther else s
    let s := s.unstageImage.toUpdState 0
    if s.upd.blocks.isEmpty then s.complete n .ok else ({ s with upd := { s.upd with busy := true } } : State).eraseStaging

/-- The bytes of the staging region (R428): a block that has not been loaded is erased, and reads all ones (DESIGN CHOICE, log entry 42). They reach as
far as blocks are loaded, or as the image's own LENGTH says. -/
def State.stagedBytes (s : State) : List Byte :=
  let l := (List.range (s.upd.blocks.foldl (fun a b => max a (b.1 + 1)) 0)).flatMap (fun c => match s.upd.blocks.find? (fun b => b.1 == c) with
    | some b => b.2.flatMap bytesOfWord
    | none => List.replicate 512 0xFF)
  l ++ List.replicate (min 6291456 (crxLen l) - l.length) 0xFF

/-- The first check of R427 that an image fails; 0 when it passes all (DEDUCED, log entry 42). -/
def State.rejectCode (s : State) (i : CerrexImage) : Nat :=
  if !crxFormOk i.bytes then 1
  else if !crxCrcOk i.bytes then 2
  else if !i.facts.sigOk then 3
  else if crxFirmware i && !i.facts.fwSigOk then 4
  else if crxFwSeq i < (s.reg Reg.updFloor).toNat then 5
  else if (crxDrafts i).any (fun e => (s.proofFault (some e.2)).isSome) then 6
  else if crxFirmware i && !i.facts.migrationOk then 7
  else 0

/-- VERIFY ends (R429): the firmware is in the slot not in use, the new-format settings are written, STATE is VERIFIED. -/
def State.verified (s : State) (i : CerrexImage) : State :=
  let slot : FwSlot := { ver := crxFwVer i, seq := crxFwSeq i, ckpt := crxCkpt i, valid := true }
  let fw := if crxFirmware i then s.upd.fw.set (cond s.fwActive 0 1) slot else s.upd.fw
  let s : State := { s with upd := { s.upd with busy := false, copying := none, image := some i, fw := fw, newSettings := crxFirmware i } }
  let s := ((s.setReg Reg.updImage (crxId i)).setFld Reg.updStat 0 16 (satN 16 i.facts.oneway)).setFld Reg.updStat 24 4 0
  (((s.toUpdState 2).showCompat).raise 10).updLog 1

/-- A verified image ends the VERIFY that asked for it; one fetched from peers may be armed at once (R443); an arm
that R434 would refuse is logged with the code of an arm, since R444 has none of its own for it (DESIGN CHOICE, log entry 42). -/
def State.verifyPassed (s : State) (i : CerrexImage) : State :=
  let host := s.cmds.any (fun c => c.kind == .updVerify)
  let s := (s.verified i).completeAll (fun c => c.kind == .updVerify) .ok
  match s.peer.offer with
  | some o =>
    if host || !s.bit Reg.updCfg 0 || o.image ≠ crxId i then s
    else
      let s := s.setReg Reg.updBake o.bake
      if s.armFault.isSome then s.updLog 3 else s.armNow
  | none => s

/-- An image that has passed R427 and carries firmware is copied (R429 steps 1 and 2): the firmware to the slot not in use, then the settings in the new
format. -/
def State.copyImage (s : State) (i : CerrexImage) : State :=
  let size := match crxOf i.bytes 1 with | p :: _ => p.size | [] => 0
  let s : State := { s with upd := { s.upd with copying := some i } }
  (s.addTask .firmware (if s.fwActive then 0x100000 else 0x700000) size false).addTask .newSettings (s.settingsAt false) 256 false

/-- VERIFY fails (R427, R429). -/
def State.rejected (s : State) (i : CerrexImage) (code : Nat) : State :=
  let s : State := { s with upd := { s.upd with busy := false, image := none } }
  let s := ((s.setFld Reg.updStat 24 4 code).setBit Reg.updStat 21 false).toUpdState 1
  s.logEvent 0x0E (0x20 + code) (crxId i)

/-- CONFIRM ends (R438): staging is erased and STATE is IDLE, as the update record says already. -/
def State.confirmed (s : State) : State :=
  let s := (s.updLog 7).unstageImage
  let s : State := { s with upd := { s.upd with busy := false, blocks := [] } }
  (s.setFld Reg.updStat 28 4 0).showFw

/-! ## Tasks on the flash (R28 level 5) -/

/-- What a task has written or erased is whole. -/
def State.taskDone (s : State) (t : FlashTask) : State :=
  match t.kind with
  | .firmware | .newSettings => (match s.upd.copying with
    | some i => if s.memp.tasks.any FlashTask.mustEnd then s else s.verifyPassed i
    | none => s)
  | .draft k =>
    let s : State := match s.imageDraft k with | some i => { s with upd := { s.upd with slots := s.upd.slots.set k (some i) } } | none => s
    if s.memp.tasks.any FlashTask.mustEnd then s else s.settleUpdate
  | .eraseStaging =>
    if s.updState = 5 then s
    else ({ s with upd := { s.upd with busy := false, blocks := [] } } : State).completeAll (fun c => c.kind == .updAbandon) .ok
  | .eraseSettings | .settings _ | .seeds _ | .offsets _ | .baselines _ | .record _ _ => s

/-- An entry of a task has ended: its sector is erased, or its page written. -/
def State.endTaskEntry (s : State) (id : Nat) (e : MemEntry) : State :=
  match s.memp.tasks.find? (fun t => t.id == id) with
  | none => s.pumpTask
  | some t =>
    let erase := e.len == 0
    let p := if !erase then t.pos + e.len else if t.only then t.pos / 4096 * 4096 + 4096 else t.pos
    let t := { t with pos := p, erased := erase || p % 4096 != 0 }
    if p < t.stop then
      ({ s with memp := { s.memp with tasks := s.memp.tasks.map (fun x => if x.id = id then t else x) } } : State).pumpTask
    else (({ s with memp := { s.memp with tasks := s.memp.tasks.filter (fun x => x.id != id) } } : State).taskDone t).pumpTask

/-- A write of a task has failed (R402): what it was writing is incomplete, and its requester is told. VERIFY and CONFIRM end with the status; the running
half writes the other stores again (DESIGN CHOICE, log entry 42). -/
def State.failTask (s : State) (id : Nat) (st : Status) : State :=
  match s.memp.tasks.find? (fun t => t.id == id) with
  | none => s
  | some t =>
    let s : State := { s with memp := { s.memp with tasks := s.memp.tasks.filter (fun x => x.id != id) } }
    match t.kind with
    | .record second _ =>
      let st := match s.updRecord with | some r => r.2.state | none => updStateOf s.updState
      ({ s with upd := if second then { s.upd with recB := none } else { s.upd with recA := none } } : State).putRecord st
    | .settings _ => { s with upd := { s.upd with settings := [] } }
    | .seeds _ => { s with upd := { s.upd with seeds := [] } }
    | .offsets _ => { s with phiFlash := none }
    | .baselines _ => { s with ping := { s.ping with flash := none, changed := true } }
    | .firmware | .newSettings =>
      if s.upd.copying.isNone then s
      else (((s.tearTask { t with begun := true }).dropUpdate).toUpdState 1).completeAll (fun c => c.kind == .updVerify) st
    | .draft _ => ((s.tearTask { t with begun := true }).dropUpdate).completeAll (fun c => c.kind == .updConfirm) st
    | .eraseStaging =>
      let s := s.tearTask { t with begun := true }
      let s := if s.updState = 5 then s.dropUpdate else { s with upd := { s.upd with busy := false } }
      s.completeAll (fun c => c.kind == .updConfirm || c.kind == .updAbandon) st
    | .eraseSettings => s

/-- What VERIFY found names the content of each DRAFT part. -/
def imageFits (i : CerrexImage) : Bool := i.facts.contents.length == (crxOf i.bytes 2).length

/-- The draft of the slot in use as flash holds it, after a revert (R439). -/
def State.oldDraft (s : State) : Option Draft :=
  match s.slotImage s.upd.liveSlot with | some i => some (draftOf i) | none => s.draft

/-- The new configuration takes effect (R435 step 2); while no draft is live the switch amounts to a proof of the new one (R425). -/
def State.takeDraft (s : State) (d : Option Draft) (staged : Bool) : State :=
  if !s.ready rdDraft then s.startProof s.upd.liveSlot staged
  else match d with | some d => s.switchDraft d | none => s

/-- Steps 1 to 3 of R435. -/
def State.switchOver (s : State) : State :=
  if s.upd.reverting then
    let s := (s.switchHalves s.fwActive).dropServed (fun k => k == .updRevert)
    let s := (s.takeDraft s.oldDraft false).reverted
    (s.raise 10).completeAll (fun c => c.kind == .updRevert) .ok
  else
    let s := (s.switchHalves s.newSlot).dropServed (fun k => k == .updSwitchNow)
    let s := (s.toUpdState 4).takeDraft s.nextDraft (s.imageDraft s.upd.liveSlot).isSome
    let s : State := { s with upd := { s.upd with switching := false } }
    let s := (((s.setFld Reg.updStat 16 2 0).toUpdState 5).raise 10).updLog (if s.bit Reg.updStat 23 then 6 else 4)
    s.completeAll (fun c => c.kind == .updSwitchNow) .ok

end Sys2Proof.Machine
end

