-- ==== Sys2Proof/Machine/PeerOps.lean ====
section
/-! DEFINITION. Peer mode (11_umaolo_physical_layer.md R247, R248; 12_umaolo_access_and_peer.md R269 to R277): frames, delivery, time, colours
and update distribution. Fields of a body of several bytes travel most significant byte first (DEDUCED, log entry 29). -/
namespace Sys2Proof.Machine

/-! ## Registers -/

/-- PEER_CFG.ADDR. -/
def State.peerAddr (s : State) : Nat := s.fld Reg.peerCfg 16 16
/-- PEER_TIME.STRATUM. -/
def State.stratum (s : State) : Nat := s.fld Reg.peerTime 24 4
/-- PEER_TIME.REF, when REF_VALID. -/
def State.refPeer (s : State) : Option Nat := if s.bit Reg.peerTime 31 then some (s.fld Reg.peerTime 0 16) else none
/-- A counter of PEER: 0 TX, 1 RX_OK, 2 HDR_FAIL, 3 CRC_FAIL, 4 ACK_TO, 5 TX_FAIL, 6 BEACON, 7 REF_CHG. -/
def State.peerCount (s : State) (k : Nat) : State := s.cnt (Reg.peerCnt k)
/-- The peer channel in kHz. -/
def State.peerKhz (s : State) : Nat := match s.region with | none => 0 | some rg => regionKhz rg (s.fld Reg.peerCfg 4 6)
/-- The peer round in flight, window or receive period. -/
def State.peerRound (s : State) : Option Round := s.rounds.find? (fun r => r.kind == .peerWin || r.kind == .peerRx)
/-- The state with the peer engine changed. -/
def State.updPeer (s : State) (f : Peer → Peer) : State := { s with peer := f s.peer }

/-! ## Bodies -/

/-- The number in `n` bytes of a body from byte `at_`. -/
def beNum (b : List Byte) (at_ n : Nat) : Nat := ((b.drop at_).take n).foldl (fun a x => a * 256 + x.toNat) 0
/-- DST of a body. -/
def bDst (b : List Byte) : Nat := beNum b 0 2
/-- SRC of a body. -/
def bSrc (b : List Byte) : Nat := beNum b 2 2
/-- SEQ of a body. -/
def bSeq (b : List Byte) : Nat := beNum b 4 1
/-- What follows the prefix. -/
def bRest (b : List Byte) : List Byte := b.drop 5

/-! ## Loadings and lengths (R229, R247, R271) -/

/-- Symbols of a frame. -/
def peerSyms (rep : Nat) (map : List Nat) (len : Nat) : Nat :=
  let n := repN rep
  let bits := 4 * (map.map (fun c => c + 1)).sum
  3 + n + n * (if bits = 0 then 0 else (8 * len + 24 + bits - 1) / bits)

/-- The time of a frame in us: 80 us a symbol (R224). -/
def peerUs (rep : Nat) (map : List Nat) (len : Nat) : Nat := 80 * peerSyms rep map len

/-- A common constellation on all 12 tufts. -/
def allTufts (c : Nat) : List Nat := List.replicate 12 c

/-- The loading of a DATA frame to a destination (R272): REP code and map. -/
def State.dataLoad (s : State) (dst : Nat) : Nat × List Nat :=
  if dst = 0xFFFF then (0, allTufts 1)
  else match s.peer.snrs.find? (fun x => x.dst == dst && decide (s.up ≤ x.at_ + 60000000)) with
    | none => (1, allTufts 0)
    | some x =>
      let raw := (List.range 12).map (fun k => ((x.snr.getD k 0 : Nat) : Int) - s.umaMargin)
      let m := raw.foldl (fun (m : Int) e => min m e) (raw.headD 0)
      let t := (List.range 12).map (fun k => (if x.rep = 0 then raw.getD k 0 else m + repGain x.rep, x.map.getD k 0))
      let (rep, map, _) := loadingOf true s.umaHyst t
      (rep, map)

/-- The time a DATA frame takes with the ACK it awaits (R272). -/
def State.dataUs (s : State) (dst len : Nat) : Nat :=
  let (rep, map) := s.dataLoad dst
  peerUs rep map (5 + len) + (if dst = 0xFFFF then 0 else 100 + peerUs rep map 17)

/-! ## Sending -/

/-- The region profile permits mode OFDM (R162). -/
def State.ofdmOk (s : State) : Bool := match s.region with | some rg => rg.modes / 4 % 2 == 1 | none => false

/-- The illuminator and port of a peer round can transmit on its channel, where the region permits OFDM and neither an off-time nor another carrier
stands against it (R162 to R164). -/
def State.peerCanSend (s : State) (r : Round) : Bool :=
  r.kind == RoundKind.peerWin && r.status.isNone && !r.noNew && s.ofdmOk && !r.geos.isEmpty &&
  (match r.txc with
   | some n => s.txcUsable n && !s.portOos r.port && s.ramp n == 0 &&
               (match (s.tx n).chan with | some c => !s.chanOff.contains c && !s.clash n c | none => false)
   | none => false)

/-- The carrier of a peer round comes up for its frames (R158, R269). -/
def State.peerUp (s : State) (r : Round) : State :=
  match r.txc with
  | some n => (s.rampUp n).updRound r.warp (fun r => { r with upAt := some (r.upAt.getD s.up) })
  | none => s

/-- The body prefix of a new frame, and the SEQ after it. -/
def State.peerPrefix (s : State) (dst : Nat) : List Byte × State :=
  (beBytes 2 dst ++ beBytes 2 s.peerAddr ++ beBytes 1 s.peer.nextSeq, s.updPeer (fun p => { p with nextSeq := (p.nextSeq + 1) % 256 }))

/-- A frame goes out (PEER_CNT_TX). -/
def State.peerSend (s : State) (t : PeerTx) : State := (s.peerCount 0).updPeer (fun p => { p with sent := p.sent ++ [t] })

/-- UTC of now by UPD_UTC (R432): second and microseconds within it; free values while it is not valid. -/
def State.utcNow (s : State) : Nat × Nat × State :=
  if s.bit Reg.updStat 20 ∧ s.stratum ≠ 15 then
    let base : Int := (s.reg (Reg.updUtc 1)).toNat + (s.reg (Reg.updUtc 2)).toNat * 2 ^ 32
    let d : Int := s.now - base
    ((((s.reg (Reg.updUtc 0)).toNat : Int) + d / 1000000).toNat, (d % 1000000).toNat, s)
  else
    let (a, s) := s.drawWord
    let (b, s) := s.drawWord
    (a.toNat, b.toNat % 2 ^ 24, s)

/-- A BEACON (R271, R273, R274). -/
def State.beaconFrame (s : State) : PeerTx × State :=
  let (sec, sub, s) := s.utcNow
  let (p, s) := s.peerPrefix 0xFFFF
  ({ ty := 3, rep := 3, map := allTufts 0,
     body := p ++ beBytes 1 s.stratum ++ beBytes 4 sec ++ beBytes 3 sub ++ beBytes 6 s.now ++ beBytes 1 (s.fld Reg.peerColour 0 2) ++
             beBytes 2 (s.refPeer.getD 0) }, s)

/-- A slot being filled: microseconds used, and the state. A frame that no longer fits is not sent (R272). -/
def State.fill (s : State) (used us : Nat) (f : State → State) : Nat × State := if used + us ≤ 10000 then (used + us, f s) else (used, s)

/-- The offer of the image held (R276). -/
def State.sendOffer (s : State) (i : CerrexImage) : State :=
  let (p, s) := s.peerPrefix 0xFFFF
  s.peerSend { ty := 4, rep := 3, map := allTufts 0,
               body := p ++ beBytes 4 (crxId i).toNat ++ beBytes 2 ((crxLen i.bytes + 255) / 256) ++ beBytes 4 (s.reg Reg.updBake).toNat }

/-- Chunks of the offered image that are lacking. -/
def State.lacking (s : State) (o : Offer) : List Nat := (List.range o.chunks).filter (fun k => !s.peer.held.contains k)

/-- Chunks are requested (R443): while STATE is IDLE, or LOADING with the fetch under way. -/
def State.wantsChunks (s : State) : Option Offer :=
  match s.peer.offer with
  | none => none
  | some o => if s.bit Reg.updCfg 1 && !s.upd.busy && (s.updState == 0 || (s.updState == 1 && !s.peer.held.isEmpty)) && !(s.lacking o).isEmpty
              then some o else none

/-- A request for the first 256 chunks from the lowest lacking (R271, R276); the first of BITMAP is the highest bit of its first byte
(PRESUMED, log entry 29). -/
def State.sendReq (s : State) (o : Offer) : State :=
  let (p, s) := s.peerPrefix o.src
  let f := (s.lacking o).headD 0
  let bit := fun k => decide (f + k < o.chunks) && !s.peer.held.contains (f + k)
  let bm := (List.range 32).map (fun b => BitVec.ofNat 8 (natOfBits ((List.range 8).map (fun i => bit (8 * b + i)))))
  s.peerSend { ty := 5, rep := 2, map := allTufts 0, body := p ++ beBytes 4 o.image.toNat ++ beBytes 2 f ++ bm }

/-- The 64 words of a chunk in staging. -/
def State.chunkWords (s : State) (k : Nat) : List Word :=
  match s.upd.blocks.find? (fun b => b.1 == k / 2) with
  | none => List.replicate 64 0
  | some b => (b.2.drop (64 * (k % 2))).take 64

/-- A chunk that was asked for is broadcast (R276). -/
def State.sendChunk (s : State) (i : CerrexImage) (k : Nat) : State :=
  let (p, s) := s.peerPrefix 0xFFFF
  (s.peerSend { ty := 6, rep := 0, map := allTufts 1,
                body := p ++ beBytes 4 (crxId i).toNat ++ beBytes 2 k ++ (s.chunkWords k).flatMap bytesOfWord }).updPeer
    (fun p => { p with asked := p.asked.filter (fun x => x != k) })

/-- A DATA frame that fits no whole slot with its ACK, at the loading chosen for it now, completes with REFUSED (R272). -/
def State.refuseData (s : State) : State :=
  match s.peer.job with
  | some j => if !j.waiting && decide (10000 < s.dataUs j.dst j.data.length) then (s.updPeer (fun p => { p with job := none })).complete j.seq .refused else s
  | none => s

/-- The host's DATA frame goes out (R272): a broadcast completes at once, a unicast awaits its ACK. -/
def State.sendData (s : State) (j : PeerJob) : State :=
  let (rep, map) := s.dataLoad j.dst
  let s := s.peerSend { ty := 1, rep := rep, map := map, body := beBytes 2 j.dst ++ beBytes 2 s.peerAddr ++ beBytes 1 j.num ++ j.data }
  if j.dst = 0xFFFF then (s.updPeer (fun p => { p with job := none })).complete j.seq .ok
  else s.updPeer (fun p => { p with job := some { j with tries := j.tries + 1, waiting := true } })

/-- The module's own slot (R269, R272, R273, R276): the beacon if one is due, the host's DATA, a request, an offer and up to four chunks, as
far as they fit the slot. What the slot sends is settled as it begins (DESIGN CHOICE, log entry 29); the carrier comes up for it, and falls with the
last symbol (LAST_BIT_ON_AIR). -/
def State.ownSlot (s : State) (r : Round) : State :=
  let s := (s.updPeer (fun p => { p with sent := [], slot := some (s.fld Reg.peerCfg 12 4) })).refuseData
  let every := max 1 (s.fld Reg.peerWin 8 8)
  let (u, s) := if s.peer.windows % every = 0 then
      s.fill 0 (peerUs 3 (allTufts 0) 22) (fun s => let (b, s) := s.beaconFrame; s.peerSend b) else (0, s)
  let (u, s) := match s.peer.job with
    | some j => if j.waiting then (u, s) else s.fill u (s.dataUs j.dst j.data.length) (fun s => s.sendData j)
    | none => (u, s)
  let (u, s) := match s.wantsChunks with | some o => s.fill u (peerUs 2 (allTufts 0) 43) (fun s => s.sendReq o) | none => (u, s)
  let s := match s.upd.image with
    | none => s
    | some i =>
      let (u, s) := s.fill u (peerUs 3 (allTufts 0) 15) (fun s => s.sendOffer i)
      ((s.peer.asked.take 4).foldl (fun (a : Nat × State) k => a.2.fill a.1 (peerUs 0 (allTufts 1) 267) (fun s => s.sendChunk i k)) (u, s)).2
  if s.peer.sent.isEmpty then s
  else (s.peerUp r).updRound r.warp (fun r => { r with trans := r.trans + 1 })

/-! ## Stratum, reference and colour (R273, R275) -/

/-- A neighbour has been heard within the last 8 beacon intervals. -/
def Neighbour.fresh (n : Neighbour) : Bool := decide (n.missed < 8)

/-- A neighbour may be the reference. -/
def State.mayRefer (s : State) (n : Neighbour) : Bool := n.fresh && (decide (n.stratum < 15) || decide (n.addr < s.peerAddr))

/-- The reference peer by R273: the lowest stratum, then the lowest address. -/
def State.bestRef (s : State) : Option Neighbour :=
  if s.bit Reg.peerCfg 2 then none
  else (s.peer.neighbours.filter s.mayRefer).foldl (fun (m : Option Neighbour) n => match m with
    | none => some n
    | some x => if n.stratum < x.stratum ∨ (n.stratum = x.stratum ∧ n.addr < x.addr) then some n else m) none

/-- Stratum and reference are taken anew (R273): PEER_TIME and PEER_CNT_REF_CHG. -/
def State.peerEval (s : State) : State :=
  let b := s.bestRef
  let old := s.refPeer
  let str := if s.bit Reg.peerCfg 2 then 0 else match b with | none => 15 | some n => min 15 (n.stratum + 1)
  let s := s.setReg Reg.peerTime (match b with
    | none => wordOf (str * 2 ^ 24)
    | some n => wordOf (2 ^ 31 + str * 2 ^ 24 + satN 8 n.missed * 2 ^ 16 + n.addr))
  -- without a reference, or with another, nothing is slewed any more
  if old = b.map (fun n => n.addr) then s else (s.updPeer (fun p => { p with slew := 0 })).peerCount 7

/-- The colour is taken anew (R275). -/
def State.peerColours (s : State) : State :=
  if !s.bit Reg.peerCfg 1 then s
  else
    let lim : Int := -2 * (s.fld Reg.peerWin 0 8 : Int)
    let l := s.peer.neighbours.filter (fun n => n.fresh && decide (lim ≤ n.power) && decide (n.addr < s.peerAddr))
    match (List.range 4).find? (fun c => l.all (fun n => n.colour != c)) with
    | some c => s.setReg Reg.peerColour (wordOf c)
    | none =>
      let w := l.foldl (fun (m : Neighbour) n => if n.power < m.power then n else m) (l.headD ⟨0, 0, 0, 0, 0, false⟩)
      s.setReg Reg.peerColour (wordOf (256 + w.colour % 4))

/-! ## Receiving -/

/-- The fields of a peer frame (R247). -/
def PeerFrame.ty (f : PeerFrame) : Nat := bitsN f.header 0 4
def PeerFrame.rep (f : PeerFrame) : Nat := bitsN f.header 4 2
def PeerFrame.map (f : PeerFrame) : Nat := bitsN f.header 6 24
def PeerFrame.len (f : PeerFrame) : Nat := bitsN f.header 30 10
def PeerFrame.body (f : PeerFrame) : List Byte := (List.range f.len).map (fun k => BitVec.ofNat 8 (bitsN f.payload (8 * k) 8))

/-- The header passes its check (R247). -/
def peerHeaderOk (f : PeerFrame) : Bool := peerHdOk f.seedRep f.header

/-- The type is one that is sent (R271). -/
def peerTypeOk (f : PeerFrame) : Bool := decide (1 ≤ f.ty) && decide (f.ty ≤ 6)

/-- The CRC-24 over the header and the body passes. -/
def peerCrcOk (f : PeerFrame) : Bool :=
  f.payload.length == 8 * f.len + 24 && crc24 (f.header ++ f.payload.take (8 * f.len)) == bitsN f.payload (8 * f.len) 24

/-- The synthesisers are steered after a frame of the reference peer (R248): a quarter of the offset, in mHz, in whole Hz, within 2 ppm of the carrier;
the rounding is towards zero (DESIGN CHOICE, log entry 29). PEER_STEER shows the total; each synthesiser takes it while its illuminator is ramped
down. -/
def State.steerBy (s : State) (offset : Int) : State :=
  let khz : Int := s.peerKhz
  if khz = 0 then s
  else
    let lim := 2 * khz * 1000 / 1000000
    let hz := max (-lim) (min lim (s.peer.steer + offset.tdiv 4000))
    let off := (List.range 4).filter (fun n => !s.txOn n)
    let s := off.foldl (fun (s : State) n => s.updTx n (fun t => { t with steer := hz })) s
    (s.updPeer (fun p => { p with steer := hz })).setFld Reg.peerSteer 0 16 (twos 16 ((hz * 1000000).tdiv khz))

/-- The time base when the frame began: PP0 (R274, R312). -/
def State.ppStart (s : State) (f : PeerFrame) : Nat := s.now - peerUs (f.rep % 4) (mapOf f.map) f.body.length

/-- The ACK of a frame (R272): its own loading, the tuft SNRs. -/
def State.sendAck (s : State) (r : Round) (f : PeerFrame) : State :=
  (s.peerSend { ty := 2, rep := f.rep % 4, map := mapOf f.map,
                body := beBytes 2 (bSrc f.body) ++ beBytes 2 s.peerAddr ++ beBytes 1 (bSeq f.body) ++
                        (List.range 12).map (fun k => BitVec.ofNat 8 (satN 8 (f.snr.getD k 0))) }).peerUp r

/-- A DATA frame for the module or for all (R272, R307, R312). It is delivered if there is room, and acknowledged if the carrier may come up; a payload
beyond 1,000 bytes, which R271 does not have, is discarded (DESIGN CHOICE, log entry 29). -/
def State.rxData (s : State) (r : Round) (f : PeerFrame) : State :=
  let dst := bDst f.body
  let src := bSrc f.body
  let mine := decide (dst = s.peerAddr)
  let n := (bRest f.body).length
  let ack := fun (s : State) => if mine && s.peerCanSend r then s.sendAck r f else s
  if (!mine && dst != 0xFFFF) || n == 0 || decide (1000 < n) then s
  else if s.peer.dups.any (fun d => d.1 == src && d.2 == bSeq f.body) then ack s
  else
    let rec_ : Rec := { ty := 5, flags := 0, len := 16 + n,
                        words := [wordOf (src * 65536 + dst), wordOf (bSeq f.body * 2 ^ 24 + twos 16 f.power), wordOf (s.ppStart f % 2 ^ 32)] ++
                                 wordsOfBytes (bRest f.body) }
    if !s.fits 5 (16 + n) then s.dropRec 5 1 (16 + n)
    else if 2 ≤ s.fifo.peer.length then s.dropRec 5 2 (16 + n)
    else
      let s : State := { s with fifo := { s.fifo with setAside := s.fifo.setAside + padded (16 + n), asideFor := s.fifo.asideFor + 1 } }
      let s := (s.queuePeer rec_).fifoSync
      let s := s.updPeer (fun p => { p with dups := ((src, bSeq f.body) :: p.dups.filter (fun d => d.1 != src)).take 32 })
      ack s

/-- An ACK for the frame that awaits it (R272). -/
def State.rxAck (s : State) (f : PeerFrame) : State :=
  match s.peer.job with
  | none => s
  | some j =>
    if !j.waiting || bDst f.body != s.peerAddr || bSrc f.body != j.dst || bSeq f.body != j.num || (bRest f.body).length != 12 then s
    else
      let (rep, map) := match s.peer.sent.find? (fun t => t.ty == 1) with | some t => (t.rep, t.map) | none => (f.rep % 4, mapOf f.map)
      let x : PeerSnr := { dst := j.dst, snr := (bRest f.body).map (fun b => b.toNat), at_ := s.up, rep := rep, map := map }
      (s.updPeer (fun p => { p with job := none, snrs := x :: p.snrs.filter (fun y => y.dst != j.dst) })).complete j.seq .ok

/-- A beacon of the reference peer sets the time (R274, R432): a step from 1 ms on, else a slew; below stratum 15 it maps UTC. -/
def State.takeTime (s : State) (f : PeerFrame) : State :=
  let b := bRest f.body
  let t0 := s.ppStart f
  let d := ofTwos 48 ((beNum b 8 6 + 2 ^ 48 - t0 % 2 ^ 48) % 2 ^ 48)
  let step := decide (1000 ≤ d) || decide (d ≤ -1000)
  let s : State := if step then { s with timeBase := s.timeBase + BitVec.ofInt 64 d } else s
  let s := s.updPeer (fun p => { p with slew := if step then 0 else d })
  if beNum b 0 1 < 15 then
    let base := (((t0 : Int) + (if step then d else 0) - beNum b 5 3) % (2 ^ 64 : Int)).toNat
    let s := ((s.setReg (Reg.updUtc 0) (wordOf (beNum b 1 4))).setReg (Reg.updUtc 1) (wordOf (base % 2 ^ 32))).setReg (Reg.updUtc 2) (wordOf (base / 2 ^ 32))
    if s.stratum = 15 then s else s.setBit Reg.updStat 20 true
  else s

/-- A BEACON (R270, R273 to R275). -/
def State.rxBeacon (s : State) (r : Round) (f : PeerFrame) : State :=
  let b := bRest f.body
  if b.length ≠ 17 then s
  else
    let n : Neighbour := { addr := bSrc f.body, stratum := min 15 (beNum b 0 1), colour := beNum b 14 1 % 4, power := f.power, missed := 0, now := true }
    let s := (s.peerCount 6).updPeer (fun p => { p with neighbours := n :: p.neighbours.filter (fun x => x.addr != n.addr) })
    let s := s.peerEval
    let s := if s.refPeer = some n.addr then s.takeTime f else s
    if r.kind == RoundKind.peerRx then s.downRound r false else s

/-- An offer (R276, R443): one of an image that is neither in use nor staged is remembered while STATE is IDLE. -/
def State.rxOffer (s : State) (f : PeerFrame) : State :=
  let b := bRest f.body
  let o : Offer := { src := bSrc f.body, image := wordOf (beNum b 0 4), chunks := beNum b 4 2, bake := wordOf (beNum b 6 4) }
  let known := match s.peer.offer with | some x => x.image == o.image | none => false
  if b.length ≠ 10 ∨ !s.bit Reg.updCfg 1 then s
  else if known then s.updPeer (fun p => { p with offer := some o })
  else if s.updState ≠ 0 ∨ o.image = s.reg Reg.updImage ∨ s.upd.used = some o.image then s
  else s.updPeer (fun p => { p with offer := some o, held := [] })

/-- A request for chunks of the image the module holds (R276). -/
def State.rxReq (s : State) (f : PeerFrame) : State :=
  let b := bRest f.body
  match s.upd.image with
  | none => s
  | some i =>
    if b.length ≠ 38 ∨ wordOf (beNum b 0 4) ≠ (crxId i) then s
    else
      let first := beNum b 4 2
      let bits := (b.drop 6).flatMap (fun x => bitsHigh 8 x.toNat)
      let want := ((List.range 256).filter (fun k => bits.getD k false)).map (fun k => first + k)
      let want := want.filter (fun k => decide (k < (crxLen i.bytes + 255) / 256))
      s.updPeer (fun p => { p with asked := p.asked ++ want.filter (fun k => !p.asked.contains k) })

/-- A chunk of the offered image (R276). -/
def State.rxChunk (s : State) (f : PeerFrame) : State :=
  let b := bRest f.body
  match s.peer.offer with
  | none => s
  | some o =>
    let k := beNum b 4 2
    if b.length ≠ 262 ∨ wordOf (beNum b 0 4) ≠ o.image ∨ o.chunks ≤ k ∨ s.wantsChunks.isNone ∨ s.peer.held.contains k then s
    else (s.updPeer (fun p => { p with held := k :: p.held })).loadChunk k (wordsOfBytes (b.drop 6))

/-- The beam of a peer round that has a reception under way (R187). -/
def State.peerBeam (s : State) (r : Round) : Option Nat := r.beams.find? (fun m => match s.beam? m with | some b => b.rec_.isSome | none => false)

/-- The reception of a beam is over; what waits takes its place (R189). -/
def State.recOver (s : State) (m : Nat) : State := s.updBeam m (fun b => { b with rec_ := b.next, next := none, ending := false })

/-- A peer frame with a good CRC-24 acts by its type (R271). -/
def State.peerActs (s : State) (r : Round) (f : PeerFrame) : State :=
  let s := if s.refPeer = some (bSrc f.body) then s.steerBy f.offset else s
  let dst := bDst f.body
  match f.ty with
  | 1 => s.rxData r f
  | 2 => s.rxAck f
  | t =>
    if dst ≠ 0xFFFF ∧ dst ≠ s.peerAddr then s
    else match t with
      | 3 => s.rxBeacon r f
      | 4 => s.rxOffer f
      | 5 => s.rxReq f
      | _ => s.rxChunk f

/-- A reception on beam `m` of a peer round has ended (R181, R182, R184, R190, R247, R271): its training symbols have moved the weights. With a header
that passes its check the chains have measured a reply, and its CRC-24 is checked (R320). -/
def State.peerReceive (s : State) (m : Nat) (x : RxSignal) : State :=
  match s.beam? m, s.rounds.find? (fun r => r.beams.contains m) with
  | some b, some r =>
    if b.rec_.isNone || r.phase == .ending || !r.kind.peer then s
    else
    let w := s.weightsAfter r b x
    let f := s.peerFrame b w x
    let y := s.report r b w x
    let s := (s.adaptWeights r b x).recOver m
    if !peerHeaderOk f then (s.cnt (Reg.loomCnt m 4)).peerCount 2
    else
      let s := s.chainsRx b y
      if !peerTypeOk f then s.peerCount 2
      else
        let s := s.cnt (Reg.crcCnt 0)
        if !peerCrcOk f then (s.cnt (Reg.crcCnt 1)).peerCount 3
        else
          let s := s.peerCount 1
          if f.body.length < 5 then s else s.peerActs r f
  | _, _ => s

/-- A peer frame has been received in the reception that is under way in a peer round; one that a capture has abandoned is not delivered (R187).
Without a lock nothing is received. -/
def State.peerHears (s : State) (x : RxSignal) : State :=
  match s.peerRound.bind s.peerBeam with
  | some m => s.peerReceive m x
  | none => s

/-! ## The host's frame (R272) -/

/-- PEER_TX_CMD `n` with its payload in PEER_TXBUF. -/
def State.cmdPeerTx (s : State) (dst len n : Nat) : State :=
  match s.fnStatus rdPe true (s.decOos 12) with
  | some st => s.complete n st
  | none =>
    if len = 0 ∨ 1000 < len ∨ s.peer.job.isSome ∨ 10000 < s.dataUs dst len then s.complete n .refused
    else
      let data := ((List.range ((len + 3) / 4)).flatMap (fun k => bytesOfWord (s.reg (Reg.peerTxbuf k)))).take len
      s.updPeer (fun p => { p with job := some { seq := n, dst := dst, data := data, num := p.nextSeq, tries := 0, waiting := false },
                                   nextSeq := (p.nextSeq + 1) % 256 })

end Sys2Proof.Machine
end

