-- ==== Sys2Proof/Machine/PingOps.lean ====
section
/-! DEFINITION. The ping engine's decisions (17_detuning_pings.md R348 to R358). -/
namespace Sys2Proof.Machine

/-- floor of the square root, saturating at 4,095 (the definition of D before R350). -/
def isqrt12 (n : Nat) : Nat :=
  [11, 10, 9, 8, 7, 6, 5, 4, 3, 2, 1, 0].foldl (fun r k => if (r + 2 ^ k) * (r + 2 ^ k) ≤ n then r + 2 ^ k else r) 0

/-- D of a measurement against a port's baseline. -/
def pingD (p : PingPort) (i q : Int) : Nat := isqrt12 ((i - p.bi) * (i - p.bi) + (q - p.bq) * (q - p.bq)).toNat

/-- A measurement is void (R348): the listen phase found −40 dBm or more. -/
def gammaVoid (m : GammaMeas) : Bool := decide (m.listen ≥ -40)

/-- What a measurement leads to (R350): the port, the kind of its record (0 ABSORBED, 1 PRESENCE, 2 NEAR, 3 RELEASE), its cause (true NEAR),
and whether it was seeded. -/
structure PingRes where
  port   : PingPort
  kind   : Option Nat
  cause  : Option Bool
  seeded : Bool
deriving DecidableEq, Repr

/-- One measurement that is not void (R350), under PING_CFG and PING_THR. -/
def pingStep (cfg thr : Word) (p : PingPort) (i q : Int) : PingRes :=
  let near := fieldN thr 20 10
  let release := fieldN thr 10 10
  let d := pingD p i q
  let m := { p with mi := i, mq := q, md := d }
  if !p.valid then { port := { m with bi := i, bq := q, valid := true, md := 0 }, kind := none, cause := none, seeded := true }
  else if p.state = 0 then
    if d ≥ fieldN thr 0 10 then
      if p.pend + 1 ≥ fieldN cfg 28 4 then
        let k := if d ≥ near then 2 else 1
        { port := { m with state := k, hold := 0, pend := 0 }, kind := some k, cause := some (k == 2), seeded := false }
      else { port := { m with pend := p.pend + 1 }, kind := none, cause := none, seeded := false }
    else
      let t := fun (b g : Int) => b + (g - b).tdiv (2 ^ fieldN cfg 24 4)
      let m := { m with pend := 0 }
      { port := if d < release then { m with bi := t p.bi i, bq := t p.bq q } else m, kind := none, cause := none, seeded := false }
  else
    let up := p.state == 1 && decide (d ≥ near)
    let st := if up then 2 else p.state
    let cause := if up then some true else none
    if d < release then { port := { m with state := 0 }, kind := some 3, cause := cause, seeded := false }
    else
      let h := p.hold + 1
      let a := fieldN cfg 0 16
      if a ≠ 0 ∧ h ≥ a then
        { port := { m with state := 0, hold := h, bi := i, bq := q }, kind := some 0, cause := cause, seeded := false }
      else { port := { m with state := st, hold := h }, kind := if up then some 2 else none, cause := cause, seeded := false }

/-- What a sweep has found so far: its records, the ports whose cause is PRESENCE or NEAR, whether one measurement was void and one port
seeded. -/
structure SweepAcc where
  recs   : List Word
  causes : List (Nat × Bool)
  interf : Bool
  seeded : Bool
deriving DecidableEq, Repr

/-- The state with a ping port changed. -/
def State.setPing (s : State) (p : Nat) (v : PingPort) : State :=
  { s with ping := { s.ping with ports := sput (fun _ => .init) s.ping.ports p v } }

/-- One port of a sweep (R348, R350). -/
def State.pingPortOne (a : State × SweepAcc) (m : GammaMeas) : State × SweepAcc :=
  let (s, acc) := a
  if gammaVoid m then (s.cnt (Reg.pingCnt 3), { acc with interf := true })
  else
    let old := s.pingPort m.port
    let r := pingStep (s.reg Reg.pingCfg) s.ping.thr old m.i m.q
    let s := s.setPing m.port r.port
    let moved := r.port.bi != old.bi || r.port.bq != old.bq || r.port.valid != old.valid
    let s : State := if moved then { s with ping := { s.ping with changed := true } } else s
    let s := match r.cause with | some true => s.cnt (Reg.pingCnt 2) | some false => s.cnt (Reg.pingCnt 1) | none => s
    let s := if r.kind = some 0 then s.cnt (Reg.pingCnt 4) else s
    (s, { recs := acc.recs ++ (match r.kind with | some k => [wordOf (m.port * 2 ^ 26 + k * 2 ^ 24 + r.port.md * 4096)] | none => []),
          causes := acc.causes ++ (match r.cause with | some n => [(m.port.val, n)] | none => []),
          interf := acc.interf, seeded := acc.seeded || r.seeded })

/-- The ports of a list as the two words of a port mask. -/
def portMask (ports : List Nat) (k : Nat) : Word := wordOf ((ports.filter (fun p => p / 32 == k)).foldl (fun a p => a + 2 ^ (p % 32)) 0)

/-- What a sweep of a set of ports measured, in ascending port order (R347): one that was stopped has measured the lowest of them. -/
def sweepOrder (ports : List Nat) (meas : List GammaMeas) : List GammaMeas :=
  ((((List.range 64).filter (fun p => ports.contains p)).map (fun p => meas.find? (fun m => m.port.val == p))).takeWhile Option.isSome).filterMap id

/-- The measurements of a sweep, in ascending port order (R347): PING_EVT and PING_NEAR name the ports of the last sweep that raised a cause. -/
def State.pingSweep (s : State) (meas : List GammaMeas) : State × SweepAcc :=
  let (s, acc) := meas.foldl State.pingPortOne (s, { recs := [], causes := [], interf := false, seeded := false })
  if acc.causes.isEmpty then (s, acc)
  else
    let ev := acc.causes.map (fun e => e.1)
    let nr := (acc.causes.filter (fun e => e.2)).map (fun e => e.1)
    ((((s.setReg (Reg.pingEvt 0) (portMask ev 0)).setReg (Reg.pingEvt 1) (portMask ev 1)).setReg (Reg.pingNear 0) (portMask nr 0)).setReg
      (Reg.pingNear 1) (portMask nr 1), acc)

/-- FLAGS of a PRESENCE packet (R357). -/
def sweepFlags (wake : Bool) (a : SweepAcc) : Nat := cond wake 8 0 + cond a.interf 4 0 + cond a.seeded 2 0

/-- The causes of a sweep under the AO timer name its lowest port that raised one, and stand for the wake report (R351, R357): the first such
sweep of a stay is the waking one. -/
def State.noteSweep (s : State) (p : Nat) (h : Nat) (recs : List Word) : State :=
  if s.bit Reg.pwrWakeCause 2 then s
  else
    let s := s.setFld Reg.pwrWakeCause 8 6 p
    { s with ping := { s.ping with wake := some (h, recs) } }

/-- A sweep under the AO timer ends (R351, R353): its causes are wake causes. One that another wake has stopped (R360) keeps the updates and causes of
the ports it measured: they join that wake's causes, FIRST staying as it is, and are reported with it (DEDUCED, log entry 19). -/
def State.aoSweepEnd (s : State) (ports : List Nat) (meas : List GammaMeas) : State :=
  let meas := sweepOrder ports meas
  let (s, acc) := s.pingSweep meas
  let s : State := { s with ping := { s.ping with sweep := none } }
  let s := if meas.length = ports.length then s.cnt (Reg.pingCnt 0) else s
  let h := sweepFlags true acc * 256 + meas.length
  match acc.causes, s.sleeping with
  | (p, _) :: _, some t => if !s.wakeActs t 2 then s else (s.noteSweep p h acc.recs).wake 2
  | (p, _) :: _, none =>
    let s := (match s.wakeAt with
      | some (t, _) => if s.wakeActs t 2 then (s.noteSweep p h acc.recs).setBit Reg.pwrWakeCause 2 true else s
      | none => s)
    let s := if s.dieUp then s.raise 12 else s
    if s.ready rdPing then s.wakeReport else s
  | [], _ => s

/-- The sweep of a ping round ends (R351, R354, R357): a PRESENCE packet when it has a record, then ROUND_END. The ping of one port is a transaction
(R284, R311). -/
def State.roundSweepEnd (s : State) (r : Round) (meas : List GammaMeas) : State :=
  let ports := r.ports.filter (fun p => !s.portOos p)
  let meas := sweepOrder ports meas
  let (s, acc) := s.pingSweep meas
  let s := s.updRound r.warp (fun r => { r with trans := r.trans + meas.length })
  let s := if meas.length = ports.length then s.cnt (Reg.pingCnt 0) else s
  let s := if acc.causes.isEmpty then s else s.raise 12
  let st := match r.status with | some .aborted => Status.aborted | some .disabled => .disabled | _ => .ok
  let s := if acc.recs.isEmpty then s
    else s.queueWarp r.warp { ty := 4, flags := sweepFlags false acc, len := 16 + 4 * acc.recs.length,
                              words := [wordOf (st.code * 2 ^ 24 + r.seq), s.timeLo,
                                        wordOf (acc.recs.length * 2 ^ 24 + meas.length * 65536 + eWarp r.words * 16384)] ++ acc.recs }
  match s.roundOn r.warp with | some r => s.roundEnd r | none => s

/-- The mean of `n` measurements. R358 states no rounding: where it is not whole, which of its neighbours is free (log entry 19). -/
def State.meanOf (s : State) (sum : Int) (n : Nat) : Int × State :=
  let f := sum.fdiv n
  if f * n = sum then (f, s) else (let (b, s) := s.drawBool; (if b then f + 1 else f, s))

/-- The baselines of the ports, without what the sweeps found (R358, R359). -/
def baselinesOf (l : List (Nat × PingPort)) : List (Nat × PingPort) :=
  (l.map (fun e => (e.1, { PingPort.init with valid := e.2.valid, bi := e.2.bi, bq := e.2.bq }))).filter (fun e => e.2 != PingPort.init)

/-- The baselines are copied to flash (R358). -/
def State.saveBaselines (s : State) : State :=
  ({ s with ping := { s.ping with flash := some (baselinesOf s.ping.ports), changed := false } } : State).addTask (.baselines s.ping.flash) 0x1E80000 512 false

/-- A CAL is over (R358): baselines become the means, ports without a measurement are counted, the command completes. The confirmation and
hold counts, of which R358 says nothing, restart with the baseline (DESIGN CHOICE, log entry 19). -/
def State.calDone (s : State) (c : PingCal) : State :=
  let s := c.ports.foldl (fun (s : State) p =>
    match (c.sums.find? (fun e => e.1 == p)) with
    | none => s
    | some (_, si, sq, n) =>
      let (i, s) := s.meanOf si n
      let (q, s) := s.meanOf sq n
      s.setPing p { s.pingPort p with valid := true, bi := i, bq := q, state := 0, pend := 0, hold := 0 }) s
  let miss := (c.ports.filter (fun p => !(c.sums.any (fun e => e.1 == p)))).length
  let s := s.setReg Reg.pingCalMiss (wordOf miss)
  (({ s with ping := { s.ping with cal := none } } : State).saveBaselines).complete c.seq .ok

/-- A sum of a CAL takes one measurement. -/
def addSum (l : List (Nat × (Int × Int × Nat))) (m : GammaMeas) : List (Nat × (Int × Int × Nat)) :=
  let old := match l.find? (fun e => e.1 == m.port.val) with | some (_, x) => x | none => (0, 0, 0)
  l.filter (fun e => e.1 != m.port.val) ++ [(m.port.val, (old.1 + m.i, old.2.1 + m.q, old.2.2 + 1))]

/-- A calibration round of a CAL ends (R358): the next of its sweeps becomes a candidate, or the CAL is over. -/
def State.calSweepEnd (s : State) (r : Round) (meas : List GammaMeas) : State :=
  match s.ping.cal with
  | none => s.roundEnd r
  | some c =>
    let ports := c.ports.filter (fun p => !s.portOos p)
    let meas := sweepOrder ports meas
    let s := if meas.length = ports.length then s.cnt (Reg.pingCnt 0) else s
    let s := s.addCnt (Reg.pingCnt 3) (meas.filter gammaVoid).length
    let good := meas.filter (fun m => !gammaVoid m)
    let s := good.foldl (fun (s : State) m => s.setPing m.port { s.pingPort m.port with mi := m.i, mq := m.q }) s
    let c := { c with left := c.left - 1, sums := good.foldl addSum c.sums }
    let s := s.roundEnd r
    if c.left = 0 then s.calDone c
    else { s with ping := { s.ping with cal := some c },
                  cands := s.cands ++ [{ kind := .pingCal, seq := 0, entry := 0, warp := r.warp, due := true, points := [] }] }

end Sys2Proof.Machine
end

