-- ==== Sys2Proof/Machine/Sha.lean ====
section
/-! DEFINITION. SHA-256, the hash of the tally log's chain (R376). The spec names the function only; what it computes is FIPS 180-4's
(PRESUMED, log entry 20). Its constants are not listed here but computed from what they are: fractional bits of roots of primes. -/
namespace Sys2Proof.Machine

/-- The primes below a limit, in rising order. -/
def primesBelow (limit : Nat) : List Nat :=
  (List.range limit).foldl (fun ps k => if k < 2 || ps.any (k % · == 0) then ps else ps ++ [k]) []

/-- The largest natural number whose `k`-th power stays within `n`, settled bit by bit from bit `b - 1` down. -/
def rootWithin (k n : Nat) (b : Nat) : Nat :=
  (List.range b).foldr (fun i r => if (r + 2 ^ i) ^ k ≤ n then r + 2 ^ i else r) 0

/-- The first 32 fractional bits of the `k`-th root of `p` (whose whole part stays below 32). -/
def rootFraction (k p : Nat) : Word := wordOf (rootWithin k (p <<< (32 * k)) 37)

/-- A digest or working value: eight words in a ring, of which each step renews two. -/
structure Digest where
  a : Word
  b : Word
  c : Word
  d : Word
  e : Word
  f : Word
  g : Word
  h : Word
  deriving DecidableEq, Repr

/-- Eight words of a list as a digest. -/
def Digest.ofWords (l : List Word) : Digest :=
  let at' (i : Nat) := l.getD i 0
  ⟨at' 0, at' 1, at' 2, at' 3, at' 4, at' 5, at' 6, at' 7⟩

/-- The eight words of a digest, in order. -/
def Digest.words (x : Digest) : List Word := [x.a, x.b, x.c, x.d, x.e, x.f, x.g, x.h]

/-- The digest before the first block: from the square roots of the first eight primes. -/
def Digest.start : Digest := .ofWords ((primesBelow 20).map (rootFraction 2))

/-- A word mixed with itself turned by two amounts and, last, by a third or shifted by it. -/
def stir (x : Word) (i j : Nat) (last : Word) : Word := x.rotateRight i ^^^ (x.rotateRight j ^^^ last)

/-- The word that follows a window of the last sixteen schedule words, oldest first. -/
def nextSchedule (window : List Word) : Word :=
  let w (age : Nat) := window.getD (16 - age) 0
  let near := stir (w 2) 17 19 (w 2 >>> 10)
  let far := stir (w 15) 7 18 (w 15 >>> 3)
  (near + far) + (w 7 + w 16)

/-- One of the 64 steps: the step's constant and the window's oldest word stir the ring, and the window slides on by one word. -/
def Digest.turn (s : Digest × List Word) (k : Word) : Digest × List Word :=
  let (x, window) := s
  let bigE := stir x.e 6 11 (x.e.rotateRight 25)
  let bigA := stir x.a 2 13 (x.a.rotateRight 22)
  let choice := x.g ^^^ (x.e &&& (x.f ^^^ x.g))
  let majority := (x.a ||| x.b) &&& (x.c ||| (x.a &&& x.b))
  let fresh := bigE + choice + k + window.headD 0 + x.h
  ({ a := fresh + (bigA + majority), b := x.a, c := x.b, d := x.c, e := x.d + fresh, f := x.e, g := x.f, h := x.g },
   window.drop 1 ++ [nextSchedule window])

/-- A block of sixteen words taken into the digest: 64 steps, with constants from the cube roots of the first 64 primes. -/
def Digest.absorb (x : Digest) (block : List Word) : Digest :=
  let turned := ((primesBelow 312).map (rootFraction 3)).foldl Digest.turn (x, block)
  .ofWords (x.words.zipWith (· + ·) turned.1.words)

/-- The big-endian word that starts at byte `4 * i` of a message. -/
def messageWord (m : List Byte) (i : Nat) : Word :=
  wordOf (((m.drop (4 * i)).take 4).foldl (fun n byte => 256 * n + byte.toNat) 0)

/-- The hash of 64 bytes, which fill one block: the closing one bit and the length in bits stand alone in a second. -/
def sha256of64 (m : List Byte) : List Byte :=
  let closing := (wordOf (1 <<< 31) :: List.replicate 14 0) ++ [wordOf (8 * 64)]
  let done := (Digest.start.absorb ((List.range 16).map (messageWord m))).absorb closing
  done.words.flatMap (fun w => (bytesOfWord w).reverse)

end Sys2Proof.Machine
end

