-- ==== Sys2Proof/Machine/TallyOps.lean ====
section
/-! DEFINITION. The tally die (18_tally_core.md R363 to R386): dwells, records, log, publishing, seal. Every operation of the die is a
function of the die's own data alone (R361, R362). -/
namespace Sys2Proof.Machine

/-! ## Numbers and bytes -/


/-- The CRC-16 under PRE1 over bytes. -/
def crc16Bytes (l : List Byte) : Nat := crc16 (bytesBits false l)

/-! ## Legal parameters (R369) -/

/-- The 64-byte block. -/
def paramBlock (p : TalParams) : List Byte :=
  beBytes 1 p.qMin ++ beBytes 1 p.rssiMin ++ beBytes 1 p.entryN ++ [0] ++ beBytes 2 p.entryWin ++ beBytes 2 p.exitSil ++
  beBytes 2 p.feedGap ++ beBytes 2 p.minDwell ++ beBytes 4 p.gapMax ++ beBytes 4 p.maxDwell ++ beBytes 2 p.zoneLo ++ beBytes 2 p.zoneHi ++
  List.replicate 40 0

/-- The parameters of a 64-byte block; its zero bytes are not read. -/
def paramsOf (l : List Byte) : TalParams :=
  let f := fieldBE l
  { qMin := f 0 1, rssiMin := f 1 1, entryN := f 2 1, entryWin := f 4 2, exitSil := f 6 2, feedGap := f 8 2, minDwell := f 10 2, gapMax := f 12 4,
    maxDwell := f 16 4, zoneLo := f 20 2, zoneHi := f 22 2 }

/-- PARAM_ID. -/
def paramId (p : TalParams) : Nat := crc32 (paramBlock p)

/-- A number lies in a range. -/
def within (lo v hi : Nat) : Bool := decide (lo ≤ v) && decide (v ≤ hi)

/-- The ranges of R369, and FEED_GAP below EXIT_SIL. -/
def paramsOk (p : TalParams) : Bool :=
  within 0 p.qMin 255 && within 40 p.rssiMin 200 && within 1 p.entryN 15 && within 10 p.entryWin 6000 && within 100 p.exitSil 36000 &&
  within 20 p.feedGap 600 && within 0 p.minDwell 36000 && within 60 p.gapMax 604800 && within 86400 p.maxDwell 7776000 &&
  within 1 p.zoneLo 4094 && within p.zoneLo p.zoneHi 4094 && decide (p.feedGap < p.exitSil)

/-! ## Health -/

/-- Bits of HEALTH that stay set: TT_BROKEN, LOG_WRAPPED, OD_FULL, XTAL_FAIL, AUDIT_FULL. FRAM_ERR is set by no rule. -/
def hTtBroken : Nat := 4
def hLogWrapped : Nat := 5
def hOdFull : Nat := 6
def hXtalFail : Nat := 8
def hAuditFull : Nat := 9

/-- The die with a bit of HEALTH set or cleared. -/
def TalDie.setHealth (d : TalDie) (b : Nat) (v : Bool) : TalDie := { d with health := (setBitN (wordOf d.health) b v).toNat }

/-- HEALTH (R379). SEALED and FEED_LIVE, which the spec names without a rule, are read as no seal mode and no gap (DEDUCED, log entry 20). -/
def TalDie.healthWord (d : TalDie) : Nat :=
  d.health + cond d.sealMode 2 1 + cond d.gap.isSome 8 4

/-! ## Publishing (R377) -/

/-- A frame to be published: a block, and the note it makes with its words. -/
def TalDie.publish (d : TalDie) (block : Option (Nat × Nat)) (note : Option Nat) (nwords : List Word) : TalDie :=
  { d with pub := d.pub ++ [{ seq := 0, block := block, note := note, words := [], nwords := nwords }] }

/-- The 32 words of the status block (R379). -/
def TalDie.statusWords (d : TalDie) : List Word :=
  let cand := (d.dwells.filter (fun e => e.state == .cand)).length
  [wordOf (d.audit * 65536 + d.healthWord), wordOf d.tt, wordOf (d.breaks % 65536 * 65536 + d.tt / 2 ^ 32 % 256), wordOf d.next,
   wordOf (cand * 65536 + (d.dwells.length - cand)), wordOf d.feedOk, wordOf d.feedBad, wordOf d.sumDrop, wordOf d.odFull, d.fwVer,
   wordOf (paramId d.params), wordOf (d.fwSeq * 65536 + d.parSeq)] ++ List.replicate 20 0

/-- The four words of a seal entry (R379). -/
def SealEntry.words (e : SealEntry) : List Word :=
  [wordOf (e.audit * 65536 + e.result * 256 + e.reason), wordOf e.tt, wordOf (e.tt / 2 ^ 32 % 256 * 2 ^ 24 + e.ty * 65536 + e.seq), e.params]

/-- The eight words of an open-dwell entry (R379); a free one is zero. -/
def dwellWords (e : Option Dwell) : List Word :=
  match e with
  | none => List.replicate 8 0
  | some e =>
    let o := e.state == .open_
    let en := if o then e.entry else e.cfirst
    [wordOf (e.id / 2 ^ 32), wordOf e.id, wordOf en, wordOf e.last,
     wordOf (en / 2 ^ 32 % 256 * 2 ^ 24 + e.last / 2 ^ 32 % 256 * 65536 + e.family * 16384 + cond o 2 1 * 4096 + (if o then e.zone else e.czone)),
     wordOf (e.count * 65536 + e.ccount % 256 * 256 + e.flags), 0, 0]

/-- The words of a block (R378, R379); the attestation is built when it has been signed. -/
def TalDie.blockWords (d : TalDie) (code arg : Nat) : List Word :=
  match code with
  | 0 => d.statusWords
  | 1 => (List.range 32).flatMap (fun k => match d.log.find? (fun e => e.1 == arg + k) with | some e => e.2 | none => List.replicate 8 0)
  | 2 => (List.range 64).flatMap (fun k => dwellWords (d.dwells.find? (fun e => e.idx == arg + k)))
  | 4 => (List.range 16).flatMap (fun k => match d.sealLog[k]? with | some e => e.words | none => [0, 0, 0, 0])
  | 5 => wordsOfBytes (paramBlock d.params)
  | _ => []

/-- The note that follows a change of a HEALTH bit, AUDIT or the seal log: the status block with a SEAL or HEALTH note (R377). -/
def TalDie.announce (old d : TalDie) : TalDie :=
  let d := if old.sealLog == d.sealLog then d else d.publish (some (0, 0)) (some 3) ((d.sealLog.map SealEntry.words).headD [])
  if old.healthWord = d.healthWord ∧ old.audit = d.audit then d else d.publish (some (0, 0)) (some 2) (d.statusWords.take 6)

/-! ## Closing a dwell (R374 to R376) -/

/-- Flags of a record. -/
def fGap : Nat := 2
def fLoss : Nat := 4
def fMax : Nat := 8
def fZone : Nat := 16
def fPower : Nat := 32
def fSeal : Nat := 64
def fClock : Nat := 128

/-- The eight words of a dwell record (R374). -/
def TalDie.recordWords (d : TalDie) (e : Dwell) (flags : Nat) : List Word :=
  let dur := e.last - e.entry
  let w := [wordOf d.next, wordOf (e.id / 2 ^ 32), wordOf e.id, wordOf e.entry, wordOf e.last, wordOf dur,
            wordOf (e.entry / 2 ^ 32 % 256 * 2 ^ 24 + e.last / 2 ^ 32 % 256 * 65536 + e.family * 16384 + e.zone)]
  let lo := d.audit % 256 * 256 + (flags ||| (if dur < d.params.minDwell then 1 else 0))
  let crc := crc16Bytes (w.flatMap bytesOfWord ++ (bytesOfWord (wordOf lo)).take 2)
  w ++ [wordOf (crc * 65536 + lo)]

/-- A dwell closes (R375): record, chain, head and table change at one instant. -/
def TalDie.close (d : TalDie) (e : Dwell) (flag : Nat) : TalDie :=
  let w := d.recordWords e (e.flags ||| flag)
  let chain := sha256of64 (d.chain ++ w.flatMap bytesOfWord)
  let d := if d.next > 65536 then d.setHealth hLogWrapped true else d
  let d := { d with log := ((d.next, w) :: d.log).take 65536, next := (d.next + 1) % 2 ^ 32, chain := chain,
                    dwells := d.dwells.filter (fun x => x.idx != e.idx) }
  d.publish none (some 1) w

/-- Every open dwell that `p` accepts closes with a flag. -/
def TalDie.closeAll (d : TalDie) (p : Dwell → Bool) (flag : Nat) : TalDie :=
  (d.dwells.filter (fun e => e.state == .open_ && p e)).foldl (fun d e => d.close e flag) d

/-- Every candidate is freed. -/
def TalDie.freeCands (d : TalDie) : TalDie := { d with dwells := d.dwells.filter (fun e => e.state != .cand) }

/-- The entry at an index takes a new value; the table stays in the order of its indices. -/
def TalDie.putDwell (d : TalDie) (e : Dwell) : TalDie :=
  { d with dwells := d.dwells.filter (fun x => decide (x.idx < e.idx)) ++ e :: d.dwells.filter (fun x => decide (e.idx < x.idx)) }

/-! ## Items (R366 to R373) -/

/-- A feed item passes its CRC and is one of the two kinds (R366, R367): some true a sighting, some false a window request. -/
def itemKind (i : List Byte) : Option Bool :=
  let b := fun k => (i.getD k 0).toNat
  let crc := i.length == 16 && crc16Bytes (i.take 14) == b 14 * 256 + b 15
  if !crc then none
  else if b 0 = 0x10 then
    (if b 2 / 64 ≠ 3 ∧ b 2 / 16 % 4 = 0 ∧ (b 2 % 16 * 256 + b 3) ≠ 4095 then some true else none)
  else if b 0 = 0x20 then
    (if b 2 * 256 + b 3 ≤ 5 ∧ b 4 = 0 ∧ b 5 = 0 ∧ (List.range 4).all (fun k => b (10 + k) == 0) then some false else none)
  else none

/-- A well-formed item arrives (R372): it is counted, DROPPED above zero flags LOSS on every open dwell, and a gap ends. -/
def TalDie.arrive (d : TalDie) (dropped : Nat) : TalDie :=
  let d := { d with feedOk := d.feedOk + 1, sumDrop := d.sumDrop + dropped, lastItem := d.tt }
  let mark := fun (f : Dwell → Dwell) (d : TalDie) => { d with dwells := d.dwells.map (fun e => if e.state = .open_ then f e else e) }
  let d := if dropped = 0 then d else mark (fun e => { e with flags := e.flags ||| fLoss }) d
  if d.gap.isSome then { mark (fun e => { e with silFrom := d.tt }) d with gap := none } else d

/-- The entry for a new candidate (R373): a free index, the lowest one, else that of the oldest candidate. -/
def TalDie.newDwell (d : TalDie) (family id : Nat) : Option Dwell × TalDie :=
  let mk := fun i : Nat => { idx := i, family := family, id := id, state := .cand, zone := 0, entry := 0, last := 0, silFrom := 0, count := 0,
                             flags := 0, czone := 0, cfirst := 0, ccount := 0 : Dwell }
  match (List.range 4096).find? (fun i => !d.dwells.any (fun e => e.idx == i)) with
  | some i => (some (mk i), d.putDwell (mk i))
  | none =>
    let old := d.dwells.foldl (fun (b : Option Dwell) e =>
      if e.state = .open_ then b else match b with | none => some e | some x => if e.cfirst < x.cfirst then some e else some x) none
    match old with
    | some x => (some (mk x.idx), (d.putDwell (mk x.idx)))
    | none => (none, { d.setHealth hOdFull true with odFull := d.odFull + 1 })

/-- The candidate count of an entry after a zone sighting, and the dwell it opens when ENTRY_N is reached (R370). -/
def TalDie.candidate (d : TalDie) (e : Dwell) (zone : Nat) : TalDie :=
  let t := d.tt
  let e := if e.ccount = 0 ∨ zone ≠ e.czone ∨ t - e.cfirst > d.params.entryWin then { e with czone := zone, cfirst := t, ccount := 1 }
           else { e with ccount := e.ccount + 1 }
  if e.ccount < d.params.entryN then d.putDwell e
  else
    let d := if e.state = .open_ then d.close e fZone else d
    d.putDwell { e with state := .open_, zone := e.czone, entry := e.cfirst, last := t, silFrom := t, count := e.ccount, ccount := 0, flags := 0 }

/-- A sighting item stamped with the present TT (R370). -/
def TalDie.sight (d : TalDie) (family zone quality rssi id : Nat) : TalDie :=
  if rssi > d.params.rssiMin then d
  else
    let zs := within d.params.zoneLo zone d.params.zoneHi && decide (d.params.qMin ≤ quality)
    match d.dwells.find? (fun e => e.family == family && e.id == id) with
    | some e =>
      if e.state = .open_ ∧ (!zs ∨ zone = e.zone) then
        d.putDwell { e with last := d.tt, silFrom := d.tt, count := min 65535 (e.count + 1), ccount := 0 }
      else if zs then d.candidate e zone
      else d
    | none =>
      if !zs then d
      else match d.newDwell family id with
        | (some e, d) => d.candidate e zone
        | (none, d) => d

/-- What arrives on the feed while the die restarts on an accepted image is lost (R384). -/
def TalDie.hear (d : TalDie) (f : TalDie → TalDie) : TalDie := if d.restart then d else f d

/-- A sighting item's bytes applied (R370). -/
def TalDie.sightItem (d : TalDie) (i : List Byte) : TalDie :=
  let b := fun k => (i.getD k 0).toNat
  let d := d.arrive (b 1)
  if d.xtal then d.sight (b 2 / 64) (b 2 % 16 * 256 + b 3) (b 4) (b 5) (beNat ((i.drop 6).take 8)) else d

/-- A window request's bytes applied (R376, R377): the block is published, or the chain head goes to be signed. -/
def TalDie.requestItem (d : TalDie) (i : List Byte) : TalDie :=
  let b := fun k => (i.getD k 0).toNat
  let d := d.arrive (b 1)
  if b 3 = 3 then { d with attest := true } else d.publish (some (b 3, beNat ((i.drop 6).take 4))) none []

/-! ## Ticks and tests (R371, R372) -/

/-- A candidate whose window has passed is freed. -/
def TalDie.testEntryWin (d : TalDie) (i : Nat) : TalDie :=
  match d.dwells.find? (fun e => e.idx == i) with
  | some e => if e.state = .cand ∧ d.tt - e.cfirst > d.params.entryWin then { d with dwells := d.dwells.filter (fun x => x.idx != i) } else d
  | none => d

/-- An open dwell whose silence has lasted EXIT_SIL closes, unless a gap runs. -/
def TalDie.testExitSil (d : TalDie) (i : Nat) : TalDie :=
  match d.dwells.find? (fun e => e.idx == i) with
  | some e => if e.state = .open_ ∧ d.gap = none ∧ d.tt - e.silFrom ≥ d.params.exitSil then d.close e 0 else d
  | none => d

/-- An open dwell that has lasted MAX_DWELL closes with MAX. -/
def TalDie.testMaxDwell (d : TalDie) (i : Nat) : TalDie :=
  match d.dwells.find? (fun e => e.idx == i) with
  | some e => if e.state = .open_ ∧ d.tt - e.entry ≥ d.params.maxDwell * 10 then d.close e fMax else d
  | none => d

/-- A gap begins when no well-formed item has come for FEED_GAP (R372). -/
def TalDie.testFeedGap (d : TalDie) : TalDie :=
  if d.gap = none ∧ d.tt - d.lastItem ≥ d.params.feedGap then
    let d := d.freeCands
    { d with gap := some d.lastItem, dwells := d.dwells.map (fun e => { e with flags := e.flags ||| fGap }) }
  else d

/-- A gap that reaches GAP_MAX closes every open dwell (R372). -/
def TalDie.testGapMax (d : TalDie) : TalDie :=
  match d.gap with
  | some g => if d.tt - g ≥ d.params.gapMax * 10 then d.closeAll (fun _ => true) 0 else d
  | none => d

/-- The tests of one tick, entry by entry and then the gap rule (R371). -/
def TalDie.tests (d : TalDie) : TalDie :=
  let d := (d.dwells.map (fun e => e.idx)).foldl (fun (d : TalDie) i => ((d.testEntryWin i).testExitSil i).testMaxDwell i) d
  d.testFeedGap.testGapMax

/-! ## Supply, clock and seal (R382 to R386) -/

/-- VTAL is lost: what lies in FRAM stays. -/
def TalDie.stop (d : TalDie) : TalDie :=
  { d with running := false, pub := [], air := [], attest := false, sealMode := false, image := none, restart := false }

/-- The die starts again (R382): TT resumes from the saved value plus 1 s, dwells open at the stop close with POWER. -/
def TalDie.start (d : TalDie) : TalDie :=
  let d := { d with running := true, restart := false, xtal := true, tt := d.saved + 10, breaks := d.breaks + 1, gap := none, lastItem := d.saved + 10 }
  let d := ((d.setHealth hTtBroken true).setHealth hXtalFail false).closeAll (fun _ => true) fPower
  d.freeCands

/-- The tally crystal has stopped (R383). -/
def TalDie.loseXtal (d : TalDie) : TalDie :=
  { (d.setHealth hXtalFail true).closeAll (fun _ => true) fClock with xtal := false }

/-- The field of `n` bytes at an offset of a tally image, most significant byte first (R385). -/
def talField (i : TallyImage) (k n : Nat) : Nat := fieldBE i.bytes k n

/-- An image begins with MAGIC (R385). -/
def talMagic (i : TallyImage) : Bool := i.bytes.take 4 == [0x54, 0x41, 0x4C, 0x49]

/-- TYPE of an image. -/
def talType (i : TallyImage) : Nat := talField i 4 1

/-- SEQ of an image. -/
def talSeq (i : TallyImage) : Nat := talField i 6 2

/-- The legal parameters of an image. -/
def talParams (i : TallyImage) : TalParams := paramsOf ((i.bytes.drop 16).take 64)

/-- The length is consistent (R385, R386): LEN, which is zero without firmware, spans what lies between the parameters and the signature, and the
whole is at most 131,072 bytes. -/
def talLenOk (i : TallyImage) : Bool :=
  decide (i.bytes.length = 80 + talField i 12 4 + 64) && decide (i.bytes.length ≤ 131072) && (talType i != 2 || talField i 12 4 == 0)

/-- The reason an image is rejected for, 0 when it is accepted (R379, R386). A byte 5 or, without firmware, an FW_VER that is not zero counts as an
unknown TYPE, a zero byte of the parameter block that is not zero as a fault of the parameters (DEDUCED, log entry 20). -/
def TalDie.imageFault (d : TalDie) (i : TallyImage) : Nat :=
  let ty := talType i
  if !i.sigOk then 1
  else if (ty ≠ 1 ∧ ty ≠ 2) ∨ talField i 5 1 ≠ 0 ∨ (ty = 2 ∧ talField i 8 4 ≠ 0) then 2
  else if talSeq i ≤ (if ty = 1 then d.fwSeq else d.parSeq) then 3
  else if !paramsOk (talParams i) || paramBlock (talParams i) != (i.bytes.drop 16).take 64 then 4
  else if !talLenOk i then 5
  else if d.audit ≥ 0xFFFF then 6
  else 0

/-- An entry joins the seal log, newest first. -/
def TalDie.sealNote (d : TalDie) (result reason ty seq : Nat) : TalDie :=
  { d with sealLog := ({ audit := d.audit, result := result, reason := reason, tt := d.tt, ty := ty, seq := seq,
                         params := wordOf (paramId d.params) } :: d.sealLog).take 16 }

/-- SEAL_N has returned high for 2 s (R386): an accepted image takes effect and the die restarts on it; anything else is logged. -/
def TalDie.leaveSeal (d : TalDie) : TalDie :=
  let d0 := { d with sealMode := false, image := none }
  match d.image with
  | none => d0.sealNote 3 0 0 0
  | some i =>
    let r := d.imageFault i
    if r ≠ 0 then d0.sealNote 2 r (talType i) (talSeq i)
    else
      let d := (d0.closeAll (fun _ => true) fSeal).freeCands
      let fw := talType i == 1
      let d := { d with audit := d.audit + 1, params := talParams i, fwVer := if fw then wordOf (talField i 8 4) else d.fwVer,
                        fwSeq := if fw then talSeq i else d.fwSeq, parSeq := if fw then d.parSeq else talSeq i }
      let d := if d.audit = 0xFFFF then d.setHealth hAuditFull true else d
      { (d.setHealth hTtBroken false).sealNote 1 0 (talType i) (talSeq i) with restart := true, attest := false }

/-! ## The die and the module -/

/-- The die takes a step of its own, if it runs, and announces what changed (R377). -/
def State.onDie (s : State) (f : TalDie → TalDie) : State :=
  if s.board.tally && s.die.running then { s with die := TalDie.announce s.die (f s.die) } else s

/-- The bytes of a sighting item or window request with their CRC (R366). -/
def feedBytes (l : List Byte) : List Byte := l ++ beBytes 2 (crc16Bytes l)

/-- Sixteen free words: a signature (log entry 1). -/
def State.drawWords : Nat → State → List Word × State
  | 0, s => ([], s)
  | n + 1, s =>
    let (w, s) := s.drawWord
    let (ws, s) := State.drawWords n s
    (w :: ws, s)

/-- The window offset of a block in words, and how many it holds (R378). -/
def windowOf (code : Nat) : Nat × Nat :=
  match code with
  | 0 => (0, 32) | 5 => (32, 16) | 4 => (48, 64) | 3 => (112, 32) | 1 => (256, 256) | _ => (512, 512)

/-- A block of the window is replaced whole (R378), and the request that waited for it completes (R381). -/
def State.replaceBlock (s : State) (code arg : Nat) (ws : List Word) : State :=
  let (o, n) := windowOf code
  let s := (List.range n).foldl (fun (s : State) k => s.setReg (Reg.talWindow (o + k)) (ws.getD k 0)) s
  s.completeAll (fun c => match c.kind with
    | .talReq b a => b == code && ((code != 1 && code != 2) || a.toNat == arg)
    | _ => false) .ok

/-- A note becomes a TALLY_NOTE packet (R380); HEALTH and SEAL also raise TAL. -/
def State.talNote (s : State) (note : Nat) (words : List Word) : State :=
  let s := s.queueTally { ty := 6, flags := cond s.tal.gap 8 0, len := 8 + 4 * words.length, words := wordOf (note * 2 ^ 24) :: words }
  let s : State := { s with tal := { s.tal with gap := false } }
  if note = 1 then s else s.raise 9

/-- A publish frame arrives whole (R377, R378, R380). -/
def State.takePub (s : State) (f : PubFrame) : State :=
  let lost := match s.tal.lastSeq with | some n => f.seq != (n + 1) % 256 | none => false
  let s : State := { s with tal := { s.tal with lastSeq := some f.seq, gap := s.tal.gap || lost } }
  let s := (s.cnt (Reg.talCnt 2)).setBit Reg.sysClkstat 7 true
  let s := match f.block with | some (c, a) => s.replaceBlock c a f.words | none => s
  match f.note with | some n => s.talNote n f.nwords | none => s

end Sys2Proof.Machine
end

