-- ==== Sys2Proof/Machine/CmdOps.lean ====
section
/-! DEFINITION. Host commands (07_register_access.md R146; the command register of each chapter): what each one does with the number it was given.
A function that is not ready answers under R94; then the first row of the command's own table that applies gives its status. -/
namespace Sys2Proof.Machine

/-! ## Shared -/

/-- A command of a kind is live. -/
def State.live (s : State) (k : CmdKind) : Bool := s.cmds.any (fun c => c.kind == k)

/-- Another command than `n` of the same kind is live. -/
def State.liveOther (s : State) (k : CmdKind) (n : Nat) : Bool := s.cmds.any (fun c => c.kind == k && c.seq != n)

/-- A RETURN in progress is ended by an OUT (R199, R456). -/
def State.endReturn (s : State) (k : CmdKind) : State := s.completeAll (fun c => c.kind == k) .outOfService

/-- The rounds that `p` accepts drain from now on (R174, R288). -/
def State.drainSome (s : State) (p : Round → Bool) : State :=
  { s with rounds := s.rounds.map (fun r => if p r then { r with draining := true } else r) }

/-- The status codes, in the order of R14. -/
def allStatus : List Status :=
  [.ok, .aborted, .abortLate, .disabled, .timeout, .crcFail, .noReply, .collision, .refused, .outOfService, .draftMismatch, .locked,
   .aliveRepeat, .aliveJump, .overload, .notReady, .portFault]

/-- A command whose status the spec does not state completes at once with a free one (log entry 31). -/
def State.completeFree (s : State) (n : Nat) : State :=
  let (w, s) := s.drawWord
  s.complete n (allStatus.getD (w.toNat % 17) .ok)

/-! ## Illuminators (R173 to R176) -/

/-- What R94 and the first row of R173 say of an illuminator. -/
def State.txcGate (s : State) (n : Nat) : Option Status :=
  if !s.ready rdDraft then some .notReady
  else if !s.txcUsed n then some .draftMismatch
  else if s.txReason n = 0 ∧ !s.ready (rdTxc n) then some .notReady
  else none

/-- OUT of an illuminator by command `k`. -/
def State.cmdTxcOut (s : State) (n k : Nat) : State :=
  match s.txcGate n with
  | some st => s.complete k st
  | none =>
    let back := s.live (.txcReturn n)
    if s.txReason n ≠ 0 ∧ !back then s.complete k .ok
    else
      let s := s.endReturn (.txcReturn n)
      let s := (s.setFld (Reg.txcStat n) 24 8 1).setReady (rdTxc n) false
      let s := if s.ramp n = 5 then s.setRamp n 0 else s
      let s := (s.updTx n (fun t => { t with calibrating := false })).forgetPoints n
      (s.drainSome (fun r => r.txc == some n)).settleOuts

/-- RETURN of an illuminator (DEDUCED, log entry 34). -/
def State.cmdTxcReturn (s : State) (n k : Nat) : State :=
  match s.txcGate n with
  | some st => s.complete k st
  | none =>
    if s.txcHot n then s.complete k .refused
    else if s.txReason n = 0 ∨ s.liveOther (.txcReturn n) k then s.complete k .ok
    else s.startReturns

/-! ## Ports (R173, R174, R176) -/

/-- OUT of a port (DEDUCED, log entry 35). -/
def State.cmdPortOut (s : State) (p k : Nat) : State :=
  if !s.portNamed p then s.complete k .draftMismatch
  else if s.portOos p ∧ !s.live (.portReturn p) then s.complete k .ok
  else
    let s := ((s.endReturn (.portReturn p)).setPortOos p true).loseAnt
    (s.drainSome (fun r => s.roundUsesPort r p)).settleOuts

/-- RETURN of a port: its geometries are calibrated, and it joins at the boundary that ends the last of them (DEDUCED, log entry 34). -/
def State.cmdPortReturn (s : State) (p k : Nat) : State :=
  if !s.portNamed p then s.complete k .draftMismatch
  else if s.portClass p ≠ 1 then s.complete k .refused
  else if !s.portOos p ∨ s.liveOther (.portReturn p) k then s.complete k .ok
  else if s.live (.portOut p) then s
  else
    let uses := fun g => geoUses g none (some p) none
    let s := s.recalibrate uses
    if s.calPending uses then s else (s.setPortOos p false).complete k .ok

/-! ## Chains (R195 to R199) -/

/-- What R94 and the first row of R195 say of a chain. -/
def State.rxcGate (s : State) (n : Nat) : Option Status :=
  if !s.ready rdDraft then some .notReady
  else if !s.chainNamed n then some .draftMismatch
  else if s.fld (Reg.rxcStat n) 24 8 = 0 ∧ !s.ready (rdRxc n) then some .notReady
  else none

/-- OUT of a chain. -/
def State.cmdRxcOut (s : State) (n k : Nat) : State :=
  match s.rxcGate n with
  | some st => s.complete k st
  | none =>
    let back := s.live (.rxcReturn n)
    if s.fld (Reg.rxcStat n) 24 8 ≠ 0 ∧ !back then s.complete k .ok
    else
      let s := (s.endReturn (.rxcReturn n)).setFld (Reg.rxcStat n) 24 8 1
      (s.chainOut n 1).settleOuts

/-- RETURN of a chain: a second one during steps 1 to 3 of R199 completes with OUT_OF_SERVICE (DEDUCED, log entry 34). -/
def State.cmdRxcReturn (s : State) (n k : Nat) : State :=
  match s.rxcGate n with
  | some st => s.complete k st
  | none =>
    let away := (s.chain n).svc == .calibrating || (s.chain n).svc == .points || (s.chain n).svc == .joining
    if s.liveOther (.rxcReturn n) k then s.complete k (if away then .outOfService else .ok)
    else if s.fld (Reg.rxcStat n) 24 8 = 0 then s.complete k .ok
    else s.startReturns

/-! ## Scheduler and seen-tag table -/

/-- RUN of an entry (R283): its round is a candidate at once. -/
def State.cmdRun (s : State) (e k : Nat) : State :=
  let w := s.entryWords e
  { s with cands := s.cands ++ [{ kind := kindOf w, seq := k, entry := e, warp := eWarp w, due := false, points := [] }] }

/-- The identity that SEEN_KEY0 to SEEN_KEY2 hold. -/
def State.seenKey (s : State) : Nat :=
  (s.reg (Reg.seenKey 0)).toNat + (s.reg (Reg.seenKey 1)).toNat * 2 ^ 32 + (s.reg (Reg.seenKey 2)).toNat * 2 ^ 64

/-- FIND (R293, SEEN_CMD): SEEN_FIND shows the entry with the key. -/
def State.cmdFind (s : State) (k : Nat) : State :=
  let s := s.setReg Reg.seenFind (match s.findSeen (s.fld (Reg.seenKey 3) 0 2) s.seenKey with | some i => wordOf (2 ^ 31 + i) | none => 0)
  s.complete k .ok

/-- CLEAR (SEEN_CMD): every entry that is not assigned is removed and the population store emptied, unless a round is in flight
(DEDUCED, log entry 39). -/
def State.cmdClear (s : State) (k : Nat) : State :=
  if !s.rounds.isEmpty then s.complete k .refused
  else
    let seen := (s.seen.filter (fun e => match e.2 with | some x => x.assigned | none => false)).map
      (fun e => (e.1, e.2.map (fun x => { x with noHist := false })))
    let s : State := { s with seen := seen, seenWb := [], pop := [], fetches := [], umTags := s.umTags.filter (fun t => seen.any (fun e => e.1 == t.index)) }
    (({ s with memp := { s.memp with arrived := [] } } : State).dropJobs isPop).complete k .ok

/-! ## Tag function (R346) -/

/-- TAG_CMD is carried out by `f` once the tag function is ready. -/
def State.tagGate (s : State) (k : Nat) (f : State → State) : State :=
  match s.fnStatus rdTagf false false with | some st => s.complete k st | none => f s

/-- CLEAR_GUARD (R344). -/
def State.cmdClearGuard (s : State) (k : Nat) : State :=
  s.tagGate k (fun s => ({ s with tag := { s.tag with consec := 0, cum := 0, lockout := none, locked := false } } : State).complete k .ok)

/-- UNLOCK (R342): every lock that is not a permalock is cleared. -/
def unlocked (locks : Nat) : Nat :=
  let f := fun (i : Nat) => let b := locks / 4 ^ i % 4; (if b ≥ 2 then b else 0) * 4 ^ i
  f 0 + f 1 + f 2

/-- UNLOCK. -/
def State.cmdUnlock (s : State) (k : Nat) : State :=
  s.tagGate k (fun s => ({ s with tag := { s.tag with locks := unlocked s.tag.locks } } : State).complete k .ok)

/-- The crumb job of a command: it changes no content. -/
def cmdJob (c k : Nat) : CrumbJob := { crumb := c, patch := [], who := .cmd k, failed := false, reply := false }

/-- REMAP (R339). -/
def State.cmdRemap (s : State) (c k : Nat) : State :=
  s.tagGate k (fun s => if c = 2 ∨ s.freeSpare.isNone then s.complete k .refused else s.requestCrumb (cmdJob c k))

/-- OUT of a crumb: it is out of service at once (R456), and the command completes when it owns the crumb. A RETURN in progress ends. -/
def State.cmdCrumbOut (s : State) (c k : Nat) : State :=
  s.tagGate k (fun s =>
    let back := s.live (.crumbReturn c)
    if c = 2 then s.complete k .refused
    else if s.crumbOos c ∧ !back then s.complete k .ok
    else
      let ends := fun (j : CrumbJob) => match j.who with
        | .cmd n => (match (s.cmd? n).map Cmd.kind with | some (.crumbReturn x) => x == c | _ => false)
        | _ => false
      let t := s.tag
      let s : State := { s with tag := { t with queue := t.queue.filter (fun j => !ends j), job := t.job.filter (fun j => !ends j),
                                                oos := if s.crumbOos c then t.oos else t.oos ++ [(c, false)] } }
      (s.endReturn (.crumbReturn c)).requestCrumb (cmdJob c k))

/-- RETURN of a crumb. -/
def State.cmdCrumbReturn (s : State) (c k : Nat) : State :=
  s.tagGate k (fun s =>
    if c = 2 then s.complete k .refused
    else if s.crumbWorn c ∧ s.freeSpare.isNone ∧ !s.liveOther (.crumbReturn c) k then s.complete k .outOfService
    else if !s.crumbOos c ∨ s.liveOther (.crumbReturn c) k then s.complete k .ok
    else s.requestCrumb (cmdJob c k))

/-! ## Ping engine and tally (R358, R360, R381) -/

/-- CAL (R358, R360): its sweeps run as calibration rounds over the named ports in service. -/
def State.cmdCal (s : State) (k : Nat) : State :=
  match s.fnStatus rdPing false false with
  | some st => s.complete k st
  | none =>
    if !s.ready rdDraft ∨ s.ping.cal.isSome then s.complete k .refused
    else
      let ports := (List.range 64).filter (fun p => s.portNamed p && !s.portOos p)
      { s with ping := { s.ping with cal := some { seq := k, left := s.fld Reg.pingCfg 20 4, ports := ports, sums := [] } },
               cands := s.cands ++ [{ kind := .pingCal, seq := 0, entry := 0, warp := 0, due := true, points := [] }] }

/-- The argument of a window request lies within R378. -/
def talArgOk (block : Nat) (arg : Word) : Bool := block != 2 || (arg.toNat % 64 == 0 && decide (arg.toNat < 4096))

/-- REQUEST (R381). One that the queue of 4 window requests (R368) has no place for is lost, and ends with TIMEOUT (DESIGN CHOICE, log entry 20). -/
def State.cmdRequest (s : State) (block : Nat) (arg : Word) (k : Nat) : State :=
  if !s.board.tally then s.complete k .disabled
  else match s.fnStatus rdTal false false with
    | some st => s.complete k st
    | none =>
      let other := s.cmds.any (fun c => match c.kind with | .talReq _ _ => c.seq != k | _ => false)
      if other ∨ 5 < block ∨ !talArgOk block arg then s.complete k .refused
      else if s.tal.reqs.length < 4 then { s with tal := { s.tal with reqs := s.tal.reqs ++ [(block, arg)] } }
      else s

/-! ## Memory port (R401) -/

/-- What R94 and the first row of R401 say of a device. -/
def State.mempGate (s : State) (dev : Bool) : Option Status :=
  match s.fnStatus rdMemp false false with
  | some st => some st
  | none => if dev && (s.dev1 == 0 || s.dev1 == 3) then some .draftMismatch else none

/-- OUT of a memory device: it is out of service at once (R456), and the command completes when the device has finished what it had begun (R401). -/
def State.cmdMempOut (s : State) (dev : Bool) (k : Nat) : State :=
  let d := cond dev 1 0
  match s.mempGate dev with
  | some st => s.complete k st
  | none =>
    if !dev ∧ !s.mirrorIn then s.complete k .refused
    else if s.memOos dev ∧ !s.live (.mempReturn d) then s.complete k .ok
    else if s.memOos dev then (((s.setBit Reg.mempStat 24 false).endReturn (.mempReturn d)).memOut dev).complete k .ok
    else (s.setBit Reg.mempStat (22 + d) true).settleMemOut dev

/-- RETURN of a memory device. -/
def State.cmdMempReturn (s : State) (dev : Bool) (k : Nat) : State :=
  let d := cond dev 1 0
  match s.mempGate dev with
  | some st => s.complete k st
  | none =>
    if s.live (.mempOut d) then s
    else if !s.memOos dev ∨ s.liveOther (.mempReturn d) k then s.complete k .ok
    else s.startMemReturn dev k

/-! ## Management halves and decoders (R410, R411, R417, R419) -/

/-- OUT of a half: a planned handover of the running one, or the standby out at once (DEDUCED, log entry 41). -/
def State.cmdMgmtOut (s : State) (half : Bool) (k : Nat) : State :=
  match s.fnStatus rdMgmt false false with
  | some st => s.complete k st
  | none =>
    if s.mgmt.running = some half then
      (if s.mgmt.handover.isSome then s.complete k .ok
       else if s.halfState (!half) = 3 then { s with mgmt := { s.mgmt with handover := some (!half) } }
       else s.complete k .refused)
    else if s.mgmt.handover = some half ∨ s.mgmt.takeover = some half then s.complete k .refused
    else if s.halfState half = 5 then s.complete k .ok
    else ((s.endReturn (.mgmtReturn (cond half 1 0))).halfOut half 1).complete k .ok

/-- RETURN of a half (DEDUCED, log entry 41). -/
def State.cmdMgmtReturn (s : State) (half : Bool) (k : Nat) : State :=
  match s.fnStatus rdMgmt false false with
  | some st => s.complete k st
  | none =>
    if s.mgmt.running = some half ∧ s.live (.mgmtOut (cond half 1 0)) then s
    else if s.halfState half = 0 ∨ s.halfState half = 5 then s.loadHalf half s.fwActive
    else s.complete k .ok

/-- DUMP (R417); while another is live it is refused (R421). -/
def State.cmdDump (s : State) (k : Nat) : State :=
  match s.fnStatus rdMgmt false false with
  | some st => s.complete k st
  | none =>
    let es := s.dumpEntries (s.reg Reg.mgmtLogSel).toNat
    if s.liveOther .dump k then s.complete k .refused
    else ({ s with mgmt := { s.mgmt with dumps := s.mgmt.dumps ++ [(k, es)] } } : State).dumpOn

/-- What R94 and the first row of R419 say of a decoder: the draft is live, the decoder is in one of its pools, and the pool has been ready. -/
def State.decGate (s : State) (d : Nat) : Option Status :=
  let b := (Sys2Proof.Machine.poolOf d).1
  let mine := match s.draft with | none => false | some x => x.struct_.decoders.contains d
  if !s.ready rdDraft then some .notReady
  else if !mine then some .draftMismatch
  else if !s.ready b ∧ !s.decOos d then some .notReady
  else none

/-- OUT of a decoder, which the event log records (R415). -/
def State.cmdDecOut (s : State) (d k : Nat) : State :=
  match s.decGate d with
  | some st => s.complete k st
  | none =>
    if s.decOos d ∧ !s.live (.decReturn d) then s.complete k .ok
    else
      let s := s.endReturn (.decReturn d)
      let s := (((s.setBit Reg.mgmtDecOos d true).setBit Reg.mgmtDecOos (16 + d) false).syncPool d).logEvent 0x0B 1 (wordOf d)
      (s.drainSome (fun r => r.decs.contains d)).settleOuts

/-- RETURN of a decoder: its self-test follows (DECODER_SELFTEST). -/
def State.cmdDecReturn (s : State) (d k : Nat) : State :=
  match s.decGate d with
  | some st => s.complete k st
  | none => if !s.decOos d ∨ s.liveOther (.decReturn d) k then s.complete k .ok else s

/-! ## Update path -/

/-- A command of UPD_CMD is carried out by `f` once the management subsystem is ready. -/
def State.updGate (s : State) (k : Nat) (f : State → State) : State :=
  match s.fnStatus rdMgmt false false with | some st => s.complete k st | none => f s

/-! ## The commands of R407 -/

/-- The running half serves a command. A UNIT that names no half has no stated status (log entry 31). -/
def State.serve (kind : CmdKind) (k : Nat) (s : State) : State :=
  match kind with
  | .txcReturn n => s.cmdTxcReturn n k
  | .portReturn p => s.cmdPortReturn p k
  | .rxcReturn n => s.cmdRxcReturn n k
  | .clearGuard => s.cmdClearGuard k
  | .unlock => s.cmdUnlock k
  | .remap c => s.cmdRemap c k
  | .crumbOut c => s.cmdCrumbOut c k
  | .crumbReturn c => s.cmdCrumbReturn c k
  | .pingCal => s.cmdCal k
  | .talReq block arg => s.cmdRequest block arg k
  | .mempOut d => s.cmdMempOut (d == 1) k
  | .mempReturn d => s.cmdMempReturn (d == 1) k
  | .mgmtOut u => if 1 < u then s.completeFree k else s.cmdMgmtOut (u == 1) k
  | .mgmtReturn u => if 1 < u then s.completeFree k else s.cmdMgmtReturn (u == 1) k
  | .dump => s.cmdDump k
  | .updLoad c => s.updGate k (fun s => s.cmdLoad c k)
  | .updVerify => s.updGate k (fun s => s.cmdVerify k)
  | .updArm => s.updGate k (fun s => s.cmdArm k)
  | .updSwitchNow => s.updGate k (fun s => s.cmdSwitchNow k)
  | .updConfirm => s.updGate k (fun s => s.cmdConfirm k)
  | .updRevert => s.updGate k (fun s => s.cmdRevert k)
  | .updAbandon => s.updGate k (fun s => s.cmdAbandon k)
  | _ => s

/-- A command of R407 is served; while a takeover leaves no half running it waits for the new one (R405, R409). -/
def State.serveHalf (kind : CmdKind) (k : Nat) (s : State) : State := if s.mgmt.takeover.isSome then s else s.serve kind k

/-! ## Issuing (R146): the result register, the kind and what is done -/

/-- Commands other than RUN hold the decision COMMITTED from their acceptance on (R284). -/
def State.issueDone (s : State) (res : Nat) (kind : CmdKind) (body : Nat → State → State) : State := s.issue res kind (some true) body

def State.issueTxcOut (s : State) (n : Nat) : State := s.issueDone (Reg.txcCmdRes n) (.txcOut n) (fun k s => s.cmdTxcOut n k)
def State.issueTxcReturn (s : State) (n : Nat) : State := s.issueDone (Reg.txcCmdRes n) (.txcReturn n) (State.serveHalf (.txcReturn n))
def State.issuePortOut (s : State) (p : Nat) : State := s.issueDone Reg.portCmdRes (.portOut p) (fun k s => s.cmdPortOut p k)
def State.issuePortReturn (s : State) (p : Nat) : State := s.issueDone Reg.portCmdRes (.portReturn p) (State.serveHalf (.portReturn p))
def State.issueRxcOut (s : State) (n : Nat) : State := s.issueDone (Reg.rxcCmdRes n) (.rxcOut n) (fun k s => s.cmdRxcOut n k)
def State.issueRxcReturn (s : State) (n : Nat) : State := s.issueDone (Reg.rxcCmdRes n) (.rxcReturn n) (State.serveHalf (.rxcReturn n))
/-- A host-run round is undecided until a transaction of it commits or an ABORT reaches it (R284, R285). -/
def State.issueRun (s : State) (e : Nat) : State := s.issue Reg.schedCmdRes (.run e) none (fun k s => s.cmdRun e k)
def State.issueFind (s : State) : State := s.issueDone Reg.seenCmdRes .find (fun k s => s.cmdFind k)
def State.issueClear (s : State) : State := s.issueDone Reg.seenCmdRes .clear (fun k s => s.cmdClear k)
def State.issueClearGuard (s : State) : State := s.issueDone Reg.tagCmdRes .clearGuard (State.serveHalf .clearGuard)
def State.issueUnlock (s : State) : State := s.issueDone Reg.tagCmdRes .unlock (State.serveHalf .unlock)
def State.issueRemap (s : State) (c : Nat) : State := s.issueDone Reg.tagCmdRes (.remap c) (State.serveHalf (.remap c))
def State.issueCrumbOut (s : State) (c : Nat) : State := s.issueDone Reg.tagCmdRes (.crumbOut c) (State.serveHalf (.crumbOut c))
def State.issueCrumbReturn (s : State) (c : Nat) : State := s.issueDone Reg.tagCmdRes (.crumbReturn c) (State.serveHalf (.crumbReturn c))
def State.issueCal (s : State) : State := s.issueDone Reg.pingCmdRes .pingCal (State.serveHalf .pingCal)
def State.issueRequest (s : State) (block : Nat) (arg : Word) : State := s.issueDone Reg.talReqRes (.talReq block arg) (State.serveHalf (.talReq block arg))
def State.issueMempOut (s : State) (dev : Bool) : State := s.issueDone Reg.mempCmdRes (.mempOut (cond dev 1 0)) (State.serveHalf (.mempOut (cond dev 1 0)))
def State.issueMempReturn (s : State) (dev : Bool) : State := s.issueDone Reg.mempCmdRes (.mempReturn (cond dev 1 0)) (State.serveHalf (.mempReturn (cond dev 1 0)))
/-- OUT of a half by UNIT; a UNIT that names no half has no stated status (log entry 31). -/
def State.issueMgmtOut (s : State) (u : Nat) : State := s.issueDone Reg.mgmtCmdRes (.mgmtOut u) (State.serveHalf (.mgmtOut u))
/-- RETURN of a half by UNIT. -/
def State.issueMgmtReturn (s : State) (u : Nat) : State := s.issueDone Reg.mgmtCmdRes (.mgmtReturn u) (State.serveHalf (.mgmtReturn u))
def State.issueDump (s : State) : State := s.issueDone Reg.mgmtCmdRes .dump (State.serveHalf .dump)
def State.issueDecOut (s : State) (d : Nat) : State := s.issueDone Reg.mgmtDecRes (.decOut d) (fun k s => s.cmdDecOut d k)
def State.issueDecReturn (s : State) (d : Nat) : State := s.issueDone Reg.mgmtDecRes (.decReturn d) (fun k s => s.cmdDecReturn d k)
def State.issuePeerTx (s : State) (dst len : Nat) : State := s.issueDone Reg.peerTxRes (.peerTx dst len) (fun k s => s.cmdPeerTx dst len k)
def State.issueLoad (s : State) (c : Nat) : State := s.issueDone Reg.updCmdRes (.updLoad c) (State.serveHalf (.updLoad c))
def State.issueVerify (s : State) : State := s.issueDone Reg.updCmdRes .updVerify (State.serveHalf .updVerify)
def State.issueArm (s : State) : State := s.issueDone Reg.updCmdRes .updArm (State.serveHalf .updArm)
def State.issueSwitchNow (s : State) : State := s.issueDone Reg.updCmdRes .updSwitchNow (State.serveHalf .updSwitchNow)
def State.issueConfirm (s : State) : State := s.issueDone Reg.updCmdRes .updConfirm (State.serveHalf .updConfirm)
def State.issueRevert (s : State) : State := s.issueDone Reg.updCmdRes .updRevert (State.serveHalf .updRevert)
def State.issueAbandon (s : State) : State := s.issueDone Reg.updCmdRes .updAbandon (State.serveHalf .updAbandon)

end Sys2Proof.Machine
end

