-- ==== Sys2Proof/Machine/Pins.lean ====
section
/-! DEFINITION. The lands of the module (02_package_and_lands.md R41, R44): what the module does with each one in each power state, the levels that
the spec fixes, and the boundary-scan register. -/
namespace Sys2Proof.Machine

/-- The lands of R41 but supplies and ground. -/
inductive Land where
  | hclk | hcsN | hd (k : Fin 8) | irqN | mclk | mcs0N | mcs1N | mdqs | md (k : Fin 8) | prof0 | prof1 | rstN | wakeN
  | ant (p : Fin 64) | comm | refinP | refinN | aux0 | aux1 | sealN | talPulse | tck | tms | tdi | tdo | trstN | dnc
deriving DecidableEq, Repr

/-- The lands of the boundary-scan register (R44), in the order of R41. Which bit is whose the spec does not state: HCLK has bit 0 (DESIGN CHOICE,
log entry 14). -/
def Land.all : List Land :=
  [.hclk, .hcsN, .hd 0, .hd 1, .hd 2, .hd 3, .hd 4, .hd 5, .hd 6, .hd 7, .irqN, .mclk, .mcs0N, .mcs1N, .mdqs,
   .md 0, .md 1, .md 2, .md 3, .md 4, .md 5, .md 6, .md 7, .prof0, .prof1, .rstN, .wakeN]

/-- What the module does with a land: drives it, or leaves it to its pull (up, down) or to no pull at all; `free` when it is driven with data that
the spec does not give at that instant, and `unpowered` with its rail absent. An antenna land has its switches open or one closed, COMM answers a
field, an analogue land is biased or not, TAL_PULSE beats at 1 Hz, and a land for the factory is terminated inside. -/
inductive Drive where
  | high | low | pullUp | pullDown | open_ | free | unpowered
  | switchesOpen | switchClosed | answers | biased | pulse | terminated
deriving DecidableEq, Repr

/-- The column "In reset" of R41, or "In DOZE and DORMANT" when `asleep`. An antenna land has its ping switch closed in a DOZE sweep: see
`State.landDrive`. -/
def Land.rest (asleep : Bool) : Land → Drive
  | .ant _ => .switchesOpen
  | .comm => .answers
  | .hclk => .open_
  | .hcsN => .pullUp
  | .hd _ => .pullDown
  | .irqN => .open_
  | .mclk => .low
  | .mcs0N => .high
  | .mcs1N => .high
  | .mdqs => .pullDown
  | .md _ => .pullUp
  | .prof0 => .pullDown
  | .prof1 => .pullDown
  | .rstN => .pullUp
  | .wakeN => .pullUp
  | .refinP => if asleep then .open_ else .biased
  | .refinN => if asleep then .open_ else .biased
  | .aux0 => .open_
  | .aux1 => .open_
  | .sealN => .pullUp
  | .talPulse => .pulse
  | .tck => .pullDown
  | .tms => .pullUp
  | .tdi => .pullUp
  | .tdo => .open_
  | .trstN => .pullDown
  | .dnc => .terminated

/-- The rail of a land is present (R41); the RF, REF and CORE lands have none of the supply lands. -/
def State.railOn (s : State) : Land → Bool
  | .rstN => s.lands.vao
  | .wakeN => s.lands.vao
  | .sealN => s.lands.vtal
  | .talPulse => s.lands.vtal
  | .ant _ => true
  | .comm => true
  | .refinP => true
  | .refinN => true
  | .aux0 => true
  | .aux1 => true
  | .dnc => true
  | _ => s.lands.vio

/-- The land is in the boundary-scan register and has an output driver (types O, IO and OD of R41). -/
def Land.isOut : Land → Bool | .hd _ => true | .irqN => true | .mclk => true | .mcs0N => true | .mcs1N => true | .md _ => true | _ => false

/-- The place of a land in the boundary-scan register. -/
def Land.place (l : Land) : Nat := (Land.all.findIdx? (fun x => x == l)).getD 0

/-- The memory port holds a select low: an entry is in progress on its device (R391). -/
def State.selects (s : State) (dev : Bool) : Bool := match s.memp.cur with | some e => e.dev == dev | none => false

/-- Some switch of an antenna port is closed (R41, R151): it is on a transmit bus or a receive bus. -/
def State.portClosed (s : State) (p : Nat) : Bool :=
  (List.range 4).any (fun n => s.txOn n && s.bit (Reg.txcStat n) 23 && s.fld (Reg.txcStat n) 16 6 == p) ||
  (List.range 16).any (fun n => s.listensOn n p)

/-- A sweep in DOZE measures the port (R41, R355). -/
def State.swept (s : State) (p : Nat) : Bool := s.phase == .doze && s.ping.sweep.any (fun ps => ps.contains p)

/-- The frame is at a point where the module drives the data lanes (R115): its response, the data of a read, a trailer. -/
def Frame.moduleDrives (f : Frame) : Bool :=
  match f.phase, f.kind with
  | .held _, _ => true
  | .response, some _ => true
  | .data, some (.wr _ _ _) => false
  | .data, some _ => true
  | .trailer, _ => true
  | _, _ => false

/-- What the module does with a land (R41, R45, R113, R131, R391): in DOZE and DORMANT the table's last column holds, under EXTEST the boundary-scan
register drives the outputs, in reset the column before holds; otherwise IRQ_N follows the interrupts, the memory port its entry in progress, HD is
driven up to the width of the phase where the module has the lanes, and TDO while an instruction's data are shifted. -/
def State.landDrive (s : State) (l : Land) : Drive :=
  if !s.railOn l then .unpowered
  else if s.asleep then
    (match l with
     | .ant p => if s.swept p.val then .switchClosed else .switchesOpen
     | l => l.rest true)
  else if s.tap = .extest ∧ l.isOut then
    let v := s.bscan.getLsbD l.place
    if l = .irqN then (if v then .open_ else .low) else if v then .high else .low
  else if s.ringHeld then l.rest false
  else match l with
    | .ant p => if s.portClosed p.val then .switchClosed else .switchesOpen
    | .irqN => if s.irqActive then .low else .open_
    | .mcs0N => if s.selects false then .low else .high
    | .mcs1N => if s.selects true then .low else .high
    | .mclk => if s.memp.cur.isSome then .free else .low
    | .md _ => if s.memp.cur.isSome then .free else .pullUp
    | .hd k => (match s.hp.frame with
      | some f => if f.moduleDrives && decide (k.val < s.dataLanes) then .free else .pullDown
      | none => .pullDown)
    | .tdo => if s.tap = .reset then .open_ else .free
    | l => l.rest false

/-- The level of a land, where something that the model knows fixes it: an output that the module drives, RST_N, WAKE_N, the profile lands and the
select of a frame in progress. Another input has the level that the board gives it. -/
def State.landLevel (s : State) (l : Land) : Option Bool :=
  match l with
  | .rstN => some s.lands.rstN
  | .wakeN => some s.lands.wakeLow.isNone
  | .prof0 => some (s.lands.prof % 2 == 1)
  | .prof1 => some (s.lands.prof / 2 % 2 == 1)
  | .hcsN => if s.hp.frame.isSome then some false else none
  | l => match s.landDrive l with | .high => some true | .low => some false | _ => none

/-- The boundary-scan register captures the lands (R44): a level that nothing known fixes is free. -/
def State.sampleLands (s : State) : BitVec 27 × State :=
  Land.all.foldl (fun (a : BitVec 27 × State) l =>
    match a.2.landLevel l with
    | some v => (if v then a.1 ||| BitVec.ofNat 27 (2 ^ l.place) else a.1, a.2)
    | none => let (v, s) := a.2.drawBool; (if v then a.1 ||| BitVec.ofNat 27 (2 ^ l.place) else a.1, s)) (0, s)

end Sys2Proof.Machine
end

