-- ==== Sys2Proof/Machine/Reset.lean ====
section
/-! DEFINITION. The commands of supplies, clocks, resets and the test access port (02 to 04, R41 to R45, R52, R53, R69 to R81). -/
namespace Sys2Proof.Machine

/-- POR (R79): VIN and VAO both enter range from an unpowered AO; the full reset takes effect at once, no illuminator running (R80). -/
def execPor (s : State) : Host.Outcome State Fault Refusal :=
  let s : State := { s with lands := { s.lands with vin := true, vao := true }, resets := [], thermHold := false }
  .next ((if s.tag.field then s else s.restartLockout).takeReset .por)

/-- VAO_BOR (R79): VAO has been below 2.5 V for 10 us. -/
def execVaoBor (s : State) : Host.Outcome State Fault Refusal :=
  .next (({ s with lands := { s.lands with vao := false } } : State).triggerReset .vaoBor)

/-- VIN_BOR (R79): VIN has been below 10.5 V for 100 us. In DOZE and DORMANT the core is unpowered already (R109). Without a field at COMM a
lockout is to restart in full (R344). -/
def execVinBor (s : State) : Host.Outcome State Fault Refusal :=
  let s : State := { s with lands := { s.lands with vin := false } }
  let s := if s.tag.field then s else s.restartLockout
  .next (if s.phase = .doze ∨ s.phase = .dormant then s else s.triggerReset .vinBor)

/-- RST_N is held low: a PIN reset (R79). -/
def State.pinReset (s : State) : State := ({ s with lands := { s.lands with rstN := false } } : State).triggerReset .pin

/-- PIN (R79): RST_N has been low for `us` microseconds; between 2 and 10 it may or may not act. -/
def execPin (us : Nat) (s : State) : Host.Outcome State Fault Refusal :=
  if us < 2 then .next s
  else if us < 10 then (let (b, s) := s.drawBool; .next (if b then s.pinReset else s))
  else .next s.pinReset

/-- RST_N_RISE (R81). -/
def execRstNRise (s : State) : Host.Outcome State Fault Refusal := .next { s with lands := { s.lands with rstN := true } }

/-- RESET_EFFECT (R80): the triggered resets take effect, in the order of their triggers. -/
def execResetEffect (s : State) : Host.Outcome State Fault Refusal :=
  if s.resets.isEmpty then .next s
  else
    let cs := s.resets
    let s := cs.foldl (fun (s : State) c => s.takeReset c) s
    .next { s with resets := [], thermHold := s.thermHold || cs.contains .therm }

/-- RESET_RELEASE (R81): no reset is triggered, RST_N is high and, after THERM, every main-die site is below 105 degrees (a site leaves
`hot` there); supplies are in range. PROF1 and PROF0 are sampled (R42), and REF, CORE and MGMT run (DEDUCED, log entry 50). -/
def execResetRelease (s : State) : Host.Outcome State Fault Refusal :=
  if s.phase ≠ .held ∨ !s.resets.isEmpty ∨ !s.lands.rstN ∨ (s.thermHold && s.hot.any (fun n => decide (n < 4))) then .next s
  else
    let s : State := { s with lands := { s.lands with vin := true, vao := true }, phase := .active, thermHold := false }
    let s := s.setFld Reg.sysProfStat 0 2 s.lands.prof
    .next (((s.setBit Reg.sysClkstat 2 true).setBit Reg.sysClkstat 3 true).setBit Reg.sysClkstat 4 true)

/-- VIO_POWER_ON (R52): the rail powers on at `mv` millivolts; the mode of a rail that is on already holds. Beyond R48's absolute
maximum the spec gives no behaviour (DEDUCED, log entry 53). -/
def execVioPowerOn (mv : Nat) (s : State) : Host.Outcome State Fault Refusal :=
  if mv > 4000 then .fault .absoluteMaximum
  else if s.lands.vio then .next s
  else .next { s with lands := { s.lands with vio := true, vio33 := decide (2400 ≤ mv) } }

/-- VIO_LOSS (R52, R53): host port and memory port are unavailable; a frame in progress is lost. -/
def execVioLoss (s : State) : Host.Outcome State Fault Refusal :=
  .next ({ s with lands := { s.lands with vio := false }, hp := { s.hp with frame := none } } : State).freeCrumbs

/-- AO_XTAL_SWITCH (R69). -/
def execAoXtalSwitch (s : State) : Host.Outcome State Fault Refusal :=
  .next (if s.lands.vao then s.setBit Reg.sysClkstat 1 true else s)

/-- AO_XTAL_FAIL (R69, R415). -/
def execAoXtalFail (s : State) : Host.Outcome State Fault Refusal :=
  .next (if s.bit Reg.sysClkstat 1 then (s.setBit Reg.sysClkstat 1 false).logEvent 6 1 0 else s)

/-- REFIN_SIGNAL (R71): each land with at least 200 mV carries signal. Two signals that are not in antiphase are in no row of the table:
MODE and SWAP are then free (DESIGN CHOICE, log entry 44). -/
def execRefinSignal (swingP swingN : Nat) (antiphase : Bool) (s : State) : Host.Outcome State Fault Refusal :=
  let p := decide (200 ≤ swingP)
  let n := decide (200 ≤ swingN)
  let s := s.setBit Reg.clkRefstat 1 (p || n)
  match p, n with
  | true, true =>
    if antiphase then .next ((s.setBit Reg.clkRefstat 5 false).setBit Reg.clkRefstat 3 false)
    else
      let (m, s) := s.drawBool
      let (w, s) := s.drawBool
      .next ((s.setBit Reg.clkRefstat 5 m).setBit Reg.clkRefstat 3 w)
  | true, false => .next ((s.setBit Reg.clkRefstat 5 true).setBit Reg.clkRefstat 3 false)
  | false, true => .next ((s.setBit Reg.clkRefstat 5 true).setBit Reg.clkRefstat 3 true)
  | false, false => .next (s.setBit Reg.clkRefstat 3 false)

/-- The source that REF is to come from (R73, CLK_REFCTRL.SRC): true REFIN. -/
def State.refWanted (s : State) : Bool := s.bit Reg.clkRefstat 2 && !s.bit Reg.clkRefctrl 0

/-- REF moves to the source it is to come from, through the slew of R74. -/
def State.refMove (s : State) : State :=
  if s.refWanted = s.bit Reg.clkRefstat 0 then s else s.setBit Reg.clkRefstat 4 true

/-- REFIN_VALID (R73): REFIN has met its limits for 100 ms, with this frequency error. -/
def execRefinValid (ferr : Byte) (s : State) : Host.Outcome State Fault Refusal :=
  if s.bit Reg.clkRefctrl 0 || !s.bit Reg.clkRefstat 1 then .next s
  else .next ((s.setFld Reg.clkRefstat 8 8 ferr.toNat).setBit Reg.clkRefstat 2 true).refMove

/-- REFIN_LOST (R73): holdover, LOST, REF_LOST, and the slew to the TCXO; the event log records it (R415). -/
def execRefinLost (s : State) : Host.Outcome State Fault Refusal :=
  if !s.bit Reg.clkRefstat 2 then .next s
  else
    let s := ((s.setBit Reg.clkRefstat 2 false).setBit Reg.clkRefstat 31 true).raise 2
    .next (s.refMove.logEvent 6 2 0)

/-- REF_SLEW_END (R74): the move has completed. -/
def execRefSlewEnd (s : State) : Host.Outcome State Fault Refusal :=
  if !s.bit Reg.clkRefstat 4 then .next s
  else .next ((s.setBit Reg.clkRefstat 4 false).setBit Reg.clkRefstat 0 s.refWanted)

/-- CLKFAIL (R70): the PLL of CORE or MGMT loses lock while its domain runs. -/
def execClkfail (mgmt : Bool) (s : State) : Host.Outcome State Fault Refusal :=
  .next (if (if mgmt then s.mgmtOn else s.coreOn) then s.triggerReset .clkfail else s)

/-- A TAP instruction becomes current; leaving EXTEST resets the main die (R45). -/
def State.setTap (s : State) (i : TapInstr) : State :=
  let left := s.tap == .extest && i != .extest
  let s : State := { s with tap := i }
  if left then s.triggerReset .tap else s

/-- The test access port answers: VIO is present and the core is powered (R41) (DEDUCED, log entry 14). -/
def State.tapOn (s : State) : Bool := s.lands.vio && !s.asleep

/-- Data come out at TDO, which is high-impedance in reset, DOZE and DORMANT (R41). -/
def State.shiftOut (s : State) (w : Word) : State := if s.ringHeld then s else { s with tdo := w }

/-- BYPASS (R44). The one-bit register captures 0 under IEEE 1149.1 (PRESUMED, log entry 14). -/
def execBypass (s : State) : Host.Outcome State Fault Refusal := .next (if s.tapOn then (s.setTap .bypass).shiftOut 0 else s)

/-- IDCODE (R44). -/
def execIdcode (s : State) : Host.Outcome State Fault Refusal := .next (if s.tapOn then (s.setTap .idcode).shiftOut 0x16480A3B else s)

/-- The boundary-scan register captures the lands, and its content comes out at TDO. -/
def State.scanLands (s : State) : State :=
  let (v, s) := s.sampleLands
  s.shiftOut (v.setWidth 32)

/-- The boundary-scan register takes what the tester shifts in, free bits (log entry 14). -/
def State.loadScan (s : State) : State :=
  let (w, s) := s.drawWord
  { s with bscan := w.setWidth 27 }

/-- SAMPLE/PRELOAD (R44): the boundary-scan register captures the lands and is loaded. -/
def execSamplePreload (s : State) : Host.Outcome State Fault Refusal := .next (if s.tapOn then (s.setTap .sample).scanLands.loadScan else s)

/-- EXTEST (R45, R158): every illuminator ramps down fast and is held off, those in calibration as well, every port switch opens, and the memory
port queue is frozen. A round in flight loses its illuminator and ends with OUT_OF_SERVICE as under R291 (DEDUCED, log entry 14). As the instruction
becomes current the boundary-scan register drives the outputs and the lands are captured; the instruction given again is one more scan, which
captures the lands and loads the register (PRESUMED, log entry 14). -/
def execExtest (s : State) : Host.Outcome State Fault Refusal :=
  if !s.tapOn then .next s
  else if s.tap = .extest then .next s.scanLands.loadScan
  else
    let s : State := { s with tap := .extest, memp := { s.memp with frozen := true } }
    let s := s.rounds.foldl (fun (s : State) r => match s.roundOn r.warp with | some r => s.stopRound r .outOfService true true | none => s) s
    let s := (List.range 4).foldl (fun (s : State) n =>
      if s.ramp n = 5 then (s.setRamp n 0).updTx n (fun t => { t with calibrating := false })
      else if s.txOn n then s.rampDown n true .off else s) s
    .next ((List.range 64).foldl State.deafPort s).scanLands

/-- LEAVE_EXTEST (R45): the main die resets with cause TAP. -/
def execLeaveExtest (s : State) : Host.Outcome State Fault Refusal :=
  .next (if s.tap = .extest ∧ s.tapOn then s.setTap .reset else s)

end Sys2Proof.Machine
end

