-- ==== Sys2Proof/Machine/WriteOps.lean ====
section
/-! DEFINITION. What a host write to one word does (07_register_access.md R135 to R139, and the register tables). -/
namespace Sys2Proof.Machine

/-! ## Plain registers -/

/-- The word a register holds after a write (R10, R11): RW bits take the new value, W1C bits written one clear, all others stay. -/
def State.merged (s : State) (a : Nat) (w : Word) : Word :=
  match regAt a with
  | none => s.reg a
  | some r => ((s.reg a &&& ~~~wordOf r.rw) ||| (w &&& wordOf r.rw)) &&& ~~~(w &&& wordOf r.w1c)

/-- A write to a register that only holds its value; one with a rejected code leaves it as it was (R137). Without TAG_CFG.ANT_EN no ANT port
answers (R329). -/
def State.plainWrite (s : State) (a : Nat) (w : Word) : State :=
  let v := s.merged a w
  if s.wordOk a v then (if a = Reg.tagCfg then (s.setReg a v).loseAnt else s.setReg a v) else s

/-! ## Multi-word values (R139) -/

/-- The words a value takes at its commit: those staged, and the present ones where none was. -/
def State.newWords (s : State) (lo : Nat) (ws : List (Option Word)) : List Word :=
  (List.range ws.length).map (fun k => match ws.getD k none with | none => s.reg (lo + 4 * k) | some w => s.merged (lo + 4 * k) w)

/-- Consecutive registers from `lo` take the words of a list. -/
def State.setRegs (s : State) (lo : Nat) : List Word → State
  | [] => s
  | w :: r => (s.setReg lo w).setRegs (lo + 4) r

/-- The high word `hi` of the value at `lo` commits it: a link profile and a CRC preset only when valid (R201, R318). -/
def State.commitGroup (s : State) (lo n : Nat) (hi : Word) : State :=
  let ws := s.newWords lo (s.stagedWords lo n hi)
  let s := s.unstage lo n
  let at_ := fun k => ws.getD k 0
  if 0x24000 ≤ lo ∧ lo < 0x24040 then
    (if s.legLinkOk (at_ 0) (at_ 1) then s.setRegs lo ws else s.setBit Reg.legStat 0 true)
  else if 0x3C000 ≤ lo ∧ lo < 0x3C050 then s
  else if 0x3C050 ≤ lo ∧ lo < 0x3C080 then
    (if crcPresetOk (at_ 0) (at_ 1) (at_ 2) (at_ 3) then s.setRegs lo ws else s.setBit Reg.crcStat 1 true)
  else if lo = Reg.updUtc 0 then (s.setRegs lo ws).setBit Reg.updStat 20 true
  else s.setRegs lo ws

/-! ## Writes that act -/

/-- SYS_CTRL (R79): a core reset with cause SOFT. -/
def State.writeSysCtrl (s : State) (w : Word) : State :=
  if fieldN w 24 8 = 0x5A ∧ bitN w 0 then s.triggerReset .soft else s

/-- SYS_PROOF_CMD (R89). -/
def State.writeProofCmd (s : State) (w : Word) : State :=
  let slot := fieldN w 8 3
  let ok := s.ready rdMgmt && s.halfRuns && !s.ready rdDraft && s.upd.proof.isNone && decide (slot ≤ 4)
  if !bitN w 0 then s
  else if !ok then s.setBit Reg.sysDraftStat 2 true
  else ({ s with upd := { s.upd with liveSlot := slot } } : State).startProof slot (s.stagedSlot slot)

/-- A write to an OUT and RETURN command register: OP 0b01 OUT, 0b10 RETURN; other values issue no command. -/
def outReturn (w : Word) (out ret : State → State) (s : State) : State :=
  match fieldN w 8 2 with | 1 => out s | 2 => ret s | _ => s

/-- Which rounds a change of SCHED_CTRL disables (R288): clearing RUN those from the table, calibration rounds and peer windows;
clearing a bit of WARP_EN every round on that warp. A calibration round that a RETURN needs runs on. -/
def State.disables (s : State) (runOff : Bool) (off : Nat → Bool) (r : Round) : Bool :=
  let kept := r.kind == RoundKind.cal && r.points.any (fun e => s.returnNeeds r.warp e.1)
  let byRun := runOff && (r.kind.internal || decide (2 ^ 23 ≤ r.seq))
  !kept && (byRun || r.warps.any off)

/-- SCHED_CTRL (R288): a due round that has not started when RUN clears starts no more (DEDUCED, log entry 36). -/
def State.writeSchedCtrl (s : State) (w : Word) : State :=
  let old := s.reg Reg.schedCtrl
  let s := s.plainWrite Reg.schedCtrl w
  let new := s.reg Reg.schedCtrl
  let runOff := bitN old 0 && !bitN new 0
  let off := fun k => bitN old (4 + k) && !bitN new (4 + k)
  let stays := fun (c : Cand) => !runOff || c.kind == RoundKind.cal || c.kind == RoundKind.pingCal || (!c.due && !c.kind.internal)
  ({ s with cands := s.cands.filter stays } : State).drainSome (s.disables runOff off)

/-- SEEN_CMD. -/
def State.writeSeenCmd (s : State) (w : Word) : State :=
  match fieldN w 8 2 with | 1 => s.issueFind | 2 => s.issueClear | _ => s

/-- CRC_HCTRL (R323, R325) (DEDUCED, log entry 39). -/
def State.writeCrcHctrl (s : State) (w : Word) : State :=
  if !bitN w 31 then s
  else
    let p := (List.range 4).map (fun k => s.reg (0x3C000 + 16 * fieldN w 0 3 + 4 * k))
    let s := s.setReg Reg.crcHcount 0
    if bitN (p.getD 0 0) 31 then { s with crcHost := some (p, (p.getD 2 0).toNat) }
    else ({ s with crcHost := none } : State).setBit Reg.crcStat 0 true

/-- Bits enter the host computation (R323); without one they are ignored (R325). -/
def State.crcEnter (s : State) (bits : Bool → List Bool) : State :=
  match s.crcHost with
  | none => s
  | some (p, r) =>
    let cfg := p.getD 0 0
    let l := bits (bitN cfg 30)
    let s : State := { s with crcHost := some (p, crcBits (fieldN cfg 0 6) (p.getD 1 0).toNat r l) }
    s.addCnt Reg.crcHcount l.length

/-- CRC_HWINk (R323): bits 7:0 first. -/
def State.writeHwin (s : State) (w : Word) : State := s.crcEnter (fun refin => bytesBits refin (bytesOfWord w))

/-- CRC_HBITS (R323): a write of 0 bits or of more than 24 is ignored. -/
def State.writeHbits (s : State) (w : Word) : State :=
  let n := fieldN w 24 5
  if n = 0 ∨ 24 < n then s else s.crcEnter (fun _ => bitsHigh n (fieldN w 0 24))

/-- TAG_CMD (R346). -/
def State.writeTagCmd (s : State) (w : Word) : State :=
  let c := fieldN w 0 7
  match fieldN w 8 4 with
  | 1 => s.issueClearGuard
  | 2 => s.issueUnlock
  | 3 => s.issueRemap c
  | 4 => s.issueCrumbOut c
  | 5 => s.issueCrumbReturn c
  | _ => s

/-- TAG_STAT: its W1C bits. -/
def State.writeTagStat (s : State) (w : Word) : State :=
  { s with tag := { s.tag with sticky := (wordOf s.tag.sticky &&& ~~~(w &&& 0x1E)).toNat } }

/-- MGMT_CMD. -/
def State.writeMgmtCmd (s : State) (w : Word) : State :=
  match fieldN w 8 2 with
  | 1 => s.issueMgmtOut (fieldN w 0 4)
  | 2 => s.issueMgmtReturn (fieldN w 0 4)
  | 3 => s.issueDump
  | _ => s

/-- MGMT_CFG: a change of STANDBY takes effect (R406). -/
def State.writeMgmtCfg (s : State) (w : Word) : State :=
  let old := s.bit Reg.mgmtCfg 0
  let s := s.plainWrite Reg.mgmtCfg w
  if s.bit Reg.mgmtCfg 0 = old then s else s.syncStandby

/-- UPD_CMD. -/
def State.writeUpdCmd (s : State) (w : Word) : State :=
  match fieldN w 8 4 with
  | 1 => s.issueLoad (fieldN w 16 14)
  | 2 => s.issueVerify
  | 3 => s.issueArm
  | 4 => s.issueSwitchNow
  | 5 => s.issueConfirm
  | 6 => s.issueRevert
  | 7 => s.issueAbandon
  | _ => s

/-- UMA_LINKk (R226): a profile that breaks R201 or R226 leaves the register unchanged. -/
def State.writeUmaLink (s : State) (a : Nat) (w : Word) : State :=
  let v := s.merged a w
  if s.umaLinkOk v then s.setReg a v else s.setBit Reg.umaStat 0 true

/-- A write to a register that is no part of a multi-word value: one that acts, or a plain one. -/
def State.writeReg (s : State) (a : Nat) (w : Word) : State :=
  let unit := a / 4096
  if 8 ≤ unit ∧ unit < 12 ∧ a % 4096 = 0x10 then outReturn w (fun s => s.issueTxcOut (unit - 8)) (fun s => s.issueTxcReturn (unit - 8)) s
  else if 16 ≤ unit ∧ unit < 32 ∧ a % 4096 = 0x10 then outReturn w (fun s => s.issueRxcOut (unit - 16)) (fun s => s.issueRxcReturn (unit - 16)) s
  else if a = Reg.sysCtrl then s.writeSysCtrl w
  else if a = Reg.sysProofCmd then s.writeProofCmd w
  else if a = Reg.clkRefctrl then (s.plainWrite a w).refMove
  else if a = Reg.portCmd then outReturn w (fun s => s.issuePortOut (fieldN w 0 6)) (fun s => s.issuePortReturn (fieldN w 0 6)) s
  else if 0x28000 ≤ a ∧ a < 0x28020 then s.writeUmaLink a w
  else if 16 ≤ unit ∧ unit < 32 ∧ a % 4096 = 4 then (s.plainWrite a w).fixedGain (unit - 16)
  else if a = Reg.peerCfg then (s.plainWrite a w).peerEval
  else if a = Reg.peerTxCmd then s.issuePeerTx (fieldN w 16 16) (fieldN w 0 10)
  else if a = Reg.schedCtrl then s.writeSchedCtrl w
  else if a = Reg.schedCmd then (if fieldN w 8 2 = 1 then s.issueRun (fieldN w 0 8) else s)
  else if a = Reg.schedLoad ∨ a = Reg.fifoCfg then (s.plainWrite a w).fifoSync
  else if a = Reg.seenCmd then s.writeSeenCmd w
  else if a = Reg.fifoCmd then (if bitN w 0 then s.fifoFlush else s)
  else if a = Reg.crcHctrl then s.writeCrcHctrl w
  else if 0x3C400 ≤ a ∧ a < 0x3C800 then s.writeHwin w
  else if a = Reg.crcHbits then s.writeHbits w
  else if a = Reg.tagCmd then s.writeTagCmd w
  else if a = Reg.tagStat then s.writeTagStat w
  else if a = Reg.pingCmd then (if fieldN w 8 2 = 1 then s.issueCal else s)
  else if a = Reg.talReq then (if fieldN w 8 2 = 1 then s.issueRequest (fieldN w 0 3) (s.reg Reg.talReqArg) else s)
  else if a = Reg.mempCmd then outReturn w (fun s => s.issueMempOut (bitN w 0)) (fun s => s.issueMempReturn (bitN w 0)) s
  else if a = Reg.mgmtCmd then s.writeMgmtCmd w
  else if a = Reg.mgmtDecCmd then outReturn w (fun s => s.issueDecOut (fieldN w 0 4)) (fun s => s.issueDecReturn (fieldN w 0 4)) s
  else if a = Reg.mgmtCfg then s.writeMgmtCfg w
  else if a = Reg.updCmd then s.writeUpdCmd w
  else s.plainWrite a w

/-! ## The write of one word -/

/-- A word is written (R135, R139): only an implemented one takes effect. Words of the tag store go to its wire side (R334). -/
def State.performWrite (s : State) (a : Nat) (w : Word) : State :=
  if s.addrClass a ≠ .word then s
  else if inTagStore a then s.postWire [(a, w)]
  else match groupOf a with
    | none => s.writeReg a w
    | some (lo, n, host) =>
      if !host then s
      else if a = lo + 4 * (n - 1) then s.commitGroup lo n w
      else s.stage a w

/-- The writes of a frame, in address order (R123); each is the instant at which its command is accepted (R150). -/
def State.performWrites (s : State) : List (Nat × Word) → State
  | [] => s
  | (a, w) :: r => ((s.performWrite a w).endWrite).performWrites r

/-! ## The host port's power -/

/-- The host port takes frames (R78, R92, R93): it is powered from VIO and the core, and HP is ready. -/
def State.hostUp (s : State) : Bool :=
  s.lands.vio && s.ready rdHp &&
  (match s.phase with
   | .active => true | .quiesce _ => true | .committed _ => true | .idle => true
   | _ => false)

end Sys2Proof.Machine
end

