-- ==== Sys2Proof/Machine/HostPort.lean ====
section
/-! DEFINITION. The frames of the host port (06_host_port.md R112 to R130). A frame is one command, with how far the host clocks it; select
rises with SELECT_RELEASE. -/
namespace Sys2Proof.Machine

/-! ## Opening a frame -/

/-- The opcode of a frame with a response (R116). -/
def FrameKind.opcode : FrameKind → Nat
  | .rd _ => 0x03
  | .wr _ _ _ => 0x02
  | .stat => 0x05
  | .frd => 0x5C
  | .fdrop => 0x5D
  | .abort _ => 0x6B
  | .wait => 0x7A
  | .ident => 0x9F

/-- A frame as its opcode is received. -/
def Frame.open_ (op : Nat) (k : Option FrameKind) (r : Reach) (p : FramePhase) : Frame :=
  { op := op, kind := k, reach := r, phase := p, token := .none, out := [], trailer := none, lrst := false }

/-- Select falls: the HOST wake source (R105). A frame begins when the port is up and select was high (R93, R112). -/
def State.openFrame (s : State) (f : Frame) (go : State → State) : State :=
  let s := s.wake 4
  if s.hostUp && s.hp.frame.isNone then go { s with hp := { s.hp with frame := some f } } else s

/-- A recognised frame with a response (R116): one cut off in its address phase is ignored, any other is counted (HP_FRAMES) and `act` is
what its address bytes start at once. -/
def State.command (s : State) (k : FrameKind) (r : Reach) (act : State → State) : State :=
  match r with
  | .address _ => s.openFrame (Frame.open_ k.opcode (some k) r .opcode) id
  | _ => s.openFrame (Frame.open_ k.opcode (some k) r .response) (fun s => (act (s.cnt Reg.hpFrames)).serveFrame)

/-- The answer word of the frame in progress. -/
def State.setAnswer (s : State) (w : Word) : State :=
  match s.hp.frame with
  | some f => { s with hp := { s.hp with frame := some { f with out := [w] } } }
  | none => s

/-- The address bytes of an ABORT have crossed into CORE, whose clock must run (R285, R286). -/
def State.takeAbort (s : State) (seq : Nat) : State :=
  if !s.coreOn then s
  else
    let (st, s) := s.hostAbort seq
    s.setAnswer (wordOf (st.code * 2 ^ 24 + seq))

/-- A command of the table that is one host write: the words `ws` from `a` on in a frame of its own, whose effect is `f` (log entry 9).
Nothing happens while another frame is in progress. Select falling is the HOST wake source (R105). A frame that must wait stands, as a
WR_FRAME does, until SELECT_RELEASE (R77, R123). -/
def State.hostWrite (s : State) (a : Nat) (ws : List Word) (f : State → State) : State :=
  if s.hp.frame.isSome then s
  else
    let k : FrameKind := .wr a ws ⟨0, 0⟩
    let r : Reach := .written 0
    let t := s.wake 4
    if !t.hostUp then t
    else if (t.holdOf (Frame.open_ 2 (some k) r .response)).isSome then s.command k r id
    else (t.cnt Reg.hpFrames).single f

/-- A command of the table that is the read of one word in a frame of its own (log entry 9): what the host received is the last frame. A frame
that must wait stands, as an RD_FRAME does, until SELECT_RELEASE. -/
def State.hostRead (s : State) (a : Nat) : State :=
  if s.hp.frame.isSome then s
  else
    let r : Reach := .data 1 0 false
    let f := Frame.open_ 3 (some (.rd a)) r .response
    let t := s.wake 4
    if !t.hostUp then t
    else if (t.holdOf f).isSome then s.command (.rd a) r id
    else
      let (w, past, s) := (t.cnt Reg.hpFrames).readWord a
      let s := if past then s.hpFlag fAddrOver else s
      { s with hp := { s.hp with last := some { f with phase := .data, token := .start, out := [w] } } }

/-- The reach of a write frame. -/
def reachOf (r : WrReach) : Reach := match r with | .address n => .address n | .response => .response | .data more => .written more

/-- RD_FRAME (R116, R118, R136). -/
def execRdFrame (addr : BitVec 24) (reach : Reach) (s : State) : Host.Outcome State Fault Refusal :=
  .next (s.command (.rd addr.toNat) reach id)

/-- WR_FRAME (R122): its writes are performed at select release. -/
def execWrFrame (addr : BitVec 24) (data : List Word) (tail : TailBits) (reach : WrReach) (s : State) : Host.Outcome State Fault Refusal :=
  .next (s.command (.wr addr.toNat data tail) (reachOf reach) id)

/-- STAT_FRAME (R127). -/
def execStatFrame (reach : Reach) (s : State) : Host.Outcome State Fault Refusal := .next (s.command .stat reach id)

/-- FRD_FRAME (R125). -/
def execFrdFrame (reach : Reach) (s : State) : Host.Outcome State Fault Refusal := .next (s.command .frd reach id)

/-- FDROP_FRAME (R126). -/
def execFdropFrame (reach : Reach) (s : State) : Host.Outcome State Fault Refusal := .next (s.command .fdrop reach id)

/-- ABORT_FRAME (R286). -/
def execAbortFrame (seq : BitVec 24) (reach : Reach) (s : State) : Host.Outcome State Fault Refusal :=
  .next (s.command (.abort seq.toNat) reach (fun s => s.takeAbort seq.toNat))

/-- WAIT_FRAME (R97 to R99). -/
def execWaitFrame (reach : Reach) (s : State) : Host.Outcome State Fault Refusal := .next (s.command .wait reach (fun s => s.waitEntry))

/-- IDENT_FRAME (R128). -/
def execIdentFrame (reach : Reach) (s : State) : Host.Outcome State Fault Refusal := .next (s.command .ident reach id)

/-- LRST_FRAME (R130): a recognised frame without address bytes; it acts at select release. -/
def execLrstFrame (s : State) : Host.Outcome State Fault Refusal :=
  .next (s.openFrame { Frame.open_ 0xFF none .response .response with lrst := true } (fun s => s.cnt Reg.hpFrames))

/-- UNKNOWN_OPCODE_FRAME (R117). -/
def execUnknownOpcodeFrame (op : Byte) (s : State) : Host.Outcome State Fault Refusal :=
  let known : List Byte := [0x03, 0x02, 0x05, 0x5C, 0x5D, 0x6B, 0x7A, 0x9F, 0xFF]
  if known.contains op then .next s
  else .next (s.openFrame (Frame.open_ op.toNat none .response .ignored) (fun s => (s.cntSat Reg.hpIgnored 0 16).setBit Reg.hpStatus 9 true))

/-- EARLY_FRAME (R93, R117): ignored, and nothing is recorded. Its select falling is still the HOST wake source (R105). -/
def execEarlyFrame (_op : Byte) (s : State) : Host.Outcome State Fault Refusal := .next (s.wake 4)

/-! ## What ends a wait -/

/-- HUNG_ACCESS_COMPLETE (R77): the clock runs again while select is held; the access completes. -/
def execHungAccessComplete (s : State) : Host.Outcome State Fault Refusal :=
  match s.hp.frame with
  | none => .next s
  | some f =>
    let s := match f.kind with | some (.abort seq) => if f.out.isEmpty then s.takeAbort seq else s | _ => s
    .next (if f.phase = .held .clock then s.resumeFrame else s)

/-- FRD_STALL_TIMEOUT (R119, R125): the empty token in place of the data, with the trailer at once, whose 16 bits the host clocks out or not. -/
def execFrdStallTimeout (s : State) : Host.Outcome State Fault Refusal :=
  match s.hp.frame with
  | none => .next s
  | some f =>
    if f.phase = .held .fifo ∧ s.fld Reg.hpStallLimit 0 16 ≠ 0 then
      let s := ({ s with hp := { s.hp with frame := some { f with token := .empty, phase := .data } } } : State).hpFlag fStallTo
      let whole := match f.reach with | .data n b t => t || decide (16 ≤ 32 * n + b) | _ => false
      .next (if s.trailerOn && whole then s.sendTrailer else s)
    else .next s

/-! ## Select rises (R124) -/

/-- An access into a stopped clock is abandoned (R77, R143). -/
def State.abandon (s : State) (a : Nat) : State :=
  let (r, b) := accRegion (alignWord a)
  ((s.setReg Reg.sysAccStat (wordOf (2 ^ 31 + r * 256 + b))).hpFlag fAbandon).raise 13

/-- The words of a write frame that reach the posted-write buffer, with their addresses, or none when the frame is discarded (R122, R124).
With trailers the data phase has BURST + 1 words (R120). A word beyond its bank is ignored (R136). -/
def State.postedWords (s : State) (a : Nat) (d : List Word) (t : TailBits) : List (Nat × Word) × State :=
  let m := if s.trailerOn then s.burstWords else d.length + 1
  let whole := (d.take m).take 256
  let ws := (List.range whole.length).filterMap (fun k => (burstAt a k).map (fun b => (b, whole.getD k 0)))
  let n := whole.length
  if t.n = 0 ∨ d.length ≠ n ∨ 256 ≤ n ∨ m ≤ n then (ws, s)
  else if s.bit Reg.hpCtrl 2 then
    let s := s.hpFlag fPartialUsed
    (ws ++ ((burstAt a n).map (fun b => (b, wordOf t.value))).toList, if s.burstOver a n then s.hpFlag fAddrOver else s)
  else ([], s.hpFlag fPartialErr)

/-- The writes of a frame in address order (R123), each the instant at which its command is accepted (R150). The first one into a stopped
clock is abandoned with those that follow it, since select has been released (R77, R143). -/
def State.performPosted (s : State) : List (Nat × Word) → State
  | [] => s
  | (a, w) :: r => if s.clockRuns a then ((s.performWrite a w).endWrite).performPosted r else s.abandon a

/-- The writes of a frame are performed (R123, R150). -/
def State.performFrame (s : State) (a : Nat) (d : List Word) (t : TailBits) : State :=
  let (ws, s) := s.postedWords a d t
  (s.beginFrame.performPosted ws).endFrame

/-- A frame ends (R124, R130), by where it stands (DEDUCED, log entry 38). -/
def State.endOf (s : State) (f : Frame) : State :=
  if f.lrst then (s.setReg Reg.hpLanes 0).setReg Reg.hpCtrl 0x10
  else match f.phase, f.kind with
    | .opcode, _ => (s.cntSat Reg.hpIgnored 0 16).setBit Reg.hpStatus 8 true
    | .held .clock, some (.rd a) => s.abandon ((burstAt a f.out.length).getD a)
    | .held .clock, some (.wr a _ _) => s.abandon a
    | .held .wait, _ => (match s.phase with | .quiesce t => s.abortEntry .hpBusy t | _ => s)
    | .data, some (.wr a d t) => s.performFrame a d t
    | .trailer, some (.wr a d t) => s.performFrame a d t
    | _, _ => s

/-- SELECT_RELEASE (R124). -/
def execSelectRelease (s : State) : Host.Outcome State Fault Refusal :=
  match s.hp.frame with
  | none => .next s
  | some f => .next ((({ s with hp := { s.hp with frame := none, last := some f } } : State).endOf f).freeCrumbs)

end Sys2Proof.Machine
end

