-- ==== Sys2Proof/Machine/Commands.lean ====
section
/-! DEFINITION. The host's commands (R146) and the other rows that are one write with an effect: each is a frame with the one write that issues it. -/
namespace Sys2Proof.Machine

/-- SOFT_RESET (R79). The key is 0x5A. -/
def execSoftReset (s : State) : Host.Outcome State Fault Refusal :=
  .next (s.hostWrite Reg.sysCtrl [0x5A000001] (fun s => s.writeSysCtrl 0x5A000001))

/-- PROOF_CMD (R89). -/
def execProofCmd (slot : BitVec 3) (s : State) : Host.Outcome State Fault Refusal :=
  .next (s.hostWrite Reg.sysProofCmd [wordOf (slot.toNat * 256 + 1)] (fun s => s.writeProofCmd (wordOf (slot.toNat * 256 + 1))))

/-- TXC_OUT (R174). -/
def execTxcOut (n : Fin 4) (s : State) : Host.Outcome State Fault Refusal :=
  .next (s.hostWrite (Reg.txcCmd n) [0x100] (fun s => s.issueTxcOut n))

/-- TXC_RETURN (R176). -/
def execTxcReturn (n : Fin 4) (s : State) : Host.Outcome State Fault Refusal :=
  .next (s.hostWrite (Reg.txcCmd n) [0x200] (fun s => s.issueTxcReturn n))

/-- PORT_OUT (R174). -/
def execPortOut (p : Fin 64) (s : State) : Host.Outcome State Fault Refusal :=
  .next (s.hostWrite Reg.portCmd [wordOf (0x100 + p)] (fun s => s.issuePortOut p))

/-- PORT_RETURN (R176). -/
def execPortReturn (p : Fin 64) (s : State) : Host.Outcome State Fault Refusal :=
  .next (s.hostWrite Reg.portCmd [wordOf (0x200 + p)] (fun s => s.issuePortReturn p))

/-- RXC_OUT (R196). -/
def execRxcOut (n : Fin 16) (s : State) : Host.Outcome State Fault Refusal :=
  .next (s.hostWrite (Reg.rxcCmd n) [0x100] (fun s => s.issueRxcOut n))

/-- RXC_RETURN (R199). -/
def execRxcReturn (n : Fin 16) (s : State) : Host.Outcome State Fault Refusal :=
  .next (s.hostWrite (Reg.rxcCmd n) [0x200] (fun s => s.issueRxcReturn n))

/-- SCHED_RUN (R283). -/
def execSchedRun (entry : BitVec 8) (s : State) : Host.Outcome State Fault Refusal :=
  .next (s.hostWrite Reg.schedCmd [wordOf (0x100 + entry.toNat)] (fun s => s.issueRun entry.toNat))

/-- SCHED_RUN_CLEAR (R288). -/
def execSchedRunClear (s : State) : Host.Outcome State Fault Refusal :=
  .next (s.hostWrite Reg.schedCtrl [setBitN (s.reg Reg.schedCtrl) 0 false] (fun s => s.writeSchedCtrl (setBitN (s.reg Reg.schedCtrl) 0 false)))

/-- WARP_EN_CLEAR (R288). -/
def execWarpEnClear (w : Fin 4) (s : State) : Host.Outcome State Fault Refusal :=
  .next (s.hostWrite Reg.schedCtrl [setBitN (s.reg Reg.schedCtrl) (4 + w) false] (fun s => s.writeSchedCtrl (setBitN (s.reg Reg.schedCtrl) (4 + w) false)))

/-- FIND (R293). -/
def execFind (s : State) : Host.Outcome State Fault Refusal :=
  .next (s.hostWrite Reg.seenCmd [0x100] (fun s => s.issueFind))

/-- CLEAR (SEEN_CMD). Every entry that is not assigned leaves. -/
def execClear (s : State) : Host.Outcome State Fault Refusal :=
  .next (s.hostWrite Reg.seenCmd [0x200] (fun s => s.issueClear))

/-- FLUSH (R315). -/
def execFlush (s : State) : Host.Outcome State Fault Refusal :=
  .next (s.hostWrite Reg.fifoCmd [1] (fun s => s.fifoFlush))

/-- CLEAR_GUARD (R344). -/
def execClearGuard (s : State) : Host.Outcome State Fault Refusal :=
  .next (s.hostWrite Reg.tagCmd [0x100] (fun s => s.issueClearGuard))

/-- UNLOCK (R342). -/
def execUnlock (s : State) : Host.Outcome State Fault Refusal :=
  .next (s.hostWrite Reg.tagCmd [0x200] (fun s => s.issueUnlock))

/-- REMAP (R339). -/
def execRemap (crumb : Fin 128) (s : State) : Host.Outcome State Fault Refusal :=
  .next (s.hostWrite Reg.tagCmd [wordOf (0x300 + crumb)] (fun s => s.issueRemap crumb))

/-- CRUMB_OUT (R346). -/
def execCrumbOut (crumb : Fin 128) (s : State) : Host.Outcome State Fault Refusal :=
  .next (s.hostWrite Reg.tagCmd [wordOf (0x400 + crumb)] (fun s => s.issueCrumbOut crumb))

/-- CRUMB_RETURN (R346). -/
def execCrumbReturn (crumb : Fin 128) (s : State) : Host.Outcome State Fault Refusal :=
  .next (s.hostWrite Reg.tagCmd [wordOf (0x500 + crumb)] (fun s => s.issueCrumbReturn crumb))

/-- CAL (R358). -/
def execCal (s : State) : Host.Outcome State Fault Refusal :=
  .next (s.hostWrite Reg.pingCmd [0x100] (fun s => s.issueCal))

/-- REQUEST (R381). ARG is written first, as by the frame that R123 allows. -/
def execRequest (block : BitVec 3) (arg : Word) (s : State) : Host.Outcome State Fault Refusal :=
  .next (s.hostWrite Reg.talReqArg [arg, wordOf (0x100 + block.toNat)] (fun s => (s.performWrite Reg.talReqArg arg).issueRequest block.toNat arg))

/-- MEMP_OUT (R401). -/
def execMempOut (dev : Bool) (s : State) : Host.Outcome State Fault Refusal :=
  .next (s.hostWrite Reg.mempCmd [wordOf (0x100 + cond dev 1 0)] (fun s => s.issueMempOut dev))

/-- MEMP_RETURN (R401). -/
def execMempReturn (dev : Bool) (s : State) : Host.Outcome State Fault Refusal :=
  .next (s.hostWrite Reg.mempCmd [wordOf (0x200 + cond dev 1 0)] (fun s => s.issueMempReturn dev))

/-- MGMT_OUT (R410). -/
def execMgmtOut (half : Bool) (s : State) : Host.Outcome State Fault Refusal :=
  .next (s.hostWrite Reg.mgmtCmd [wordOf (0x100 + cond half 1 0)] (fun s => s.issueMgmtOut (cond half 1 0)))

/-- MGMT_RETURN (R411). -/
def execMgmtReturn (half : Bool) (s : State) : Host.Outcome State Fault Refusal :=
  .next (s.hostWrite Reg.mgmtCmd [wordOf (0x200 + cond half 1 0)] (fun s => s.issueMgmtReturn (cond half 1 0)))

/-- DUMP (R417). -/
def execDump (s : State) : Host.Outcome State Fault Refusal :=
  .next (s.hostWrite Reg.mgmtCmd [0x300] (fun s => s.issueDump))

/-- DEC_OUT (R419). -/
def execDecOut (d : BitVec 4) (s : State) : Host.Outcome State Fault Refusal :=
  .next (s.hostWrite Reg.mgmtDecCmd [wordOf (0x100 + d.toNat)] (fun s => s.issueDecOut d.toNat))

/-- DEC_RETURN (R419). -/
def execDecReturn (d : BitVec 4) (s : State) : Host.Outcome State Fault Refusal :=
  .next (s.hostWrite Reg.mgmtDecCmd [wordOf (0x200 + d.toNat)] (fun s => s.issueDecReturn d.toNat))

/-- PEER_TX_CMD (R272). -/
def execPeerTxCmd (dst : BitVec 16) (len : BitVec 10) (s : State) : Host.Outcome State Fault Refusal :=
  .next (s.hostWrite Reg.peerTxCmd [wordOf (dst.toNat * 2 ^ 16 + len.toNat)] (fun s => s.issuePeerTx dst.toNat len.toNat))

/-- LOAD (R428). -/
def execLoad (chunk : BitVec 14) (s : State) : Host.Outcome State Fault Refusal :=
  .next (s.hostWrite Reg.updCmd [wordOf (chunk.toNat * 2 ^ 16 + 0x100)] (fun s => s.issueLoad chunk.toNat))

/-- VERIFY (R427). -/
def execVerify (s : State) : Host.Outcome State Fault Refusal :=
  .next (s.hostWrite Reg.updCmd [0x200] (fun s => s.issueVerify))

/-- ARM (R434). -/
def execArm (s : State) : Host.Outcome State Fault Refusal :=
  .next (s.hostWrite Reg.updCmd [0x300] (fun s => s.issueArm))

/-- SWITCH_NOW (R437). -/
def execSwitchNow (s : State) : Host.Outcome State Fault Refusal :=
  .next (s.hostWrite Reg.updCmd [0x400] (fun s => s.issueSwitchNow))

/-- CONFIRM (R438). -/
def execConfirm (s : State) : Host.Outcome State Fault Refusal :=
  .next (s.hostWrite Reg.updCmd [0x500] (fun s => s.issueConfirm))

/-- REVERT (R439). -/
def execRevert (s : State) : Host.Outcome State Fault Refusal :=
  .next (s.hostWrite Reg.updCmd [0x600] (fun s => s.issueRevert))

/-- ABANDON_UPDATE (R442). -/
def execAbandonUpdate (s : State) : Host.Outcome State Fault Refusal :=
  .next (s.hostWrite Reg.updCmd [0x700] (fun s => s.issueAbandon))

end Sys2Proof.Machine
end

