-- ==== Sys2Proof/Machine/Fifo.lean ====
section
/-! DEFINITION. The commands of the report FIFO. -/
namespace Sys2Proof.Machine

/-- PACKET_ASSEMBLY (R304, R305): the assembler takes one record at a packet boundary and writes or drops it. Room set aside for a
peer frame is used by its packet (R307). -/
def assemble (s : State) : State :=
  match s.fifo.building with
  | some _ => s
  | none =>
    match s.fifo.pick with
    | none => s
    | some (q, w) =>
      match s.fifo.take q w with
      | (none, _) => s
      | (some r, f) =>
        let n := padded r.len
        if q = 2 ∧ s.fifo.peer.length ≤ f.asideFor then
          ({ s with fifo := { f with setAside := f.setAside - n, asideFor := f.asideFor - 1 } } : State).beginPacket r
        else
          let s : State := { s with fifo := f }
          if s.fits r.ty r.len then s.beginPacket r else s.dropRec r.ty 1 r.len

/-- PACKET_ASSEMBLY (R304, R305); an export of the event log fills the room in the DIAG queue (R417). -/
def execPacketAssembly (s : State) : Host.Outcome State Fault Refusal :=
  .next (if s.coreOn then (assemble s).dumpOn else s)

/-- PACKET_COMPLETE (R303); an FRD frame that waits for a complete packet is served (R125). -/
def execPacketComplete (s : State) : Host.Outcome State Fault Refusal :=
  .next (if s.coreOn then (completePacket s).resumeFrame else s)

/-- POINTER_MISMATCH (R316): everything in the ring is discarded, the pointers return to zero, FIFO_PTR is raised, and the FAULT packet
is the first after the reset. Records in the input queues survive. The rest of an FRD burst underruns (R317); the packets it had begun count as
read, not as discarded (DESIGN CHOICE, log entry 57). -/
def execPointerMismatch (ptr : Fin 3) (s : State) : Host.Outcome State Fault Refusal :=
  let n := s.fifo.packets.length + cond s.fifo.head.isEmpty 0 1
  let lost := s.fifo.building
  let s : State := { s with fifo := { s.fifo with packets := [], head := [], building := none, setAside := 0, asideFor := 0, wptr := 0, wptr2 := 0,
                                                  cptr := 0, cptr2 := 0, rptr := 0, rptr2 := 0 } }
  let s : State := match lost with | none => s | some r => s.dropRec r.ty 3 r.len
  let s := (s.raise 4).cnt Reg.fifoPtrCnt
  let s : State := { s with rounds := s.rounds.map (fun x => { x with fifoReset := true }) }
  let d := wordOf (satN 16 n)
  let rec_ : Rec := { ty := 7, flags := 0, len := 16, words := [wordOf (5 * 2 ^ 24 + ptr.val * 2 ^ 16 + 1 * 2 ^ 8), s.timeLo, d] }
  let s := ({ s with fifo := s.fifo.served 0 } : State).beginPacket rec_
  .next (s.cutBurst.logEvent 5 0 (wordOf (ptr.val * 2 ^ 24 + 2 ^ 16 + satN 16 n)))

/-- FIFO_AGE_EXPIRY (R314): the oldest packet counted in PKTS has been complete for AGE ms; FIFO_THR is derived from that when it is
read. With AGE zero there is no such event. -/
def execFifoAgeExpiry (s : State) : Host.Outcome State Fault Refusal :=
  let age := s.fld Reg.fifoCfg 24 8
  match s.fifo.packets with
  | [] => .next s
  | p :: ps => .next { s with fifo := { s.fifo with packets := { p with aged := max p.aged age } :: ps } }

end Sys2Proof.Machine
end

