-- ==== Sys2Proof/Machine/RxOps.lean ====
section
/-! DEFINITION. Receptions (09_receive_chains_and_loom.md R181 to R193) and the CRC and alive unit (15_crc_and_alive_unit.md R320 to R326). -/
namespace Sys2Proof.Machine

/-- The round a beam belongs to. -/
def State.roundOfBeam (s : State) (m : Nat) : Option Round := s.rounds.find? (fun r => r.beams.contains m)

/-- A beam counter (R190): 0 LOCKS, 1 CAPTURED, 2 FALSE_LOCK, 3 LOST_TO_CAPTURE, 4 HEADER_FAIL, 5 CAP_LIMIT. -/
def State.loomCount (s : State) (m k : Nat) : State := s.cnt (Reg.loomCnt m k)

/-- The detection threshold of a round's protocol (R187); class U0, whose decoder is a Umaolo engine, has that of Umaolo (DEDUCED, log entry
27). -/
def State.thrOf (s : State) (r : Round) : Int :=
  match s.draft with
  | none => 0
  | some d => if r.kind == .peerWin || r.kind == .peerRx then d.thrPeer else if eProto r.words = 0 then d.thr18000 else d.thrUma

/-- A reception that locks now: LOOM_CTRL.CAPTURE takes effect at its lock (R187). -/
def State.lockAt (s : State) (power : Int) : Reception := ⟨power, s.fld Reg.loomCtrl 16 5⟩

/-- A reception starts (R187, R190, R250). -/
def State.startReception (s : State) (m : Nat) (power : Int) (cap : Bool) : State :=
  let k := s.lockAt power
  let s := s.loomCount m 0
  let s := if cap then s.loomCount m 1 else s
  let s := if s.fld (Reg.loomBeam m) 28 3 = 2 then s.umaCount m 0 else s
  s.updBeam m (fun b => { b with rec_ := some k, last := k, locked := true })

/-- The equaliser of a legacy decoder runs (R204). -/
def State.eqRuns (s : State) (r : Round) : Bool :=
  match s.fld Reg.legCfg 0 2 with
  | 0 => decide (320 ≤ r.la 0 10)
  | 2 => true
  | _ => false

/-- What a legacy or U0 decoder shows of a reply (R203, R204, R221): a deviation outside its range ends the decoding, and REPLIES counts the
replies that reach a valid header. -/
def State.ldShow (s : State) (r : Round) (m : Nat) (x : RxReport) : State :=
  let ok := r.devOk x.dev
  if r.isU0 then (if ok then s else s.legCount r 12)
  else
    let a := Reg.legLdStat (s.fld (Reg.loomBeam m) 24 4)
    let ran := ok && s.eqRuns r
    let s := (s.setFld a 16 8 (twos 8 x.dev)).setBit a 30 ran
    let s := if x.header then s.setFld a 0 16 (s.fld a 0 16 + 1) else s
    if ran && x.eqBad then s.legCount r 10 else s

/-! ## Frames at the CRC and alive unit -/

/-- The beams of a round that share the decoder of beam `m`. -/
def State.sameDec (s : State) (r : Round) (m : Nat) : List (Nat × Beam) :=
  (s.liveBeamList r).filter (fun e => s.fld (Reg.loomBeam e.1) 24 4 == s.fld (Reg.loomBeam m) 24 4)

/-- The wefts of a released slot whose frames go to the unit, in ascending weft order (R245, R246, R268): those with a header that passes, a known
loading and a place in the slot, from the beam that decodes them. -/
def State.umaJobs (s : State) (r : Round) (u : Uma) (m : Nat) (x : RxReport) : List CrcJob :=
  (s.slotWefts r u).filterMap (fun e =>
    let k := x.wefts.findIdx (fun f => f.first == e.1)
    match x.wefts[k]? with
    | none => none
    | some f =>
      if s.weftBeam r u f.first ≠ m then none
      else match s.weftBefore r u x f e.2 with
        | .inr _ => some { beam := m, rx := x, weft := some k }
        | .inl _ => none)

/-- Once every beam of a Umaolo engine is resolved, the wefts of its slot go to the unit in ascending weft index, whichever beam decodes them (R31, R268,
R320). -/
def State.queueWefts (s : State) (r : Round) (u : Uma) (m : Nat) : State :=
  let bs := s.sameDec r m
  if bs.any (fun e => e.2.rec_.isSome || e.2.decoding.isSome) then s
  else
    let jobs := bs.flatMap (fun e => match e.2.heard with | some y => s.umaJobs r u e.1 y | none => [])
    let at_ := fun (j : CrcJob) => (j.weft.bind (fun k => j.rx.wefts[k]?)).map (fun f => f.first)
    { s with crcQ := s.crcQ ++ (s.slotWefts r u).flatMap (fun e => jobs.filter (fun j => at_ j == some e.1)) }

/-- A reception has ended (R188, R190): with a valid header the frame goes to the decoder; without one it is over, and what was decoded before it
in the same window stands. What waits takes its place (R189). A peer frame is received whole. -/
def State.endReception (s : State) (m : Nat) (sig : RxSignal) : State :=
  match s.beam? m, s.roundOfBeam m with
  | some b, some r =>
    if b.rec_.isNone || b.decoding.isSome then s
    else if r.kind.peer then s.peerReceive m sig
    else
      let x := s.report r b (s.weightsAfter r b sig) sig
      let sp := b.spOf r (s.weightsAfter r b sig) sig
      let s := s.adaptWeights r b sig
      let s := s.updBeam m (fun b => { b with sp := sp, rec_ := b.next, next := none, ending := false, decoding := if x.header then some x else none,
                                               heard := if x.header || b.heard.any (fun y => y.header) then b.heard else some x })
      if x.header then
        let s := s.chainsRx b x
        if r.leg.isSome then s.ldShow r m x else s
      else
        let s := s.loomCount m 4
        match r.uma with
        | some u => s.queueWefts r u m
        | none => if r.leg.isSome then s.ldShow r m x else s
  | _, _ => s

/-- A decoder releases a frame (R31, R320): once every beam of a Umaolo engine is resolved, its wefts go to the unit. The slot token of a U0 round
has a CRC-16 of its own (R220); the RN16 of an 18000-63 slot has none. -/
def State.releaseFrame (s : State) (m : Nat) (ties : List Nat) : State :=
  match s.beam? m, s.roundOfBeam m with
  | some b, some r =>
    (match b.decoding with
     | none => s
     | some x =>
       let x := { x with ties := ties }
       let s := s.updBeam m (fun b => { b with decoding := none, heard := some x })
       match r.leg, r.uma with
       | some l, _ =>
         if (l.phase = .slot ∨ l.phase = .accSlot) ∧ !r.isU0 then s else { s with crcQ := s.crcQ ++ [{ beam := m, rx := x, weft := none }] }
       | none, some u => s.queueWefts r u m
       | none, none => s)
  | _, _ => s

/-- A sighting of a reply with the SNR `snr` of its beam and the estimates `chans` of its chains (R182, R191 to R193, R243). -/
def State.sightOf (s : State) (r : Round) (m : Nat) (b : Beam) (x : RxReport) (snr : Nat) (chans : List (Nat × Cx)) (family proto : Nat) (bits : List Bool) (dev : Int)
    (alive : Option Nat) (tie : Nat) : Sight × State :=
  let (pw, s) := s.posWord b.chains.length (s.locate r b chans tie)
  let (c, rssi) := b.strongest x.chains
  let ports := b.chains.map (fun e => e.2)
  ({ family := family, bits := bits, proto := proto, rssi := rssi, snr := snr, pos := pw, dev := dev, alive := alive, warp := r.warp, beam := m,
     port := match b.chains.find? (fun e => e.1 == c) with | some e => e.2 | none => 0, clip := x.chains.any (fun c => c.clip), stale := s.refStale ports,
     time := x.at_ }, s)

/-- A sighting is made; a reference tag heard at 15 dB or more updates the offsets of its chains (R193). -/
def State.makeSighting (s : State) (r : Round) (b : Beam) (chans : List (Nat × Cx)) (x : Sight) (st : Status) (full : Bool) : Option Nat × State :=
  let (i, s) := s.sighting r.warp x st full
  (i, match s.refTagOf x.family (s.keyOf x.family x.bits) with
    | some t => if 60 ≤ x.snr then s.refUpdate r b chans t.x else s
    | none => s)

/-- The transaction in flight is past its commit point (R284). -/
def State.pastCommit (s : State) (w : Nat) : State := s.updRound w (fun r => { r with txn := r.txn.map (fun _ => true) })

/-- A legacy or U0 frame is checked (R212, R216, R220, R223). A Read commits as its CRC-16 passes (R217), one of U0 blocks at its last, and keeps its
result from then on (R65). -/
def State.legCheck (s : State) (r : Round) (l : Leg) (j : CrcJob) (b : Beam) : State :=
  let bits := j.rx.bits
  let n := bits.length - 16
  let ok := decide (16 ≤ bits.length) && crc16 (bits.take n) == natOfBits (bits.drop n)
  let s := s.cnt (Reg.crcCnt 0)
  let s := if ok then s else s.cnt (Reg.crcCnt 1)
  let s := if r.isU0 then s.legCount r (if ok then 11 else 13) else s
  let ident := l.phase == .ident || l.phase == .accIdent
  let typed := !r.isU0 || natOfBits (bits.take 8) == 1
  let read := l.phase == .accOp && eOp r.words == 1 && ok && (!r.isU0 || l.words + 1 == eLen r.words)
  let s := if read then (s.commitTxn r.warp true).updLeg r.warp (fun l => { l with kept := some (readStatus r (bits.take n)), data := readData r l (bits.take n) }) else s
  if !ident || l.sighted || !ok || !typed then s
  else
    let id := if r.isU0 then (bits.drop 8).take 64 else (bits.take n).drop 16
    let s := if r.isU0 then s else s.legCount r 4
    if r.kind == RoundKind.access && id != eId r.words then s.updLeg r.warp (fun l => { l with crcOk := some true })
    else
      let s := if r.kind == .access then s else s.pastCommit r.warp
      let (x, s) := s.sightOf r j.beam b j.rx j.rx.snr j.rx.chans (if r.isU0 then 1 else 0) (if r.isU0 then 1 else 0) id j.rx.dev none (j.rx.ties.headD 0)
      let (i, s) := s.makeSighting r b j.rx.chans x .ok false
      s.updLeg r.warp (fun l => { l with sighted := true, crcOk := some true, index := if r.kind == .access then i.getD 0xFFF else l.index })

/-- The status of an alive class (R268). -/
def classStatus (c : Nat) : Status := match c with | 0 => .ok | 1 => .aliveRepeat | _ => .aliveJump

/-- An identified tag gets its assignment (R258, R259): the one it holds, or the lowest free handle and tuft. `m` is the beam that heard it. -/
def State.giveWeft (s : State) (r : Round) (m i : Nat) (classB : Bool) (tufts : Nat) (f : WeftRx) (l : Loading) : State :=
  match s.seenAt i with
  | none => s
  | some e =>
    let t := match s.umTag? i with | some t => { t with classB := classB, tufts := tufts } | none => UmTag.new i classB tufts
    let t := { t with meas := s.tuftS f l, trim := trimOf f.dev, eng := s.fld (Reg.loomBeam m) 24 4 % 4 }
    let cur := l.map.headD 0
    if e.assigned then (s.setUmTag t).loadForWeft t e.wfirst e.wcount cur
    else match s.freeWeft (s.groupRange r.warp (r.geos.headD 0)) 1 with
      | none => s
      | some (g, k) => (((s.assignWeft i s.freeHandle g k 1).setUmTag t).loadForWeft t k 1 cur)

/-- A reply with a failing CRC-24 yields no TRIM: the next LINK of its tag carries TRIM 0 (R243). -/
def State.noTrim (s : State) (tag : Option Nat) : State :=
  match tag.bind s.umTag? with
  | none => s
  | some t => s.setUmTag { t with trim := 0 }

/-- A UREAD has committed (R267): its result stands (R65). -/
def State.commitRead (s : State) (w cls ty : Nat) (body : List Byte) : State :=
  let st := readStatusU cls ty body
  (s.commitTxn w true).updUma w (fun u => { u with kept := some st, data := if st.1 == .ok then body else [] })

/-- A Umaolo frame is checked (R246, R252, R258, R268, R326). A reply of a wrong type is treated as one whose CRC-24 failed (R252), and so is an IDENT
too short for its fields (DESIGN CHOICE, log entry 26). A STATUS on a quarantined weft belongs to no entry: it is a reply, but no sighting. -/
def State.umaCheck (s : State) (r : Round) (u : Uma) (j : CrcJob) (b : Beam) (f : WeftRx) : State :=
  match (s.slotWefts r u).find? (fun e => e.1 == f.first) with
  | none => s
  | some (_, c) =>
    match s.weftBefore r u j.rx f c with
    | .inl _ => s
    | .inr l =>
      let ty := bitsN f.header 0 4
      let len := bitsN f.header 4 8
      let good := payloadOk f len
      let s := s.cnt (Reg.crcCnt 0)
      let s := if good then s else s.cnt (Reg.crcCnt 1)
      let body := bodyOf f len
      let res : WeftRes := { first := f.first, count := c, out := .crcFail, ty := ty, body := body, snr := f.snr, dev := f.dev, load := l.lid, cls := 0, index := 0xFFF }
      let own := (s.weftTag u f.first).bind s.seenAt
      if !good || !typeAnswers u.phase ty || (ty == 1 && decide (len < 10)) then
        let s := s.noTrim (s.weftTag u f.first)
        (s.umaCount j.beam 4).updUma r.warp (fun u => { u with res := u.res ++ [res] })
      else
        let s := s.umaCount j.beam 1
        let eng := s.fld (Reg.loomBeam j.beam) 24 4 % 4
        let a := Reg.umaUeStat eng
        let s := s.setFld a 0 16 (s.fld a 0 16 + 1)
        let s : State := { s with umDiag := s.umDiag.set eng (diagWords f l) }
        if ty != 1 && own.isNone then s.updUma r.warp (fun u => { u with res := u.res ++ [{ res with out := .decoded }] })
        else
        let id := if ty = 1 then natOfBits (f.payload.take 64) else (match own with | some e => e.id | none => 0)
        let classB := if ty = 1 then (body.getD 8 0) == 2 else (match own with | some e => e.proto == 3 | none => false)
        let alive := bitsN f.payload (8 * len) 16
        let cls := s.classify 2 id alive
        let s := s.countClass cls
        let has := match (s.findSeen 2 id).bind s.seenAt with | some e => e.assigned | none => false
        let full := ty == 1 && !has && (s.freeWeft (s.groupRange r.warp (r.geos.headD 0)) 1).isNone
        let s := if u.phase == .read then (if eOp r.words = 1 then s.commitRead r.warp cls.1 ty body else s) else if r.kind == .access then s else s.pastCommit r.warp
        let (x, s) := s.sightOf r j.beam b j.rx f.beam f.chans 2 (if classB then 3 else 2) (bitsHigh 64 id) f.dev (some alive)
          (j.rx.ties.getD (j.weft.getD 0) 0)
        let (i, s) := s.makeSighting r b f.chans x (classStatus cls.1) full
        let s := match i with
          | none => s
          | some i =>
            if cls.1 = 1 then s
            else if ty = 1 then s.giveWeft r j.beam i classB (body.getD 9 0).toNat f l
            else s.nextLoading j.beam i f l
        s.updUma r.warp (fun u => { u with res := u.res ++ [{ res with out := .decoded, cls := cls.1, index := i.getD 0xFFF }] })

/-- The frame at the head of the unit is checked (R320, R321). -/
def State.checkFrame (s : State) : State :=
  match s.crcQ with
  | [] => s
  | j :: rest =>
    let s : State := { s with crcQ := rest }
    match s.beam? j.beam, s.roundOfBeam j.beam with
    | some b, some r =>
      (match r.leg, r.uma, j.weft with
       | some l, _, _ => s.legCheck r l j b
       | none, some u, some k => (match j.rx.wefts[k]? with | some f => s.umaCheck r u j b f | none => s)
       | _, _, _ => s)
    | _, _ => s

/-- The command in flight opens a reply window (R206, R251). -/
def Round.expectsReply (r : Round) : Bool :=
  r.txn.isSome && r.phase == .running &&
  (match r.leg with
   | some l => l.phase != .done && l.phase != .accHeld && !(l.phase == .accRaw && fieldN (r.raw.getD 8 0) 16 10 == 0)
   | none => match r.uma with
     | some u => u.phase == .inv || u.phase == .poll || u.phase == .locate || u.phase == .read
     | none => false)

/-- The reply windows of a round close; what is being received runs on (R189). -/
def State.closeWindows (s : State) (r : Round) : State :=
  r.beams.foldl (fun (s : State) m => s.updBeam m (fun b => { b with window := false, secOff := false, captures := 0 })) s

/-- The step of a round's engine whose replies are all resolved. -/
def State.engineOver (s : State) (w : Nat) : State :=
  match s.roundOn w with
  | none => s
  | some r => if r.leg.isSome then s.legOver w else if r.uma.isSome then s.umaOver w else s

end Sys2Proof.Machine
end

