-- ==== Sys2Proof/Machine/Legacy.lean ====
section
/-! DEFINITION. The commands of the legacy singulation engine (10_legacy_air_interface.md R211 to R223). -/
namespace Sys2Proof.Machine

/-- The engine's present step ends in one of the phases of `p`: its command has left the air, its reply windows are over, and once nothing it
received is still under way the step is resolved. -/
def State.legStep (s : State) (w : Nat) (p : LegPhase → Bool) : State :=
  match s.roundOn w with
  | none => s
  | some r =>
    match r.leg with
    | none => s
    | some l =>
      if !p l.phase || r.phase != .running || r.txn.isNone || s.onAir r then s
      else
        let t := s.closeWindows r
        if t.roundQuiet r then t.legOver w else s

/-- LEGACY_SLOT_END (R211, R213, R216). -/
def execLegacySlotEnd (w : Fin 4) (s : State) : Host.Outcome State Fault Refusal :=
  .next (s.legStep w (fun p => p == .slot || p == .accSlot))

/-- IDENTITY_REPLY (R212, R213, R216). -/
def execIdentityReply (w : Fin 4) (s : State) : Host.Outcome State Fault Refusal :=
  .next (s.legStep w (fun p => p == .ident || p == .accIdent))

/-- ACCESS_REPLY (R216 to R219). -/
def execAccessReply (w : Fin 4) (s : State) : Host.Outcome State Fault Refusal :=
  .next (s.legStep w (fun p => p != .slot && p != .accSlot && p != .ident && p != .accIdent && p != .accHeld && p != .done))

/-- DELAYED_REPLY_TIMEOUT (R206, R219): no delayed reply within 20 ms. -/
def execDelayedReplyTimeout (w : Fin 4) (s : State) : Host.Outcome State Fault Refusal :=
  match s.roundOn w with
  | none => .next s
  | some r =>
    let heard := (s.liveBeamList r).any (fun e => e.2.locked)
    .next (if r.awaitsDelayed && !heard then s.legStep w (fun p => p == .accOp || p == .accRaw) else s)

end Sys2Proof.Machine
end

