-- ==== Sys2Proof/Machine/MemPort.lean ====
section
/-! DEFINITION. The commands of the memory port (19_memory_port.md). -/
namespace Sys2Proof.Machine

/-! ## Choosing an entry (R28, R395, R397) -/

/-- An entry needs a flash that programs or erases (R397). -/
def Memp.blocked (m : Memp) (e : MemEntry) : Bool :=
  match m.prog with | none => false | some p => p.dev == e.dev && !m.suspended

/-- An entry may start: a program or erase when none runs, on either flash of a mirror, and none is to be read back; one that waits for RGAP may not, nor
one of the queue on a device that an OUT takes away (R397, R401). -/
def State.runnable (s : State) (e : MemEntry) : Bool :=
  let m := s.memp
  !(e.prog && (m.prog.isSome || m.checking.isSome)) && !(m.blocked e && m.rgap) && (m.owed.contains e || !s.leaving e.dev)

/-- The entry the port takes next (R28, R395): the highest level that waits, unless a level has waited for 20 entries, so that each of the four lower
ones is served within 32 whatever chain of 8 comes between (log entry 57). The entry and whether the service is forced. -/
def State.nextEntry (s : State) : Option (MemEntry × Bool) :=
  let l := (s.memp.owed ++ s.memp.queue).filter s.runnable
  let first := fun k => l.find? (fun e => e.level == k + 1)
  let starved := (List.range 5).findSome? (fun k => if s.memp.since.getD k 0 ≥ 20 then first k else none)
  let best := (List.range 5).findSome? first
  match starved, best with
  | some e, some b => some (e, decide (b.level < e.level))
  | none, some b => some (b, false)
  | _, none => none

/-- How many entries each level has waited for, after one of level `lvl` of those that wait, `q`; a level with nothing there does not wait. -/
def sinceAfter (q : List MemEntry) (l : List Nat) (lvl : Nat) : List Nat :=
  (List.range 5).map (fun k => if k + 1 = lvl ∨ !q.any (fun e => e.level == k + 1) then 0 else l.getD k 0 + 1)

/-- What waits outside the queue goes on, now that there may be room. -/
def State.pump (s : State) : State := s.pumpWaiting.pumpTask.pumpCopy

/-- An entry starts on the bus (R395): MEMP_CNT_ENTRY counts it, and MEMP_CNT_FORCED a forced one. -/
def State.startEntry (s : State) (e : MemEntry) (forced : Bool) : State :=
  let m := s.memp
  let queue := if m.owed.contains e then m.queue else m.queue.erase e
  let tasks := m.tasks.map (fun t => if e.job = .task t.id then { t with begun := true } else t)
  let s : State := { s with memp := { m with queue := queue, owed := m.owed.erase e, cur := some e, tasks := tasks,
                                             since := sinceAfter (m.owed ++ m.queue) m.since e.level } }
  let s := (s.cnt (Reg.mempCnt 0)).pump
  if forced then s.cnt (Reg.mempCnt 5) else s

/-- The port does nothing: its queue is frozen under EXTEST (R45), or its lands are unpowered (R53). -/
def State.memStopped (s : State) : Bool := s.memp.frozen || !s.lands.vio

/-! ## Ends of entries (R391, R400 to R402) -/

/-- The bucket that a fetch read is that of the entry that waits for it. -/
def State.fetchFits (s : State) (i : Nat) (e : MemEntry) : Bool :=
  s.fetches.contains i && (match s.seenAt i with | some x => popBucket x.family x.id == e.addr / 256 | none => false)

/-- The requester of an entry receives its data, or learns that its write is made (R391): a page read for a resilver is written to the flash that returns,
its sector erased first (R401), and the last part of a bucket ends its fetch or its write-back. -/
def State.endJob (s : State) (e : MemEntry) : State :=
  match e.job with
  | .popWrite family id last => if last then s.writeBack family id else s
  | .popFetch i last =>
    if last && s.fetchFits i e then { s with memp := { s.memp with arrived := s.memp.arrived ++ [i] } } else s
  | .copy off =>
    if !s.resilvering then s
    else if e.write then
      if e.len = 0 then s
      else
        let s : State := { s with memp := { s.memp with copied := off + 256 } }
        if off + 256 < flashEnd then s.readCopy (off + 256) else s
    else
      let page := fun (len : Nat) => { s.flashEntry off len 5 true true (.copy off) with dev := !s.readDev }
      s.submit (if off % 4096 = 0 then [page 0, page 256] else [page 256])
  | .log n => s.persistLog n
  | .logErase => { s with mgmt := { s.mgmt with flashLog := s.mgmt.flashLog.take (262144 - 256) } }
  | .proof slot =>
    let base := if s.upd.fromStaging then 0x1200000 else slotAddr slot
    let off := e.addr + 256 - base
    let len := match s.proofImage slot s.upd.fromStaging with | some i => draftLen i | none => 0
    if s.upd.proof = some slot ∧ !e.cont ∧ off < len then s.readProof slot s.upd.fromStaging off else s
  | .task id => s.endTaskEntry id e
  | .xip half off => { s with memp := { s.memp with line := some (half, off, false) } }
  | .stage _ _ | .check => s

/-- The parts of a bucket's write-back that follow one that failed. -/
def dropParts (family id : Nat) : List MemEntry → List MemEntry
  | [] => []
  | e :: r =>
    if e.job = .popWrite family id true then r
    else if e.job = .popWrite family id false then dropParts family id r
    else e :: dropParts family id r

/-- A failed entry tells its requester (R402): a staged block's LOAD ends with the status; a fetch is abandoned as under R296; a proof reads its chain
again, and a resilver its page. -/
def State.failJob (s : State) (e : MemEntry) (st : Status) : State :=
  match e.job with
  | .stage seq c => if seq = 0 then s.dropBlock 0 c else (s.dropBlock seq c).complete seq st
  | .popFetch i _ =>
    if s.fetches.contains i then ((s.endFetch i).cnt (Reg.seenCnt 5)).updSeen i (fun x => { x with noHist := false }) else s
  | .popWrite family id last =>
    let s : State := if last then s else { s with memp := { s.memp with queue := dropParts family id s.memp.queue } }
    match s.seenWb.find? (fun x => x.family == family && x.id == id) with
    | none => s
    | some x => ({ s with seenWb := s.seenWb.erase x } : State).cnt (Reg.seenCnt 3)
  | .log _ | .logErase => s.setBit Reg.mgmtHealth 31 true
  | .copy off => if s.resilvering then (s.dropJobs (fun j => j == .copy off)).readCopy off else s
  | .task id => s.failTask id st
  | .proof slot =>
    let base := if s.upd.fromStaging then 0x1200000 else slotAddr slot
    let s := s.dropJobs (fun j => j == .proof slot)
    if s.upd.proof = some slot then s.readProof slot s.upd.fromStaging ((e.addr - base) / 2048 * 2048) else s
  | .xip _ _ | .check => s

/-- An entry for a device that is no longer used (R401): a write that its other flash holds has been made, any other has failed. -/
def State.dropEntry (s : State) (e : MemEntry) : State :=
  let m := s.memp
  let s : State := { s with memp := { m with queue := if m.owed.contains e then m.queue else m.queue.erase e, owed := m.owed.erase e } }
  if e.job = .check then
    (match s.memp.checking with
     | some w =>
       let s : State := { s with memp := { s.memp with checking := none } }
       if s.memOos (!w.dev) then s.failJob w .outOfService else s.endJob w
     | none => s)
  else if e.prog && !s.memOos (!e.dev) then s.endJob e
  else s.failJob e .outOfService

/-- The device of an entry is out of service and has finished, and no resilver writes to it (R401). -/
def State.devGone (s : State) (e : MemEntry) : Bool := s.memOos e.dev && !s.leaving e.dev && !s.resilvering

/-- The flash that takes a copy of a write to the other one (R400, R401): a mirror in service, or a flash that is being resilvered. -/
def State.copyTo (s : State) (dev : Bool) : Bool := if dev then s.bit Reg.mempStat 24 else s.dev1 == 2 && (!s.memOos true || s.bit Reg.mempStat 24)

/-- The ends of the regions of R398, in ascending order. -/
def regionEnds : List Nat :=
  [0x100000, 0x700000, 0xD00000, 0xE00000, 0xF00000, 0x1000000, 0x1100000, 0x1200000, 0x1800000, 0x1900000, 0x1A00000, 0x1E00000, 0x1F00000, 0x2000000]

/-- The region of a flash address has been copied whole by the resilver that runs (R401). -/
def State.regionCopied (s : State) (a : Nat) : Bool :=
  match regionEnds.find? (fun e => decide (a < e)) with | some e => decide (e ≤ s.memp.copied) | none => false

/-- A write stands on one flash. One to the flash that reads come from is then made to the other one (R400), its requester being told after that; while a
resilver runs only if its region has been copied already (R401). -/
def State.writeStands (s : State) (e : MemEntry) : State :=
  if e.dev == s.readDev && s.copyTo e.dev && (!s.resilvering || s.regionCopied e.addr) then
    { s with memp := { s.memp with owed := s.memp.owed ++ [{ e with dev := !e.dev }] } }
  else s.endJob e

/-- A program or erase has ended inside its flash. What was programmed is read back first (R400). -/
def State.endProgram (s : State) (e : MemEntry) : State :=
  let s : State := { s with memp := { s.memp with prog := none } }
  if e.len = 0 then s.writeStands e
  else
    ({ s with memp := { s.memp with checking := some e } } : State).owe { s.flashEntry e.addr e.len e.level false false .check with dev := e.dev }

/-- The entry in progress has ended on the bus: a program or erase goes on inside its flash, a read-back leaves the write verified, and any other entry
is done. -/
def State.endBus (s : State) (e : MemEntry) : State :=
  if e.prog then { s with memp := { s.memp with prog := some e } }
  else if e.job = .check then
    match s.memp.checking with
    | some w => ({ s with memp := { s.memp with checking := none } } : State).writeStands w
    | none => s
  else s.endJob e

/-- An operation that was suspended resumes, and RGAP runs (R397). -/
def State.resumeOp (s : State) : State :=
  let m := s.memp
  { s with memp := { m with suspended := false, rgap := m.rgap || m.suspended } }

/-! ## Commands -/

/-- QUEUE_ENTRY_START (R395, R397): with the bus free the next entry starts; one that needs a programming flash first has it suspended. -/
def execQueueEntryStart (s : State) : Host.Outcome State Fault Refusal :=
  if s.memp.cur.isSome || s.memp.suspending || s.memStopped then .next s
  else
    let s := s.pump
    match s.nextEntry with
    | none => .next s
    | some (e, forced) =>
      if s.devGone e then .next (s.dropEntry e).settleMemOuts
      else if s.memp.blocked e then .next { s with memp := { s.memp with suspending := true } }
      else .next (s.startEntry e forced)

/-- QUEUE_ENTRY_END (R391, R393, R397): the entry in progress ends, and a chain goes on with its next entry; a suspended operation is resumed. With no
entry in progress the program or erase itself ends. -/
def execQueueEntryEnd (s : State) : Host.Outcome State Fault Refusal :=
  if s.memStopped then .next s
  else match s.memp.cur with
  | some e =>
    let chain := if e.cont then s.memp.queue.find? (fun x => x.level == e.level && x.dev == e.dev) else none
    (match chain with
     | some x => .next ((s.endBus e).startEntry x false)
     | none => .next (((({ s with memp := { s.memp with cur := none } } : State).resumeOp).endBus e).settleMemOuts))
  | none =>
    match s.memp.prog with
    | none => .next s
    | some e => .next ((s.endProgram e).settleMemOuts)

/-- XIP_MISS (R396): a line of 32 bytes is fetched at level 1 for the running half and level 5 for a half that loads. Beyond the slot's 6 MiB the fetch
returns all ones at once, and the event log has the flash address (its CODE is not stated, and free). -/
def execXipMiss (half : Bool) (off : BitVec 24) (s : State) : Host.Outcome State Fault Refusal :=
  let st := s.halfState half
  let a := s.xipBase half * 2 ^ 20 + off.toNat
  if !s.mgmtOn || (!(s.mgmt.running == some half) && st != 1 && st != 2) then .next s
  else if off.toNat ≥ 6 * 2 ^ 20 then
    let (c, s) := s.drawWord
    let s : State := { s with memp := { s.memp with line := some (half, off.toNat, true) } }
    .next (s.logEvent 9 (fieldN c 0 8) (wordOf a))
  else
    let lvl := if s.mgmt.running == some half then 1 else 5
    .next ((s.cnt (Reg.mempCnt 1)).submit [s.flashEntry (a / 32 * 32) 32 lvl false false (.xip half off.toNat)])

/-- SUSPENDED (R397): the flash reports suspended within TSUS; the entry that waited runs. Where none can run any more the operation resumes. -/
def execSuspended (s : State) : Host.Outcome State Fault Refusal :=
  if !s.memp.suspending || s.memStopped then .next s
  else
    let s := ({ s with memp := { s.memp with suspending := false, suspended := true } } : State).cnt (Reg.mempCnt 2)
    match s.nextEntry with
    | none => .next s.resumeOp
    | some (e, forced) => .next (if s.devGone e then (s.dropEntry e).resumeOp.settleMemOuts else s.startEntry e forced)

/-- RGAP_EXPIRY (R397): entries that wait may suspend again. -/
def execRgapExpiry (s : State) : Host.Outcome State Fault Refusal := .next { s with memp := { s.memp with rgap := false } }

/-- A device has failed (R402): the second failure within 60 s takes it out of service where a mirror or PSRAM allows it, with SERVICE,
a FAULT packet (its SOURCE, INDEX and CODE are not stated, and free) and a log entry (DESIGN CHOICE, log entry 40). -/
def State.memFailure (s : State) (dev : Bool) (addr : Nat) : State :=
  let last := if dev then s.memp.fail1 else s.memp.fail0
  let twice := match last with | none => false | some t => decide (s.up < t + 60000000)
  let m := s.memp
  let s : State := { s with memp := if dev then { m with fail1 := some s.up } else { m with fail0 := some s.up } }
  if twice && !s.memOos dev && (dev || s.mirrorIn) then
    let s := (s.memOut dev).raise 8
    let (w, s) := s.drawWord
    let s := s.queueFaultRec { ty := 7, flags := 0, len := 16, words := [w &&& 0xFFFFFF00, s.timeLo, 0] }
    s.logEvent 9 3 (wordOf addr)
  else s

/-- What a device is busy with: the entry in progress, or the program or erase that runs in it. A read-back stands for the write it is of. -/
def Memp.onDev (m : Memp) (dev : Bool) : Option MemEntry :=
  let mine := fun (e : MemEntry) => e.dev == dev
  ((m.cur.filter mine).map (fun e => if e.job = .check then m.checking.getD e else e)).or (m.prog.filter mine)

/-- An entry fails on a device (R402): nothing of it goes on, its requester is told, and the event log has its address. -/
def State.failEntry (s : State) (e : MemEntry) (st : Status) (counter code : Nat) : State :=
  let m := s.memp
  let mine := fun (x : MemEntry) => x == e || (x.job == .check && m.checking == some e)
  let progs := m.prog == some e
  let m := { m with cur := m.cur.filter (fun x => !mine x), prog := if progs then none else m.prog, owed := m.owed.filter (fun x => !mine x),
                    checking := m.checking.filter (fun x => x != e), suspending := m.suspending && !progs, suspended := m.suspended && !progs }
  let s := (({ s with memp := m } : State).cnt (Reg.mempCnt counter)).failJob e st
  ((s.logEvent 9 code (wordOf e.addr)).memFailure e.dev e.addr).settleMemOuts

/-- MEMP_TIMEOUT (R402): the entry in progress on a device, or its program or erase, ends with TIMEOUT. -/
def execMempTimeout (dev : Bool) (s : State) : Host.Outcome State Fault Refusal :=
  match (if s.memStopped then none else s.memp.onDev dev) with
  | none => .next s
  | some e => .next (s.failEntry e .timeout 4 1)

/-- VERIFY_FAIL (R402): the read-back of a write has failed twice; the write ends with CRC_FAIL. -/
def execVerifyFail (dev : Bool) (s : State) : Host.Outcome State Fault Refusal :=
  match (if s.memStopped then none else s.memp.checking.filter (fun e => e.dev == dev)) with
  | none => .next s
  | some e => .next (s.failEntry e .crcFail 3 2)

/-- RESILVER_END (R401): the copy of every region is complete; the flash is in service and its RETURN completes with OK. -/
def execResilverEnd (s : State) : Host.Outcome State Fault Refusal :=
  if !s.resilvering || !s.mgmtOn || decide (s.memp.copied < flashEnd) then .next s
  else
    let back := fun (d : Nat) => s.cmds.any (fun c => c.kind == .mempReturn d)
    let s := s.setBit Reg.mempStat 24 false
    let s := if back 0 then s.setBit Reg.mempStat 22 false else s
    let s := if back 1 then s.setBit Reg.mempStat 23 false else s
    .next (s.completeAll (fun c => match c.kind with | .mempReturn _ => true | _ => false) .ok)

end Sys2Proof.Machine
end

