-- ==== Sys2Proof/Machine/Peer.lean ====
section
/-! DEFINITION. The commands of peer mode (12_umaolo_access_and_peer.md R269 to R277). -/
namespace Sys2Proof.Machine

/-- A peer candidate that may start is added and starts if it can (R269, R270): a receive period waits for a window under way and takes the place of
those that fall within it. -/
def State.askPeer (s : State) (k : RoundKind) : State :=
  let w := s.fld Reg.peerCfg 10 2
  let c : Cand := { kind := k, seq := 0, entry := 0, warp := w, due := true, points := [] }
  let here := fun (k : RoundKind) => s.rounds.any (fun r => r.kind == k) || s.cands.any (fun c => c.kind == k)
  if here .peerRx || (k == .peerWin && here .peerWin) || !s.candLive c then s
  else ({ s with cands := s.cands ++ [c] } : State).tryStart w

/-- PEER_WINDOW_OPEN (R269): the time base is a whole multiple of PERIOD. -/
def execPeerWindowOpen (s : State) : Host.Outcome State Fault Refusal := .next (if s.coreOn && s.peerOn then s.askPeer .peerWin else s)

/-- PEER_SLOT (R269, R272): the module's own slot begins. -/
def execPeerSlot (s : State) : Host.Outcome State Fault Refusal :=
  .next (match s.peerRound with | some r => if s.peerCanSend r then s.ownSlot r else s | none => s)

/-- A beacon interval is over (R273): a neighbour that it has not brought misses it. -/
def Neighbour.turn (n : Neighbour) : Neighbour := if n.now then { n with missed := 0, now := false } else { n with missed := satN 8 (n.missed + 1) }

/-- PEER_WINDOW_END (R269, R273, R275): neighbours not heard for a beacon interval miss it, the reference and the colour are taken anew, and the
peer round ends. -/
def execPeerWindowEnd (s : State) : Host.Outcome State Fault Refusal :=
  match s.peerRound with
  | none => .next s
  | some r =>
    if r.kind != .peerWin then .next s
    else
      let every := max 1 (s.fld Reg.peerWin 8 8)
      let s := if s.peer.windows % every = 0 then
          s.updPeer (fun p => { p with neighbours := p.neighbours.map Neighbour.turn }) else s
      let s := (s.updPeer (fun p => { p with slot := none })).peerEval.peerColours
      .next (s.downRound r false)

/-- PEER_RECEIVE_PERIOD (R270): a module at stratum 15 that hears no beacon listens. -/
def execPeerReceivePeriod (s : State) : Host.Outcome State Fault Refusal :=
  .next (if s.coreOn && s.peerOn && s.stratum == 15 && s.peer.neighbours.all (fun n => !n.fresh) then s.askPeer .peerRx else s)

/-- PEER_RECEIVE_PERIOD_END (R270): its time has run out; a beacon that ends it is BEACON's own effect. -/
def execPeerReceivePeriodEnd (s : State) : Host.Outcome State Fault Refusal :=
  .next (match s.peerRound with | some r => if r.kind == RoundKind.peerRx then s.downRound r false else s | none => s)

/-- DATA (R272, R307, R312). -/
def execData (frame : RxSignal) (s : State) : Host.Outcome State Fault Refusal := .next (s.peerHears frame)

/-- ACK (R272). -/
def execAck (frame : RxSignal) (s : State) : Host.Outcome State Fault Refusal := .next (s.peerHears frame)

/-- ACK_TIMEOUT (R272): the frame is sent again in the next four windows, and then ends NO_REPLY. -/
def execAckTimeout (s : State) : Host.Outcome State Fault Refusal :=
  match s.peer.job with
  | none => .next s
  | some j =>
    if !j.waiting || !s.coreOn then .next s
    else
      let s := s.peerCount 4
      if 5 ≤ j.tries then .next (((s.updPeer (fun p => { p with job := none })).peerCount 5).complete j.seq .noReply)
      else .next (s.updPeer (fun p => { p with job := some { j with waiting := false } }))

/-- BEACON (R270, R273 to R275, R432). -/
def execBeacon (frame : RxSignal) (s : State) : Host.Outcome State Fault Refusal := .next (s.peerHears frame)

/-- REFERENCE_LOST (R273): the reference peer has not been heard for 8 beacon intervals. -/
def execReferenceLost (s : State) : Host.Outcome State Fault Refusal :=
  match s.refPeer with
  | none => .next s
  | some a =>
    if !s.coreOn then .next s
    else .next (s.updPeer (fun p => { p with neighbours := p.neighbours.map (fun n => if n.addr = a then { n with missed := max 8 n.missed } else n) })).peerEval

/-- UPD_OFFER (R276, R443). -/
def execUpdOffer (frame : RxSignal) (s : State) : Host.Outcome State Fault Refusal := .next (s.peerHears frame)

/-- UPD_REQ (R276). -/
def execUpdReq (frame : RxSignal) (s : State) : Host.Outcome State Fault Refusal := .next (s.peerHears frame)

/-- UPD_CHUNK (R276). -/
def execUpdChunk (frame : RxSignal) (s : State) : Host.Outcome State Fault Refusal := .next (s.peerHears frame)

/-- PEER_FETCH_COMPLETE (R443): every chunk of the offered image is held, and the module runs VERIFY itself. -/
def execPeerFetchComplete (s : State) : Host.Outcome State Fault Refusal :=
  match s.peer.offer with
  | none => .next s
  | some o =>
    let ok := s.halfRuns && s.bit Reg.updCfg 1 && (s.lacking o).isEmpty && s.updState == 1 && !s.upd.busy
    .next (if ok then { s with upd := { s.upd with busy := true } } else s)

end Sys2Proof.Machine
end

