-- ==== Sys2Proof/Machine/Ping.lean ====
section
/-! DEFINITION. Sweeps of the ping engine and the saving of its baselines (17_detuning_pings.md). -/
namespace Sys2Proof.Machine

/-- SWEEP_TIMER (R353, R355): in IDLE and DOZE, from COMMIT on, a sweep of PING_PORTS less PING_SKIP begins; under EXTEST none does (R360). -/
def execSweepTimer (s : State) : Host.Outcome State Fault Refusal :=
  let on := fun (r : Nat → Nat) p => s.bit (r (p / 32)) (p % 32)
  let ports := (List.range 64).filter (fun p => on Reg.pingPorts p && !on Reg.pingSkip p)
  let deep := match s.sleeping with | some .dormant => true | none => true | _ => false
  .next (if deep || s.ping.sweep.isSome || s.tap == .extest || ports.isEmpty || !s.bit Reg.pingRf 31 || s.fld Reg.pingSweep 0 16 == 0 then s
         else { s with ping := { s.ping with sweep := some ports, thr := s.reg Reg.pingThr } })

/-- SWEEP_END (R351, R354): the sweep of a ping round, of a CAL or of the AO timer ends with the ports it measured. Fewer than it was to
measure means that it was stopped (R360). -/
def execSweepEnd (meas : List GammaMeas) (s : State) : Host.Outcome State Fault Refusal :=
  .next (if s.tap == .extest then s
         else match s.rounds.find? (fun r => r.kind.sweeps) with
           | some r => if r.kind = .ping then s.roundSweepEnd r meas else s.calSweepEnd r meas
           | none => match s.ping.sweep with | some ports => s.aoSweepEnd ports meas | none => s)

/-- BASELINE_SAVE (R358): every 3,600 s while the baselines have changed. -/
def execBaselineSave (s : State) : Host.Outcome State Fault Refusal :=
  .next (if s.ping.changed && s.halfRuns then s.saveBaselines else s)

end Sys2Proof.Machine
end

