-- ==== Sys2Proof/Machine/Power.lean ====
section
/-! DEFINITION. The commands of the power states (05_power_states.md). -/
namespace Sys2Proof.Machine

/-- QUIESCE_END (R98, R416): 0.1 ms have passed and every drain condition is met, the event log persisted; COMMIT follows unless a refuser holds. -/
def execQuiesceEnd (s : State) : Host.Outcome State Fault Refusal :=
  match s.phase with
  | .quiesce t =>
    let drained := !s.feedPending && !s.mempBusy && s.mgmt.unsaved == 0
    .next (if drained && (allRefusers.find? (s.aborts t)).isNone then s.commitEntry t else s)
  | _ => .next s

/-- QUIESCE_ABORT (R98, R102): a refuser's condition has arisen in QUIESCE. Of several that hold the lowest ID is named; the two with a time limit
hold when they are the one named. -/
def execQuiesceAbort (refuser : Refuser) (s : State) : Host.Outcome State Fault Refusal :=
  match s.phase with
  | .quiesce t =>
    let timed := fun (r : Refuser) => r == .tallyFeedPending || r == .mpQueueBusy
    .next (if !s.aborts t refuser then s
           else match allRefusers.find? (fun r => s.aborts t r && (r == refuser || !timed r)) with
             | some r => s.abortEntry r t
             | none => s)
  | _ => .next s

/-- QUIESCE_TIMEOUT (R98): 30 ms have passed; the holding refuser with the lowest ID is named. -/
def execQuiesceTimeout (s : State) : Host.Outcome State Fault Refusal :=
  match s.phase with
  | .quiesce t => .next (match allRefusers.find? (s.aborts t) with | some r => s.abortEntry r t | none => s)
  | _ => .next s

/-- TALLY_FEED_PENDING (R102): the feed queue is not empty 25 ms after QUIESCE began. -/
def execTallyFeedPending (s : State) : Host.Outcome State Fault Refusal :=
  match s.phase with
  | .quiesce t => .next (if s.aborts t .tallyFeedPending then s.abortEntry .tallyFeedPending t else s)
  | _ => .next s

/-- POWER_DOWN (R98): after the result word the core is switched off (DOZE, DORMANT), and the tag function is powered from a field only. The test
access port loses its instruction with the core (DEDUCED, log entry 14). -/
def execPowerDown (s : State) : Host.Outcome State Fault Refusal :=
  match s.phase with
  | .committed t =>
    if t = .idle then .next s.gateClocks
    else
      let s := s.setReg Reg.sysClkstat (wordOf (s.fld Reg.sysClkstat 0 2))
      let s : State := { s with phase := .poweringDown t, hp := .init, tap := .reset, memp := { s.memp with frozen := false } }
      .next (if s.tag.field then s else s.tagPowerLost)
  | _ => .next s

/-- POWER_DOWN_COMPLETE (R107): the state is entered; a latched wake takes place at once. -/
def execPowerDownComplete (s : State) : Host.Outcome State Fault Refusal :=
  match s.phase with
  | .poweringDown t => .next ({ s with phase := if t = .doze then .doze else .dormant } : State).takeWake
  | _ => .next s

/-- WAKE_N (R105): the land has been low for `low.us` microseconds, and is low still when `low.held`; 10 act, and of a low that has ended between
2 and 10 it is not known whether it did. -/
def execWakeN (low : WakeLow) (s : State) : Host.Outcome State Fault Refusal :=
  let s : State := { s with lands := { s.lands with wakeLow := if low.held then some (min low.us 10) else none } }
  if low.us < 2 ∨ (low.held ∧ low.us < 10) then .next s
  else if low.us < 10 then (let (b, s) := s.drawBool; .next (if b then s.wake 0 else s))
  else .next (s.wake 0)

/-- TIMER (R105): the wake timer expires. -/
def execTimer (s : State) : Host.Outcome State Fault Refusal := .next (s.wake 1)

/-- HOST (R105): HCS_N is asserted. -/
def execHost (s : State) : Host.Outcome State Fault Refusal := .next (s.wake 4)

/-- VIN_RETURN (R53, R109): VIN is in range again; a latched wake starts the core with VIN_LATE set. -/
def execVinReturn (s : State) : Host.Outcome State Fault Refusal :=
  let s : State := { s with lands := { s.lands with vin := true } }
  match s.phase with
  | .doze => .next (if s.wakes.isEmpty then s else s.leaveSleep true)
  | .dormant => .next (if s.wakes.isEmpty then s else s.leaveSleep true)
  | _ => .next s

end Sys2Proof.Machine
end

