-- ==== Sys2Proof/Machine/Reception.lean ====
section
/-! DEFINITION. The commands of the receive path: correlators, reply windows, receptions, decoders and the CRC and alive unit
(09_receive_chains_and_loom.md R187 to R190, 10_legacy_air_interface.md R206, 15_crc_and_alive_unit.md R320, R321). -/
namespace Sys2Proof.Machine

/-- PRIMARY_LOCK (R187): in an open reply window with no reception in progress, a peak at or above the protocol's threshold. -/
def execPrimaryLock (beam : Fin 16) (power : Int) (s : State) : Host.Outcome State Fault Refusal :=
  let m := beam.val
  match s.beam? m, s.roundOfBeam m with
  | some b, some r =>
    .next (if b.window && b.rec_.isNone && b.next.isNone && decide (s.thrOf r ≤ power) then s.startReception m power false else s)
  | _, _ => .next s

/-- A secondary peak at the capture level of the reception in progress (R187, R189): power against its P_ref and margin, all in 0.5 dB. -/
def State.captures (s : State) (r : Round) (p : Reception) (power : Int) : Bool :=
  decide (s.thrOf r ≤ power) && decide (p.pref + (p.margin : Int) ≤ power)

/-- A peak at the capture level meets a reception in progress (R189, R190), which is abandoned with what it has brought; its training symbols
have moved the weights (R184). -/
def State.capturePeak (s : State) (m : Nat) (r : Round) (b : Beam) (power : Int) (sig : RxSignal) (lastSymbol : Bool) : State :=
  if lastSymbol then
    let k := s.lockAt power
    let s := s.updBeam m (fun b => { b with ending := true, next := if b.window then some k else none, last := if b.window then k else b.last })
    if b.window then
      let s := s.loomCount m 0
      if s.fld (Reg.loomBeam m) 28 3 = 2 then s.umaCount m 0 else s
    else s
  else if b.secOff then s
  else if 4 ≤ b.captures then (s.loomCount m 5).updBeam m (fun b => { b with secOff := true })
  else
    let x := s.report r b (s.weightsAfter r b sig) sig
    (((s.adaptWeights r b sig).loomCount m (if x.header then 3 else 2)).updBeam m (fun b => { b with captures := b.captures + 1 })).startReception m power true

/-- CAPTURE (R187, R189): a secondary peak while a reception is in progress; below the capture level it changes nothing. -/
def execCapture (beam : Fin 16) (power : Int) (rx : RxSignal) (lastSymbol : Bool) (s : State) : Host.Outcome State Fault Refusal :=
  let m := beam.val
  match s.beam? m, s.roundOfBeam m with
  | some b, some r =>
    (match b.rec_ with
     | none => .next s
     | some p => .next (if !b.ending && s.captures r p power then s.capturePeak m r b power rx lastSymbol else s))
  | _, _ => .next s

/-- A round listens: its engine expects a reply under a steady carrier, or it is a peer round (R206, R251, R269). -/
def State.listens (s : State) (r : Round) : Bool :=
  r.kind.peer || (r.expectsReply && (match r.txc with | some n => s.ramp n == 2 | none => false))

/-- The beams that may lock: those in use; of a split Umaolo geometry the first alone outside poll slots, the second engine being idle (R261). -/
def State.hearBeams (s : State) (r : Round) : List Nat :=
  if eSplit r.words && r.uma.any (fun u => u.phase != .poll) then (s.liveBeams r).take 1 else s.liveBeams r

/-- REPLY_WINDOW_OPEN (R206, R251): the beams in use may lock. -/
def execReplyWindowOpen (w : Fin 4) (s : State) : Host.Outcome State Fault Refusal :=
  match s.roundOn w with
  | none => .next s
  | some r =>
    .next (if s.listens r then (s.hearBeams r).foldl (fun (s : State) m => s.updBeam m (fun b => { b with window := true, captures := 0, secOff := false })) (s.airOver r)
           else s)

/-- REPLY_WINDOW_CLOSE (R189, R206): what is being received runs to its end; with nothing received the slot or step is over. -/
def execReplyWindowClose (w : Fin 4) (s : State) : Host.Outcome State Fault Refusal :=
  match s.roundOn w with
  | none => .next s
  | some r =>
    let open_ := (s.liveBeams r).isEmpty || (s.liveBeamList r).any (fun e => e.2.window)
    let heard := (s.liveBeamList r).any (fun e => e.2.locked)
    let s := s.closeWindows r
    .next (if !open_ || heard || !r.expectsReply || r.awaitsDelayed || !s.roundQuiet r then s
           else if r.leg.isSome then s.legOver w else s.umaEmpty w)

/-- RECEPTION_END (R188, R190). -/
def execReceptionEnd (beam : Fin 16) (rx : RxSignal) (s : State) : Host.Outcome State Fault Refusal := .next (s.endReception beam.val rx)

/-- DECODER_RELEASE (R31, R320); `ties` as in RxReport. -/
def execDecoderRelease (beam : Fin 16) (ties : List Nat) (s : State) : Host.Outcome State Fault Refusal := .next (s.releaseFrame beam.val ties)

/-- CRC_ALIVE_CHECK (R320, R321). -/
def execCrcAliveCheck (s : State) : Host.Outcome State Fault Refusal := .next s.checkFrame

/-- The last symbol of the own slot's frames, or of an ACK, is on air (R269): the carrier ramps down. -/
def State.peerAirOver (s : State) (r : Round) : State :=
  match r.txc with | some n => if s.ramp n = 2 then s.rampDown n false .off else s | none => s

/-- LAST_BIT_ON_AIR (R217, R267): the commit points that lie at the end of a command. -/
def execLastBitOnAir (w : Fin 4) (s : State) : Host.Outcome State Fault Refusal :=
  match s.roundOn w with
  | none => .next s
  | some r =>
    if r.kind == RoundKind.peerWin then .next (s.peerAirOver r)
    else
    let s := s.airOver r
    .next (match r.uma with
      | some u => if u.phase = .wrWait ∧ r.txn = some false then s.commitTxn w true else s
      | none => s.legLastBit w)

end Sys2Proof.Machine
end

