-- ==== Sys2Proof/Machine/Registers.lean ====
section
/-! DEFINITION. Commands that are one host write or read of a register or table word (07_register_access.md and the register tables). -/
namespace Sys2Proof.Machine

/-- REGISTER_WRITE (R135): one word, performed under its access code; beyond a bank or unmapped it is ignored and sets ADDR_OVER. -/
def execRegisterWrite (addr : BitVec 24) (value : Word) (s : State) : Host.Outcome State Fault Refusal :=
  let a := alignWord addr.toNat
  .next (s.hostWrite a [value] (fun s => if s.addrClass a = .beyond then s.hpFlag fAddrOver else s.performWrite a value))

/-- MULTI_WORD_LOW_READ (R138). -/
def execMultiWordLowRead (addr : BitVec 24) (s : State) : Host.Outcome State Fault Refusal := .next (s.hostRead (alignWord addr.toNat))

/-- HP_IGNORED_READ (R13). -/
def execHpIgnoredRead (s : State) : Host.Outcome State Fault Refusal := .next (s.hostRead Reg.hpIgnored)

/-- PORT_LAST_FAULT_READ (R13). -/
def execPortLastFaultRead (s : State) : Host.Outcome State Fault Refusal := .next (s.hostRead Reg.portLastFault)

/-- FIFO_STAT_READ (R13). -/
def execFifoStatRead (s : State) : Host.Outcome State Fault Refusal := .next (s.hostRead Reg.fifoStat)

/-- TAG_FIELD_LAST_READ (R345). -/
def execTagFieldLastRead (s : State) : Host.Outcome State Fault Refusal := .next (s.hostRead Reg.tagFieldLast)

/-- TIME_BASE_WRITE (R277): the write takes effect. The spec names no register for it (DEDUCED, log entry 39). -/
def execTimeBaseWrite (value : BitVec 64) (s : State) : Host.Outcome State Fault Refusal :=
  let t := s.wake 4
  .next (if s.hp.frame.isSome then s else if t.hostUp && !t.wrPend then { t.cnt Reg.hpFrames with timeBase := value } else t)

/-- CLK_REFCTRL_WRITE (R74). -/
def execClkRefctrlWrite (src : Bool) (s : State) : Host.Outcome State Fault Refusal :=
  .next (s.hostWrite Reg.clkRefctrl [(cond src 1 0)] (fun s => s.performWrite Reg.clkRefctrl (cond src 1 0)))

/-- LEG_LINK_COMMIT (R201): both words of profile `k`. -/
def execLegLinkCommit (k : Fin 8) (a b : Word) (s : State) : Host.Outcome State Fault Refusal :=
  .next (s.hostWrite (Reg.legLinkA k) [a, b] (fun s => s.performWrites [(Reg.legLinkA k, a), (Reg.legLinkB k, b)]))

/-- UMA_LINK_WRITE (R226). -/
def execUmaLinkWrite (k : Fin 8) (value : Word) (s : State) : Host.Outcome State Fault Refusal :=
  .next (s.hostWrite (Reg.umaLink k) [value] (fun s => s.performWrite (Reg.umaLink k) value))

/-- CRC_START (R323). -/
def execCrcStart (preset : Fin 8) (s : State) : Host.Outcome State Fault Refusal :=
  .next (s.hostWrite Reg.crcHctrl [(wordOf (2 ^ 31 + preset))] (fun s => s.performWrite Reg.crcHctrl (wordOf (2 ^ 31 + preset))))

/-- CRC_HWIN_WRITE (R323). -/
def execCrcHwinWrite (k : Fin 256) (value : Word) (s : State) : Host.Outcome State Fault Refusal :=
  .next (s.hostWrite (Reg.crcHwin k) [value] (fun s => s.performWrite (Reg.crcHwin k) value))

/-- CRC_HBITS_WRITE (R323). -/
def execCrcHbitsWrite (value : Word) (s : State) : Host.Outcome State Fault Refusal :=
  .next (s.hostWrite Reg.crcHbits [value] (fun s => s.performWrite Reg.crcHbits value))

/-- CRC_PRESET_COMMIT (R318): the four words of preset `k`. -/
def execCrcPresetCommit (k : Fin 8) (cfg poly init xor : Word) (s : State) : Host.Outcome State Fault Refusal :=
  let a := 0x3C000 + 16 * k.val
  .next (s.hostWrite a [cfg, poly, init, xor] (fun s => s.performWrites [(a, cfg), (a + 4, poly), (a + 8, init), (a + 12, xor)]))

/-- PING_THR_WRITE (R352). -/
def execPingThrWrite (value : Word) (s : State) : Host.Outcome State Fault Refusal :=
  .next (s.hostWrite Reg.pingThr [value] (fun s => s.performWrite Reg.pingThr value))

/-- MGMT_LOG_SEL_WRITE (R417). -/
def execMgmtLogSelWrite (seq : Word) (s : State) : Host.Outcome State Fault Refusal :=
  .next (s.hostWrite Reg.mgmtLogSel [seq] (fun s => s.performWrite Reg.mgmtLogSel seq))

/-- UPD_UTC_WRITE (R432): the three words. -/
def execUpdUtcWrite (u0 u1 u2 : Word) (s : State) : Host.Outcome State Fault Refusal :=
  .next (s.hostWrite (Reg.updUtc 0) [u0, u1, u2] (fun s => s.performWrites [(Reg.updUtc 0, u0), (Reg.updUtc 1, u1), (Reg.updUtc 2, u2)]))

/-- MGMT_CFG_STANDBY_WRITE (R406): the rest of MGMT_CFG as it is. -/
def execMgmtCfgStandbyWrite (on : Bool) (s : State) : Host.Outcome State Fault Refusal :=
  .next (s.hostWrite Reg.mgmtCfg [(setBitN (s.reg Reg.mgmtCfg) 0 on)] (fun s => s.performWrite Reg.mgmtCfg (setBitN (s.reg Reg.mgmtCfg) 0 on)))

/-- WIRE_CRUMB_WRITE (R334, R340): the words of a crumb in one frame. -/
def execWireCrumbWrite (crumb : Fin 128) (words : List Word) (s : State) : Host.Outcome State Fault Refusal :=
  let lo := 0x480000 + 64 * crumb.val
  let ws := (List.range (min 16 words.length)).map (fun m => (lo + 4 * m, words.getD m 0))
  .next (s.hostWrite lo (words.take 16) (fun s => s.postWire ws))

end Sys2Proof.Machine
end

