-- ==== Sys2Proof/Machine/Sched.lean ====
section
/-! DEFINITION. The commands of the round scheduler (13_rounds_and_seen_table.md R279 to R299). -/
namespace Sys2Proof.Machine

/-- The last due round of an entry has not started or is still in flight (R280). -/
def State.dueBusy (s : State) (e : Nat) : Bool :=
  s.cands.any (fun c => !c.kind.internal && c.due && c.entry == e) ||
  s.rounds.any (fun r => !r.kind.internal && r.entry == e && decide (2 ^ 23 ≤ r.seq))

/-- The time base, counted in ms, equals PHASE modulo PERIOD (R280). -/
def State.atDue (s : State) (w : List Word) : Bool := s.now / 1000 % ePeriod w == ew w 4 16 16 % ePeriod w

/-- ENTRY_DUE (R280): an entry that repeats falls due, at an instant that its PHASE and PERIOD name on the time base, while RUN is set; once in each
such millisecond, so that a step of the time base (R274) adds or removes no more than the instant it repeats or skips. An instant that meets its
last due round is missed and counted. -/
def execEntryDue (entry : BitVec 8) (s : State) : Host.Outcome State Fault Refusal :=
  let e := entry.toNat
  let w := s.entryWords e
  if !s.coreOn || !s.bit Reg.schedCtrl 0 || ew w 0 31 1 == 0 || ePeriod w == 0 || !s.atDue w ||
      sget (fun _ => 0) s.dueAt e == s.now / 1000 + 1 then .next s
  else
  let s : State := { s with dueAt := sput (fun _ => 0) s.dueAt e (s.now / 1000 + 1) }
  if s.dueBusy e then .next (s.cnt (Reg.schedCnt 2))
  else .next { s with cands := s.cands ++ [{ kind := kindOf w, seq := 0, entry := e, warp := eWarp w, due := true, points := [] }] }

/-- ROUND_START (R24, R279, R281): the first candidate of a warp. -/
def execRoundStart (w : Fin 4) (s : State) : Host.Outcome State Fault Refusal := .next (s.tryStart w)

/-- DURATION_EXPIRY (R282): no new transaction begins; calibration rounds and peer windows have no DURATION. -/
def execDurationExpiry (w : Fin 4) (s : State) : Host.Outcome State Fault Refusal :=
  match s.roundOn w with
  | none => .next s
  | some r => .next (if r.kind.internal then s else s.expireRound r)

/-- DISABLE_BOUND (R174, R288): a round that still drains at its bound is force-aborted with DISABLED. -/
def execDisableBound (w : Fin 4) (s : State) : Host.Outcome State Fault Refusal :=
  match s.roundOn w with
  | none => .next s
  | some r => .next (if r.draining then (s.updRound w (fun r => { r with draining := false })).stopRound { r with draining := false } .disabled false false else s)

/-- HOST_RUN_TIMEOUT (R450): a host-run round that has not started completes with TIMEOUT. -/
def execHostRunTimeout (seq : BitVec 24) (s : State) : Host.Outcome State Fault Refusal :=
  match (if s.coreOn then s.cands.find? (fun c => !c.due && c.seq == seq.toNat) else none) with
  | none => .next s
  | some c =>
    let w := s.entryWords c.entry
    .next (((s.dropCand c).cnt (Reg.schedCnt 2)).roundAtOnce { c with warp := eWarp w } w .timeout false)

/-- SHED_LEVEL_STEP (R299): every 10 ms the level follows the free space of the FIFO. -/
def execShedLevelStep (s : State) : Host.Outcome State Fault Refusal :=
  let th := s.fld Reg.schedLoad 0 8 * 1024
  let free := s.fifo.free
  if !s.coreOn then .next s
  else if free < th then .next { s with shed := max 1 (s.shed - 1) }
  else if th + 8 * 1024 ≤ free then .next { s with shed := min 16 (s.shed + 1) }
  else .next s

end Sys2Proof.Machine
end

