-- ==== Sys2Proof/Machine/Seen.lean ====
section
/-! DEFINITION. The background commands of the seen-tag table and the population store. -/
namespace Sys2Proof.Machine

/-- EVICT (R294): with fewer than 16 entries free the oldest evictable entry leaves. Like the fetches of the population store it needs the CORE clock
(R95). -/
def execEvict (s : State) : Host.Outcome State Fault Refusal :=
  .next (if s.coreOn && decide (4096 - s.seenUsed < 16) then s.evictOne else s)

/-- The merge of a fetch (R297): the entry takes the stored FIRST, the sum of the counts and the stronger signal; a stored counter that
would have classed the first reply otherwise sets ALIVE_LATE. -/
def State.merge (s : State) (i : Nat) : State :=
  match s.seenAt i with
  | none => s
  | some e =>
    match (s.popFind e.family e.id).bind s.popAt with
    | none => s.setSeen i (some { e with noHist := false })
    | some p =>
      let late := e.aliveTaken && p.aliveTaken && e.proto ≥ 2 && aliveClass p.alive e.firstAlive != 0
      let s := s.setSeen i (some { e with first := p.first, count := satN 16 (e.count + p.count), best := min e.best p.best,
                                          noHist := false, aliveLate := e.aliveLate || late, coal := false })
      if late then s.cnt (Reg.seenCnt 8) else s

/-- POPULATION_FETCH_RETURN (R297): the pending fetch whose bucket was read first comes back. -/
def execPopulationFetchReturn (s : State) : Host.Outcome State Fault Refusal :=
  match s.memp.arrived, s.coreOn with
  | i :: _, true => .next (s.endFetch i |>.merge i)
  | _, _ => .next s

/-- POPULATION_FETCH_TIMEOUT (R296): a fetch not answered within 5 ms is abandoned once; the entry continues as a new tag. -/
def execPopulationFetchTimeout (s : State) : Host.Outcome State Fault Refusal :=
  match s.fetches, s.coreOn with
  | i :: _, true => .next (((s.endFetch i).cnt (Reg.seenCnt 5)).updSeen i (fun e => { e with noHist := false }))
  | _, _ => .next s

end Sys2Proof.Machine
end

