-- ==== Sys2Proof/Machine/TagFn.lean ====
section
/-! DEFINITION. Commands that reach the tag function from a field, and the ends of its writes (16_tag_function.md). -/
namespace Sys2Proof.Machine

/-- FIELD_SELECT (R332). A Select that is not valid is no command. -/
def execFieldSelect (fe : FrontEnd) (a : SelectArgs) (s : State) : Host.Outcome State Fault Refusal :=
  .next (if selectValid a then s.fieldCmd fe true .other (fun _ s => s.tagSelect a) else s)

/-- FIELD_QUERY (R332). -/
def execFieldQuery (fe : FrontEnd) (a : QueryArgs) (s : State) : Host.Outcome State Fault Refusal :=
  .next (s.fieldCmd fe true .query (fun x s => s.tagQuery x a))

/-- FIELD_QUERYADJUST (R332). -/
def execFieldQueryadjust (fe : FrontEnd) (session : BitVec 2) (up : Int) (s : State) : Host.Outcome State Fault Refusal :=
  .next (s.fieldCmd fe false .other (fun x s => s.tagAdjust x session.toNat up))

/-- FIELD_QUERYREP (R332). -/
def execFieldQueryrep (fe : FrontEnd) (session : BitVec 2) (s : State) : Host.Outcome State Fault Refusal :=
  .next (s.fieldCmd fe false .other (fun x s => s.tagRep x session.toNat))

/-- FIELD_ACK (R332): the identity is backscattered. -/
def execFieldAck (fe : FrontEnd) (rn : BitVec 16) (s : State) : Host.Outcome State Fault Refusal :=
  .next (s.fieldCmd fe false .other (fun x s => s.tagAck x rn.toNat))

/-- FIELD_NAK (R332). -/
def execFieldNak (fe : FrontEnd) (s : State) : Host.Outcome State Fault Refusal :=
  .next (s.fieldCmd fe false .other (fun x s => s.tagNak x))

/-- FIELD_REQ_RN (R332). -/
def execFieldReqRn (fe : FrontEnd) (rn : BitVec 16) (s : State) : Host.Outcome State Fault Refusal :=
  .next (s.fieldCmd fe false .keep (fun x s => s.tagReqRn x rn.toNat))

/-- FIELD_READ (R340). -/
def execFieldRead (fe : FrontEnd) (bank : BitVec 2) (ptr count : Nat) (rn : BitVec 16) (ecc : EccResult) (s : State) :
    Host.Outcome State Fault Refusal :=
  .next (s.fieldCmd fe false .other (fun x s => s.accessCmd x rn.toNat (fun s => s.tagRead x bank.toNat ptr count ecc)))

/-- FIELD_WRITE (R337); `data` as it is sent, covered. -/
def execFieldWrite (fe : FrontEnd) (bank : BitVec 2) (ptr : Nat) (data : BitVec 16) (rn : BitVec 16) (energy : Bool) (s : State) :
    Host.Outcome State Fault Refusal :=
  .next (s.fieldCmd fe false .other (fun x s => s.accessCmd x rn.toNat (fun s =>
    s.covered x data.toNat (fun d s => s.tagWrite x bank.toNat ptr [d] energy))))

/-- FIELD_BLOCKWRITE (R332, R337): 1 to 16 words; any other count is not supported and ignored (log entry 17). -/
def execFieldBlockwrite (fe : FrontEnd) (bank : BitVec 2) (ptr : Nat) (data : List (BitVec 16)) (rn : BitVec 16) (energy : Bool) (s : State) :
    Host.Outcome State Fault Refusal :=
  .next (if data.length = 0 ∨ data.length > 16 then s.fieldIgnored fe
         else s.fieldCmd fe false .other (fun x s => s.accessCmd x rn.toNat
           (fun s => s.tagWrite x bank.toNat ptr (data.map BitVec.toNat) energy)))

/-- FIELD_LOCK (R342). -/
def execFieldLock (fe : FrontEnd) (payload : BitVec 20) (rn : BitVec 16) (s : State) : Host.Outcome State Fault Refusal :=
  .next (s.fieldCmd fe false .other (fun x s => s.accessCmd x rn.toNat (fun s => s.tagLock x payload.toNat)))

/-- FIELD_ACCESS (R343, R344); `half` as it is sent, covered. During a lockout, and while the password is locked, it is ignored. -/
def execFieldAccess (fe : FrontEnd) (half : BitVec 16) (rn : BitVec 16) (s : State) : Host.Outcome State Fault Refusal :=
  .next (if s.tag.locked || s.tag.lockout.isSome then s.fieldIgnored fe
         else s.fieldCmd fe false .keep (fun x s => s.accessCmd x rn.toNat (fun s =>
           s.covered x half.toNat (fun h s => s.tagAccess x h))))

/-- FIELD_KILL (R332): ignored, with no reply. -/
def execFieldKill (fe : FrontEnd) (s : State) : Host.Outcome State Fault Refusal := .next (s.fieldIgnored fe)

/-- FIELD_BLOCKERASE (R332): ignored, with no reply. -/
def execFieldBlockerase (fe : FrontEnd) (s : State) : Host.Outcome State Fault Refusal := .next (s.fieldIgnored fe)

/-- FIELD_BLOCKPERMALOCK (R332): ignored, with no reply. -/
def execFieldBlockpermalock (fe : FrontEnd) (s : State) : Host.Outcome State Fault Refusal := .next (s.fieldIgnored fe)

/-- FIELD_UNTRACEABLE (R332): ignored, with no reply. -/
def execFieldUntraceable (fe : FrontEnd) (s : State) : Host.Outcome State Fault Refusal := .next (s.fieldIgnored fe)

/-- FIELD_AUTHENTICATE (R332): ignored, with no reply. -/
def execFieldAuthenticate (fe : FrontEnd) (s : State) : Host.Outcome State Fault Refusal := .next (s.fieldIgnored fe)

/-- FIELD_SESSION_TIMEOUT (R329): no valid command for 100 ms. -/
def execFieldSessionTimeout (s : State) : Host.Outcome State Fault Refusal :=
  .next (if s.tag.session.isSome then s.endSession else s)

/-- FIELD_LOSS (R329): the session's front end has lost its field or a condition of R328; with no ANT session it is the field at COMM that is
lost. The tag function is then unpowered where VIN does not supply it. -/
def execFieldLoss (s : State) : Host.Outcome State Fault Refusal :=
  .next (
    if s.antSession then s.endSession
    else
      let s : State := { s with tag := { s.tag with field := false } }
      if s.tagFromVin then s.endSession else s.tagPowerLost)

/-- CRUMB_WRITE_END (R337): the next waiting crumb write starts, and what the host had waiting goes on (R340). -/
def execCrumbWriteEnd (verified : Bool) (s : State) : Host.Outcome State Fault Refusal :=
  .next (if s.tag.job.isNone then s else (s.endCrumb verified).nextCrumb.resumeWire.resumeFrame)

/-- GUARD_WRITE_END (R343). -/
def execGuardWriteEnd (s : State) : Host.Outcome State Fault Refusal := .next { s with tag := { s.tag with guardBusy := false } }

/-- LOCKOUT_EXPIRY (R344). -/
def execLockoutExpiry (s : State) : Host.Outcome State Fault Refusal := .next { s with tag := { s.tag with lockout := none } }

/-- ECC_REWRITE (R338): while VIN is present, and supplies the tag function, a crumb with a corrected read that no command owns is rewritten with
its own content. -/
def execEccRewrite (crumb : Fin 128) (s : State) : Host.Outcome State Fault Refusal :=
  .next (if s.tagFromVin && s.tag.fix.contains crumb.val && !s.crumbOwned crumb && !s.crumbOos crumb then
           s.requestCrumb { crumb := crumb, patch := [], who := .ecc, failed := false, reply := false }
         else s)

end Sys2Proof.Machine
end

