-- ==== Sys2Proof/Machine/Takeover.lean ====
section
/-! DEFINITION. The end of a takeover (20_management_and_service.md R409). -/
namespace Sys2Proof.Machine

/-- TAKEOVER_COMPLETE (R409 steps 2 and 3): the standby runs, and runs again from its start a proof or calibration round that was in progress.
One that holds the armed image takes the fallback path with it (R442) (DEDUCED, log entry 41). The commands of R407 issued meanwhile are served. -/
def execTakeoverComplete (s : State) : Host.Outcome State Fault Refusal :=
  match (if s.mgmtOn then s.mgmt.takeover else none) with
  | none => .next s
  | some h =>
    let s := (s.setHalf h 4 0).setBit Reg.mgmtStat 31 h
    let s : State := { s with mgmt := { s.mgmt with running := some h, takeover := none, takeoverDiag := true } }
    let s := (s.cnt (Reg.mgmtCnt 0)).raise 8
    let s := s.logEvent 0x0D 1 (wordOf (cond h 1 0))
    let s := match s.upd.proof with | some k => s.startProof k s.upd.fromStaging | none => s
    let s : State := s.rounds.foldl (fun (s : State) r => if r.kind == RoundKind.cal then s.askCal r.warp r.owed else s) s
    let s := if s.updState = 3 then (s.setBit Reg.updStat 22 true).fallbackPassed else s
    .next (s.cmds.foldl (fun (s : State) c => if c.kind.byHalf then s.serve c.kind c.seq else s) s)

end Sys2Proof.Machine
end

