-- ==== Sys2Proof/Machine/Tally.lean ====
section
/-! DEFINITION. The tally feed, the tally die's own steps and the publish link (18_tally_core.md). -/
namespace Sys2Proof.Machine

/-- FEED_ITEM_SEND (R33, R366, R368): window requests leave ahead of sighting items; the item carries the drops since the last one. -/
def execFeedItemSend (s : State) : Host.Outcome State Fault Refusal :=
  let drop := BitVec.ofNat 8 (satN 8 s.tal.dropped)
  let send := fun (s : State) (l : List Byte) => ({ s with tal := { s.tal with wire := some (feedBytes l), dropped := 0 } } : State).cnt (Reg.talCnt 1)
  .next (if !s.board.tally || !s.coreOn then s
         else match s.tal.reqs, s.tal.queue with
           | (b, a) :: r, _ =>
             send { s with tal := { s.tal with reqs := r } } ([0x20, drop] ++ beBytes 2 b ++ [0, 0] ++ beBytes 4 a.toNat ++ List.replicate 4 0)
           | [], q :: r =>
             send { s with tal := { s.tal with queue := r } }
               ([0x10, drop] ++ beBytes 2 (q.family * 16384 + q.zone) ++ beBytes 1 q.qual ++ beBytes 1 q.rssi ++ beBytes 8 q.id)
           | [], [] => s)

/-- The item that was on the feed link has arrived or is lost. -/
def State.feedTaken (s : State) : State := { s with tal := { s.tal with wire := none } }

/-- SIGHTING_ITEM (R370): a well-formed sighting item arrives. -/
def execSightingItem (item : List Byte) (s : State) : Host.Outcome State Fault Refusal :=
  .next (if s.coreOn && itemKind item == some true then s.feedTaken.onDie (fun d => d.hear (fun d => d.sightItem item)) else s)

/-- WINDOW_REQUEST (R377): a well-formed window request arrives. -/
def execWindowRequest (item : List Byte) (s : State) : Host.Outcome State Fault Refusal :=
  .next (if s.coreOn && itemKind item == some false then s.feedTaken.onDie (fun d => d.hear (fun d => d.requestItem item)) else s)

/-- FEED_ITEM_DISCARDED (R367): an item that is neither is counted and is no item for the gap rule. -/
def execFeedItemDiscarded (item : List Byte) (s : State) : Host.Outcome State Fault Refusal :=
  .next (if itemKind item = none then s.feedTaken.onDie (fun d => d.hear (fun d => { d with feedBad := d.feedBad + 1 })) else s)

/-- TT_TICK (R371): the tests of the tick that ends are complete, and TT advances by 0.1 s; with the crystal stopped it stands still (R383)
(DEDUCED, log entry 21). -/
def execTtTick (s : State) : Host.Outcome State Fault Refusal :=
  .next (s.onDie (fun d => if d.xtal then { d.tests with tt := (d.tt + 1) % 2 ^ 40 } else d))

/-- ENTRY_WIN_EXPIRY (R371). -/
def execEntryWinExpiry (i : BitVec 12) (s : State) : Host.Outcome State Fault Refusal :=
  .next (s.onDie (fun d => if d.xtal then d.testEntryWin i.toNat else d))

/-- EXIT_SIL_EXPIRY (R371). -/
def execExitSilExpiry (i : BitVec 12) (s : State) : Host.Outcome State Fault Refusal :=
  .next (s.onDie (fun d => if d.xtal then d.testExitSil i.toNat else d))

/-- MAX_DWELL_EXPIRY (R371). -/
def execMaxDwellExpiry (i : BitVec 12) (s : State) : Host.Outcome State Fault Refusal :=
  .next (s.onDie (fun d => if d.xtal then d.testMaxDwell i.toNat else d))

/-- FEED_GAP_EXPIRY (R372). -/
def execFeedGapExpiry (s : State) : Host.Outcome State Fault Refusal :=
  .next (s.onDie (fun d => if d.xtal then d.testFeedGap else d))

/-- GAP_MAX_EXPIRY (R372). -/
def execGapMaxExpiry (s : State) : Host.Outcome State Fault Refusal :=
  .next (s.onDie (fun d => if d.xtal then d.testGapMax else d))

/-- TEMPERATURE_COMPENSATION (R363): crystal cycles added or removed. -/
def execTemperatureCompensation (adj : Int) (s : State) : Host.Outcome State Fault Refusal :=
  .next (s.onDie (fun d => { d with comp := d.comp + adj }))

/-- TT_SAVE (R382). -/
def execTtSave (s : State) : Host.Outcome State Fault Refusal := .next (s.onDie (fun d => { d with saved := d.tt }))

/-- VTAL_LOSS (R382). -/
def execVtalLoss (s : State) : Host.Outcome State Fault Refusal :=
  .next { s with lands := { s.lands with vtal := false }, die := if s.board.tally then s.die.stop else s.die }

/-- TALLY_DIE_START (R382): VTAL is in range and the die runs again. A die that restarts on an accepted image (R386) is up again, with nothing
else changed (log entry 20). On -N there is no die (R3). -/
def execTallyDieStart (s : State) : Host.Outcome State Fault Refusal :=
  .next (if s.board.tally && !s.die.running then
           { s with lands := { s.lands with vtal := true }, die := TalDie.announce s.die s.die.start }
         else if s.board.tally && s.die.restart then { s with die := { s.die with restart := false } }
         else s)

/-- XTAL_FAIL (R383). -/
def execXtalFail (s : State) : Host.Outcome State Fault Refusal := .next (s.onDie (fun d => if d.xtal then d.loseXtal else d))

/-- XTAL_RECOVERY (R383). -/
def execXtalRecovery (s : State) : Host.Outcome State Fault Refusal :=
  .next (s.onDie (fun d => if d.xtal then d else { d.setHealth hXtalFail false with xtal := true, breaks := d.breaks + 1 }))

/-- SEAL_MODE_ENTRY (R385): SEAL_N has been low for 2 s. -/
def execSealModeEntry (s : State) : Host.Outcome State Fault Refusal :=
  .next (({ s with lands := { s.lands with sealN := false } } : State).onDie (fun d => { d with sealMode := true }))

/-- SEAL_IMAGE (R385, R386): in seal mode an image is received; what lacks the magic is none. -/
def execSealImage (image : TallyImage) (s : State) : Host.Outcome State Fault Refusal :=
  .next (s.onDie (fun d => if d.sealMode && talMagic image then { d with image := some image } else d))

/-- SEAL_EXIT (R386): SEAL_N has been high for 2 s. -/
def execSealExit (s : State) : Host.Outcome State Fault Refusal :=
  .next (({ s with lands := { s.lands with sealN := true } } : State).onDie (fun d => if d.sealMode then d.leaveSeal else d))

/-- ATTESTATION_DONE (R376, R379): the chain head is signed; the signature is free (log entry 1). -/
def execAttestationDone (s : State) : Host.Outcome State Fault Refusal :=
  if !(s.board.tally && s.die.running && s.die.attest) then .next s
  else
    let (sig, s) := State.drawWords 16 s
    let d := s.die
    let ws := [wordOf (d.next - 1)] ++ wordsOfBytes d.chain ++ [wordOf d.tt, wordOf (d.tt / 2 ^ 32 % 256), wordOf d.audit] ++ sig ++
              List.replicate 4 0
    .next { s with die := { d with attest := false, pub := d.pub ++ [{ seq := 0, block := some (3, 0), note := none, words := ws, nwords := [] }] } }

/-- PUBLISH (R377): the first frame due goes on the link with the next sequence number, the block as it is now, and in a HEALTH note its status
words (R379, R380). -/
def execPublish (s : State) : Host.Outcome State Fault Refusal :=
  .next (if !(s.board.tally && s.die.running) then s
         else
           let d := s.die
           match d.pub with
           | [] => s
           | f :: r =>
             let ws := match f.block with | some (c, a) => if c = 3 then f.words else d.blockWords c a | none => []
             let ns := if f.note = some 2 then d.statusWords.take 6 else f.nwords
             { s with die := { d with pub := r, pubSeq := (d.pubSeq + 1) % 256, air := d.air ++ [{ f with seq := d.pubSeq, words := ws, nwords := ns }] } })

/-- PUBLISH_FRAME (R377, R378): a frame reaches the main die, if its core runs; one whose CRC fails is discarded and counted. -/
def execPublishFrame (crcOk : Bool) (s : State) : Host.Outcome State Fault Refusal :=
  .next (match s.die.air with
    | [] => s
    | f :: r =>
      let s : State := { s with die := { s.die with air := r } }
      if !s.coreOn then s else if crcOk then s.takePub f else s.cnt (Reg.talCnt 3))

/-- TALLINK_TIMEOUT (R377): no frame for 2 s. -/
def execTallinkTimeout (s : State) : Host.Outcome State Fault Refusal :=
  .next (s.setBit Reg.sysClkstat 7 false)

/-- STATUS_REQUEST_TIMER (R368): the running half asks for the status block. -/
def execStatusRequestTimer (s : State) : Host.Outcome State Fault Refusal :=
  .next (if s.ready rdTal && s.halfRuns && decide (s.tal.reqs.length < 4) then { s with tal := { s.tal with reqs := s.tal.reqs ++ [(0, 0)] } }
         else s)

/-- TAL_REQ_TIMEOUT (R381). -/
def execTalReqTimeout (s : State) : Host.Outcome State Fault Refusal :=
  .next (s.completeAll (fun c => match c.kind with | .talReq _ _ => true | _ => false) .timeout)

end Sys2Proof.Machine
end

