-- ==== Sys2Proof/Machine/Umaolo.lean ====
section
/-! DEFINITION. The commands of the Umaolo engine (12_umaolo_access_and_peer.md R257 to R267). -/
namespace Sys2Proof.Machine

/-- UMAOLO_SLOT_END (R246, R257, R260, R267): its frame has left the air, and the slot is over once nothing received is still under way. -/
def execUmaoloSlotEnd (w : Fin 4) (s : State) : Host.Outcome State Fault Refusal :=
  match s.roundOn w with
  | none => .next s
  | some r =>
    .next (if r.uma.isNone || r.phase != .running || r.txn.isNone || s.onAir r then s
           else
             let t := s.closeWindows r
             if t.roundQuiet r then t.umaOver w else s)

/-- WR_WAIT (R267): the read-back of a UWRITE goes out. -/
def execWrWait (w : Fin 4) (s : State) : Host.Outcome State Fault Refusal :=
  match s.roundOn w with
  | none => .next s
  | some r =>
    .next (match r.uma with
      | some u => if u.phase = .wrWait ∧ r.txn = some true ∧ r.phase = .running then s.umaOp w u.index true [] else s
      | none => s)

end Sys2Proof.Machine
end

