-- ==== Sys2Proof/Machine/Update.lean ====
section
/-! DEFINITION. The update path's own steps (21_drafts_profiles_updates.md). -/
namespace Sys2Proof.Machine

/-- LOAD_COMPLETE (R428): the block of the oldest LOAD has been programmed and read back on the flash, so that none of its entries is left. With `ok`
false its write has failed (R402). -/
def execLoadComplete (ok : Bool) (s : State) : Host.Outcome State Fault Refusal :=
  .next (match (if s.halfRuns then s.cmds.findSome? (fun c => match c.kind with | .updLoad k => some (c.seq, k) | _ => none) else none) with
    | none => s
    | some (n, c) =>
      if ok then (if s.memp.all.any (fun e => e.job == .stage n c) then s else s.complete n .ok)
      else if s.memp.frozen || !s.lands.vio then s
      else (s.dropBlock n c).complete n .crcFail)

/-- VERIFY_COMPLETE (R427, R429): what the running half found of the staged image is known, and the image is rejected, verified, or copied first. -/
def execVerifyComplete (facts : ImageFacts) (s : State) : Host.Outcome State Fault Refusal :=
  let i : CerrexImage := { bytes := s.stagedBytes, facts := facts }
  .next (
    if !s.halfRuns || !s.upd.busy || (s.updState ≠ 1 && s.updState ≠ 2) || s.upd.copying.isSome then s
    else if crxFormOk i.bytes && !imageFits i then s
    else
      let code := s.rejectCode i
      if code ≠ 0 then (s.rejected i code).completeAll (fun c => c.kind == .updVerify) .refused
      else if crxFirmware i then s.copyImage i
      else s.verifyPassed i)

/-- CONFIRM_COMPLETE (R438): every write and erase of the CONFIRM has ended; or, with `ok` false, one has failed, and the command ends with its status and
leaves the trial as it is (DEDUCED, log entry 42). -/
def execConfirmComplete (ok : Bool) (s : State) : Host.Outcome State Fault Refusal :=
  let left := s.memp.tasks.any (fun t => t.mustEnd || t.kind == .eraseStaging)
  .next (
    if !s.halfRuns || !s.upd.busy || s.updState ≠ 5 then s
    else if !ok then s.dropUpdate.completeAll (fun c => c.kind == .updConfirm) .crcFail
    else if left then s
    else s.confirmed.completeAll (fun c => c.kind == .updConfirm) .ok)

/-- SCHEDULED_SWITCH (R433, R435): at T_b, within 1 us, the time bounds of the rounds in flight expire and no round starts until the switch is made. -/
def execScheduledSwitch (s : State) : Host.Outcome State Fault Refusal :=
  .next (
    if !s.mgmtOn || s.updState ≠ 3 || !s.utcValid || s.updMoving || decide ((s.now : Int) < s.switchAt) ||
        decide (s.switchAt + 1 < s.now) then s
    else
      let s : State := { s with upd := { s.upd with switching := true } }
      let s := (s.setBit Reg.updStat 22 false).setBit Reg.updStat 23 false
      s.rounds.foldl (fun (s : State) r => match s.roundOn r.warp with | some r => s.expireRound r | none => s) s)

/-- SWITCH_OWNERSHIP (R435 to R439): after the last ramp-down the switch, or the revert, is made. -/
def execSwitchOwnership (s : State) : Host.Outcome State Fault Refusal :=
  .next (if s.coreOn && s.upd.switching && s.rounds.isEmpty && s.mgmt.running.isSome then s.switchOver else s)

/-- FALLBACK_PATH (R437): the bake time was missed; with COMPAT the switch is made by handover, else at once. -/
def execFallbackPath (s : State) : Host.Outcome State Fault Refusal :=
  .next (
    if !s.mgmtOn || s.updState ≠ 3 || !s.utcValid || s.updMoving || decide ((s.now : Int) ≤ s.switchAt) then s
    else
      let s := s.setBit Reg.updStat 23 true
      if s.bit Reg.updStat 21 then s.startFallback else (s.setBit Reg.updStat 22 false).switchAtOnce)

/-- TRIAL_TIMEOUT (R439): TRIAL_H hours have passed in TRIAL. -/
def execTrialTimeout (s : State) : Host.Outcome State Fault Refusal :=
  .next (if !s.mgmtOn || s.updState ≠ 5 || s.updMoving || s.upd.busy || s.fld Reg.updCfg 24 8 == 0 then s else s.startRevert)

end Sys2Proof.Machine
end

