-- ==== Sys2Proof/Machine/Dispatch.lean ====
section
/-! DEFINITION. One arm per command (spec/opcode_table.json): the one place that names what each command does. -/
namespace Sys2Proof.Machine

/-- The effect of a command on everything but the queue. -/
def exec (i : Instr) (s : State) : Host.Outcome State Fault Refusal :=
  match i with
  | .rdFrame addr reach => Sys2Proof.Machine.execRdFrame addr reach s
  | .wrFrame addr data tail reach => Sys2Proof.Machine.execWrFrame addr data tail reach s
  | .statFrame reach => Sys2Proof.Machine.execStatFrame reach s
  | .frdFrame reach => Sys2Proof.Machine.execFrdFrame reach s
  | .fdropFrame reach => Sys2Proof.Machine.execFdropFrame reach s
  | .abortFrame seq reach => Sys2Proof.Machine.execAbortFrame seq reach s
  | .waitFrame reach => Sys2Proof.Machine.execWaitFrame reach s
  | .identFrame reach => Sys2Proof.Machine.execIdentFrame reach s
  | .lrstFrame => Sys2Proof.Machine.execLrstFrame s
  | .unknownOpcodeFrame op => Sys2Proof.Machine.execUnknownOpcodeFrame op s
  | .earlyFrame op => Sys2Proof.Machine.execEarlyFrame op s
  | .selectRelease => Sys2Proof.Machine.execSelectRelease s
  | .hungAccessComplete => Sys2Proof.Machine.execHungAccessComplete s
  | .frdStallTimeout => Sys2Proof.Machine.execFrdStallTimeout s
  | .registerWrite addr value => Sys2Proof.Machine.execRegisterWrite addr value s
  | .multiWordLowRead addr => Sys2Proof.Machine.execMultiWordLowRead addr s
  | .hpIgnoredRead => Sys2Proof.Machine.execHpIgnoredRead s
  | .portLastFaultRead => Sys2Proof.Machine.execPortLastFaultRead s
  | .fifoStatRead => Sys2Proof.Machine.execFifoStatRead s
  | .tagFieldLastRead => Sys2Proof.Machine.execTagFieldLastRead s
  | .timeBaseWrite value => Sys2Proof.Machine.execTimeBaseWrite value s
  | .softReset => Sys2Proof.Machine.execSoftReset s
  | .proofCmd slot => Sys2Proof.Machine.execProofCmd slot s
  | .clkRefctrlWrite src => Sys2Proof.Machine.execClkRefctrlWrite src s
  | .txcOut n => Sys2Proof.Machine.execTxcOut n s
  | .txcReturn n => Sys2Proof.Machine.execTxcReturn n s
  | .portOut p => Sys2Proof.Machine.execPortOut p s
  | .portReturn p => Sys2Proof.Machine.execPortReturn p s
  | .rxcOut n => Sys2Proof.Machine.execRxcOut n s
  | .rxcReturn n => Sys2Proof.Machine.execRxcReturn n s
  | .legLinkCommit k a b => Sys2Proof.Machine.execLegLinkCommit k a b s
  | .umaLinkWrite k value => Sys2Proof.Machine.execUmaLinkWrite k value s
  | .schedRun entry => Sys2Proof.Machine.execSchedRun entry s
  | .schedRunClear => Sys2Proof.Machine.execSchedRunClear s
  | .warpEnClear w => Sys2Proof.Machine.execWarpEnClear w s
  | .find => Sys2Proof.Machine.execFind s
  | .clear => Sys2Proof.Machine.execClear s
  | .flush => Sys2Proof.Machine.execFlush s
  | .crcStart preset => Sys2Proof.Machine.execCrcStart preset s
  | .crcHwinWrite k value => Sys2Proof.Machine.execCrcHwinWrite k value s
  | .crcHbitsWrite value => Sys2Proof.Machine.execCrcHbitsWrite value s
  | .crcPresetCommit k cfg poly init xor => Sys2Proof.Machine.execCrcPresetCommit k cfg poly init xor s
  | .clearGuard => Sys2Proof.Machine.execClearGuard s
  | .unlock => Sys2Proof.Machine.execUnlock s
  | .remap crumb => Sys2Proof.Machine.execRemap crumb s
  | .crumbOut crumb => Sys2Proof.Machine.execCrumbOut crumb s
  | .crumbReturn crumb => Sys2Proof.Machine.execCrumbReturn crumb s
  | .wireCrumbWrite crumb words => Sys2Proof.Machine.execWireCrumbWrite crumb words s
  | .cal => Sys2Proof.Machine.execCal s
  | .pingThrWrite value => Sys2Proof.Machine.execPingThrWrite value s
  | .request block arg => Sys2Proof.Machine.execRequest block arg s
  | .mempOut dev => Sys2Proof.Machine.execMempOut dev s
  | .mempReturn dev => Sys2Proof.Machine.execMempReturn dev s
  | .mgmtOut half => Sys2Proof.Machine.execMgmtOut half s
  | .mgmtReturn half => Sys2Proof.Machine.execMgmtReturn half s
  | .dump => Sys2Proof.Machine.execDump s
  | .mgmtLogSelWrite seq => Sys2Proof.Machine.execMgmtLogSelWrite seq s
  | .decOut d => Sys2Proof.Machine.execDecOut d s
  | .decReturn d => Sys2Proof.Machine.execDecReturn d s
  | .peerTxCmd dst len => Sys2Proof.Machine.execPeerTxCmd dst len s
  | .load chunk => Sys2Proof.Machine.execLoad chunk s
  | .loadComplete ok => Sys2Proof.Machine.execLoadComplete ok s
  | .verify => Sys2Proof.Machine.execVerify s
  | .verifyComplete image => Sys2Proof.Machine.execVerifyComplete image s
  | .arm => Sys2Proof.Machine.execArm s
  | .switchNow => Sys2Proof.Machine.execSwitchNow s
  | .confirm => Sys2Proof.Machine.execConfirm s
  | .confirmComplete ok => Sys2Proof.Machine.execConfirmComplete ok s
  | .revert => Sys2Proof.Machine.execRevert s
  | .abandonUpdate => Sys2Proof.Machine.execAbandonUpdate s
  | .updUtcWrite u0 u1 u2 => Sys2Proof.Machine.execUpdUtcWrite u0 u1 u2 s
  | .quiesceEnd => Sys2Proof.Machine.execQuiesceEnd s
  | .quiesceAbort refuser => Sys2Proof.Machine.execQuiesceAbort refuser s
  | .quiesceTimeout => Sys2Proof.Machine.execQuiesceTimeout s
  | .tallyFeedPending => Sys2Proof.Machine.execTallyFeedPending s
  | .powerDown => Sys2Proof.Machine.execPowerDown s
  | .powerDownComplete => Sys2Proof.Machine.execPowerDownComplete s
  | .wakeN low => Sys2Proof.Machine.execWakeN low s
  | .timer => Sys2Proof.Machine.execTimer s
  | .host => Sys2Proof.Machine.execHost s
  | .vinReturn => Sys2Proof.Machine.execVinReturn s
  | .por => Sys2Proof.Machine.execPor s
  | .vaoBor => Sys2Proof.Machine.execVaoBor s
  | .vinBor => Sys2Proof.Machine.execVinBor s
  | .pin us => Sys2Proof.Machine.execPin us s
  | .rstNRise => Sys2Proof.Machine.execRstNRise s
  | .resetEffect => Sys2Proof.Machine.execResetEffect s
  | .resetRelease => Sys2Proof.Machine.execResetRelease s
  | .vioPowerOn mv => Sys2Proof.Machine.execVioPowerOn mv s
  | .vioLoss => Sys2Proof.Machine.execVioLoss s
  | .hpReady => Sys2Proof.Machine.execHpReady s
  | .mempDiscovery => Sys2Proof.Machine.execMempDiscovery s
  | .mgmtReady => Sys2Proof.Machine.execMgmtReady s
  | .crcEngineSelftest bad => Sys2Proof.Machine.execCrcEngineSelftest bad s
  | .tagfReady => Sys2Proof.Machine.execTagfReady s
  | .pingReady => Sys2Proof.Machine.execPingReady s
  | .proofPassed => Sys2Proof.Machine.execProofPassed s
  | .proofFailed => Sys2Proof.Machine.execProofFailed s
  | .poolReady pool => Sys2Proof.Machine.execPoolReady pool s
  | .txcCalEnd n pass => Sys2Proof.Machine.execTxcCalEnd n pass s
  | .rxcReady n pass => Sys2Proof.Machine.execRxcReady n pass s
  | .talReady => Sys2Proof.Machine.execTalReady s
  | .portFirstClassification obs => Sys2Proof.Machine.execPortFirstClassification obs s
  | .aoXtalSwitch => Sys2Proof.Machine.execAoXtalSwitch s
  | .aoXtalFail => Sys2Proof.Machine.execAoXtalFail s
  | .refinSignal swingP swingN antiphase => Sys2Proof.Machine.execRefinSignal swingP swingN antiphase s
  | .refinValid ferr => Sys2Proof.Machine.execRefinValid ferr s
  | .refinLost => Sys2Proof.Machine.execRefinLost s
  | .refSlewEnd => Sys2Proof.Machine.execRefSlewEnd s
  | .clkfail mgmt => Sys2Proof.Machine.execClkfail mgmt s
  | .bypass => Sys2Proof.Machine.execBypass s
  | .idcode => Sys2Proof.Machine.execIdcode s
  | .samplePreload => Sys2Proof.Machine.execSamplePreload s
  | .extest => Sys2Proof.Machine.execExtest s
  | .leaveExtest => Sys2Proof.Machine.execLeaveExtest s
  | .thermalWarning sensor temp => Sys2Proof.Machine.execThermalWarning sensor temp s
  | .paOvertemp n temp => Sys2Proof.Machine.execPaOvertemp n temp s
  | .dieOvertemp site temp => Sys2Proof.Machine.execDieOvertemp site temp s
  | .therm site temp => Sys2Proof.Machine.execTherm site temp s
  | .thermalFall sensor temp => Sys2Proof.Machine.execThermalFall sensor temp s
  | .portFault p obs => Sys2Proof.Machine.execPortFault p obs s
  | .portIntact p => Sys2Proof.Machine.execPortIntact p s
  | .lossOfLock n => Sys2Proof.Machine.execLossOfLock n s
  | .relockAttemptEnd n ok => Sys2Proof.Machine.execRelockAttemptEnd n ok s
  | .paFault n => Sys2Proof.Machine.execPaFault n s
  | .guardHop n => Sys2Proof.Machine.execGuardHop n s
  | .offTimeExpiry ch => Sys2Proof.Machine.execOffTimeExpiry ch s
  | .hopEpoch => Sys2Proof.Machine.execHopEpoch s
  | .rampDownEnd n => Sys2Proof.Machine.execRampDownEnd n s
  | .synthSettled n => Sys2Proof.Machine.execSynthSettled n s
  | .rampUpEnd n => Sys2Proof.Machine.execRampUpEnd n s
  | .calPointEnd w pass => Sys2Proof.Machine.execCalPointEnd w pass s
  | .calPeriod => Sys2Proof.Machine.execCalPeriod s
  | .diverge n => Sys2Proof.Machine.execDiverge n s
  | .cancSat n => Sys2Proof.Machine.execCancSat n s
  | .adcFail n => Sys2Proof.Machine.execAdcFail n s
  | .primaryLock beam power => Sys2Proof.Machine.execPrimaryLock beam power s
  | .capture beam power rx lastSymbol => Sys2Proof.Machine.execCapture beam power rx lastSymbol s
  | .replyWindowClose w => Sys2Proof.Machine.execReplyWindowClose w s
  | .receptionEnd beam rx => Sys2Proof.Machine.execReceptionEnd beam rx s
  | .decoderRelease beam ties => Sys2Proof.Machine.execDecoderRelease beam ties s
  | .crcAliveCheck => Sys2Proof.Machine.execCrcAliveCheck s
  | .legacySlotEnd w => Sys2Proof.Machine.execLegacySlotEnd w s
  | .identityReply w => Sys2Proof.Machine.execIdentityReply w s
  | .accessReply w => Sys2Proof.Machine.execAccessReply w s
  | .delayedReplyTimeout w => Sys2Proof.Machine.execDelayedReplyTimeout w s
  | .umaoloSlotEnd w => Sys2Proof.Machine.execUmaoloSlotEnd w s
  | .wrWait w => Sys2Proof.Machine.execWrWait w s
  | .peerWindowOpen => Sys2Proof.Machine.execPeerWindowOpen s
  | .peerSlot => Sys2Proof.Machine.execPeerSlot s
  | .peerReceivePeriod => Sys2Proof.Machine.execPeerReceivePeriod s
  | .peerReceivePeriodEnd => Sys2Proof.Machine.execPeerReceivePeriodEnd s
  | .data frame => Sys2Proof.Machine.execData frame s
  | .ack frame => Sys2Proof.Machine.execAck frame s
  | .ackTimeout => Sys2Proof.Machine.execAckTimeout s
  | .beacon frame => Sys2Proof.Machine.execBeacon frame s
  | .referenceLost => Sys2Proof.Machine.execReferenceLost s
  | .updOffer frame => Sys2Proof.Machine.execUpdOffer frame s
  | .updReq frame => Sys2Proof.Machine.execUpdReq frame s
  | .updChunk frame => Sys2Proof.Machine.execUpdChunk frame s
  | .peerFetchComplete => Sys2Proof.Machine.execPeerFetchComplete s
  | .entryDue entry => Sys2Proof.Machine.execEntryDue entry s
  | .roundStart w => Sys2Proof.Machine.execRoundStart w s
  | .durationExpiry w => Sys2Proof.Machine.execDurationExpiry w s
  | .disableBound w => Sys2Proof.Machine.execDisableBound w s
  | .hostRunTimeout seq => Sys2Proof.Machine.execHostRunTimeout seq s
  | .shedLevelStep => Sys2Proof.Machine.execShedLevelStep s
  | .evict => Sys2Proof.Machine.execEvict s
  | .populationFetchReturn => Sys2Proof.Machine.execPopulationFetchReturn s
  | .populationFetchTimeout => Sys2Proof.Machine.execPopulationFetchTimeout s
  | .packetAssembly => Sys2Proof.Machine.execPacketAssembly s
  | .packetComplete => Sys2Proof.Machine.execPacketComplete s
  | .pointerMismatch ptr => Sys2Proof.Machine.execPointerMismatch ptr s
  | .fifoAgeExpiry => Sys2Proof.Machine.execFifoAgeExpiry s
  | .fieldSelect fe a => Sys2Proof.Machine.execFieldSelect fe a s
  | .fieldQuery fe a => Sys2Proof.Machine.execFieldQuery fe a s
  | .fieldQueryadjust fe session up => Sys2Proof.Machine.execFieldQueryadjust fe session up s
  | .fieldQueryrep fe session => Sys2Proof.Machine.execFieldQueryrep fe session s
  | .fieldAck fe rn => Sys2Proof.Machine.execFieldAck fe rn s
  | .fieldNak fe => Sys2Proof.Machine.execFieldNak fe s
  | .fieldReqRn fe rn => Sys2Proof.Machine.execFieldReqRn fe rn s
  | .fieldRead fe bank ptr count rn ecc => Sys2Proof.Machine.execFieldRead fe bank ptr count rn ecc s
  | .fieldWrite fe bank ptr data rn energy => Sys2Proof.Machine.execFieldWrite fe bank ptr data rn energy s
  | .fieldBlockwrite fe bank ptr data rn energy => Sys2Proof.Machine.execFieldBlockwrite fe bank ptr data rn energy s
  | .fieldLock fe payload rn => Sys2Proof.Machine.execFieldLock fe payload rn s
  | .fieldAccess fe half rn => Sys2Proof.Machine.execFieldAccess fe half rn s
  | .fieldKill fe => Sys2Proof.Machine.execFieldKill fe s
  | .fieldBlockerase fe => Sys2Proof.Machine.execFieldBlockerase fe s
  | .fieldBlockpermalock fe => Sys2Proof.Machine.execFieldBlockpermalock fe s
  | .fieldUntraceable fe => Sys2Proof.Machine.execFieldUntraceable fe s
  | .fieldAuthenticate fe => Sys2Proof.Machine.execFieldAuthenticate fe s
  | .fieldSessionTimeout => Sys2Proof.Machine.execFieldSessionTimeout s
  | .fieldLoss => Sys2Proof.Machine.execFieldLoss s
  | .crumbWriteEnd verified => Sys2Proof.Machine.execCrumbWriteEnd verified s
  | .guardWriteEnd => Sys2Proof.Machine.execGuardWriteEnd s
  | .lockoutExpiry => Sys2Proof.Machine.execLockoutExpiry s
  | .eccRewrite crumb => Sys2Proof.Machine.execEccRewrite crumb s
  | .sweepTimer => Sys2Proof.Machine.execSweepTimer s
  | .sweepEnd meas => Sys2Proof.Machine.execSweepEnd meas s
  | .baselineSave => Sys2Proof.Machine.execBaselineSave s
  | .feedItemSend => Sys2Proof.Machine.execFeedItemSend s
  | .sightingItem item => Sys2Proof.Machine.execSightingItem item s
  | .windowRequest item => Sys2Proof.Machine.execWindowRequest item s
  | .ttTick => Sys2Proof.Machine.execTtTick s
  | .entryWinExpiry j => Sys2Proof.Machine.execEntryWinExpiry j s
  | .exitSilExpiry j => Sys2Proof.Machine.execExitSilExpiry j s
  | .maxDwellExpiry j => Sys2Proof.Machine.execMaxDwellExpiry j s
  | .feedGapExpiry => Sys2Proof.Machine.execFeedGapExpiry s
  | .gapMaxExpiry => Sys2Proof.Machine.execGapMaxExpiry s
  | .temperatureCompensation adj => Sys2Proof.Machine.execTemperatureCompensation adj s
  | .ttSave => Sys2Proof.Machine.execTtSave s
  | .vtalLoss => Sys2Proof.Machine.execVtalLoss s
  | .tallyDieStart => Sys2Proof.Machine.execTallyDieStart s
  | .xtalFail => Sys2Proof.Machine.execXtalFail s
  | .xtalRecovery => Sys2Proof.Machine.execXtalRecovery s
  | .sealModeEntry => Sys2Proof.Machine.execSealModeEntry s
  | .sealImage image => Sys2Proof.Machine.execSealImage image s
  | .sealExit => Sys2Proof.Machine.execSealExit s
  | .attestationDone => Sys2Proof.Machine.execAttestationDone s
  | .publish => Sys2Proof.Machine.execPublish s
  | .publishFrame crcOk => Sys2Proof.Machine.execPublishFrame crcOk s
  | .tallinkTimeout => Sys2Proof.Machine.execTallinkTimeout s
  | .statusRequestTimer => Sys2Proof.Machine.execStatusRequestTimer s
  | .talReqTimeout => Sys2Proof.Machine.execTalReqTimeout s
  | .queueEntryStart => Sys2Proof.Machine.execQueueEntryStart s
  | .queueEntryEnd => Sys2Proof.Machine.execQueueEntryEnd s
  | .xipMiss half off => Sys2Proof.Machine.execXipMiss half off s
  | .suspended => Sys2Proof.Machine.execSuspended s
  | .rgapExpiry => Sys2Proof.Machine.execRgapExpiry s
  | .mempTimeout dev => Sys2Proof.Machine.execMempTimeout dev s
  | .verifyFail dev => Sys2Proof.Machine.execVerifyFail dev s
  | .resilverEnd => Sys2Proof.Machine.execResilverEnd s
  | .watchdogExpiry => Sys2Proof.Machine.execWatchdogExpiry s
  | .standbyWatchdogExpiry => Sys2Proof.Machine.execStandbyWatchdogExpiry s
  | .takeoverComplete => Sys2Proof.Machine.execTakeoverComplete s
  | .checkpoint => Sys2Proof.Machine.execCheckpoint s
  | .handoverComplete => Sys2Proof.Machine.execHandoverComplete s
  | .halfHot half ok => Sys2Proof.Machine.execHalfHot half ok s
  | .healthDiag => Sys2Proof.Machine.execHealthDiag s
  | .logBatch ok => Sys2Proof.Machine.execLogBatch ok s
  | .decoderSelftest d pass => Sys2Proof.Machine.execDecoderSelftest d pass s
  | .scheduledSwitch => Sys2Proof.Machine.execScheduledSwitch s
  | .switchOwnership => Sys2Proof.Machine.execSwitchOwnership s
  | .fallbackPath => Sys2Proof.Machine.execFallbackPath s
  | .trialTimeout => Sys2Proof.Machine.execTrialTimeout s
  | .lastBitOnAir w => Sys2Proof.Machine.execLastBitOnAir w s
  | .replyWindowOpen w => Sys2Proof.Machine.execReplyWindowOpen w s
  | .cwIntervalEnd w gains => Sys2Proof.Machine.execCwIntervalEnd w gains s
  | .peerWindowEnd => Sys2Proof.Machine.execPeerWindowEnd s
  | .positionOffsetSave => Sys2Proof.Machine.execPositionOffsetSave s
  | .mgmtCfgStandbyWrite on => Sys2Proof.Machine.execMgmtCfgStandbyWrite on s
  | .feedItemDiscarded item => Sys2Proof.Machine.execFeedItemDiscarded item s

end Sys2Proof.Machine
end

