-- ==== Sys2Proof/Safety.lean ====
section
/-! DEFINITION. What the claims about whole runs speak of: tables in canonical form, arrays of their fixed length, counts within bounds,
and what no command changes. -/
namespace Sys2Proof.Machine

/-- The frame is released in its address phase or before it (R116). -/
def reachesAddress (r : Reach) : Bool := match r with | .address _ => true | _ => false

/-- No field session through an antenna is open (R329). -/
def State.noAnt (s : State) : Bool := s.tag.session.all (fun x => x.fe == .comm)

/-- The register file is in canonical form: addresses rise strictly and no entry is zero, what an unlisted address reads as. -/
def State.regsWf (s : State) : Bool := swf (fun _ => (0 : Word)) s.regs

/-- The seen-tag table is in canonical form. -/
def State.seenWf (s : State) : Bool := swf (fun _ => (none : Option Seen)) s.seen

/-- What a task on the flash replaces is in canonical form (R398). -/
def TaskKind.wf (k : TaskKind) : Bool :=
  match k with
  | .offsets (some e) => swf (fun _ => (0 : Word)) e.2
  | .baselines (some l) => swf (fun _ => PingPort.init) l
  | _ => true

/-- The invariant of the module: every table is in canonical form, every array has its number of elements, the logs and the shedding
level keep their bounds (R299, R414). -/
structure State.Inv (s : State) : Prop where
  regs      : s.regsWf = true
  seen      : s.seenWf = true
  pop       : swf (fun _ => (none : Option Seen)) s.pop = true
  latches   : swf (fun _ => (0 : Word)) s.latches = true
  staging   : swf (fun _ => (none : Option Word)) s.staging = true
  phi       : swf (fun _ => (0 : Word)) s.phi = true
  refAt     : swf (fun _ => 0) s.refAt = true
  wts       : swf (fun _ => ((0, 0) : Cx)) s.wts = true
  seedWt    : swf (fun _ => (0 : Word)) s.seedWt = true
  dueAt     : swf (fun _ => 0) s.dueAt = true
  divAt     : swf (fun _ => 0) s.divAt = true
  tagBytes  : swf (tagFactory s.board.serial) s.tag.bytes = true
  tagWear   : swf (fun _ => 0) s.tag.wear = true
  pingPorts : swf (fun _ => PingPort.init) s.ping.ports = true
  pingFlash : ∀ m, s.ping.flash = some m → swf (fun _ => PingPort.init) m = true
  phiFlash  : ∀ e, s.phiFlash = some e → swf (fun _ => (0 : Word)) e.2 = true
  txc       : s.txc.length = 4
  chains    : s.chains.length = 16
  beams     : s.beams.length = 16
  slots     : s.upd.slots.length = 5
  log       : s.mgmt.log.length ≤ 2048
  shedLo    : 1 ≤ s.shed
  shedHi    : s.shed ≤ 16
  tasks     : s.memp.tasks.all (fun t => t.kind.wf) = true

/-- What no command of the table changes (R1, R128, R388, R83): the variant, the serial number and the fitted devices, the PROF lands,
and the order of the commands that wait. The model's counter of free values never goes back. -/
structure State.Fixed (s t : State) : Prop where
  board   : t.board = s.board
  prof    : t.lands.prof = s.lands.prof
  pending : t.pending = s.pending
  free    : s.freeCtr ≤ t.freeCtr

/-! ## Frames: what a statement about one command says of the rest -/

/-- Every register that is not in the list holds in `t` what it holds in `s`. -/
def State.SameRegs (s t : State) (l : List Nat) : Prop := ∀ a, a ∉ l → t.reg a = s.reg a

/-! ## Host commands (R146, R147, R150, R474) -/

/-- A write of the host at `a` is performed at once: the main die is active, the host port is up, the clock of `a` runs. No frame is
in progress and no posted write remains (R123). The AO cycle in which a wake ended a state is over (R107). The register file is in its
canonical form. -/
def State.hostCan (s : State) (a : Nat) : Bool := decide (s.phase = .active) && s.hostUp && s.clockRuns a && s.regsWf && s.hp.frame.isNone &&
  !s.wrPend && !s.sameCycle

/-- A command written at `a` is accepted and carried out (R146 to R148): fewer than 64 commands of the host are live, and the next number
names none. -/
def State.canIssue (s : State) (a : Nat) : Bool :=
  s.hostCan a && decide (s.hostLive < 64) && decide (1 ≤ s.hostNext) && decide (s.hostNext ≤ 0x7FFFFF) &&
  s.cmds.all (fun c => c.seq != s.hostNext)

/-- The registers that issuing a command with result register `res` writes (R150, R474). -/
def issueRegs (res : Nat) : List Nat := [res, Reg.sysCmdFirst, Reg.sysCmdLast, Reg.sysCmdStat, Reg.hpFrames]

/-- Between `s` and `t` one host command was accepted and has completed with `st` at that instant (R147, R150, R474): its result register
shows DONE, the status and its number, SYS_CMD_FIRST a count of one, SYS_CMD_STAT the status; no command has become live. -/
structure State.Completed (s t : State) (res : Nat) (st : Status) : Prop where
  result : t.reg res = wordOf (2 ^ 31 + st.code * 2 ^ 24 + s.hostNext)
  first  : t.reg Reg.sysCmdFirst = wordOf (2 ^ 24 + s.hostNext)
  last   : t.reg Reg.sysCmdLast = wordOf s.hostNext
  stat   : t.reg Reg.sysCmdStat = wordOf (st.code * 256 + 1)
  next   : t.hostNext = if s.hostNext = 0x7FFFFF then 1 else s.hostNext + 1
  live   : t.cmds = s.cmds

/-- Between `s` and `t` one host command was accepted and is live: its result register shows its number with DONE and STATUS clear. -/
structure State.Accepted (s t : State) (res : Nat) (kind : CmdKind) (cell : Option Bool) : Prop where
  result : t.reg res = wordOf s.hostNext
  first  : t.reg Reg.sysCmdFirst = wordOf (2 ^ 24 + s.hostNext)
  last   : t.reg Reg.sysCmdLast = wordOf s.hostNext
  stat   : t.reg Reg.sysCmdStat = 0
  next   : t.hostNext = if s.hostNext = 0x7FFFFF then 1 else s.hostNext + 1
  live   : t.cmds = s.cmds ++ [{ seq := s.hostNext, res := some res, kind := kind, cell := cell }]

/-- The state `s` with everything of `t` that issuing a command may change: registers, live commands, numbers, and the account of the frame. -/
def State.issuing (s t : State) : State :=
  { s with regs := t.regs, cmds := t.cmds, hostNext := t.hostNext, hostWrap := t.hostWrap, abortedEnded := t.abortedEnded, acc := t.acc }

/-- The one live command is the host's command `n` of a kind; its decision is COMMITTED, and its result register still names it (R147, R284). -/
def State.soleCmd (s : State) (n res : Nat) (k : CmdKind) : Bool :=
  s.cmds == [{ seq := n, res := some res, kind := k, cell := some true }] && s.fld res 0 24 == n

/-- No command is live, and the result register shows that command `n` completed with a status (R147, R474). -/
def State.endedWith (t : State) (n res : Nat) (st : Status) : Prop := t.cmds = [] ∧ t.reg res = wordOf (2 ^ 31 + st.code * 2 ^ 24 + n)

/-- A command of R407 that one register write issues: its kind, the register and that of its result. -/
def halfServed (c : Instr) : Option (CmdKind × Nat × Nat) :=
  match c with
  | .txcReturn n => some (.txcReturn n.val, Reg.txcCmd n.val, Reg.txcCmdRes n.val)
  | .portReturn p => some (.portReturn p.val, Reg.portCmd, Reg.portCmdRes)
  | .rxcReturn n => some (.rxcReturn n.val, Reg.rxcCmd n.val, Reg.rxcCmdRes n.val)
  | .clearGuard => some (.clearGuard, Reg.tagCmd, Reg.tagCmdRes)
  | .unlock => some (.unlock, Reg.tagCmd, Reg.tagCmdRes)
  | .remap c => some (.remap c.val, Reg.tagCmd, Reg.tagCmdRes)
  | .crumbOut c => some (.crumbOut c.val, Reg.tagCmd, Reg.tagCmdRes)
  | .crumbReturn c => some (.crumbReturn c.val, Reg.tagCmd, Reg.tagCmdRes)
  | .cal => some (.pingCal, Reg.pingCmd, Reg.pingCmdRes)
  | .mempOut d => some (.mempOut (cond d 1 0), Reg.mempCmd, Reg.mempCmdRes)
  | .mempReturn d => some (.mempReturn (cond d 1 0), Reg.mempCmd, Reg.mempCmdRes)
  | .mgmtOut h => some (.mgmtOut (cond h 1 0), Reg.mgmtCmd, Reg.mgmtCmdRes)
  | .mgmtReturn h => some (.mgmtReturn (cond h 1 0), Reg.mgmtCmd, Reg.mgmtCmdRes)
  | .dump => some (.dump, Reg.mgmtCmd, Reg.mgmtCmdRes)
  | .load c => some (.updLoad c.toNat, Reg.updCmd, Reg.updCmdRes)
  | .verify => some (.updVerify, Reg.updCmd, Reg.updCmdRes)
  | .arm => some (.updArm, Reg.updCmd, Reg.updCmdRes)
  | .switchNow => some (.updSwitchNow, Reg.updCmd, Reg.updCmdRes)
  | .confirm => some (.updConfirm, Reg.updCmd, Reg.updCmdRes)
  | .revert => some (.updRevert, Reg.updCmd, Reg.updCmdRes)
  | .abandonUpdate => some (.updAbandon, Reg.updCmd, Reg.updCmdRes)
  | _ => none

/-! ## Ports and their switches (R21, R45) -/

/-- No chain listens on a port, and no receive bus carries one. -/
def State.switchesOpen (s : State) : Bool :=
  (List.range 16).all (fun n => !s.bit (Reg.rxcStat n) 15) &&
  (List.range 4).all (fun w => (List.range 4).all (fun k => !s.bit (Reg.portWarpRx w) (8 * k + 7)))

/-- No illuminator calibrates in isolation (RAMP is CAL). -/
def State.noTxcCal (s : State) : Bool := (List.range 4).all (fun n => s.ramp n != 5)

/-- No round waits for a hop, and no carrier for a channel or for others (R163, R164). -/
def State.noHopWaits (s : State) : Bool := s.rounds.all (fun r => !r.hopDue) && (List.range 4).all (fun n => !(s.tx n).waiting)

/-- The carrier of illuminator `n` can fall without more to do than the fall: no chain listens, its port is in no fault class, and no hop or
carrier waits for it (R163, R165, R170). -/
def State.fallsAlone (s : State) (n : Nat) : Bool :=
  s.switchesOpen && decide (s.portClass (s.fld (Reg.txcStat n) 16 6) < 2) && s.noHopWaits

/-! ## Resets (R79, R80) -/

/-- No flash write that a reset could cut off is under way (R80): no task, no block of an image and no erase of the event log. -/
def State.flashQuiet (s : State) : Bool :=
  s.memp.tasks.isEmpty && s.memp.all.all (fun e => match e.job with | .stage _ _ => false | .logErase => false | _ => true)

/-- Between `s` and `t` a core reset of a cause took effect (R79, R82): the registers of the AO domain stay but for the cause and those listed, all
others are at their Reset column, and nothing is left but what flash, the FRAM, the AO domain and the board hold. -/
structure State.Restarted (s t : State) (c : Cause) (l : List Nat) : Prop where
  last : t.fld Reg.sysResetCause 28 4 = c.code
  bit  : t.bit Reg.sysResetCause c.code = true
  ao   : ∀ a, aoAddr a = true → a ≠ Reg.sysResetCause → a ∉ l → t.reg a = s.reg a
  main : ∀ a, aoAddr a = false → a ≠ Reg.sysProfStat → a ≠ Reg.sysClkstat → t.reg a = sget (fun _ => 0) (resetRegs s.board.tally) a
  mgmt : t.mgmt = { Mgmt.init with flashLog := s.mgmt.flashLog, resets := s.mgmt.resets + 1, nextSeq := t.mgmt.nextSeq }
  memp : t.memp = { Memp.init with frozen := s.tap == .extest }
  upd  : t.upd = { s.upd with live := none, proof := none, switching := false, reverting := false, fallback := .none, boundary := [],
                              busy := false, copying := none, scope1 := [] }
  all  : t = { State.reset with resets := t.resets, thermHold := t.thermHold, freeCtr := t.freeCtr, aoFrac := s.aoFrac, board := s.board,
                                lands := t.lands, bscan := s.bscan, tap := s.tap, regs := t.regs, staging := t.staging, phiFlash := s.phiFlash, tag := t.tag,
                                ping := t.ping, die := t.die, mgmt := t.mgmt, upd := t.upd, wakes := t.wakes, wakeAt := t.wakeAt,
                                memp := t.memp, hot := s.hot, hotOut := s.hotOut, hotRead := s.hotRead, tdo := s.tdo, pending := s.pending }

/-- Between `s` and `t` a full reset of a cause took effect (R79): every register at its Reset column but SYS_RESET_CAUSE, which shows the cause
alone, and nothing is left but what flash, the FRAM and the board hold. -/
structure State.Cleared (s t : State) (c : Cause) : Prop where
  cause : t.reg Reg.sysResetCause = wordOf (c.code * 2 ^ 28 + if c = .por then 1 else 2)
  main  : ∀ a, a ≠ Reg.sysResetCause → t.reg a = sget (fun _ => 0) (resetRegs s.board.tally) a
  ping  : t.ping = { Ping.init with flash := s.ping.flash }
  mgmt  : t.mgmt = { Mgmt.init with flashLog := s.mgmt.flashLog, resets := s.mgmt.resets + 1, nextSeq := t.mgmt.nextSeq }
  memp  : t.memp = { Memp.init with frozen := s.tap == .extest }
  upd   : t.upd = { s.upd with live := none, proof := none, switching := false, reverting := false, fallback := .none, boundary := [],
                               busy := false, copying := none, scope1 := [] }
  all   : t = { State.reset with resets := t.resets, thermHold := t.thermHold, freeCtr := t.freeCtr, board := s.board, lands := t.lands, bscan := s.bscan,
                                 tap := s.tap, regs := t.regs, phiFlash := s.phiFlash, tag := t.tag, ping := t.ping, die := t.die,
                                 mgmt := t.mgmt, upd := t.upd, memp := t.memp, hot := s.hot, hotOut := s.hotOut, hotRead := s.hotRead,
                                 tdo := s.tdo, pending := s.pending }

/-- The tag function after a reset of its domain with no session and no crumb write (R30, R79, R329, R344): its store, its counts and its locks
stay, but for the crumbs out of service (log entry 49). -/
def TagFn.rested (a b : TagFn) : Prop :=
  b = { a with loaded := false, early := false, sticky := 0, queue := [], guardBusy := false, reply := .none, flags := b.flags, sl := b.sl,
               lockout := b.lockout, oos := [], fix := [] }

/-- The FAULT packet of an event (R313): SOURCE, INDEX, CODE and DETAIL. -/
def State.faultRec (s : State) (source index code : Nat) (detail : Word) : Rec :=
  { ty := 7, flags := 0, len := 16, words := [wordOf (source * 2 ^ 24 + index * 2 ^ 16 + code * 2 ^ 8), s.timeLo, detail] }

/-- The FAULT queue of `t` is that of `s` with one packet more. -/
def State.faultQueued (s t : State) (r : Rec) : Prop := t.fifo = { s.fifo with fault := s.fifo.fault ++ [r] }

/-- The registers that an event-log entry writes (R144, R414, R416). -/
def logRegs : List Nat := [Reg.mgmtLogHead, Reg.mgmtLogLost, Reg.sysIrqPend]

/-- An entry with this source, code and detail heads the event log of `t` (R414). -/
def State.logs (t : State) (source code : Nat) (detail : Word) : Prop :=
  t.mgmt.log.head?.map (fun e => (e.source, e.code, e.detail)) = some (source, code, detail)

/-- The one round in flight is `r`, on illuminator `n`; it holds its own warp. -/
def State.soleRound (s : State) (r : Round) (n : Nat) : Bool := s.rounds == [r] && r.txc == some n && r.warps.contains r.warp

/-- A round that nothing stops, between two transactions, after its first ramp-up (R282). -/
def Round.atRest (r : Round) : Bool := r.phase == .running && r.status.isNone && !r.noNew && r.txn.isNone

/-- Its kind sends commands to tags (R278). -/
def Round.serves (r : Round) : Bool := r.kind == .inventory || r.kind == .access || r.kind == .poll

/-- The memory port takes the entries of its queue one by one (R395): it is not frozen, its lands are powered, no resilver runs, and there is nothing
of its own to do, no task on the flash and no chain that waits for room. -/
def State.portServes (s : State) : Bool :=
  !s.memStopped && !s.resilvering && s.memp.owed.isEmpty && s.memp.checking.isNone && s.memp.tasks.isEmpty && s.memp.waiting.isEmpty

/-- A task on the flash has begun (R28, R398): it writes `k` from an address on, after those that wait already. -/
def State.taskAdded (s t : State) (k : TaskKind) (addr : Nat) : Prop :=
  t.memp = { s.memp with tasks := t.memp.tasks, queue := t.memp.queue, waiting := t.memp.waiting } ∧ t.memp.tasks.dropLast = s.memp.tasks ∧
  t.memp.tasks.getLast?.map (fun x => (x.kind, x.pos)) = some (k, addr)

/-- The port once the flash that programs has reported that it is suspended (R397). -/
def State.whileSuspended (s : State) : State := { s with memp := { s.memp with suspending := false, suspended := true } }

/-! ## The tally die (R366 to R377) -/

/-- The module has a tally die and it runs (R3, R382). -/
def State.talUp (s : State) : Bool := s.board.tally && s.die.running

/-- It runs and its crystal too (R383). -/
def State.dieTicks (s : State) : Bool := s.talUp && s.die.xtal

/-- The entry of the open-dwell table at an index. -/
def TalDie.dwell (d : TalDie) (i : Nat) : Option Dwell := d.dwells.find? (fun e => e.idx == i)

/-- Every entry of the table but the one at `i` is in `b` what it is in `a`. -/
def TalDie.SameDwells (a b : TalDie) (i : Nat) : Prop := ∀ j < 4096, j = i ∨ b.dwell j = a.dwell j

/-- FAMILY, ZONE, QUALITY, RSSI code and identity of a sighting item (R366). -/
def sightingOf (i : List Byte) : Nat × Nat × Nat × Nat × Nat :=
  ((i.getD 2 0).toNat / 64, (i.getD 2 0).toNat % 16 * 256 + (i.getD 3 0).toNat, (i.getD 4 0).toNat, (i.getD 5 0).toNat,
   beNat ((i.drop 6).take 8))

/-- A well-formed sighting item arrives at a die that runs, outside a gap, without items dropped before it (R367, R372). -/
def State.takesSighting (s : State) (i : List Byte) : Bool :=
  s.coreOn && s.dieTicks && !s.die.restart && itemKind i == some true && (i.getD 1 0).toNat == 0 && s.die.gap.isNone

/-- A zone sighting (R370). -/
def TalDie.inZone (d : TalDie) (zone quality : Nat) : Bool :=
  decide (d.params.zoneLo ≤ zone) && decide (zone ≤ d.params.zoneHi) && decide (d.params.qMin ≤ quality)

/-- The die `b` is `a` after an item it took: dwells apart, FEED_OK counts it, its stamp is the last item's, no note is due. -/
def TalDie.Took (a b : TalDie) : Prop := b = { a with dwells := b.dwells, feedOk := a.feedOk + 1, lastItem := a.tt }

/-- Between `a` and `b` the dwell `e` closed with these flags (R374, R375): its record is the newest of the log, NEXT_RECNO has advanced, the chain
has taken it, LOG_WRAPPED is set once the log is full, and a RECORD note is the first frame due. -/
structure TalDie.Recorded (a b : TalDie) (e : Dwell) (flags : Nat) : Prop where
  log   : b.log = ((a.next, a.recordWords e flags) :: a.log).take 65536
  next  : b.next = (a.next + 1) % 2 ^ 32
  chain : b.chain = sha256of64 (a.chain ++ (a.recordWords e flags).flatMap bytesOfWord)
  wrap  : (wordOf b.health).getLsbD 5 = ((wordOf a.health).getLsbD 5 || decide (65536 < a.next))
  pub   : b.pub.take (a.pub.length + 1) = a.pub ++ [{ seq := 0, block := none, note := some 1, words := [], nwords := a.recordWords e flags }]

/-- The frames due in `b` are those in `a`, the status block with a HEALTH note being the newest (R377). -/
def TalDie.healthNoted (a b : TalDie) : Prop :=
  b.pub = a.pub ++ [{ seq := 0, block := some (0, 0), note := some 2, words := [], nwords := b.statusWords.take 6 }]

/-! ## Peer mode (R247, R271) -/

/-- The one round in flight is a peer round, and a reception is under way on its beam `m`, which is `b`. -/
def State.hearsFrame (s : State) (r : Round) (m : Nat) (b : Beam) : Bool :=
  s.rounds == [r] && r.kind.peer && s.peerBeam r == some m && s.beam? m == some b && r.phase != .ending && decide (m < 16) &&
  b.chains.all (fun e => decide (e.1 < 16))

/-- The frame that PE decides from a reception, with the weights that its preamble leaves (R184, R241, R247). -/
def State.frameHeard (s : State) (r : Round) (b : Beam) (x : RxSignal) : PeerFrame := s.peerFrame b (s.weightsAfter r b x) x

/-- A frame of type `k` for the module or for all reaches it whole: header and CRC-24 pass. -/
def State.hearsPeer (s : State) (r : Round) (m : Nat) (b : Beam) (x : RxSignal) (k : Nat) : Bool :=
  let f := s.frameHeard r b x
  s.hearsFrame r m b && peerHeaderOk f && peerCrcOk f && decide (5 ≤ f.body.length) && decide (1 ≤ k) && decide (k ≤ 6) &&
  f.ty == k && (bDst f.body == 0xFFFF || bDst f.body == s.peerAddr)

/-- The registers in which a reception shows its weights and what its chains measured, and the frames checked (R145, R184, R320). -/
def hearRegs (b : Beam) : List Nat :=
  Reg.crcCnt 0 :: b.chains.flatMap (fun e => [Reg.loomWt e.1, Reg.rxcRssi e.1, Reg.rxcCntReply e.1, Reg.rxcCntClip e.1, Reg.rxcStat e.1])

/-- The reception of beam `m` is over, and what waited takes its place (R189). -/
def State.receptionOver (s t : State) (m : Nat) : Prop :=
  t.beams = updAt s.beams m (fun o => o.map (fun b => { b with rec_ := b.next, next := none, ending := false }))

/-! ## The tag function's field side (R328, R329, R343) -/

/-- The session `x` is open, its front end takes commands and no field command is in progress. The AO cycle in which a wake ended a state is
over (R107). -/
def State.fieldTakes (s : State) (x : Session) : Bool :=
  s.tag.session == some x && s.feOk x.fe && !s.fieldBusy && decide (s.phase = .active) && !s.sameCycle

/-- The same, with no Access half done. -/
def State.fieldOpen (s : State) (x : Session) : Bool := s.fieldTakes x && s.tag.half.isNone

/-- A field at COMM is there, as a command that came over it shows (R30, R105). -/
def State.fieldAt (s : State) (fe : FrontEnd) : Bool := s.tag.field || fe == .comm

/-- The tag is in Open or Secured and the handle is its own: access commands are carried out (R332). -/
def Session.open (x : Session) (rn : BitVec 16) : Bool := (x.state == .open_ || x.state == .secured) && rn.toNat == x.handle

/-- No crumb write is in progress or waits, and no frame reads crumb `c` (R340). -/
def State.crumbFree (s : State) (c : Nat) : Bool := s.tag.job.isNone && s.tag.queue.isEmpty && !s.frameReads.contains c

/-! ## Frames of the host port (R112 to R126) -/

/-- A frame can begin and its response is not held by earlier writes: the main die is active, the port up, no frame in progress. The AO
cycle in which a wake ended a state is over (R107). -/
def State.frameReady (s : State) : Bool := decide (s.phase = .active) && s.hostUp && s.hp.frame.isNone && !s.wrPend && s.regsWf && !s.sameCycle

/-- The same with trailers off (R120). -/
def State.frameCan (s : State) : Bool := s.frameReady && !s.bit Reg.hpCtrl 0

/-- The frame in progress in `t` is of kind `k`, and the module has sent its start token and the words `ws`. -/
def State.Served (s t : State) (k : FrameKind) (r : Reach) (ws : List Word) : Prop :=
  t.hp = { s.hp with frame := some { Frame.open_ k.opcode (some k) r .data with token := .start, out := ws } }

/-- Reading the word changes nothing and gives its value: it is implemented, belongs to no multi-word value, has no RC field, is not sampled
anew at each read and lies outside the tag store (R13, R135, R138, R165, R334, R412). -/
def State.plainRead (s : State) (a : Nat) : Bool :=
  s.addrClass a == .word && (groupOf a).isNone && !inTagStore a && !sampledAddr a && (s.cancAddr a).isNone &&
  !(a == Reg.hpIgnored || a == Reg.portLastFault || a == Reg.fifoStat || a == Reg.tagFieldLast)

/-- The words of complete packets that the host has not read, in order (R306). -/
def Fifo.unread (f : Fifo) : List Word := f.head ++ f.packets.flatMap (fun p => p.words)

/-- A register whose write only stores (R135): none of those that issue a command or act. -/
def plainReg (a : Nat) : Bool :=
  !(decide (0x8000 ≤ a) && decide (a < 0xC000) && a % 4096 == 0x10) &&
  !(decide (0x10000 ≤ a) && decide (a < 0x20000) && (a % 4096 == 0x10 || a % 4096 == 4)) &&
  !(decide (0x28000 ≤ a) && decide (a < 0x28020)) && !(decide (0x3C400 ≤ a) && decide (a < 0x3C800)) &&
  !([Reg.sysCtrl, Reg.sysProofCmd, Reg.clkRefctrl, Reg.portCmd, Reg.peerCfg, Reg.peerTxCmd, Reg.schedCtrl, Reg.schedCmd, Reg.schedLoad,
    Reg.fifoCfg, Reg.seenCmd, Reg.fifoCmd, Reg.crcHctrl, Reg.crcHbits, Reg.tagCmd, Reg.tagStat, Reg.pingCmd, Reg.talReq, Reg.mempCmd,
    Reg.mgmtCmd, Reg.mgmtDecCmd, Reg.mgmtCfg, Reg.updCmd].contains a)

/-- The host has read the word `w` at `a` in a frame of its own: it is the last frame it received. -/
def State.ReadBack (s t : State) (a : Nat) (w : Word) : Prop :=
  t.hp = { s.hp with last := some { Frame.open_ 3 (some (.rd a)) (.data 1 0 false) .data with token := .start, out := [w] } }

end Sys2Proof.Machine
end

