-- ==== Sys2Proof/Certificates/Slice0/Obligations.lean ====
section
/-! DEFINITION. The statements for the provers, family by family: what each command does, what it leaves, and what every step keeps. -/
section Slice0
open Sys2Proof Sys2Proof.Machine

/-- O1. For every command c and state s whose queue is c followed by r, a step of s is exec of c on s with the queue r: it moves past that one command and
adds nothing. With an empty queue a step is the model's tick of one microsecond (log entry 13): with REF stopped the time base stands; with REF
running and no slew pending it advances by one. The tick leaves the queue empty. The queue and the tick are the model's choice (log entry 13). -/
def Obligations.StepRunsTheFrontCommand : Prop :=
  (∀ (s : State) (c : Instr) (r : List Instr), s.pending = c :: r → step s = exec c { s with pending := r }) ∧
  (∀ s : State, s.pending = [] → s.refOn = false → ∃ t, step s = .next t ∧ t.timeBase = s.timeBase ∧ t.pending = []) ∧
  (∀ s : State, s.pending = [] → s.refOn = true → s.peer.slew = 0 → ∃ t, step s = .next t ∧ t.timeBase = s.timeBase + 1 ∧ t.pending = [])

/-- O2. State.reset meets the invariant of the module: every table is in canonical form, every array has its number of elements, the shedding level is
within R299, the event log within R414. -/
def Obligations.ResetMeetsTheInvariant : Prop :=
  State.reset.Inv

/-- O3. From every state that meets the invariant, reached by a run or not, a step that answers a next state answers one that meets it: register file,
seen-tag table, population store, staging and latch buffers, tag store, baselines and offsets stay in canonical form; there stay four illuminators,
sixteen chains and beams, five draft slots; the event log holds at most 2,048 entries; the shedding level stays from 1 to 16. The canonical form is
the model's. -/
def Obligations.EveryStepKeepsTheInvariant : Prop :=
  ∀ s t : State, s.Inv → step s = .next t → t.Inv

/-- O4. Whatever the command, a next state has the board of the state before it (variant, serial number, devices at the memory port), the same PROF lands
and the same waiting commands; the model's counter of free values never goes back. -/
def Obligations.NoCommandChangesTheBoard : Prop :=
  ∀ (c : Instr) (s t : State), exec c s = .next t → s.Fixed t

/-- O5. In every state, every command of the table answers a next state, with one exception: VIO_POWER_ON with a supply above the absolute maximum of 4.0
V (R48), for which the spec gives no behaviour; it stops with the fault absoluteMaximum. No command is refused. -/
def Obligations.OnlyOverstressStops : Prop :=
  ∀ (c : Instr) (s : State),
    ((∃ mv, c = .vioPowerOn mv ∧ 4000 < mv) → exec c s = .fault .absoluteMaximum) ∧
    ((¬ ∃ mv, c = .vioPowerOn mv ∧ 4000 < mv) → ∃ t, exec c s = .next t)

/-- O6. With trailers off, the port up and nothing held, a frame counts in HP_FRAMES and its data phase starts: STAT gives its status word in every word;
IDENT the five words of R128; RD of n implemented words that belong to no multi-word value and restart on no read gives their values; FRD of n words
that are unread in complete packets gives the next n in order and consumes them; FDROP gives the count of bytes left in the packet partly read and
discards them. Nothing else changes but, for FRD and FDROP, the read pointer, the high-water mark and coalescing. -/
def Obligations.ReadFramesAnswer : Prop :=
  (∀ (s : State) (n bits : Nat),
    s.frameCan = true →
    ∃ t, exec (.statFrame (.data n bits false)) s = .next t ∧
      s.Served t .stat (.data n bits false) (List.replicate n s.statWord) ∧ t.reg Reg.hpFrames = s.reg Reg.hpFrames + 1 ∧
      t = { s with regs := t.regs, hp := t.hp } ∧ s.SameRegs t [Reg.hpFrames]) ∧
  (∀ (s : State) (bits : Nat),
    s.frameCan = true →
    ∃ t, exec (.identFrame (.data 5 bits false)) s = .next t ∧
      (s.Served t .ident (.data 5 bits false) [0x48F56480, if s.board.tally then 0x541A0100 else 0x4E1A0100, wordOf (s.board.serial / 2 ^ 32), wordOf s.board.serial, s.fwVersion]) ∧
      t.reg Reg.hpFrames = s.reg Reg.hpFrames + 1 ∧ t = { s with regs := t.regs, hp := t.hp } ∧ s.SameRegs t [Reg.hpFrames]) ∧
  (∀ (s : State) (addr : BitVec 24) (n bits : Nat),
    s.frameCan = true → s.clockRuns (alignWord addr.toNat) = true →
    (∀ k < max 1 n, burstAt addr.toNat k = some (alignWord addr.toNat + 4 * k) ∧ s.burstRuns addr.toNat k = true) →
    (∀ k < max 1 n, s.plainRead (alignWord addr.toNat + 4 * k) = true) →
    ∃ t, exec (.rdFrame addr (.data n bits false)) s = .next t ∧
      s.Served t (.rd addr.toNat) (.data n bits false) ((List.range n).map (fun k => (s.cnt Reg.hpFrames).viewWord (alignWord addr.toNat + 4 * k))) ∧
      t.reg Reg.hpFrames = s.reg Reg.hpFrames + 1 ∧ t = { s with regs := t.regs, hp := t.hp } ∧ s.SameRegs t [Reg.hpFrames]) ∧
  (∀ (s : State) (n bits : Nat),
    s.frameCan = true → s.coreOn = true → 0 < s.fifo.unread.length → n ≤ s.fifo.unread.length → (∀ p ∈ s.fifo.packets, p.words ≠ []) →
    ∃ t, exec (.frdFrame (.data n bits false)) s = .next t ∧
      s.Served t .frd (.data n bits false) (s.fifo.unread.take n) ∧ t.fifo.unread = s.fifo.unread.drop n ∧
      t.fifo = { s.fifo with packets := t.fifo.packets, head := t.fifo.head, lastWord := t.fifo.lastWord, rptr := t.fifo.rptr, rptr2 := t.fifo.rptr2 } ∧
      t.reg Reg.hpFrames = s.reg Reg.hpFrames + 1 ∧ t = { s with regs := t.regs, hp := t.hp, fifo := t.fifo, coal := t.coal } ∧
      s.SameRegs t [Reg.hpFrames, Reg.fifoStat]) ∧
  (∀ (s : State) (bits : Nat),
    s.frameCan = true → s.coreOn = true →
    ∃ t, exec (.fdropFrame (.data 1 bits false)) s = .next t ∧
      s.Served t .fdrop (.data 1 bits false) [wordOf (4 * s.fifo.head.length)] ∧
      t.fifo = { s.fifo with head := [], rptr := (s.fifo.rptr + 4 * s.fifo.head.length) % 131072, rptr2 := (s.fifo.rptr + 4 * s.fifo.head.length) % 131072 } ∧
      t.reg Reg.hpFrames = s.reg Reg.hpFrames + 1 ∧ t = { s with regs := t.regs, hp := t.hp, fifo := t.fifo, coal := t.coal } ∧
      s.SameRegs t [Reg.hpFrames, Reg.fifoStat])

/-- O7. With trailers on, a STAT frame clocked out to its trailer gives BURST + 1 words and then the trailer word of R121, and the pending trailer flags
are clear after it; the sticky bits of HP_STATUS stand. One of fewer words is not clocked to the trailer: the module sends none and the flags stay
pending. -/
def Obligations.TrailerReportsAndClears : Prop :=
  (∀ (s : State) (n bits : Nat),
    s.frameReady = true → s.bit Reg.hpCtrl 0 = true → s.fld Reg.hpCtrl 8 8 + 1 ≤ n →
    ∃ t f, exec (.statFrame (.data n bits true)) s = .next t ∧
      t.hp = { s.hp with frame := some f, flags := 0 } ∧ f.out = List.replicate (s.fld Reg.hpCtrl 8 8 + 1) s.statWord ∧ f.phase = .trailer ∧
      f.trailer = some (s.cnt Reg.hpFrames).trailerWord ∧ t.reg Reg.hpFrames = s.reg Reg.hpFrames + 1 ∧
      t = { s with regs := t.regs, hp := t.hp } ∧ s.SameRegs t [Reg.hpFrames]) ∧
  (∀ (s : State) (n bits : Nat) (full : Bool),
    s.frameReady = true → s.bit Reg.hpCtrl 0 = true → n < s.fld Reg.hpCtrl 8 8 + 1 →
    ∃ t, exec (.statFrame (.data n bits full)) s = .next t ∧
      s.Served t .stat (.data n bits full) (List.replicate n s.statWord) ∧ t.reg Reg.hpFrames = s.reg Reg.hpFrames + 1 ∧
      t = { s with regs := t.regs, hp := t.hp } ∧ s.SameRegs t [Reg.hpFrames])

/-- O8. A WR frame collects its words and performs nothing before select rises. An ABORT that names a live command already decided COMMITTED answers
ABORT_LATE and changes nothing; one that names a host round that waits answers OK: the candidate leaves, the command ends ABORTED, SCHED_CNT_ABORTED
counts it and a ROUND_END is queued. A WAIT for a target that no refuser opposes, with the event log persisted or queued, begins QUIESCE and waits for
its word. LRST waits for select release. An unknown opcode is ignored, counts in HP_IGNORED and sets UNKNOWN_OP. An early frame, with no state of
sleep to end, leaves everything as it was. -/
def Obligations.OtherFramesAct : Prop :=
  (∀ (s : State) (addr : BitVec 24) (data : List Word) (tail : TailBits) (more : Nat),
    s.frameCan = true → s.clockRuns (alignWord addr.toNat) = true → data.length ≤ 256 →
    (∀ k < max 1 data.length, inTagStore (alignWord addr.toNat + 4 * k) = false) → (∀ k < data.length, s.burstOver addr.toNat k = false) →
    ∃ t, exec (.wrFrame addr data tail (.data more)) s = .next t ∧
      s.Served t (.wr addr.toNat data tail) (.written more) [] ∧ t.reg Reg.hpFrames = s.reg Reg.hpFrames + 1 ∧
      t = { s with regs := t.regs, hp := t.hp } ∧ s.SameRegs t [Reg.hpFrames]) ∧
  (∀ (s : State) (seq : BitVec 24) (bits : Nat) (c : Cmd),
    s.frameCan = true → s.coreOn = true → s.wasAssigned seq.toNat = true → s.cmd? seq.toNat = some c → c.cell = some true →
    ∃ t, exec (.abortFrame seq (.data 1 bits false)) s = .next t ∧
      s.Served t (.abort seq.toNat) (.data 1 bits false) [wordOf (0x02 * 2 ^ 24 + seq.toNat)] ∧
      t.reg Reg.hpFrames = s.reg Reg.hpFrames + 1 ∧ t = { s with regs := t.regs, hp := t.hp } ∧ s.SameRegs t [Reg.hpFrames]) ∧
  (∀ (s : State) (seq : BitVec 24) (bits : Nat) (k : Cmd) (c : Cand),
    s.frameCan = true → s.coreOn = true → s.wasAssigned seq.toNat = true → 0 < seq.toNat → s.cmd? seq.toNat = some k → k.cell = none →
    s.acc.cur ≠ some seq.toNat → k.res = some Reg.schedCmdRes → s.fld Reg.schedCmdRes 0 24 = seq.toNat →
    s.cands.find? (fun c => c.seq == seq.toNat) = some c → c.kind.internal = false → eWarp (s.entryWords c.entry) < s.fifo.warp.length →
    (s.fifo.warp.getD (eWarp (s.entryWords c.entry)) []).length < 64 →
    ∃ t, exec (.abortFrame seq (.data 1 bits false)) s = .next t ∧
      s.Served t (.abort seq.toNat) (.data 1 bits false) [wordOf seq.toNat] ∧ t.cands = s.cands.erase c ∧
      t.cmds = s.cmds.filter (fun k => k.seq != seq.toNat) ∧ t.abortedEnded = seq.toNat :: s.abortedEnded ∧
      t.reg Reg.schedCmdRes = wordOf (2 ^ 31 + 0x01 * 2 ^ 24 + seq.toNat) ∧ t.reg (Reg.schedCnt 3) = s.reg (Reg.schedCnt 3) + 1 ∧
      (∃ r : Rec, r.ty = 3 ∧ r.len = 44 ∧ r.words.head? = some (wordOf (0x01 * 2 ^ 24 + seq.toNat)) ∧ t.fifo = { s.fifo with warp := s.fifo.warp.set (eWarp (s.entryWords c.entry)) (s.fifo.warp.getD (eWarp (s.entryWords c.entry)) [] ++ [r]) }) ∧
      t.reg Reg.hpFrames = s.reg Reg.hpFrames + 1 ∧
      t = { s with regs := t.regs, hp := t.hp, cands := t.cands, cmds := t.cmds, abortedEnded := t.abortedEnded, fifo := t.fifo } ∧
      s.SameRegs t [Reg.hpFrames, Reg.schedCmdRes, Reg.schedCnt 3]) ∧
  (∀ (s : State) (r : Reach) (g : Target),
    s.frameCan = true → reachesAddress r = false → g = Target.ofCode (s.fld Reg.pwrMode 0 2) → g ≠ .active →
    (∀ f ∈ allRefusers, (State.refuses { s.cnt Reg.hpFrames with hp := { s.hp with frame := some (Frame.open_ 0x7A (some .wait) r .response) } } g f) = false) →
    s.tag.session = none → s.mgmt.unsaved ≤ s.logQueued →
    ∃ t, exec (.waitFrame r) s = .next t ∧
      t.phase = .quiesce g ∧
      t.hp = { s.hp with frame := some { op := 0x7A, kind := some .wait, reach := r, phase := .held .wait, token := .none, out := [], trailer := none, lrst := false } } ∧
      t.reg Reg.hpFrames = s.reg Reg.hpFrames + 1 ∧ t = { s with regs := t.regs, hp := t.hp, phase := t.phase } ∧
      s.SameRegs t [Reg.hpFrames]) ∧
  (∀ (s : State),
    s.frameReady = true →
    ∃ t f, exec .lrstFrame s = .next t ∧
      f.lrst = true ∧ t.hp = { s.hp with frame := some f } ∧ t.reg Reg.hpFrames = s.reg Reg.hpFrames + 1 ∧
      t = { s with regs := t.regs, hp := t.hp } ∧ s.SameRegs t [Reg.hpFrames]) ∧
  (∀ (s : State) (op : Byte),
    s.frameReady = true → op ∉ [0x03, 0x02, 0x05, 0x5C, 0x5D, 0x6B, 0x7A, 0x9F, 0xFF] →
    ∃ t f, exec (.unknownOpcodeFrame op) s = .next t ∧
      f.phase = .ignored ∧ t.hp = { s.hp with frame := some f } ∧ t.fld Reg.hpIgnored 0 16 = satN 16 (s.fld Reg.hpIgnored 0 16 + 1) ∧
      t.bit Reg.hpStatus 9 = true ∧ t = { s with regs := t.regs, hp := t.hp } ∧ s.SameRegs t [Reg.hpIgnored, Reg.hpStatus]) ∧
  (∀ (s : State) (op : Byte),
    s.phase = .active → s.sameCycle = false →
    exec (.earlyFrame op) s = .next s)

/-- O9. Select release ends the frame: of a WR frame of one whole word at a plain register in its data phase, that word is performed under the access
codes of the register; of an LRST, HP_LANES and HP_CTRL take their link-safe values; of a frame cut off in its address phase, HP_IGNORED counts and
SHORT_FRAME sets; of a read into a stopped clock, SYS_ACC_STAT names the access and ABANDON is raised. HUNG_ACCESS_COMPLETE lets an FDROP held by a
stopped CORE, which runs again, start its response. FRD_STALL_TIMEOUT gives a waiting FRD its empty token and sets STALL_TO. -/
def Obligations.FrameEnds : Prop :=
  (∀ (s : State) (f : Frame) (a : Nat) (w : Word),
    s.hp.frame = some f → f.lrst = false → f.phase = .data → f.kind = some (.wr a [w] ⟨0, 0⟩) → s.regsWf = true →
    s.bit Reg.hpCtrl 0 = false → s.tag.queue = [] → s.clockRuns (alignWord a) = true → s.addrClass (alignWord a) = .word →
    inTagStore (alignWord a) = false → groupOf (alignWord a) = none → plainReg (alignWord a) = true →
    s.wordOk (alignWord a) (s.merged (alignWord a) w) = true →
    ∃ t, exec .selectRelease s = .next t ∧
      t.hp = { s.hp with frame := none, last := some f } ∧ t.reg (alignWord a) = s.merged (alignWord a) w ∧
      t = { s with regs := t.regs, hp := t.hp, acc := t.acc } ∧ s.SameRegs t [alignWord a]) ∧
  (∀ (s : State) (f : Frame),
    s.hp.frame = some f → f.lrst = true → s.tag.queue = [] → s.regsWf = true →
    ∃ t, exec .selectRelease s = .next t ∧
      t.hp = { s.hp with frame := none, last := some f } ∧ t.reg Reg.hpLanes = 0 ∧ t.reg Reg.hpCtrl = 0x10 ∧
      t = { s with regs := t.regs, hp := t.hp } ∧ s.SameRegs t [Reg.hpLanes, Reg.hpCtrl]) ∧
  (∀ (s : State) (f : Frame),
    s.hp.frame = some f → f.lrst = false → f.phase = .opcode → s.tag.queue = [] → s.regsWf = true →
    ∃ t, exec .selectRelease s = .next t ∧
      t.hp = { s.hp with frame := none, last := some f } ∧ t.fld Reg.hpIgnored 0 16 = satN 16 (s.fld Reg.hpIgnored 0 16 + 1) ∧
      t.bit Reg.hpStatus 8 = true ∧ t = { s with regs := t.regs, hp := t.hp } ∧ s.SameRegs t [Reg.hpIgnored, Reg.hpStatus]) ∧
  (∀ (s : State) (f : Frame) (a : Nat),
    s.hp.frame = some f → f.lrst = false → f.phase = .held .clock → f.kind = some (.rd a) → f.out = [] → s.tag.queue = [] →
    s.regsWf = true →
    ∃ t, exec .selectRelease s = .next t ∧
      t.reg Reg.sysAccStat = wordOf (2 ^ 31 + (accRegion (alignWord a)).1 * 256 + (accRegion (alignWord a)).2) ∧
      t.bit Reg.hpStatus 1 = true ∧ t.bit Reg.sysIrqPend 13 = true ∧
      t.hp = { s.hp with frame := none, last := some f, flags := s.hp.flags ||| 1 } ∧ t = { s with regs := t.regs, hp := t.hp } ∧
      s.SameRegs t [Reg.sysAccStat, Reg.hpStatus, Reg.sysIrqPend]) ∧
  (∀ (s : State) (f : Frame),
    s.hp.frame = some f → f.phase = .held .clock → f.kind = some .fdrop → f.reach = .response → s.coreOn = true → s.wrPend = false →
    exec .hungAccessComplete s = .next { s with hp := { s.hp with frame := some { f with phase := .response } } }) ∧
  (∀ (s : State) (f : Frame),
    s.hp.frame = some f → f.phase = .held .fifo → s.fld Reg.hpStallLimit 0 16 ≠ 0 → s.bit Reg.hpCtrl 0 = false → s.regsWf = true →
    ∃ t, exec .frdStallTimeout s = .next t ∧
      t.hp = { s.hp with frame := some { f with token := .empty, phase := .data }, flags := s.hp.flags ||| 16 } ∧
      t.bit Reg.hpStatus 5 = true ∧ t = { s with regs := t.regs, hp := t.hp } ∧ s.SameRegs t [Reg.hpStatus])

/-- O10. A write that is performed puts the merged word into a register that only stores: RW bits take the new value, W1C bits written one clear, all
others stay. One that would give a field a rejected code, or that lies in a hole, changes no register. One beyond its bank sets ADDR_OVER. A low word
of a value that its high word commits is staged and changes no register. PING_THR and MGMT_LOG_SEL are two such registers. -/
def Obligations.RegisterWritesFollowTheirAccessCodes : Prop :=
  (∀ (s : State) (addr : BitVec 24) (value : Word),
    s.hostCan (alignWord addr.toNat) = true → s.addrClass (alignWord addr.toNat) = .word → inTagStore (alignWord addr.toNat) = false →
    groupOf (alignWord addr.toNat) = none → plainReg (alignWord addr.toNat) = true →
    s.wordOk (alignWord addr.toNat) (s.merged (alignWord addr.toNat) value) = true →
    ∃ t, exec (.registerWrite addr value) s = .next t ∧
      t.reg (alignWord addr.toNat) = s.merged (alignWord addr.toNat) value ∧ t = { s with regs := t.regs, acc := t.acc } ∧
      s.SameRegs t [alignWord addr.toNat, Reg.hpFrames]) ∧
  (∀ (s : State) (addr : BitVec 24) (value : Word),
    s.hostCan (alignWord addr.toNat) = true → s.addrClass (alignWord addr.toNat) = .word → inTagStore (alignWord addr.toNat) = false →
    groupOf (alignWord addr.toNat) = none → plainReg (alignWord addr.toNat) = true →
    s.wordOk (alignWord addr.toNat) (s.merged (alignWord addr.toNat) value) = false →
    ∃ t, exec (.registerWrite addr value) s = .next t ∧
      t = { s with regs := t.regs, acc := t.acc } ∧ s.SameRegs t [Reg.hpFrames]) ∧
  (∀ (s : State) (addr : BitVec 24) (value : Word),
    s.hostCan (alignWord addr.toNat) = true → s.addrClass (alignWord addr.toNat) = .hole →
    ∃ t, exec (.registerWrite addr value) s = .next t ∧
      t = { s with regs := t.regs, acc := t.acc } ∧ s.SameRegs t [Reg.hpFrames]) ∧
  (∀ (s : State) (addr : BitVec 24) (value : Word),
    s.hostCan (alignWord addr.toNat) = true → s.addrClass (alignWord addr.toNat) = .beyond →
    ∃ t, exec (.registerWrite addr value) s = .next t ∧
      t.bit Reg.hpStatus 7 = true ∧ t.hp = { s.hp with flags := s.hp.flags ||| 64 } ∧
      t = { s with regs := t.regs, hp := t.hp, acc := t.acc } ∧ s.SameRegs t [Reg.hpStatus, Reg.hpFrames]) ∧
  (∀ (s : State) (addr : BitVec 24) (value : Word) (lo n : Nat),
    s.hostCan (alignWord addr.toNat) = true → s.addrClass (alignWord addr.toNat) = .word → inTagStore (alignWord addr.toNat) = false →
    groupOf (alignWord addr.toNat) = some (lo, n, true) → alignWord addr.toNat ≠ lo + 4 * (n - 1) →
    swf (fun _ => (none : Option Word)) s.staging = true →
    ∃ t, exec (.registerWrite addr value) s = .next t ∧
      t.staged (alignWord addr.toNat) = some value ∧ (∀ b, b ≠ alignWord addr.toNat → t.staged b = s.staged b) ∧
      t = { s with regs := t.regs, staging := t.staging, acc := t.acc } ∧ s.SameRegs t [Reg.hpFrames]) ∧
  (∀ (s : State) (value : Word),
    s.hostCan Reg.pingThr = true → fieldN value 10 10 < fieldN value 0 10 → fieldN value 0 10 < fieldN value 20 10 →
    ∃ t, exec (.pingThrWrite value) s = .next t ∧
      t.fld Reg.pingThr 0 30 = value.toNat % 2 ^ 30 ∧ t = { s with regs := t.regs, acc := t.acc } ∧ s.SameRegs t [Reg.pingThr, Reg.hpFrames]) ∧
  (∀ (s : State) (seq : Word),
    s.hostCan Reg.mgmtLogSel = true →
    ∃ t, exec (.mgmtLogSelWrite seq) s = .next t ∧
      t.reg Reg.mgmtLogSel = seq ∧ t = { s with regs := t.regs, acc := t.acc } ∧ s.SameRegs t [Reg.mgmtLogSel, Reg.hpFrames])

/-- O11. A read of HP_IGNORED gives its count and clears it; of PORT_LAST_FAULT gives the word and clears its count; of FIFO_STAT gives the word, after
which the high-water mark is the present level; of TAG_FIELD_LAST, once loaded, gives the record and clears its count. A read of the low word of a
multi-word value gives it and latches the other words as they are at that instant. Nothing else changes but the last frame received. -/
def Obligations.ReadsThatClear : Prop :=
  (∀ (s : State),
    s.hostCan Reg.hpIgnored = true →
    ∃ t, exec .hpIgnoredRead s = .next t ∧
      s.ReadBack t Reg.hpIgnored (s.reg Reg.hpIgnored) ∧ t.reg Reg.hpIgnored = 0 ∧ t = { s with regs := t.regs, hp := t.hp } ∧
      s.SameRegs t [Reg.hpIgnored, Reg.hpFrames]) ∧
  (∀ (s : State),
    s.hostCan Reg.portLastFault = true →
    ∃ t, exec .portLastFaultRead s = .next t ∧
      s.ReadBack t Reg.portLastFault (s.reg Reg.portLastFault) ∧ t.fld Reg.portLastFault 24 8 = 0 ∧
      t.fld Reg.portLastFault 0 24 = s.fld Reg.portLastFault 0 24 ∧ t = { s with regs := t.regs, hp := t.hp } ∧
      s.SameRegs t [Reg.portLastFault, Reg.hpFrames]) ∧
  (∀ (s : State),
    s.hostCan Reg.fifoStat = true → s.fifo.bytes < 2 ^ 18 →
    ∃ t, exec .fifoStatRead s = .next t ∧
      s.ReadBack t Reg.fifoStat (s.reg Reg.fifoStat) ∧ t.fld Reg.fifoStat 14 18 = s.fifo.bytes ∧
      t.fld Reg.fifoStat 0 14 = s.fld Reg.fifoStat 0 14 ∧ t = { s with regs := t.regs, hp := t.hp } ∧
      s.SameRegs t [Reg.fifoStat, Reg.hpFrames]) ∧
  (∀ (s : State),
    s.hostCan Reg.tagFieldLast = true → s.tag.loaded = true →
    ∃ t, exec .tagFieldLastRead s = .next t ∧
      s.ReadBack t Reg.tagFieldLast (wordOf (s.tag.fieldCount * 2 ^ 24 + s.tag.fieldCrumb)) ∧ t.tag = { s.tag with fieldCount := 0 } ∧
      t = { s with regs := t.regs, hp := t.hp, tag := t.tag } ∧ s.SameRegs t [Reg.hpFrames]) ∧
  (∀ (s : State) (addr : BitVec 24) (n : Nat) (host : Bool),
    s.hostCan (alignWord addr.toNat) = true → s.addrClass (alignWord addr.toNat) = .word →
    groupOf (alignWord addr.toNat) = some (alignWord addr.toNat, n, host) → inTagStore (alignWord addr.toNat) = false →
    swf (fun _ => (0 : Word)) s.latches = true →
    ∃ t, exec (.multiWordLowRead addr) s = .next t ∧
      s.ReadBack t (alignWord addr.toNat) (s.viewWord (alignWord addr.toNat)) ∧
      (∀ k < n, 0 < k → t.latch (alignWord addr.toNat + 4 * k) = s.viewWord (alignWord addr.toNat + 4 * k)) ∧
      (∀ b, (∀ k < n, 0 < k → b ≠ alignWord addr.toNat + 4 * k) → t.latch b = s.latch b) ∧
      t = { s with regs := t.regs, latches := t.latches, hp := t.hp } ∧ s.SameRegs t [Reg.hpFrames])

/-- O12. LEG_LINK_COMMIT and CRC_PRESET_COMMIT put the merged words of the profile or user preset into its registers when they are valid together; when
not, none of them changes and BAD_LINK or BAD_PRESET sets. The factory presets 0 to 4 take no write. UMA_LINK_WRITE does the same for one word.
UPD_UTC_WRITE puts its three words into UPD_UTC and sets UTC_VALID. TIME_BASE_WRITE sets the time base. The staging buffers of the value are empty
after it. -/
def Obligations.ProfilesCommitWhole : Prop :=
  (∀ (s : State) (k : Fin 8) (a b : Word),
    s.hostCan (Reg.legLinkA k) = true → s.legLinkOk (s.merged (Reg.legLinkA k) a) (s.merged (Reg.legLinkB k) b) = true →
    ∃ t, exec (.legLinkCommit k a b) s = .next t ∧
      t.reg (Reg.legLinkA k) = s.merged (Reg.legLinkA k) a ∧ t.reg (Reg.legLinkB k) = s.merged (Reg.legLinkB k) b ∧
      t.staging = serase (fun x => decide (Reg.legLinkA k ≤ x) && decide (x < Reg.legLinkA k + 8)) s.staging ∧
      t = { s with regs := t.regs, staging := t.staging, acc := t.acc } ∧ s.SameRegs t [Reg.legLinkA k, Reg.legLinkB k, Reg.hpFrames]) ∧
  (∀ (s : State) (k : Fin 8) (a b : Word),
    s.hostCan (Reg.legLinkA k) = true → s.legLinkOk (s.merged (Reg.legLinkA k) a) (s.merged (Reg.legLinkB k) b) = false →
    ∃ t, exec (.legLinkCommit k a b) s = .next t ∧
      t.bit Reg.legStat 0 = true ∧ t.staging = serase (fun x => decide (Reg.legLinkA k ≤ x) && decide (x < Reg.legLinkA k + 8)) s.staging ∧
      t = { s with regs := t.regs, staging := t.staging, acc := t.acc } ∧ s.SameRegs t [Reg.legStat, Reg.hpFrames]) ∧
  (∀ (s : State) (k : Fin 8) (value : Word),
    s.hostCan (Reg.umaLink k) = true → s.umaLinkOk (s.merged (Reg.umaLink k) value) = true →
    ∃ t, exec (.umaLinkWrite k value) s = .next t ∧
      t.reg (Reg.umaLink k) = s.merged (Reg.umaLink k) value ∧ t = { s with regs := t.regs, acc := t.acc } ∧
      s.SameRegs t [Reg.umaLink k, Reg.hpFrames]) ∧
  (∀ (s : State) (k : Fin 8) (value : Word),
    s.hostCan (Reg.umaLink k) = true → s.umaLinkOk (s.merged (Reg.umaLink k) value) = false →
    ∃ t, exec (.umaLinkWrite k value) s = .next t ∧
      t.bit Reg.umaStat 0 = true ∧ t = { s with regs := t.regs, acc := t.acc } ∧ s.SameRegs t [Reg.umaStat, Reg.hpFrames]) ∧
  (∀ (s : State) (k : Fin 8) (cfg poly init xor : Word),
    s.hostCan (0x3C000 + 16 * k.val) = true → 5 ≤ k.val →
    crcPresetOk (s.merged (0x3C000 + 16 * k.val) cfg) (s.merged (0x3C004 + 16 * k.val) poly) (s.merged (0x3C008 + 16 * k.val) init) (s.merged (0x3C00C + 16 * k.val) xor) = true →
    ∃ t, exec (.crcPresetCommit k cfg poly init xor) s = .next t ∧
      t.reg (0x3C000 + 16 * k.val) = s.merged (0x3C000 + 16 * k.val) cfg ∧
      t.reg (0x3C004 + 16 * k.val) = s.merged (0x3C004 + 16 * k.val) poly ∧
      t.reg (0x3C008 + 16 * k.val) = s.merged (0x3C008 + 16 * k.val) init ∧
      t.reg (0x3C00C + 16 * k.val) = s.merged (0x3C00C + 16 * k.val) xor ∧
      t.staging = serase (fun x => decide (0x3C000 + 16 * k.val ≤ x) && decide (x < 0x3C010 + 16 * k.val)) s.staging ∧
      t = { s with regs := t.regs, staging := t.staging, acc := t.acc } ∧
      s.SameRegs t [0x3C000 + 16 * k.val, 0x3C004 + 16 * k.val, 0x3C008 + 16 * k.val, 0x3C00C + 16 * k.val, Reg.hpFrames]) ∧
  (∀ (s : State) (k : Fin 8) (cfg poly init xor : Word),
    s.hostCan (0x3C000 + 16 * k.val) = true → 5 ≤ k.val →
    crcPresetOk (s.merged (0x3C000 + 16 * k.val) cfg) (s.merged (0x3C004 + 16 * k.val) poly) (s.merged (0x3C008 + 16 * k.val) init) (s.merged (0x3C00C + 16 * k.val) xor) = false →
    ∃ t, exec (.crcPresetCommit k cfg poly init xor) s = .next t ∧
      t.bit Reg.crcStat 1 = true ∧
      t.staging = serase (fun x => decide (0x3C000 + 16 * k.val ≤ x) && decide (x < 0x3C010 + 16 * k.val)) s.staging ∧
      t = { s with regs := t.regs, staging := t.staging, acc := t.acc } ∧ s.SameRegs t [Reg.crcStat, Reg.hpFrames]) ∧
  (∀ (s : State) (k : Fin 8) (cfg poly init xor : Word),
    s.hostCan (0x3C000 + 16 * k.val) = true → k.val < 5 →
    ∃ t, exec (.crcPresetCommit k cfg poly init xor) s = .next t ∧
      t.staging = serase (fun x => decide (0x3C000 + 16 * k.val ≤ x) && decide (x < 0x3C010 + 16 * k.val)) s.staging ∧
      t = { s with regs := t.regs, staging := t.staging, acc := t.acc } ∧ s.SameRegs t [Reg.hpFrames]) ∧
  (∀ (s : State) (u0 u1 u2 : Word),
    s.hostCan (Reg.updUtc 0) = true →
    ∃ t, exec (.updUtcWrite u0 u1 u2) s = .next t ∧
      t.reg (Reg.updUtc 0) = s.merged (Reg.updUtc 0) u0 ∧ t.reg (Reg.updUtc 1) = s.merged (Reg.updUtc 1) u1 ∧
      t.reg (Reg.updUtc 2) = s.merged (Reg.updUtc 2) u2 ∧ t.bit Reg.updStat 20 = true ∧
      t.staging = serase (fun x => decide (Reg.updUtc 0 ≤ x) && decide (x < Reg.updUtc 0 + 12)) s.staging ∧
      t = { s with regs := t.regs, staging := t.staging, acc := t.acc } ∧
      s.SameRegs t [Reg.updUtc 0, Reg.updUtc 1, Reg.updUtc 2, Reg.updStat, Reg.hpFrames]) ∧
  (∀ (s : State) (value : BitVec 64),
    s.frameReady = true →
    ∃ t, exec (.timeBaseWrite value) s = .next t ∧
      t.reg Reg.hpFrames = s.reg Reg.hpFrames + 1 ∧ t.timeBase = value ∧ t = { s with regs := t.regs, timeBase := t.timeBase } ∧
      s.SameRegs t [Reg.hpFrames])

/-- O13. CRC_START with a valid preset begins a computation with the preset's words and its initial value and clears the count; with an invalid one no
computation stands and HOST_ERR sets. With a computation, a write of HWIN enters its 32 bits, byte 0 first and each byte as REFIN says, and HBITS its
n bits, most significant first; the count goes up by the bits entered. HBITS with n of 0 or above 24, and any bits without a computation, are ignored. -/
def Obligations.HostCrcComputation : Prop :=
  (∀ (s : State) (preset : Fin 8),
    s.hostCan Reg.crcHctrl = true → s.bit (0x3C000 + 16 * preset.val) 31 = true →
    ∃ t, exec (.crcStart preset) s = .next t ∧
      t.crcHost = some ([s.reg (0x3C000 + 16 * preset.val), s.reg (0x3C004 + 16 * preset.val), s.reg (0x3C008 + 16 * preset.val), s.reg (0x3C00C + 16 * preset.val)], (s.reg (0x3C008 + 16 * preset.val)).toNat) ∧
      t.reg Reg.crcHcount = 0 ∧ t = { s with regs := t.regs, crcHost := t.crcHost, acc := t.acc } ∧
      s.SameRegs t [Reg.crcHcount, Reg.hpFrames]) ∧
  (∀ (s : State) (preset : Fin 8),
    s.hostCan Reg.crcHctrl = true → s.bit (0x3C000 + 16 * preset.val) 31 = false →
    ∃ t, exec (.crcStart preset) s = .next t ∧
      t.crcHost = none ∧ t.bit Reg.crcStat 0 = true ∧ t = { s with regs := t.regs, crcHost := t.crcHost, acc := t.acc } ∧
      s.SameRegs t [Reg.crcHcount, Reg.crcStat, Reg.hpFrames]) ∧
  (∀ (s : State) (k : Fin 256) (value : Word) (p : List Word) (r : Nat),
    s.hostCan (Reg.crcHwin k) = true → s.crcHost = some (p, r) →
    ∃ t, exec (.crcHwinWrite k value) s = .next t ∧
      t.crcHost = some (p, crcBits (fieldN (p.getD 0 0) 0 6) (p.getD 1 0).toNat r (bytesBits (bitN (p.getD 0 0) 30) (bytesOfWord value))) ∧
      t.reg Reg.crcHcount = s.reg Reg.crcHcount + 32 ∧ t = { s with regs := t.regs, crcHost := t.crcHost, acc := t.acc } ∧
      s.SameRegs t [Reg.crcHcount, Reg.hpFrames]) ∧
  (∀ (s : State) (value : Word) (p : List Word) (r : Nat),
    s.hostCan Reg.crcHbits = true → s.crcHost = some (p, r) → 1 ≤ fieldN value 24 5 → fieldN value 24 5 ≤ 24 →
    ∃ t, exec (.crcHbitsWrite value) s = .next t ∧
      t.crcHost = some (p, crcBits (fieldN (p.getD 0 0) 0 6) (p.getD 1 0).toNat r (bitsHigh (fieldN value 24 5) (fieldN value 0 24))) ∧
      t.reg Reg.crcHcount = s.reg Reg.crcHcount + wordOf (fieldN value 24 5) ∧
      t = { s with regs := t.regs, crcHost := t.crcHost, acc := t.acc } ∧ s.SameRegs t [Reg.crcHcount, Reg.hpFrames]) ∧
  (∀ (s : State) (value : Word),
    s.hostCan Reg.crcHbits = true → (s.crcHost = none ∨ fieldN value 24 5 = 0 ∨ 24 < fieldN value 24 5) →
    ∃ t, exec (.crcHbitsWrite value) s = .next t ∧
      t = { s with regs := t.regs, acc := t.acc } ∧ s.SameRegs t [Reg.hpFrames])

/-- O14. A START that names a preset with VALID = 0 sets HOST_ERR and ends any computation. While there is none, as after that START and as from reset on,
words written to the window and bits written to HBITS are ignored, CRC_HRES reads zero, and it stays so; a START with a valid preset sets a
computation up, to which data enter again. A core reset of any cause ends a host computation. -/
def Obligations.HostCrcNeedsAValidStart : Prop :=
  (∀ (s : State) (preset : Fin 8),
    s.hostCan Reg.crcHctrl = true → s.bit (0x3C000 + 16 * preset.val) 31 = false →
    ∃ t, exec (.crcStart preset) s = .next t ∧
      t.bit Reg.crcStat 0 = true ∧ t.crcHost = none ∧ t.derived Reg.crcHres = some 0 ∧
      t = { s with regs := t.regs, crcHost := t.crcHost, acc := t.acc } ∧ s.SameRegs t [Reg.crcHcount, Reg.crcStat, Reg.hpFrames]) ∧
  (State.reset.crcHost = none ∧ State.reset.derived Reg.crcHres = some 0) ∧
  (∀ (s : State) (k : Fin 256) (value : Word),
    s.hostCan (Reg.crcHwin k) = true → s.crcHost = none →
    ∃ t, exec (.crcHwinWrite k value) s = .next t ∧
      t.crcHost = none ∧ t.derived Reg.crcHres = some 0 ∧ t = { s with regs := t.regs, acc := t.acc } ∧ s.SameRegs t [Reg.hpFrames]) ∧
  (∀ (s : State) (value : Word),
    s.hostCan Reg.crcHbits = true → s.crcHost = none →
    ∃ t, exec (.crcHbitsWrite value) s = .next t ∧
      t.crcHost = none ∧ t.derived Reg.crcHres = some 0 ∧ t = { s with regs := t.regs, acc := t.acc } ∧ s.SameRegs t [Reg.hpFrames]) ∧
  (∀ (s : State) (preset : Fin 8) (k : Fin 256) (value : Word),
    s.hostCan Reg.crcHctrl = true → s.bit (0x3C000 + 16 * preset.val) 31 = true →
    ∃ t, exec (.crcStart preset) s = .next t ∧
      t.reg Reg.crcHcount = 0 ∧ t.crcHost ≠ none ∧
      (∃ u, exec (.crcHwinWrite k value) t = .next u ∧ u.reg Reg.crcHcount = 32 ∧ u.crcHost = some ([s.reg (0x3C000 + 16 * preset.val), s.reg (0x3C004 + 16 * preset.val), s.reg (0x3C008 + 16 * preset.val), s.reg (0x3C00C + 16 * preset.val)], crcBits (s.fld (0x3C000 + 16 * preset.val) 0 6) (s.reg (0x3C004 + 16 * preset.val)).toNat (s.reg (0x3C008 + 16 * preset.val)).toNat (bytesBits (s.bit (0x3C000 + 16 * preset.val) 30) (bytesOfWord value))))) ∧
  (∀ (s : State) (c : Cause),
    s.resets = [c] → s.regsWf = true →
    ∃ t, exec .resetEffect s = .next t ∧
      t.crcHost = none)

/-- O15. CLK_REFCTRL_WRITE stores SRC; when REF is not where SRC and REFIN want it, the slew of R74 begins, else not. MGMT_CFG_STANDBY_WRITE set to 1 with
the other half OFF makes that half load the firmware in use; set to 0 with it not OOS and no update ARMED takes it to OFF. A wire write of the sixteen
words of a free crumb, with none of its bytes read only and none staged before it, starts one crumb write of its 64 bytes. -/
def Obligations.WritesThatSelect : Prop :=
  (∀ (s : State) (src : Bool),
    s.hostCan Reg.clkRefctrl = true → (s.bit Reg.clkRefstat 2 && !src) ≠ s.bit Reg.clkRefstat 0 →
    ∃ t, exec (.clkRefctrlWrite src) s = .next t ∧
      t.bit Reg.clkRefctrl 0 = src ∧ t.bit Reg.clkRefstat 4 = true ∧ t = { s with regs := t.regs, acc := t.acc } ∧
      s.SameRegs t [Reg.clkRefctrl, Reg.clkRefstat, Reg.hpFrames]) ∧
  (∀ (s : State) (src : Bool),
    s.hostCan Reg.clkRefctrl = true → (s.bit Reg.clkRefstat 2 && !src) = s.bit Reg.clkRefstat 0 →
    ∃ t, exec (.clkRefctrlWrite src) s = .next t ∧
      t.bit Reg.clkRefctrl 0 = src ∧ t = { s with regs := t.regs, acc := t.acc } ∧ s.SameRegs t [Reg.clkRefctrl, Reg.hpFrames]) ∧
  (∀ (s : State) (h : Bool),
    s.hostCan Reg.mgmtCfg = true → s.mgmt.running = some h → s.bit Reg.mgmtCfg 0 = false → s.wordOk Reg.mgmtCfg (s.reg Reg.mgmtCfg) = true →
    s.halfState (!h) = 0 →
    ∃ t, exec (.mgmtCfgStandbyWrite true) s = .next t ∧
      t.bit Reg.mgmtCfg 0 = true ∧ t.halfState (!h) = 1 ∧ (t.xipBase (!h) = if s.fwActive then 7 else 1) ∧
      t = { s with regs := t.regs, acc := t.acc } ∧ s.SameRegs t [Reg.mgmtCfg, Reg.mgmtStat, Reg.mempXip, Reg.hpFrames]) ∧
  (∀ (s : State) (h : Bool),
    s.hostCan Reg.mgmtCfg = true → s.mgmt.running = some h → s.bit Reg.mgmtCfg 0 = true → s.wordOk Reg.mgmtCfg (s.reg Reg.mgmtCfg) = true →
    s.halfState (!h) ≠ 5 → s.updState ≠ 3 → s.mgmt.handover = none →
    ∃ t, exec (.mgmtCfgStandbyWrite false) s = .next t ∧
      t.bit Reg.mgmtCfg 0 = false ∧ t.halfState (!h) = 0 ∧ t = { s with regs := t.regs, acc := t.acc } ∧
      s.SameRegs t [Reg.mgmtCfg, Reg.mgmtStat, Reg.hpFrames]) ∧
  (∀ (s : State) (h : Bool) (x : Bool),
    s.hostCan Reg.mgmtCfg = true → s.mgmt.running = some h → s.bit Reg.mgmtCfg 0 = true → s.wordOk Reg.mgmtCfg (s.reg Reg.mgmtCfg) = true →
    s.halfState (!h) ≠ 5 → s.updState ≠ 3 → s.mgmt.handover = some x →
    (∀ c ∈ s.cmds, c.res ≠ some Reg.mgmtCfg ∧ c.res ≠ some Reg.mgmtStat) →
    ∃ t, exec (.mgmtCfgStandbyWrite false) s = .next t ∧
      t.bit Reg.mgmtCfg 0 = false ∧ t.halfState (!h) = 0 ∧ t.mgmt = { s.mgmt with handover := none, handCkpt := false } ∧
      t.cmds = s.cmds.filter (fun c => !s.cmds.any (fun d => d.seq == c.seq && match d.kind with | .mgmtOut _ => true | _ => false)) ∧
      t.upd = { s.upd with fallback := t.upd.fallback } ∧
      t = { s with regs := t.regs, acc := t.acc, mgmt := t.mgmt, upd := t.upd, cmds := t.cmds, abortedEnded := t.abortedEnded } ∧
      s.SameRegs t (Reg.hpFrames :: ([Reg.mgmtCfg, Reg.mgmtStat, Reg.hpFrames] ++ s.cmds.filterMap (fun c => c.res)))) ∧
  (∀ (s : State) (crumb : Fin 128) (words : List Word),
    s.hostCan (0x480000 + 64 * crumb.val) = true → s.tag.loaded = true → words.length = 16 → 3 ≤ crumb.val → s.crumbOos crumb = false →
    s.tag.job = none → s.tag.queue = [] → s.hp.posted = [] → s.staging = [] →
    ∃ t j, exec (.wireCrumbWrite crumb words) s = .next t ∧
      t.tag = { s.tag with job := some j } ∧ j.crumb = crumb.val ∧ j.who = .wire ∧ j.failed = false ∧ j.patch.length = 64 ∧
      (∀ m < 16, ∀ b < 4, j.patch[4 * m + b]? = some (4 * m + b, (bytesOfWord (words.getD m 0)).getD b 0)) ∧
      t = { s with regs := t.regs, tag := t.tag, acc := t.acc } ∧ s.SameRegs t [Reg.hpFrames])

/-- O16. With every illuminator off, SOFT_RESET puts a core reset of cause SOFT among the resets triggered. PROOF_CMD begins a proof of the slot (SLOT in
CANDIDATE, STAGE 1, its verdict to come) when a half runs, no draft is live, no proof is in progress and the slot is one of 0 to 4; otherwise only
CMD_BUSY of SYS_DRAFT_STAT sets. -/
def Obligations.SoftResetAndProof : Prop :=
  (∀ (s : State),
    s.hostCan Reg.sysCtrl = true → s.txcsOn = [] → s.resets = [] →
    ∃ t, exec .softReset s = .next t ∧
      t.resets = [.soft] ∧ t = { s with regs := t.regs, resets := t.resets, acc := t.acc } ∧ s.SameRegs t [Reg.hpFrames]) ∧
  (∀ (s : State) (slot : BitVec 3),
    s.hostCan Reg.sysProofCmd = true → s.ready rdMgmt = true → s.halfRuns = true → s.ready rdDraft = false → s.upd.proof = none →
    slot.toNat ≤ 4 →
    ∃ t, exec (.proofCmd slot) s = .next t ∧
      t.upd.proof = some slot.toNat ∧ t.upd.liveSlot = slot.toNat ∧ t.fld Reg.sysDraftStat 8 8 = slot.toNat ∧
      t.fld Reg.sysDraftStat 4 4 = 1 ∧ t.bit Reg.sysDraftStat 0 = true ∧ t.bit Reg.sysDraftStat 2 = s.bit Reg.sysDraftStat 2 ∧
      t.upd = { s.upd with proof := t.upd.proof, liveSlot := t.upd.liveSlot, fromStaging := t.upd.fromStaging } ∧
      t.memp = { s.memp with queue := t.memp.queue, waiting := t.memp.waiting } ∧
      t = { s with regs := t.regs, upd := t.upd, memp := t.memp, freeCtr := t.freeCtr, acc := t.acc } ∧
      s.SameRegs t [Reg.sysDraftStat, Reg.hpFrames]) ∧
  (∀ (s : State) (slot : BitVec 3),
    s.hostCan Reg.sysProofCmd = true →
    (s.ready rdMgmt = false ∨ s.halfRuns = false ∨ s.ready rdDraft = true ∨ s.upd.proof ≠ none ∨ 4 < slot.toNat) →
    ∃ t, exec (.proofCmd slot) s = .next t ∧
      t.reg Reg.sysDraftStat = setBitN (s.reg Reg.sysDraftStat) 2 true ∧ t = { s with regs := t.regs, acc := t.acc } ∧
      s.SameRegs t [Reg.sysDraftStat, Reg.hpFrames])

/-- O17. OUT of an illuminator in service gives it reason HOST and clears its ready bit; with no round on it the command has completed with OK when
accepted, otherwise it stays live and the round drains. RETURN of one out of service starts its calibration (RAMP is CAL) and stays live. OUT of a
port sets its OOS bit and completes with OK when no round uses it, or else drains the rounds that do. RETURN of an Intact port out of service
calibrates the geometries that use it and stays live; with none, it is in service at once. Each assigns the next number and shows it; nothing else
changes. -/
def Obligations.IlluminatorAndPortOrders : Prop :=
  (∀ (s : State) (n : Fin 4),
    s.canIssue (Reg.txcCmd n) = true → s.ready rdDraft = true → s.txcUsed n = true → s.txReason n = 0 → s.ready (rdTxc n) = true →
    s.ramp n ≠ 5 → s.cmds = [] → s.cands = [] → s.roundOfTxc n = none →
    ∃ t, exec (.txcOut n) s = .next t ∧
      s.Completed t (Reg.txcCmdRes n) .ok ∧ t.txReason n = 1 ∧ t.ready (rdTxc n) = false ∧ (∀ m, m ≠ n.val → t.tx m = s.tx m) ∧
      t.tx n = { s.tx n with calibrating := false } ∧ t = { s.issuing t with txc := t.txc } ∧
      s.SameRegs t (issueRegs (Reg.txcCmdRes n) ++ [Reg.txcStat n, Reg.sysReady])) ∧
  (∀ (s : State) (n : Fin 4),
    s.canIssue (Reg.txcCmd n) = true → s.ready rdDraft = true → s.txcUsed n = true → s.txReason n = 0 → s.ready (rdTxc n) = true →
    s.ramp n ≠ 5 → s.cmds = [] → s.cands = [] → s.roundOfTxc n ≠ none →
    ∃ t, exec (.txcOut n) s = .next t ∧
      s.Accepted t (Reg.txcCmdRes n) (.txcOut n) (some true) ∧ t.txReason n = 1 ∧ t.ready (rdTxc n) = false ∧
      (t.rounds = s.rounds.map (fun r => if r.txc = some n.val then { r with draining := true } else r)) ∧
      t.tx n = { s.tx n with calibrating := false } ∧ t = { s.issuing t with txc := t.txc, rounds := t.rounds } ∧
      s.SameRegs t (issueRegs (Reg.txcCmdRes n) ++ [Reg.txcStat n, Reg.sysReady])) ∧
  (∀ (s : State) (n : Fin 4),
    s.canIssue (Reg.txcCmd n) = true → s.ready rdDraft = true → s.txcUsed n = true → s.txReason n ≠ 0 → s.txcHot n = false → s.hot = [] →
    s.tap ≠ .extest → s.cmds = [] → (s.tx n).calibrating = false → s.roundOfTxc n = none → s.noAnt = true → s.mgmt.takeover = none →
    ∃ t, exec (.txcReturn n) s = .next t ∧
      s.Accepted t (Reg.txcCmdRes n) (.txcReturn n) (some true) ∧ t.ramp n = 5 ∧ t.txReason n = s.txReason n ∧
      t.txc = updAt s.txc n (fun x => { x with calibrating := true }) ∧ t = { s.issuing t with txc := t.txc } ∧
      s.SameRegs t (issueRegs (Reg.txcCmdRes n) ++ [Reg.txcStat n])) ∧
  (∀ (s : State) (p : Fin 64),
    s.canIssue Reg.portCmd = true → s.portNamed p = true → s.portOos p = false → s.cmds = [] →
    s.rounds.all (fun r => !s.roundUsesPort r p) = true → s.noAnt = true →
    ∃ t, exec (.portOut p) s = .next t ∧
      s.Completed t Reg.portCmdRes .ok ∧
      t.reg (Reg.portState (p.val / 8)) = setBitN (s.reg (Reg.portState (p.val / 8))) (4 * (p.val % 8) + 3) true ∧ t = s.issuing t ∧
      s.SameRegs t (issueRegs Reg.portCmdRes ++ [Reg.portState (p.val / 8)])) ∧
  (∀ (s : State) (p : Fin 64),
    s.canIssue Reg.portCmd = true → s.portNamed p = true → s.portOos p = false → s.cmds = [] →
    s.rounds.any (fun r => s.roundUsesPort r p) = true → s.noAnt = true →
    ∃ t, exec (.portOut p) s = .next t ∧
      s.Accepted t Reg.portCmdRes (.portOut p) (some true) ∧ t.portOos p = true ∧
      (t.rounds = s.rounds.map (fun r => if s.roundUsesPort r p then { r with draining := true } else r)) ∧
      t = { s.issuing t with rounds := t.rounds } ∧ s.SameRegs t (issueRegs Reg.portCmdRes ++ [Reg.portState (p.val / 8)])) ∧
  (∀ (s : State) (p : Fin 64) (g : Geometry),
    s.canIssue Reg.portCmd = true → s.portNamed p = true → s.portClass p = 1 → s.portOos p = true → s.cmds = [] → g ∈ s.geos →
    s.geo? g.warp g.idx = some g → g.warp < 4 → geoUses g none (some p.val) none = true → s.ready (rdTxc g.txc) = true →
    (s.portOos g.port = false ∨ g.port = p) → g.pairs.any (fun e => (e.2 == p.val || !s.portOos e.2) && s.chainIn e.1) = true →
    s.region.any (fun r => !r.groups.isEmpty) = true → s.mgmt.takeover = none →
    ∃ t, exec (.portReturn p) s = .next t ∧
      s.Accepted t Reg.portCmdRes (.portReturn p) (some true) ∧ t.calPending (fun g => geoUses g none (some p.val) none) = true ∧
      t.portOos p = true ∧ t = { s.issuing t with cands := t.cands } ∧ s.SameRegs t (issueRegs Reg.portCmdRes)) ∧
  (∀ (s : State) (p : Fin 64),
    s.canIssue Reg.portCmd = true → s.portNamed p = true → s.portClass p = 1 → s.portOos p = true → s.cmds = [] →
    s.geos.all (fun g => !geoUses g none (some p.val) none) = true → s.mgmt.takeover = none →
    ∃ t, exec (.portReturn p) s = .next t ∧
      s.Completed t Reg.portCmdRes .ok ∧ t.portOos p = false ∧ t = s.issuing t ∧
      s.SameRegs t (issueRegs Reg.portCmdRes ++ [Reg.portState (p.val / 8)]))

/-- O18. OUT of a chain that stands by as a spare gives it reason HOST, stops its clock, clears its ready bit and completes with OK when no round uses it.
RETURN of one that is out and that no round uses starts its calibration in isolation and stays live. OUT of a decoder in service that no round holds
sets its OOS bit and completes with OK; its pool stays ready while a decoder of it is in service. RETURN of one out of service stays live until its
self-test. Each assigns the next number and shows it; nothing else changes. -/
def Obligations.ChainAndDecoderOrders : Prop :=
  (∀ (s : State) (n : Fin 16),
    s.canIssue (Reg.rxcCmd n) = true → s.ready rdDraft = true → s.chainSpare n = true → s.fld (Reg.rxcStat n) 24 8 = 0 →
    s.ready (rdRxc n) = true → (s.chain n).svc = .standby → s.cmds = [] → s.rounds.all (fun r => !s.roundUsesChain r n) = true →
    ∃ t, exec (.rxcOut n) s = .next t ∧
      s.Completed t (Reg.rxcCmdRes n) .ok ∧ t.fld (Reg.rxcStat n) 24 8 = 1 ∧ t.ready (rdRxc n) = false ∧
      t.bit Reg.sysClkstat (16 + n.val) = false ∧ t.chains = updAt s.chains n (fun c => { c with svc := .out, leaving := false }) ∧
      t = { s.issuing t with chains := t.chains } ∧
      s.SameRegs t (issueRegs (Reg.rxcCmdRes n) ++ [Reg.rxcStat n, Reg.sysReady, Reg.sysClkstat])) ∧
  (∀ (s : State) (n : Fin 16),
    s.canIssue (Reg.rxcCmd n) = true → s.ready rdDraft = true → s.chainNamed n = true → s.fld (Reg.rxcStat n) 24 8 ≠ 0 →
    (s.chain n).svc = .out → s.cmds = [] → s.rounds.all (fun r => !s.roundUsesChain r n) = true → s.mgmt.takeover = none →
    ∃ t, exec (.rxcReturn n) s = .next t ∧
      s.Accepted t (Reg.rxcCmdRes n) (.rxcReturn n) (some true) ∧ t.bit Reg.sysClkstat (16 + n.val) = true ∧
      t.chains = updAt s.chains n (fun c => { c with svc := .calibrating, leaving := false }) ∧
      t = { s.issuing t with chains := t.chains } ∧ s.SameRegs t (issueRegs (Reg.rxcCmdRes n) ++ [Reg.sysClkstat])) ∧
  (∀ (s : State) (d : BitVec 4),
    s.canIssue Reg.mgmtDecCmd = true → d.toNat < 13 → s.decGate d.toNat = none → s.decOos d.toNat = false → s.cmds = [] →
    s.rounds.all (fun r => !r.decs.contains d.toNat) = true →
    ∃ t, exec (.decOut d) s = .next t ∧
      t.logs 0x0B 1 (wordOf d.toNat) ∧ s.Completed t Reg.mgmtDecRes .ok ∧ t.decOos d.toNat = true ∧
      t.ready (poolOf d.toNat).1 = (s.draft.any (fun x => (poolOf d.toNat).2.any (fun k => x.struct_.decoders.contains k && !t.decOos k))) ∧
      t = { s.issuing t with mgmt := t.mgmt } ∧ s.SameRegs t (issueRegs Reg.mgmtDecRes ++ [Reg.mgmtDecOos, Reg.sysReady] ++ logRegs)) ∧
  (∀ (s : State) (d : BitVec 4),
    s.canIssue Reg.mgmtDecCmd = true → s.decGate d.toNat = none → s.decOos d.toNat = true → s.cmds = [] →
    ∃ t, exec (.decReturn d) s = .next t ∧
      s.Accepted t Reg.mgmtDecRes (.decReturn d.toNat) (some true) ∧ t = s.issuing t ∧ s.SameRegs t (issueRegs Reg.mgmtDecRes))

/-- O19. RUN makes the entry's round a candidate with the command's number, undecided. Clearing RUN lets the rounds of the table drain and drops those
that are due, a host-run round goes on. Clearing a bit of WARP_EN lets every round on the warp drain. FIND shows the index of the entry whose class
and key SEEN_KEY holds, or INDEX and FOUND 0. CLEAR with no round in flight leaves the assigned entries only and empties the population store; with
one it completes with REFUSED. FLUSH drops every complete packet and sets the read pointer to the commit pointer. -/
def Obligations.ScheduleTableAndFifoCommands : Prop :=
  (∀ (s : State) (entry : BitVec 8),
    s.canIssue Reg.schedCmd = true →
    ∃ t, exec (.schedRun entry) s = .next t ∧
      s.Accepted t Reg.schedCmdRes (.run entry.toNat) none ∧
      t.cands = s.cands ++ [{ kind := kindOf (s.entryWords entry.toNat), seq := s.hostNext, entry := entry.toNat, warp := eWarp (s.entryWords entry.toNat), due := false, points := [] }] ∧
      t = { s.issuing t with cands := t.cands } ∧ s.SameRegs t (issueRegs Reg.schedCmdRes)) ∧
  (∀ (s : State),
    s.hostCan Reg.schedCtrl = true → s.bit Reg.schedCtrl 0 = true → s.cmds = [] →
    s.wordOk Reg.schedCtrl (setBitN (s.reg Reg.schedCtrl) 0 false) = true →
    ∃ t, exec .schedRunClear s = .next t ∧
      t.reg Reg.schedCtrl = setBitN (s.reg Reg.schedCtrl) 0 false ∧
      (t.rounds = s.rounds.map (fun r => if r.kind.internal || decide (2 ^ 23 ≤ r.seq) then { r with draining := true } else r)) ∧
      t.cands = s.cands.filter (fun c => c.kind == .cal || c.kind == .pingCal || (!c.due && !c.kind.internal)) ∧
      t = { s with regs := t.regs, rounds := t.rounds, cands := t.cands, acc := t.acc } ∧ s.SameRegs t [Reg.schedCtrl, Reg.hpFrames]) ∧
  (∀ (s : State) (w : Fin 4),
    s.hostCan Reg.schedCtrl = true → s.bit Reg.schedCtrl (4 + w.val) = true → s.cmds = [] →
    s.wordOk Reg.schedCtrl (setBitN (s.reg Reg.schedCtrl) (4 + w.val) false) = true →
    ∃ t, exec (.warpEnClear w) s = .next t ∧
      t.reg Reg.schedCtrl = setBitN (s.reg Reg.schedCtrl) (4 + w.val) false ∧
      (t.rounds = s.rounds.map (fun r => if r.warps.contains w.val then { r with draining := true } else r)) ∧
      t = { s with regs := t.regs, rounds := t.rounds, acc := t.acc } ∧ s.SameRegs t [Reg.schedCtrl, Reg.hpFrames]) ∧
  (∀ (s : State),
    s.canIssue Reg.seenCmd = true →
    ∃ t, exec .find s = .next t ∧
      s.Completed t Reg.seenCmdRes .ok ∧
      t.reg Reg.seenFind = (s.findSeen (s.fld (Reg.seenKey 3) 0 2) s.seenKey).elim 0 (fun i => wordOf (2 ^ 31 + i)) ∧ t = s.issuing t ∧
      s.SameRegs t (issueRegs Reg.seenCmdRes ++ [Reg.seenFind])) ∧
  (∀ (s : State),
    s.canIssue Reg.seenCmd = true → s.rounds = [] →
    ∃ t, exec .clear s = .next t ∧
      s.Completed t Reg.seenCmdRes .ok ∧ t.pop = [] ∧ t.seenWb = [] ∧ t.fetches = [] ∧
      t.seen = (s.seen.filter (fun e => e.2.any (fun x => x.assigned))).map (fun e => (e.1, e.2.map (fun x => { x with noHist := false }))) ∧
      (∀ e ∈ t.memp.queue, e ∈ s.memp.queue) ∧
      t = { s.issuing t with seen := t.seen, seenWb := t.seenWb, pop := t.pop, fetches := t.fetches, umTags := t.umTags, memp := t.memp } ∧
      s.SameRegs t (issueRegs Reg.seenCmdRes)) ∧
  (∀ (s : State),
    s.canIssue Reg.seenCmd = true → s.rounds ≠ [] →
    ∃ t, exec .clear s = .next t ∧
      s.Completed t Reg.seenCmdRes .refused ∧ t = s.issuing t ∧ s.SameRegs t (issueRegs Reg.seenCmdRes)) ∧
  (∀ (s : State),
    s.hostCan Reg.fifoCmd = true →
    ∃ t, exec .flush s = .next t ∧
      t.fifo = { s.fifo with packets := [], head := [], setAside := 0, asideFor := 0, rptr := s.fifo.cptr, rptr2 := s.fifo.cptr2 } ∧
      (t.coal = decide (t.fifo.free < (s.fld Reg.schedLoad 16 8 + if s.coal then 8 else 0) * 1024)) ∧
      t = { s with regs := t.regs, fifo := t.fifo, coal := t.coal, acc := t.acc } ∧ s.SameRegs t [Reg.fifoStat, Reg.hpFrames])

/-- O20. With the tag function ready: CLEAR_GUARD clears both failure counts, the lockout and the lock. UNLOCK clears every lock that is no permalock.
REMAP of a crumb other than 2 with a spare free, and RETURN of a worn crumb with a spare free, start a write of the crumb and stay live. OUT puts the
crumb out of service and, no write being in progress, completes with OK at once, as does RETURN of a crumb that is not worn, which puts it in service.
On crumb 2, REMAP, OUT and RETURN complete with REFUSED. Nothing else changes. -/
def Obligations.TagCommands : Prop :=
  (∀ (s : State),
    s.canIssue Reg.tagCmd = true → s.ready rdTagf = true → s.expected rdTagf = true → s.mgmt.takeover = none →
    ∃ t, exec .clearGuard s = .next t ∧
      s.Completed t Reg.tagCmdRes .ok ∧ t.tag = { s.tag with consec := 0, cum := 0, lockout := none, locked := false } ∧
      t = { s.issuing t with tag := t.tag } ∧ s.SameRegs t (issueRegs Reg.tagCmdRes)) ∧
  (∀ (s : State),
    s.canIssue Reg.tagCmd = true → s.ready rdTagf = true → s.expected rdTagf = true → s.mgmt.takeover = none →
    ∃ t, exec .unlock s = .next t ∧
      s.Completed t Reg.tagCmdRes .ok ∧
      (∀ k < 3, t.tag.locks / 4 ^ k % 4 = if 2 ≤ s.tag.locks / 4 ^ k % 4 then s.tag.locks / 4 ^ k % 4 else 0) ∧
      t.tag = { s.tag with locks := t.tag.locks } ∧ t = { s.issuing t with tag := t.tag } ∧ s.SameRegs t (issueRegs Reg.tagCmdRes)) ∧
  (∀ (s : State) (crumb : Fin 128) (n : Nat),
    s.canIssue Reg.tagCmd = true → s.ready rdTagf = true → s.expected rdTagf = true → crumb.val ≠ 2 → s.freeSpare = some n → s.cmds = [] →
    s.tag.job = none → s.tag.queue = [] → s.mgmt.takeover = none →
    ∃ t, exec (.remap crumb) s = .next t ∧
      s.Accepted t Reg.tagCmdRes (.remap crumb) (some true) ∧
      t.tag = { s.tag with job := some { crumb := crumb, patch := [], who := .cmd s.hostNext, failed := false, reply := false } } ∧
      t = { s.issuing t with tag := t.tag } ∧ s.SameRegs t (issueRegs Reg.tagCmdRes)) ∧
  (∀ (s : State) (crumb : Fin 128),
    s.canIssue Reg.tagCmd = true → s.ready rdTagf = true → s.expected rdTagf = true → crumb.val ≠ 2 → s.crumbOos crumb = false →
    s.cmds = [] → s.tag.job = none → s.tag.queue = [] → s.mgmt.takeover = none →
    ∃ t, exec (.crumbOut crumb) s = .next t ∧
      s.Completed t Reg.tagCmdRes .ok ∧ t.tag = { s.tag with oos := s.tag.oos ++ [(crumb.val, false)] } ∧
      t = { s.issuing t with tag := t.tag } ∧ s.SameRegs t (issueRegs Reg.tagCmdRes)) ∧
  (∀ (s : State) (crumb : Fin 128),
    s.canIssue Reg.tagCmd = true → s.ready rdTagf = true → s.expected rdTagf = true → crumb.val ≠ 2 → s.crumbOos crumb = true →
    s.crumbWorn crumb = false → s.cmds = [] → s.tag.job = none → s.tag.queue = [] → s.mgmt.takeover = none →
    ∃ t, exec (.crumbReturn crumb) s = .next t ∧
      s.Completed t Reg.tagCmdRes .ok ∧ t.tag = { s.tag with oos := s.tag.oos.filter (fun e => e.1 != crumb.val) } ∧
      t = { s.issuing t with tag := t.tag } ∧ s.SameRegs t (issueRegs Reg.tagCmdRes)) ∧
  (∀ (s : State) (crumb : Fin 128),
    s.canIssue Reg.tagCmd = true → s.ready rdTagf = true → s.expected rdTagf = true → crumb.val ≠ 2 → s.crumbWorn crumb = true →
    s.freeSpare ≠ none → s.cmds = [] → s.tag.job = none → s.tag.queue = [] → s.mgmt.takeover = none →
    ∃ t, exec (.crumbReturn crumb) s = .next t ∧
      s.Accepted t Reg.tagCmdRes (.crumbReturn crumb) (some true) ∧
      t.tag = { s.tag with job := some { crumb := crumb, patch := [], who := .cmd s.hostNext, failed := false, reply := false } } ∧
      t = { s.issuing t with tag := t.tag } ∧ s.SameRegs t (issueRegs Reg.tagCmdRes)) ∧
  (∀ (s : State) (crumb : Fin 128),
    s.canIssue Reg.tagCmd = true → s.ready rdTagf = true → s.expected rdTagf = true → crumb.val = 2 → s.mgmt.takeover = none →
    ∃ t, exec (.remap crumb) s = .next t ∧
      s.Completed t Reg.tagCmdRes .refused ∧ t = s.issuing t ∧ s.SameRegs t (issueRegs Reg.tagCmdRes)) ∧
  (∀ (s : State) (crumb : Fin 128),
    s.canIssue Reg.tagCmd = true → s.ready rdTagf = true → s.expected rdTagf = true → crumb.val = 2 → s.mgmt.takeover = none →
    ∃ t, exec (.crumbOut crumb) s = .next t ∧
      s.Completed t Reg.tagCmdRes .refused ∧ t = s.issuing t ∧ s.SameRegs t (issueRegs Reg.tagCmdRes)) ∧
  (∀ (s : State) (crumb : Fin 128),
    s.canIssue Reg.tagCmd = true → s.ready rdTagf = true → s.expected rdTagf = true → crumb.val = 2 → s.mgmt.takeover = none →
    ∃ t, exec (.crumbReturn crumb) s = .next t ∧
      s.Completed t Reg.tagCmdRes .refused ∧ t = s.issuing t ∧ s.SameRegs t (issueRegs Reg.tagCmdRes))

/-- O21. CAL with no calibration under way begins one over the named ports in service, AVG sweeps, and makes a calibration round a candidate. REQUEST of
block 0 to 5 with an argument of R378 and no other live queues the request. PEER_TX_CMD of 1 to 1,000 bytes that fit a window, with no frame in
delivery, takes LEN bytes from PEER_TXBUF and the next number. OUT of a flash with nothing in progress completes with OK, else it stays live, its bit
set; its RETURN begins resilvering. OUT of the running half with the other HOT begins a handover to it; RETURN of a half out of service makes it load
the firmware in use. DUMP of at most 63 entries completes with its DIAG packet queued. While a takeover leaves no half running, a command that the
running half serves is accepted and does nothing yet. -/
def Obligations.ServiceCommands : Prop :=
  (∀ (s : State),
    s.canIssue Reg.pingCmd = true → s.expected rdPing = true → s.ready rdPing = true → s.ready rdDraft = true → s.ping.cal = none →
    s.mgmt.takeover = none →
    ∃ t, exec .cal s = .next t ∧
      s.Accepted t Reg.pingCmdRes .pingCal (some true) ∧
      t.ping = { s.ping with cal := some { seq := s.hostNext, left := s.fld Reg.pingCfg 20 4, ports := (List.range 64).filter (fun p => s.portNamed p && !s.portOos p), sums := [] } } ∧
      t.cands = s.cands ++ [{ kind := .pingCal, seq := 0, entry := 0, warp := 0, due := true, points := [] }] ∧
      t = { s.issuing t with ping := t.ping, cands := t.cands } ∧ s.SameRegs t (issueRegs Reg.pingCmdRes)) ∧
  (∀ (s : State) (block : BitVec 3) (arg : Word),
    s.canIssue Reg.talReq = true → s.board.tally = true → s.expected rdTal = true → s.ready rdTal = true → s.cmds = [] → block.toNat ≤ 5 →
    talArgOk block.toNat arg = true → s.mgmt.takeover = none →
    ∃ t, exec (.request block arg) s = .next t ∧
      s.Accepted t Reg.talReqRes (.talReq block.toNat arg) (some true) ∧ t.tal = { s.tal with reqs := s.tal.reqs ++ [(block.toNat, arg)] } ∧
      t.reg Reg.talReqArg = arg ∧ t = { s.issuing t with tal := t.tal } ∧ s.SameRegs t (issueRegs Reg.talReqRes ++ [Reg.talReqArg])) ∧
  (∀ (s : State) (dst : BitVec 16) (len : BitVec 10),
    s.canIssue Reg.peerTxCmd = true → s.ready rdDraft = true → s.expected rdPe = true → s.ready rdPe = true → 1 ≤ len.toNat →
    len.toNat ≤ 1000 → s.peer.job = none → s.dataUs dst.toNat len.toNat ≤ 10000 →
    ∃ t, exec (.peerTxCmd dst len) s = .next t ∧
      s.Accepted t Reg.peerTxRes (.peerTx dst.toNat len.toNat) (some true) ∧ t.peer.nextSeq = (s.peer.nextSeq + 1) % 256 ∧
      t.peer.job = some { seq := s.hostNext, dst := dst.toNat, data := ((List.range ((len.toNat + 3) / 4)).flatMap (fun k => bytesOfWord (s.reg (Reg.peerTxbuf k)))).take len.toNat, num := s.peer.nextSeq, tries := 0, waiting := false } ∧
      t.peer = { s.peer with nextSeq := t.peer.nextSeq, job := t.peer.job } ∧ t = { s.issuing t with peer := t.peer } ∧
      s.SameRegs t (issueRegs Reg.peerTxRes)) ∧
  (∀ (s : State),
    s.canIssue Reg.mempCmd = true → s.expected rdMemp = true → s.ready rdMemp = true → s.dev1 = 2 → s.memOos true = false → s.cmds = [] →
    s.memIdle true = true → s.mgmt.takeover = none →
    ∃ t, exec (.mempOut true) s = .next t ∧
      s.Completed t Reg.mempCmdRes .ok ∧ t.reg Reg.mempStat = setBitN (s.reg Reg.mempStat) 23 true ∧
      t.memp = { s.memp with waiting := t.memp.waiting } ∧ t = { s.issuing t with memp := t.memp } ∧
      s.SameRegs t (issueRegs Reg.mempCmdRes ++ [Reg.mempStat])) ∧
  (∀ (s : State) (dev : Bool),
    s.canIssue Reg.mempCmd = true → s.expected rdMemp = true → s.ready rdMemp = true → (dev = false ∨ s.dev1 ≠ 0) →
    (dev = true ∨ s.mirrorIn = true) → s.memOos dev = false → s.cmds = [] → s.memIdle dev = false → s.mgmt.takeover = none →
    ∃ t, exec (.mempOut dev) s = .next t ∧
      s.Accepted t Reg.mempCmdRes (.mempOut (if dev then 1 else 0)) (some true) ∧
      t.reg Reg.mempStat = setBitN (s.reg Reg.mempStat) (if dev then 23 else 22) true ∧ t = s.issuing t ∧
      s.SameRegs t (issueRegs Reg.mempCmdRes ++ [Reg.mempStat])) ∧
  (∀ (s : State),
    s.canIssue Reg.mempCmd = true → s.expected rdMemp = true → s.ready rdMemp = true → s.mirrorIn = true → s.memOos false = false →
    s.cmds = [] → s.memIdle false = true → s.mgmt.takeover = none →
    ∃ t, exec (.mempOut false) s = .next t ∧
      s.Completed t Reg.mempCmdRes .ok ∧ t.reg Reg.mempStat = setBitN (s.reg Reg.mempStat) 22 true ∧
      t.memp = { s.memp with queue := s.memp.queue.map (fun e => { e with dev := true }), waiting := s.memp.waiting.map (fun l => l.map (fun e => { e with dev := true })) } ∧
      t = { s.issuing t with memp := t.memp } ∧ s.SameRegs t (issueRegs Reg.mempCmdRes ++ [Reg.mempStat])) ∧
  (∀ (s : State),
    s.canIssue Reg.mempCmd = true → s.expected rdMemp = true → s.ready rdMemp = true → s.mirrorIn = false → s.mgmt.takeover = none →
    ∃ t, exec (.mempOut false) s = .next t ∧
      s.Completed t Reg.mempCmdRes .refused ∧ t = s.issuing t ∧ s.SameRegs t (issueRegs Reg.mempCmdRes)) ∧
  (∀ (s : State) (dev : Bool),
    s.canIssue Reg.mempCmd = true → s.expected rdMemp = true → s.ready rdMemp = true → (dev = false ∨ s.dev1 = 2) → s.memOos dev = true →
    s.cmds = [] → s.passesDiscovery dev = true → s.mgmt.takeover = none →
    ∃ t, exec (.mempReturn dev) s = .next t ∧
      s.Accepted t Reg.mempCmdRes (.mempReturn (if dev then 1 else 0)) (some true) ∧
      t.reg Reg.mempStat = setBitN (s.reg Reg.mempStat) 24 true ∧
      t.memp = { s.memp with copied := 0, queue := t.memp.queue, waiting := t.memp.waiting } ∧
      t = { s.issuing t with memp := t.memp, freeCtr := t.freeCtr } ∧ s.SameRegs t (issueRegs Reg.mempCmdRes ++ [Reg.mempStat])) ∧
  (∀ (s : State) (half : Bool),
    s.canIssue Reg.mgmtCmd = true → s.expected rdMgmt = true → s.ready rdMgmt = true → s.mgmt.running = some half → s.mgmt.handover = none →
    s.halfState (!half) = 3 → s.mgmt.takeover = none →
    ∃ t, exec (.mgmtOut half) s = .next t ∧
      s.Accepted t Reg.mgmtCmdRes (.mgmtOut (if half then 1 else 0)) (some true) ∧ t.mgmt = { s.mgmt with handover := some (!half) } ∧
      t = { s.issuing t with mgmt := t.mgmt } ∧ s.SameRegs t (issueRegs Reg.mgmtCmdRes)) ∧
  (∀ (s : State) (half : Bool),
    s.canIssue Reg.mgmtCmd = true → s.expected rdMgmt = true → s.ready rdMgmt = true → s.mgmt.running ≠ some half → s.halfState half = 5 →
    s.mgmt.takeover = none →
    ∃ t, exec (.mgmtReturn half) s = .next t ∧
      s.Accepted t Reg.mgmtCmdRes (.mgmtReturn (if half then 1 else 0)) (some true) ∧ t.halfState half = 1 ∧ t.halfReason half = 0 ∧
      (t.xipBase half = if s.fwActive then 7 else 1) ∧ t = s.issuing t ∧
      s.SameRegs t (issueRegs Reg.mgmtCmdRes ++ [Reg.mgmtStat, Reg.mempXip])) ∧
  (∀ (s : State),
    s.canIssue Reg.mgmtCmd = true → s.expected rdMgmt = true → s.ready rdMgmt = true → s.halfRuns = true → s.mgmt.dumps = [] →
    s.live .dump = false → s.fifo.diag.length < 4 → 1 ≤ (s.dumpEntries (s.reg Reg.mgmtLogSel).toNat).length →
    (s.dumpEntries (s.reg Reg.mgmtLogSel).toNat).length ≤ 63 → s.mgmt.takeover = none →
    ∃ t, exec .dump s = .next t ∧
      s.Completed t Reg.mgmtCmdRes .ok ∧
      t.fifo = { s.fifo with diag := s.fifo.diag ++ [s.logRec (s.dumpEntries (s.reg Reg.mgmtLogSel).toNat)] } ∧
      t.mgmt = { s.mgmt with takeoverDiag := false } ∧ t = { s.issuing t with fifo := t.fifo, mgmt := t.mgmt } ∧
      s.SameRegs t (issueRegs Reg.mgmtCmdRes)) ∧
  (∀ (s : State) (c : Instr) (k : CmdKind) (cmd res : Nat),
    halfServed c = some (k, cmd, res) → s.canIssue cmd = true → s.mgmt.takeover.isSome = true →
    ∃ t, exec (c) s = .next t ∧
      s.Accepted t res k (some true) ∧ t = s.issuing t ∧ s.SameRegs t (issueRegs res))

/-- O22. LOAD in IDLE, LOADING or VERIFIED of a chunk up to 12,287 makes STATE LOADING and the block of UPD_BUF the staged block of that number. VERIFY in
LOADING or VERIFIED begins and stays live, and CONFIRM in TRIAL: the drafts of the image begin to go to their slots, or, without any, the firmware
slot of the trial is in use, FLOOR takes the image's, SET_LIVE names the other settings region if the image brought one, the update record says IDLE
and staging begins to be erased. ARM in VERIFIED or ARMED with UTC valid and a bake time at least 1 s ahead completes with OK in ARMED; from VERIFIED
the half not in use begins to load the staged firmware. SWITCH_NOW in ARMED goes the fallback path when COMPAT is set, else it makes every round drain
and the switch follows. REVERT in TRIAL makes every round drain and the switch back follows. ABANDON in LOADING or VERIFIED makes STATE IDLE; with
nothing staged it completes with OK, else it begins to erase staging and stays live. In another state each completes with REFUSED and does nothing. -/
def Obligations.UpdateCommands : Prop :=
  (∀ (s : State) (chunk : BitVec 14),
    s.canIssue Reg.updCmd = true → s.expected rdMgmt = true → s.ready rdMgmt = true → s.updState ≤ 2 → s.upd.busy = false →
    chunk.toNat ≤ 12287 → s.mgmt.takeover = none →
    ∃ t, exec (.load chunk) s = .next t ∧
      s.Accepted t Reg.updCmdRes (.updLoad chunk.toNat) (some true) ∧ t.updState = 1 ∧ t.upd.image = none ∧
      t.upd.blocks = s.upd.blocks.filter (fun b => b.1 != chunk.toNat) ++ [(chunk.toNat, (List.range 128).map (fun k => s.reg (Reg.updBuf k)))] ∧
      t.upd = { s.upd with image := none, blocks := t.upd.blocks, recA := t.upd.recA, recB := t.upd.recB } ∧
      t = { s.issuing t with upd := t.upd, memp := t.memp, freeCtr := t.freeCtr } ∧ s.SameRegs t (issueRegs Reg.updCmdRes ++ [Reg.updStat])) ∧
  (∀ (s : State),
    s.canIssue Reg.updCmd = true → s.expected rdMgmt = true → s.ready rdMgmt = true → (s.updState = 1 ∨ s.updState = 2) →
    s.upd.busy = false → s.mgmt.takeover = none →
    ∃ t, exec .verify s = .next t ∧
      s.Accepted t Reg.updCmdRes .updVerify (some true) ∧ t.upd = { s.upd with busy := true } ∧ t = { s.issuing t with upd := t.upd } ∧
      s.SameRegs t (issueRegs Reg.updCmdRes)) ∧
  (∀ (s : State),
    s.canIssue Reg.updCmd = true → s.expected rdMgmt = true → s.ready rdMgmt = true → s.updState = 3 → s.updMoving = false →
    s.upd.busy = false → s.utcValid = true → (s.now : Int) + 1000000 ≤ s.bakeAt (s.reg Reg.updBake) → s.otherHalfOut = false →
    s.mgmt.takeover = none →
    ∃ t, exec .arm s = .next t ∧
      s.Completed t Reg.updCmdRes .ok ∧ t.updState = 3 ∧ t.bit Reg.updStat 21 = s.upd.image.any (fun i => s.compatWith i) ∧
      t.upd = { s.upd with recA := t.upd.recA, recB := t.upd.recB } ∧
      t.memp = { s.memp with queue := t.memp.queue, tasks := t.memp.tasks, waiting := t.memp.waiting } ∧
      t = { s.issuing t with upd := t.upd, mgmt := t.mgmt, memp := t.memp, freeCtr := t.freeCtr } ∧
      s.SameRegs t (issueRegs Reg.updCmdRes ++ [Reg.updStat, Reg.mgmtLogHead, Reg.mgmtLogLost, Reg.sysIrqPend])) ∧
  (∀ (s : State) (h : Bool),
    s.canIssue Reg.updCmd = true → s.expected rdMgmt = true → s.ready rdMgmt = true → s.updState = 2 → s.updMoving = false →
    s.upd.busy = false → s.utcValid = true → (s.now : Int) + 1000000 ≤ s.bakeAt (s.reg Reg.updBake) → s.otherHalfOut = false →
    s.mgmt.running = some h → s.mgmt.takeover = none →
    ∃ t, exec .arm s = .next t ∧
      s.Completed t Reg.updCmdRes .ok ∧ t.updState = 3 ∧ t.halfState (!h) = 1 ∧ (t.xipBase (!h) = if s.newSlot then 7 else 1) ∧
      t.upd = { s.upd with recA := t.upd.recA, recB := t.upd.recB } ∧
      t.memp = { s.memp with queue := t.memp.queue, tasks := t.memp.tasks, waiting := t.memp.waiting } ∧
      t = { s.issuing t with upd := t.upd, mgmt := t.mgmt, memp := t.memp, freeCtr := t.freeCtr } ∧
      s.SameRegs t (issueRegs Reg.updCmdRes ++ [Reg.updStat, Reg.mgmtStat, Reg.mempXip, Reg.mgmtLogHead, Reg.mgmtLogLost, Reg.sysIrqPend])) ∧
  (∀ (s : State),
    s.canIssue Reg.updCmd = true → s.expected rdMgmt = true → s.ready rdMgmt = true → s.updState = 3 → s.updMoving = false →
    s.upd.busy = false → s.otherHalfOut = false → s.bit Reg.updStat 21 = true → s.hotHalf = none → s.mgmt.takeover = none →
    ∃ t, exec .switchNow s = .next t ∧
      s.Accepted t Reg.updCmdRes .updSwitchNow (some true) ∧ t.bit Reg.updStat 22 = true ∧ t.bit Reg.updStat 23 = false ∧
      t.upd = { s.upd with fallback := .waitHot } ∧ t = { s.issuing t with upd := t.upd } ∧
      s.SameRegs t (issueRegs Reg.updCmdRes ++ [Reg.updStat])) ∧
  (∀ (s : State),
    s.canIssue Reg.updCmd = true → s.expected rdMgmt = true → s.ready rdMgmt = true → s.updState = 3 → s.updMoving = false →
    s.upd.busy = false → s.otherHalfOut = false → s.bit Reg.updStat 21 = false → s.mgmt.takeover = none →
    ∃ t, exec .switchNow s = .next t ∧
      s.Accepted t Reg.updCmdRes .updSwitchNow (some true) ∧ t.bit Reg.updStat 22 = false ∧ t.bit Reg.updStat 23 = false ∧
      t.upd = { s.upd with switching := true } ∧ t.rounds = s.rounds.map (fun r => { r with draining := true }) ∧
      t = { s.issuing t with upd := t.upd, rounds := t.rounds } ∧ s.SameRegs t (issueRegs Reg.updCmdRes ++ [Reg.updStat])) ∧
  (∀ (s : State) (i : CerrexImage),
    s.canIssue Reg.updCmd = true → s.expected rdMgmt = true → s.ready rdMgmt = true → s.updState = 5 → s.updMoving = false →
    s.upd.busy = false → s.upd.image = some i → crxDrafts i ≠ [] → s.mgmt.takeover = none →
    ∃ t, exec .confirm s = .next t ∧
      s.Accepted t Reg.updCmdRes .updConfirm (some true) ∧ t.upd = { s.upd with busy := true } ∧
      t.memp = { s.memp with queue := t.memp.queue, tasks := t.memp.tasks, waiting := t.memp.waiting } ∧
      t.memp.tasks.map (fun x => x.kind) = s.memp.tasks.map (fun x => x.kind) ++ (crxDrafts i).map (fun e => .draft e.1) ∧
      t = { s.issuing t with upd := t.upd, memp := t.memp, freeCtr := t.freeCtr } ∧ s.SameRegs t (issueRegs Reg.updCmdRes)) ∧
  (∀ (s : State) (i : CerrexImage),
    s.canIssue Reg.updCmd = true → s.expected rdMgmt = true → s.ready rdMgmt = true → s.updState = 5 → s.updMoving = false →
    s.upd.busy = false → s.upd.image = some i → crxDrafts i = [] → s.mgmt.takeover = none →
    ∃ t, exec .confirm s = .next t ∧
      s.Accepted t Reg.updCmdRes .updConfirm (some true) ∧ t.updState = 5 ∧ t.fwActive = s.newSlot ∧ t.fld Reg.updStat 16 2 = 0 ∧
      t.reg Reg.updFloor = wordOf (crxFloor i) ∧ t.bit Reg.updStat 19 = (s.bit Reg.updStat 19 != s.upd.newSettings) ∧
      t.updRecord.map (fun r => r.2.state) = some .idle ∧
      t.upd = { s.upd with busy := true, used := some (crxId i), newSettings := false, recA := t.upd.recA, recB := t.upd.recB } ∧
      t.memp = { s.memp with queue := t.memp.queue, tasks := t.memp.tasks, waiting := t.memp.waiting } ∧
      t.memp.tasks.any (fun x => x.kind == .eraseStaging) = true ∧
      t = { s.issuing t with upd := t.upd, memp := t.memp, freeCtr := t.freeCtr } ∧
      s.SameRegs t (issueRegs Reg.updCmdRes ++ [Reg.updStat, Reg.updFloor])) ∧
  (∀ (s : State),
    s.canIssue Reg.updCmd = true → s.expected rdMgmt = true → s.ready rdMgmt = true → s.updState = 5 → s.updMoving = false →
    s.upd.busy = false → s.mgmt.takeover = none →
    ∃ t, exec .revert s = .next t ∧
      s.Accepted t Reg.updCmdRes .updRevert (some true) ∧ t.upd = { s.upd with reverting := true, switching := true } ∧
      t.rounds = s.rounds.map (fun r => { r with draining := true }) ∧ t = { s.issuing t with upd := t.upd, rounds := t.rounds } ∧
      s.SameRegs t (issueRegs Reg.updCmdRes)) ∧
  (∀ (s : State),
    s.canIssue Reg.updCmd = true → s.expected rdMgmt = true → s.ready rdMgmt = true → (s.updState = 1 ∨ s.updState = 2) →
    s.updMoving = false → s.upd.busy = false → s.upd.blocks = [] → s.mgmt.takeover = none →
    ∃ t, exec .abandonUpdate s = .next t ∧
      s.Completed t Reg.updCmdRes .ok ∧ t.updState = 0 ∧ t.reg Reg.updImage = 0 ∧ t.fld Reg.updStat 0 16 = 0 ∧
      t.upd = { s.upd with image := none, newSettings := false, recA := t.upd.recA, recB := t.upd.recB } ∧
      t.memp = { s.memp with queue := t.memp.queue, tasks := t.memp.tasks, waiting := t.memp.waiting } ∧
      t = { s.issuing t with upd := t.upd, mgmt := t.mgmt, memp := t.memp, freeCtr := t.freeCtr } ∧
      s.SameRegs t (issueRegs Reg.updCmdRes ++ [Reg.updStat, Reg.updImage, Reg.mgmtLogHead, Reg.mgmtLogLost, Reg.sysIrqPend])) ∧
  (∀ (s : State),
    s.canIssue Reg.updCmd = true → s.expected rdMgmt = true → s.ready rdMgmt = true → (s.updState = 1 ∨ s.updState = 2) →
    s.updMoving = false → s.upd.busy = false → s.upd.blocks ≠ [] → s.mgmt.takeover = none →
    ∃ t, exec .abandonUpdate s = .next t ∧
      s.Accepted t Reg.updCmdRes .updAbandon (some true) ∧ t.updState = 0 ∧ t.reg Reg.updImage = 0 ∧ t.fld Reg.updStat 0 16 = 0 ∧
      t.upd = { s.upd with image := none, newSettings := false, busy := true, recA := t.upd.recA, recB := t.upd.recB } ∧
      t.memp = { s.memp with queue := t.memp.queue, tasks := t.memp.tasks, waiting := t.memp.waiting } ∧
      t.memp.tasks.any (fun x => x.kind == .eraseStaging) = true ∧
      t = { s.issuing t with upd := t.upd, mgmt := t.mgmt, memp := t.memp, freeCtr := t.freeCtr } ∧
      s.SameRegs t (issueRegs Reg.updCmdRes ++ [Reg.updStat, Reg.updImage, Reg.mgmtLogHead, Reg.mgmtLogLost, Reg.sysIrqPend])) ∧
  (∀ (s : State),
    s.canIssue Reg.updCmd = true → s.expected rdMgmt = true → s.ready rdMgmt = true → (s.updState = 0 ∨ 3 < s.updState) →
    s.mgmt.takeover = none →
    ∃ t, exec .abandonUpdate s = .next t ∧
      s.Completed t Reg.updCmdRes .refused ∧ t = s.issuing t ∧ s.SameRegs t (issueRegs Reg.updCmdRes))

/-- O23. Once no entry of the block of the live LOAD is left in the port, LOAD completes with OK; when its write failed, the block is not staged and LOAD
completes with CRC_FAIL. When an image without firmware passes R427, VERIFY completes with OK, STATE is VERIFIED, UPD_IMAGE and ONEWAY show it, UPDATE
is raised; one with firmware has it copied to the slot not in use first and the settings after it; when it fails a check, REJECT shows the first one
that fails, STATE is LOADING and VERIFY completes with REFUSED. When every write and erase of CONFIRM has ended, nothing is staged, STATE is IDLE and
CONFIRM completes with OK; when one failed, CONFIRM completes with CRC_FAIL and the trial goes on. -/
def Obligations.StagingAndVerification : Prop :=
  (∀ (s : State) (n chunk : Nat),
    s.halfRuns = true → s.soleCmd n Reg.updCmdRes (.updLoad chunk) = true → s.memp.all.any (fun e => e.job == .stage n chunk) = false →
    s.regsWf = true →
    ∃ t, exec (.loadComplete true) s = .next t ∧
      t.endedWith n Reg.updCmdRes .ok ∧ t = { s with regs := t.regs, cmds := t.cmds, acc := t.acc } ∧ s.SameRegs t [Reg.updCmdRes]) ∧
  (∀ (s : State) (n chunk : Nat),
    s.soleCmd n Reg.updCmdRes (.updLoad chunk) = true → s.memp.all.any (fun e => e.job == .stage n chunk) = true → s.regsWf = true →
    ∃ t, exec (.loadComplete true) s = .next t ∧
      t = s) ∧
  (∀ (s : State) (n chunk : Nat),
    s.halfRuns = true → s.soleCmd n Reg.updCmdRes (.updLoad chunk) = true → 1 ≤ n → s.memStopped = false → s.regsWf = true →
    ∃ t, exec (.loadComplete false) s = .next t ∧
      t.endedWith n Reg.updCmdRes .crcFail ∧ t.upd = { s.upd with blocks := s.upd.blocks.filter (fun b => b.1 != chunk) } ∧
      t.memp = { s.memp with queue := s.memp.queue.filter (fun e => e.job != .stage n chunk), owed := t.memp.owed, waiting := t.memp.waiting } ∧
      t = { s with regs := t.regs, cmds := t.cmds, memp := t.memp, upd := t.upd, acc := t.acc } ∧ s.SameRegs t [Reg.updCmdRes]) ∧
  (∀ (s : State) (i : CerrexImage) (n : Nat),
    s.halfRuns = true → s.soleCmd n Reg.updCmdRes .updVerify = true → s.upd.busy = true → s.upd.copying = none →
    (s.updState = 1 ∨ s.updState = 2) → i.bytes = s.stagedBytes → imageFits i = true → s.rejectCode i = 0 → crxFirmware i = false →
    s.regsWf = true →
    ∃ t, exec (.verifyComplete i.facts) s = .next t ∧
      t.endedWith n Reg.updCmdRes .ok ∧ t.updState = 2 ∧ t.fld Reg.updStat 24 4 = 0 ∧ t.fld Reg.updStat 0 16 = min i.facts.oneway 65535 ∧
      t.bit Reg.updStat 21 = s.compatWith i ∧ t.reg Reg.updImage = crxId i ∧ t.bit Reg.sysIrqPend 10 = true ∧
      t.upd = { s.upd with busy := false, image := some i, newSettings := false, recA := t.upd.recA, recB := t.upd.recB } ∧
      t.memp = { s.memp with queue := t.memp.queue, tasks := t.memp.tasks, waiting := t.memp.waiting } ∧
      t = { s with regs := t.regs, cmds := t.cmds, upd := t.upd, mgmt := t.mgmt, memp := t.memp, freeCtr := t.freeCtr, acc := t.acc } ∧
      s.SameRegs t [Reg.updCmdRes, Reg.updStat, Reg.updImage, Reg.mgmtLogHead, Reg.mgmtLogLost, Reg.sysIrqPend]) ∧
  (∀ (s : State) (i : CerrexImage),
    s.halfRuns = true → s.upd.busy = true → s.upd.copying = none → (s.updState = 1 ∨ s.updState = 2) → i.bytes = s.stagedBytes →
    imageFits i = true → s.rejectCode i = 0 → crxFirmware i = true → s.regsWf = true →
    ∃ t, exec (.verifyComplete i.facts) s = .next t ∧
      t.upd = { s.upd with copying := some i } ∧
      t.memp.tasks.map (fun x => x.kind) = s.memp.tasks.map (fun x => x.kind) ++ [.firmware, .newSettings] ∧
      t.memp.tasks.any (fun x => x.kind == .firmware && x.pos == (if s.fwActive then 0x100000 else 0x700000)) = true ∧
      t.memp = { s.memp with queue := t.memp.queue, tasks := t.memp.tasks, waiting := t.memp.waiting } ∧
      t = { s with upd := t.upd, memp := t.memp, freeCtr := t.freeCtr }) ∧
  (∀ (s : State) (i : CerrexImage) (n : Nat),
    s.halfRuns = true → s.soleCmd n Reg.updCmdRes .updVerify = true → s.upd.busy = true → s.upd.copying = none →
    (s.updState = 1 ∨ s.updState = 2) → i.bytes = s.stagedBytes → (crxFormOk i.bytes = false ∨ imageFits i = true) → s.rejectCode i ≠ 0 →
    s.regsWf = true →
    ∃ t, exec (.verifyComplete i.facts) s = .next t ∧
      t.endedWith n Reg.updCmdRes .refused ∧ t.updState = 1 ∧ t.fld Reg.updStat 24 4 = s.rejectCode i ∧ t.bit Reg.updStat 21 = false ∧
      t.upd = { s.upd with busy := false, image := none, recA := t.upd.recA, recB := t.upd.recB } ∧
      t.memp = { s.memp with queue := t.memp.queue, tasks := t.memp.tasks, waiting := t.memp.waiting } ∧
      t.logs 0x0E (0x20 + s.rejectCode i) (crxId i) ∧
      t = { s with regs := t.regs, cmds := t.cmds, upd := t.upd, mgmt := t.mgmt, memp := t.memp, freeCtr := t.freeCtr, acc := t.acc } ∧
      s.SameRegs t [Reg.updCmdRes, Reg.updStat, Reg.mgmtLogHead, Reg.mgmtLogLost, Reg.sysIrqPend]) ∧
  (∀ (s : State) (n : Nat),
    s.halfRuns = true → s.soleCmd n Reg.updCmdRes .updConfirm = true → s.upd.busy = true → s.updState = 5 → s.memp.tasks = [] →
    s.regsWf = true →
    ∃ t, exec (.confirmComplete true) s = .next t ∧
      t.endedWith n Reg.updCmdRes .ok ∧ t.updState = 0 ∧
      t.reg Reg.updImage = 0 ∧ t.bit Reg.updStat 21 = false ∧ t.fld Reg.updStat 0 16 = 0 ∧ t.reg Reg.updFw = (s.fwSlot s.fwActive).ver ∧
      t.logs 0x0E 7 (s.reg Reg.updImage) ∧ t.upd = { s.upd with busy := false, blocks := [], image := none } ∧
      t = { s with regs := t.regs, cmds := t.cmds, upd := t.upd, mgmt := t.mgmt, acc := t.acc } ∧
      s.SameRegs t [Reg.updCmdRes, Reg.updStat, Reg.updImage, Reg.updFw, Reg.updFwseq, Reg.mgmtLogHead, Reg.mgmtLogLost, Reg.sysIrqPend]) ∧
  (∀ (s : State),
    s.memp.tasks.any (fun x => x.kind == .eraseStaging) = true → s.regsWf = true →
    ∃ t, exec (.confirmComplete true) s = .next t ∧
      t = s) ∧
  (∀ (s : State) (n : Nat),
    s.halfRuns = true → s.soleCmd n Reg.updCmdRes .updConfirm = true → s.upd.busy = true → s.updState = 5 →
    s.updRecord.any (fun r => r.2.state == .idle) = false → s.memp.tasks = [] → s.regsWf = true →
    ∃ t, exec (.confirmComplete false) s = .next t ∧
      t.endedWith n Reg.updCmdRes .crcFail ∧ t.upd = { s.upd with busy := false, copying := none } ∧
      t.memp = { s.memp with waiting := t.memp.waiting } ∧
      t = { s with regs := t.regs, cmds := t.cmds, upd := t.upd, memp := t.memp, acc := t.acc } ∧ s.SameRegs t [Reg.updCmdRes])

/-- O24. Within 1 us of the bake time an ARMED update with UTC valid begins its switch: PATH and LATE clear; a bake time missed sets LATE and goes the
fallback path when COMPAT is set, else the switch at once, which makes every round drain. With no round in flight the switch swaps the halves: the
other half runs the new firmware, the half that ran loads it, STATE is TRIAL and UPDATE is raised; a revert swaps them back and STATE is VERIFIED.
When TRIAL_H hours have passed in TRIAL a revert begins. -/
def Obligations.SwitchesOfTheUpdate : Prop :=
  (∀ (s : State),
    s.updState = 3 → s.utcValid = true → s.mgmtOn = true → s.switchAt ≤ s.now → (s.now : Int) ≤ s.switchAt + 1 → s.updMoving = false →
    s.rounds = [] → s.regsWf = true →
    ∃ t, exec .scheduledSwitch s = .next t ∧
      t.upd = { s.upd with switching := true } ∧ t.reg Reg.updStat = setBitN (setBitN (s.reg Reg.updStat) 22 false) 23 false ∧
      t = { s with regs := t.regs, upd := t.upd } ∧ s.SameRegs t [Reg.updStat]) ∧
  (∀ (s : State),
    s.updState = 3 → s.utcValid = true → s.mgmtOn = true → s.switchAt < s.now → s.updMoving = false → s.bit Reg.updStat 21 = false →
    s.regsWf = true →
    ∃ t, exec .fallbackPath s = .next t ∧
      t.bit Reg.updStat 23 = true ∧ t.bit Reg.updStat 22 = false ∧ t.upd = { s.upd with switching := true } ∧
      t.rounds = s.rounds.map (fun r => { r with draining := true }) ∧ t = { s with regs := t.regs, upd := t.upd, rounds := t.rounds } ∧
      s.SameRegs t [Reg.updStat]) ∧
  (∀ (s : State),
    s.updState = 3 → s.utcValid = true → s.mgmtOn = true → s.switchAt < s.now → s.updMoving = false → s.bit Reg.updStat 21 = true →
    s.hotHalf = none → s.regsWf = true →
    ∃ t, exec .fallbackPath s = .next t ∧
      t.bit Reg.updStat 23 = true ∧ t.bit Reg.updStat 22 = true ∧ t.upd = { s.upd with fallback := .waitHot } ∧
      t = { s with regs := t.regs, upd := t.upd } ∧ s.SameRegs t [Reg.updStat]) ∧
  (∀ (s : State) (h : Bool),
    s.updState = 3 → s.utcValid = true → s.mgmtOn = true → s.switchAt < s.now → s.updMoving = false → s.bit Reg.updStat 21 = true →
    s.hotHalf = some h → s.regsWf = true →
    ∃ t, exec .fallbackPath s = .next t ∧
      t.bit Reg.updStat 23 = true ∧ t.bit Reg.updStat 22 = true ∧ t.upd = { s.upd with fallback := .handover } ∧
      t.mgmt = { s.mgmt with handover := some h } ∧ t = { s with regs := t.regs, upd := t.upd, mgmt := t.mgmt } ∧ s.SameRegs t [Reg.updStat]) ∧
  (∀ (s : State) (h : Bool) (i : CerrexImage) (d : Draft),
    s.coreOn = true → s.upd.switching = true → s.upd.reverting = false → s.rounds = [] → s.cmds = [] → s.tag.job = none → s.tag.queue = [] →
    s.mgmt.running = some h → s.ready rdDraft = true → s.upd.live = some d → s.upd.image = some i → crxDrafts i = [] → s.regsWf = true →
    ∃ t, exec .switchOwnership s = .next t ∧
      t.updState = 5 ∧ t.mgmt.running = some (!h) ∧ t.mgmt.takeover = none ∧ t.mgmt.handover = none ∧
      t.halfState (!h) = 4 ∧ t.halfState h = 1 ∧ t.bit Reg.mgmtStat 31 = !h ∧
      t.xipBase (!h) = (if s.newSlot then 7 else 1) ∧ t.xipBase h = (if s.newSlot then 7 else 1) ∧ t.bit Reg.sysIrqPend 10 = true ∧
      t.fld Reg.updStat 16 2 = 0 ∧ t.upd = { s.upd with switching := false, recA := t.upd.recA, recB := t.upd.recB } ∧
      t.memp = { s.memp with queue := t.memp.queue, tasks := t.memp.tasks, waiting := t.memp.waiting } ∧
      t = { s with regs := t.regs, upd := t.upd, mgmt := t.mgmt, memp := t.memp, freeCtr := t.freeCtr, tag := t.tag, tal := t.tal, ping := t.ping, seeds := t.seeds, unusable := t.unusable, wts := t.wts, phi := t.phi, cands := t.cands, chains := t.chains, txc := t.txc }) ∧
  (∀ (s : State) (h : Bool),
    s.coreOn = true → s.upd.switching = true → s.upd.reverting = true → s.rounds = [] → s.cmds = [] → s.mgmt.running = some h →
    s.ready rdDraft = false → s.regsWf = true →
    ∃ t, exec .switchOwnership s = .next t ∧
      t.updState = 2 ∧ t.mgmt.running = some (!h) ∧ t.halfState (!h) = 4 ∧ t.halfState h = 1 ∧
      t.xipBase (!h) = (if s.fwActive then 7 else 1) ∧ t.xipBase h = (if s.fwActive then 7 else 1) ∧ t.bit Reg.sysIrqPend 10 = true ∧
      t.upd = { s.upd with newSettings := false, reverting := false, switching := false, proof := some s.upd.liveSlot, fromStaging := false, recA := t.upd.recA, recB := t.upd.recB } ∧
      t.memp = { s.memp with queue := t.memp.queue, tasks := t.memp.tasks, waiting := t.memp.waiting } ∧
      t = { s with regs := t.regs, upd := t.upd, mgmt := t.mgmt, memp := t.memp, freeCtr := t.freeCtr, tag := t.tag, tal := t.tal } ∧
      s.SameRegs t [Reg.updStat, Reg.mgmtStat, Reg.mempXip, Reg.sysDraftStat, Reg.mgmtLogHead, Reg.mgmtLogLost, Reg.sysIrqPend]) ∧
  (∀ (s : State),
    s.updState = 5 → s.mgmtOn = true → s.updMoving = false → s.upd.busy = false → s.fld Reg.updCfg 24 8 ≠ 0 → s.regsWf = true →
    ∃ t, exec .trialTimeout s = .next t ∧
      t.upd = { s.upd with reverting := true, switching := true } ∧ t.rounds = s.rounds.map (fun r => { r with draining := true }) ∧
      t = { s with upd := t.upd, rounds := t.rounds })

/-- O25. At the end of QUIESCE with its drain conditions met and no refuser, the entry commits: the wake record is cleared and PWR_SLEEP_AT takes the AO
time; into DOZE or DORMANT the report FIFO is emptied and FIFO_LOST counts its packets, into IDLE the CORE and MGMT clocks stop; the result word is OK
with the target. When a refuser's condition arises, or the time is up with one holding, the module is ACTIVE again, PWR_LAST_REFUSER and the refuser's
counter show it, the result word is REFUSED with PHASE 1, and nothing else changes but the event log. -/
def Obligations.EntryCommitsOrAborts : Prop :=
  (∀ (s : State) (tg : Target) (f : Frame),
    s.phase = .quiesce tg → s.hp.frame = some f → f.kind = some .wait → f.phase = .held .wait → f.reach = .data 1 0 false →
    s.bit Reg.hpCtrl 0 = false → s.wrPend = false → (tg = .doze ∨ tg = .dormant) → s.feedPending = false → s.mempBusy = false →
    s.mgmt.unsaved = 0 → allRefusers.find? (s.aborts tg) = none → s.reg Reg.pwrWakeTimer ≠ 0 → s.lands.wakeLow ≠ some 10 → s.regsWf = true →
    ∃ t, exec .quiesceEnd s = .next t ∧
      t.phase = .committed tg ∧ t.wakes = [] ∧ t.wakeAt = none ∧ t.reg Reg.pwrWakeCause = 0 ∧ t.reg Reg.pwrSleepAt = s.reg Reg.pwrAoTime ∧
      t.fld Reg.pwrWakeRec 16 16 = min 65535 s.fifo.packets.length ∧
      t.fifo = { s.fifo with packets := [], head := [], building := none, setAside := 0, asideFor := 0 } ∧
      t.hp = { s.hp with frame := some { f with out := [wordOf tg.code], phase := .data, token := .start } } ∧
      t.ping = { s.ping with sweep := none } ∧
      t = { s with phase := t.phase, wakes := t.wakes, wakeAt := t.wakeAt, regs := t.regs, fifo := t.fifo, hp := t.hp, ping := t.ping } ∧
      s.SameRegs t [Reg.pwrWakeCause, Reg.pwrSleepAt, Reg.pwrWakeRec, Reg.pingSkip 0, Reg.pingSkip 1]) ∧
  (∀ (s : State) (f : Frame) (tg : Target),
    s.phase = .quiesce tg → s.hp.frame = some f → f.kind = some .wait → f.phase = .held .wait → f.reach = .data 1 0 false →
    s.bit Reg.hpCtrl 0 = false → s.wrPend = false → tg = .idle → s.feedPending = false → s.mempBusy = false → s.mgmt.unsaved = 0 →
    allRefusers.find? (s.aborts tg) = none → s.reg Reg.pwrWakeTimer ≠ 0 → s.lands.wakeLow ≠ some 10 → s.regsWf = true →
    ∃ t, exec .quiesceEnd s = .next t ∧
      t.phase = .idle ∧ t.bit Reg.sysClkstat 3 = false ∧ t.bit Reg.sysClkstat 4 = false ∧ t.fld Reg.pwrMode 8 2 = 1 ∧
      t.reg Reg.pwrWakeCause = 0 ∧ t.hp.frame = some { f with out := [wordOf tg.code], phase := .data, token := .start } ∧ t.fifo = s.fifo ∧
      t.ping = { s.ping with sweep := none } ∧
      t = { s with phase := t.phase, wakes := t.wakes, wakeAt := t.wakeAt, regs := t.regs, hp := t.hp, ping := t.ping } ∧
      s.SameRegs t [Reg.pwrWakeCause, Reg.pwrSleepAt, Reg.pwrWakeRec, Reg.pwrMode, Reg.sysClkstat, Reg.pingSkip 0, Reg.pingSkip 1]) ∧
  (∀ (s : State) (refuser r : Refuser) (tg : Target) (f : Frame),
    s.phase = .quiesce tg → s.hp.frame = some f → f.kind = some .wait → f.phase = .held .wait → f.reach = .data 1 0 false →
    s.bit Reg.hpCtrl 0 = false → s.wrPend = false → s.aborts tg refuser = true →
    allRefusers.find? (fun x => s.aborts tg x && (x == refuser || !(x == .tallyFeedPending || x == .mpQueueBusy))) = some r →
    s.regsWf = true →
    ∃ t, exec (.quiesceAbort refuser) s = .next t ∧
      t.phase = .active ∧
      t.reg Reg.pwrLastRefuser = wordOf ((if r = .mgmtVeto then s.vetoReason tg else 0) * 65536 + tg.code * 4096 + 256 + refuserId r) ∧
      t.reg (Reg.pwrRefuseCnt (refuserId r - 1)) = setFieldN (s.reg (Reg.pwrRefuseCnt (refuserId r - 1))) 0 16 (min 65535 (s.fld (Reg.pwrRefuseCnt (refuserId r - 1)) 0 16 + 1)) ∧
      t.hp = { s.hp with frame := some { f with out := [refusalWord r true tg], phase := .data, token := .start } } ∧
      t = { s with phase := t.phase, regs := t.regs, hp := t.hp, mgmt := t.mgmt } ∧
      s.SameRegs t [Reg.pwrLastRefuser, Reg.pwrRefuseCnt (refuserId r - 1), Reg.mgmtLogHead, Reg.mgmtLogLost, Reg.sysIrqPend]) ∧
  (∀ (s : State) (r : Refuser) (tg : Target) (f : Frame),
    s.phase = .quiesce tg → s.hp.frame = some f → f.kind = some .wait → f.phase = .held .wait → f.reach = .data 1 0 false →
    s.bit Reg.hpCtrl 0 = false → s.wrPend = false → allRefusers.find? (s.aborts tg) = some r → s.regsWf = true →
    ∃ t, exec .quiesceTimeout s = .next t ∧
      t.phase = .active ∧
      t.reg Reg.pwrLastRefuser = wordOf ((if r = .mgmtVeto then s.vetoReason tg else 0) * 65536 + tg.code * 4096 + 256 + refuserId r) ∧
      t.reg (Reg.pwrRefuseCnt (refuserId r - 1)) = setFieldN (s.reg (Reg.pwrRefuseCnt (refuserId r - 1))) 0 16 (min 65535 (s.fld (Reg.pwrRefuseCnt (refuserId r - 1)) 0 16 + 1)) ∧
      t.hp = { s.hp with frame := some { f with out := [refusalWord r true tg], phase := .data, token := .start } } ∧
      t = { s with phase := t.phase, regs := t.regs, hp := t.hp, mgmt := t.mgmt } ∧
      s.SameRegs t [Reg.pwrLastRefuser, Reg.pwrRefuseCnt (refuserId r - 1), Reg.mgmtLogHead, Reg.mgmtLogLost, Reg.sysIrqPend]) ∧
  (∀ (s : State) (tg : Target) (f : Frame),
    s.phase = .quiesce tg → s.hp.frame = some f → f.kind = some .wait → f.phase = .held .wait → f.reach = .data 1 0 false →
    s.bit Reg.hpCtrl 0 = false → s.wrPend = false → s.feedPending = true → s.regsWf = true →
    ∃ t, exec .tallyFeedPending s = .next t ∧
      t.phase = .active ∧
      t.reg Reg.pwrLastRefuser = wordOf ((if Refuser.tallyFeedPending = .mgmtVeto then s.vetoReason tg else 0) * 65536 + tg.code * 4096 + 256 + refuserId Refuser.tallyFeedPending) ∧
      t.reg (Reg.pwrRefuseCnt (refuserId Refuser.tallyFeedPending - 1)) = setFieldN (s.reg (Reg.pwrRefuseCnt (refuserId Refuser.tallyFeedPending - 1))) 0 16 (min 65535 (s.fld (Reg.pwrRefuseCnt (refuserId Refuser.tallyFeedPending - 1)) 0 16 + 1)) ∧
      t.hp = { s.hp with frame := some { f with out := [refusalWord Refuser.tallyFeedPending true tg], phase := .data, token := .start } } ∧
      t = { s with phase := t.phase, regs := t.regs, hp := t.hp, mgmt := t.mgmt } ∧
      s.SameRegs t [Reg.pwrLastRefuser, Reg.pwrRefuseCnt (refuserId Refuser.tallyFeedPending - 1), Reg.mgmtLogHead, Reg.mgmtLogLost, Reg.sysIrqPend])

/-- O26. After the result word of a commit into DOZE or DORMANT the clocks of the core and the host port go, and without a field at COMM the tag
function's session and waiting writes with them; when the power-down completes the state is entered, or, with a wake latched and VIN in range, a core
reset of cause WAKE follows. A source that fires in IDLE starts the clocks: the module is ACTIVE, PWR_MODE is 0, and the wake record shows cause,
FIRST and time; HOST needs no enable there. One that fires on the way down is latched and added to the causes. WAKE_N low for less than 2 us does
nothing. When VIN returns in DOZE with a wake latched, the core starts with VIN_LATE set. -/
def Obligations.PowerDownAndWake : Prop :=
  (∀ (s : State) (tg : Target),
    s.phase = .committed tg → tg ≠ .idle → s.tag.field = true → s.regsWf = true →
    ∃ t, exec .powerDown s = .next t ∧
      t.phase = .poweringDown tg ∧ t.hp = HostPort.init ∧ t.reg Reg.sysClkstat = wordOf (s.fld Reg.sysClkstat 0 2) ∧
      t.tap = .reset ∧ t.memp = { s.memp with frozen := false } ∧
      t = { s with phase := t.phase, hp := t.hp, regs := t.regs, tap := t.tap, memp := t.memp } ∧ s.SameRegs t [Reg.sysClkstat]) ∧
  (∀ (s : State) (tg : Target),
    s.phase = .committed tg → tg ≠ .idle → s.tag.field = false → s.regsWf = true →
    ∃ t, exec .powerDown s = .next t ∧
      t.phase = .poweringDown tg ∧ t.hp = HostPort.init ∧ t.reg Reg.sysClkstat = wordOf (s.fld Reg.sysClkstat 0 2) ∧
      t.tag.session = none ∧ t.tag.job = none ∧ t.tag.queue = [] ∧ t.tag.oos = [] ∧ t.tag.fix = [] ∧ t.tag.reply = .none ∧
      t.tap = .reset ∧ t.memp = { s.memp with frozen := false } ∧
      t = { s with phase := t.phase, hp := t.hp, tag := t.tag, freeCtr := t.freeCtr, regs := t.regs, tap := t.tap, memp := t.memp } ∧
      s.SameRegs t [Reg.sysClkstat]) ∧
  (∀ (s : State) (tg : Target),
    s.phase = .poweringDown tg → (tg = .doze ∨ tg = .dormant) → s.wakes = [] → s.regsWf = true →
    ∃ t, exec .powerDownComplete s = .next t ∧
      (t.phase = if tg = .doze then .doze else .dormant) ∧ t = { s with phase := t.phase }) ∧
  (∀ (s : State) (tg : Target),
    s.phase = .poweringDown tg → s.wakes ≠ [] → s.lands.vin = true → s.flashQuiet = true → (tg = .doze ∨ tg = .dormant) → s.regsWf = true →
    ∃ t, exec .powerDownComplete s = .next t ∧
      t.wakes = [] ∧ s.Restarted t .wake [Reg.pwrMode, Reg.pwrWakeRec] ∧ t.reg Reg.pwrMode = 0 ∧ t.bit Reg.pwrWakeRec 2 = false ∧
      t.lands = s.lands) ∧
  (∀ (s : State),
    (s.phase = .doze ∨ s.phase = .dormant) → s.wakes ≠ [] → s.flashQuiet = true → s.regsWf = true →
    ∃ t, exec .vinReturn s = .next t ∧
      t.wakes = [] ∧ s.Restarted t .wake [Reg.pwrMode, Reg.pwrWakeRec] ∧ t.reg Reg.pwrMode = 0 ∧ t.bit Reg.pwrWakeRec 2 = true ∧
      t.lands = { s.lands with vin := true }) ∧
  (∀ (s : State),
    s.phase ≠ .doze → s.phase ≠ .dormant → s.regsWf = true →
    ∃ t, exec .vinReturn s = .next t ∧
      t.lands = { s.lands with vin := true } ∧ t = { s with lands := t.lands }) ∧
  (∀ (s : State) (us : Nat) (held : Bool),
    (us < 2 ∨ (held = true ∧ us < 10)) →
    exec (.wakeN ⟨us, held⟩) s = .next { s with lands := { s.lands with wakeLow := if held then some (min us 10) else none } }) ∧
  (∀ (s : State) (us : Nat) (held : Bool),
    s.phase = .idle → s.wakes = [] → s.ping.wake = none → 10 ≤ us → s.bit Reg.pwrWakeEn 0 = true → s.fld Reg.pwrWakeCause 16 4 = 0 →
    s.regsWf = true →
    ∃ t, exec (.wakeN ⟨us, held⟩) s = .next t ∧
      t.phase = .active ∧ t.bit Reg.sysClkstat 3 = true ∧ t.bit Reg.sysClkstat 4 = true ∧ t.reg Reg.pwrMode = 0 ∧
      t.bit Reg.pwrWakeCause 0 = true ∧ t.fld Reg.pwrWakeCause 16 4 = 1 ∧ t.reg Reg.pwrWakeAt = s.reg Reg.pwrAoTime ∧
      t.fld Reg.pwrWakeRec 0 2 = 1 ∧ t.bit Reg.pwrWakeRec 2 = false ∧ t.wakeAt = some (.idle, s.aoCycle) ∧
      (t.lands = { s.lands with wakeLow := if held then some (min us 10) else none }) ∧
      t = { s with phase := t.phase, wakeAt := t.wakeAt, lands := t.lands, regs := t.regs } ∧
      s.SameRegs t [Reg.sysClkstat, Reg.pwrMode, Reg.pwrWakeCause, Reg.pwrWakeAt, Reg.pwrWakeRec]) ∧
  (∀ (s : State) (us : Nat) (held : Bool) (tg : Target),
    s.phase = .poweringDown tg → 10 ≤ us → tg = .doze → s.bit Reg.pwrWakeEn 0 = true → s.wakes.contains 0 = false →
    s.fld Reg.pwrWakeCause 16 4 ≠ 0 → (s.sameCycle = false ∨ s.fld Reg.pwrWakeCause 16 4 ≤ 1) → s.regsWf = true →
    ∃ t, exec (.wakeN ⟨us, held⟩) s = .next t ∧
      t.wakes = s.wakes ++ [0] ∧ t.reg Reg.pwrWakeCause = setBitN (s.reg Reg.pwrWakeCause) 0 true ∧
      (t.lands = { s.lands with wakeLow := if held then some (min us 10) else none }) ∧
      t = { s with wakes := t.wakes, lands := t.lands, regs := t.regs } ∧ s.SameRegs t [Reg.pwrWakeCause]) ∧
  (∀ (s : State),
    s.phase = .idle → s.wakes = [] → s.ping.wake = none → s.bit Reg.pwrWakeEn 1 = true → s.fld Reg.pwrWakeCause 16 4 = 0 → s.regsWf = true →
    ∃ t, exec .timer s = .next t ∧
      t.phase = .active ∧ t.bit Reg.sysClkstat 3 = true ∧ t.bit Reg.sysClkstat 4 = true ∧ t.reg Reg.pwrMode = 0 ∧
      t.bit Reg.pwrWakeCause 1 = true ∧ t.fld Reg.pwrWakeCause 16 4 = 2 ∧ t.reg Reg.pwrWakeAt = s.reg Reg.pwrAoTime ∧
      t.fld Reg.pwrWakeRec 0 2 = 1 ∧ t.bit Reg.pwrWakeRec 2 = false ∧ t.wakeAt = some (.idle, s.aoCycle) ∧
      t = { s with phase := t.phase, wakeAt := t.wakeAt, regs := t.regs } ∧
      s.SameRegs t [Reg.sysClkstat, Reg.pwrMode, Reg.pwrWakeCause, Reg.pwrWakeAt, Reg.pwrWakeRec]) ∧
  (∀ (s : State) (tg : Target),
    s.phase = .poweringDown tg → tg = .doze → s.bit Reg.pwrWakeEn 1 = true → s.wakes.contains 1 = false → s.fld Reg.pwrWakeCause 16 4 ≠ 0 →
    (s.sameCycle = false ∨ s.fld Reg.pwrWakeCause 16 4 ≤ 2) → s.regsWf = true →
    ∃ t, exec .timer s = .next t ∧
      t.wakes = s.wakes ++ [1] ∧ t.reg Reg.pwrWakeCause = setBitN (s.reg Reg.pwrWakeCause) 1 true ∧
      t = { s with wakes := t.wakes, regs := t.regs } ∧ s.SameRegs t [Reg.pwrWakeCause]) ∧
  (∀ (s : State),
    s.phase = .idle → s.wakes = [] → s.ping.wake = none → s.fld Reg.pwrWakeCause 16 4 = 0 → s.regsWf = true →
    ∃ t, exec .host s = .next t ∧
      t.phase = .active ∧ t.bit Reg.sysClkstat 3 = true ∧ t.bit Reg.sysClkstat 4 = true ∧ t.reg Reg.pwrMode = 0 ∧
      t.bit Reg.pwrWakeCause 4 = true ∧ t.fld Reg.pwrWakeCause 16 4 = 5 ∧ t.reg Reg.pwrWakeAt = s.reg Reg.pwrAoTime ∧
      t.fld Reg.pwrWakeRec 0 2 = 1 ∧ t.bit Reg.pwrWakeRec 2 = false ∧ t.wakeAt = some (.idle, s.aoCycle) ∧
      t = { s with phase := t.phase, wakeAt := t.wakeAt, regs := t.regs } ∧
      s.SameRegs t [Reg.sysClkstat, Reg.pwrMode, Reg.pwrWakeCause, Reg.pwrWakeAt, Reg.pwrWakeRec]) ∧
  (∀ (s : State) (tg : Target),
    s.phase = .poweringDown tg → tg = .doze → s.bit Reg.pwrWakeEn 4 = true → s.wakes.contains 4 = false → s.fld Reg.pwrWakeCause 16 4 ≠ 0 →
    (s.sameCycle = false ∨ s.fld Reg.pwrWakeCause 16 4 ≤ 5) → s.regsWf = true →
    ∃ t, exec .host s = .next t ∧
      t.wakes = s.wakes ++ [4] ∧ t.reg Reg.pwrWakeCause = setBitN (s.reg Reg.pwrWakeCause) 4 true ∧
      t = { s with wakes := t.wakes, regs := t.regs } ∧ s.SameRegs t [Reg.pwrWakeCause])

/-- O27. POR at once, and VAO_BOR when it takes effect, put every register at its Reset column but SYS_RESET_CAUSE, which shows the cause and one bit;
nothing is left but what flash, the FRAM and the board hold. A core reset leaves the registers of the AO domain too, LAST takes the cause's code and
its bit sets. After THERM the release waits for the main-die sites. The release, with no reset triggered, RST_N high and, after THERM, every site
below 105 degrees, makes the main die active, samples the PROF lands and starts REF, CORE and MGMT; otherwise it does not happen. -/
def Obligations.ResetsTakeEffect : Prop :=
  (∀ (s : State),
    s.tag.session = none → s.tag.half = none → s.tag.job = none → s.flashQuiet = true → s.regsWf = true →
    ∃ t, exec .por s = .next t ∧
      s.Cleared t .por ∧ s.tag.rested t.tag ∧ t.resets = [] ∧ t.thermHold = false ∧ t.lands = { s.lands with vin := true, vao := true } ∧
      t.die = s.die) ∧
  (∀ (s : State),
    s.tag.session = none → s.tag.half = none → s.tag.job = none → s.resets = [.vaoBor] → s.flashQuiet = true → s.regsWf = true →
    ∃ t, exec .resetEffect s = .next t ∧
      s.Cleared t .vaoBor ∧ s.tag.rested t.tag ∧ t.resets = [] ∧ t.thermHold = s.thermHold ∧ t.lands = s.lands ∧ t.die = s.die) ∧
  (∀ (s : State) (c : Cause),
    s.regsWf = true → s.tag.session = none → s.tag.half = none → s.tag.job = none → s.resets = [c] → s.flashQuiet = true →
    s.phase = .active → c ≠ .por → c ≠ .vaoBor → c ≠ .wake →
    ∃ t, exec .resetEffect s = .next t ∧
      s.Restarted t c [] ∧ s.tag.rested t.tag ∧ t.wakes = s.wakes ∧ t.resets = [] ∧ t.lands = s.lands ∧ t.die = s.die ∧
      t.thermHold = (s.thermHold || c == .therm) ∧ t.ping = { s.ping with sweep := none, cal := none, wake := none }) ∧
  (∀ (s : State),
    s.phase = .held → s.resets = [] → s.lands.rstN = true → (s.thermHold = false ∨ s.hot.all (fun k => decide (4 ≤ k)) = true) →
    s.regsWf = true →
    ∃ t, exec .resetRelease s = .next t ∧
      t.phase = .active ∧ t.thermHold = false ∧ t.lands = { s.lands with vin := true, vao := true } ∧
      t.fld Reg.sysProfStat 0 2 = s.lands.prof % 4 ∧ t.reg Reg.sysClkstat = s.reg Reg.sysClkstat ||| 0x1C ∧
      t = { s with phase := t.phase, thermHold := t.thermHold, lands := t.lands, regs := t.regs } ∧
      s.SameRegs t [Reg.sysProfStat, Reg.sysClkstat]) ∧
  (∀ (s : State),
    (s.phase ≠ .held ∨ s.resets ≠ [] ∨ s.lands.rstN = false ∨ s.thermHold = true ∧ s.hot.any (fun k => decide (k < 4)) = true) →
    exec .resetRelease s = .next s)

/-- O28. VAO_BOR, VIN_BOR, PIN after at least 10 us and CLKFAIL of a running domain put their cause among the resets triggered, once, and an illuminator
whose carrier is on starts a fast ramp-down, which TXCn_CNT_FAST counts. A lockout restarts with the supply of the tag function, which VIN is while no
field reaches COMM. In DOZE and DORMANT VIN_BOR resets nothing. RST_N low for less than 2 us does nothing, and its rise only shows. Nothing else
changes. -/
def Obligations.ResetsAreTriggered : Prop :=
  (∀ (s : State),
    s.txcsOn = [] → s.resets.contains .vaoBor = false → s.regsWf = true →
    ∃ t, exec .vaoBor s = .next t ∧
      t.resets = s.resets ++ [.vaoBor] ∧ t.lands = { s.lands with vao := false } ∧ t = { s with resets := t.resets, lands := t.lands }) ∧
  (∀ (s : State) (k : Nat),
    s.txcsOn = [k] → s.ramp k = 2 → s.resets.contains .vaoBor = false → s.regsWf = true →
    ∃ t, exec .vaoBor s = .next t ∧
      t.resets = s.resets ++ [.vaoBor] ∧ t.ramp k = 3 ∧ t.reg (Reg.txcCntFast k) = s.reg (Reg.txcCntFast k) + 1 ∧
      t.txc = updAt s.txc k (fun x => { x with fast := true, after := .off }) ∧
      t = { s with resets := t.resets, lands := t.lands, txc := t.txc, regs := t.regs } ∧ s.SameRegs t [Reg.txcStat k, Reg.txcCntFast k]) ∧
  (∀ (s : State),
    s.phase ≠ .doze → s.phase ≠ .dormant → s.tag.field = false → s.txcsOn = [] → s.resets.contains .vinBor = false → s.regsWf = true →
    ∃ t, exec .vinBor s = .next t ∧
      t.resets = s.resets ++ [.vinBor] ∧ t.lands = { s.lands with vin := false } ∧
      t.tag = { s.tag with lockout := s.tag.lockout.map (fun e => (e.1, e.1 * 1000000)) } ∧
      t = { s with resets := t.resets, lands := t.lands, tag := t.tag }) ∧
  (∀ (s : State) (k : Nat),
    s.phase ≠ .doze → s.phase ≠ .dormant → s.tag.field = false → s.txcsOn = [k] → s.ramp k = 2 → s.resets.contains .vinBor = false →
    s.regsWf = true →
    ∃ t, exec .vinBor s = .next t ∧
      t.resets = s.resets ++ [.vinBor] ∧ t.ramp k = 3 ∧ t.reg (Reg.txcCntFast k) = s.reg (Reg.txcCntFast k) + 1 ∧
      t.txc = updAt s.txc k (fun x => { x with fast := true, after := .off }) ∧
      t = { s with resets := t.resets, lands := t.lands, txc := t.txc, regs := t.regs, tag := t.tag } ∧
      s.SameRegs t [Reg.txcStat k, Reg.txcCntFast k]) ∧
  (∀ (s : State) (us : Nat),
    10 ≤ us → s.txcsOn = [] → s.resets.contains .pin = false → s.regsWf = true →
    ∃ t, exec (.pin us) s = .next t ∧
      t.resets = s.resets ++ [.pin] ∧ t.lands = { s.lands with rstN := false } ∧ t = { s with resets := t.resets, lands := t.lands }) ∧
  (∀ (s : State) (us : Nat) (k : Nat),
    10 ≤ us → s.txcsOn = [k] → s.ramp k = 2 → s.resets.contains .pin = false → s.regsWf = true →
    ∃ t, exec (.pin us) s = .next t ∧
      t.resets = s.resets ++ [.pin] ∧ t.ramp k = 3 ∧ t.reg (Reg.txcCntFast k) = s.reg (Reg.txcCntFast k) + 1 ∧
      t.txc = updAt s.txc k (fun x => { x with fast := true, after := .off }) ∧
      t = { s with resets := t.resets, lands := t.lands, txc := t.txc, regs := t.regs } ∧ s.SameRegs t [Reg.txcStat k, Reg.txcCntFast k]) ∧
  (∀ (s : State) (mgmt : Bool),
    (if mgmt then s.mgmtOn else s.coreOn) = true → s.txcsOn = [] → s.resets.contains .clkfail = false → s.regsWf = true →
    ∃ t, exec (.clkfail mgmt) s = .next t ∧
      t.resets = s.resets ++ [.clkfail] ∧ t.lands = s.lands ∧ t = { s with resets := t.resets, lands := t.lands }) ∧
  (∀ (s : State) (mgmt : Bool) (k : Nat),
    (if mgmt then s.mgmtOn else s.coreOn) = true → s.txcsOn = [k] → s.ramp k = 2 → s.resets.contains .clkfail = false → s.regsWf = true →
    ∃ t, exec (.clkfail mgmt) s = .next t ∧
      t.resets = s.resets ++ [.clkfail] ∧ t.ramp k = 3 ∧ t.reg (Reg.txcCntFast k) = s.reg (Reg.txcCntFast k) + 1 ∧
      t.txc = updAt s.txc k (fun x => { x with fast := true, after := .off }) ∧
      t = { s with resets := t.resets, lands := t.lands, txc := t.txc, regs := t.regs } ∧ s.SameRegs t [Reg.txcStat k, Reg.txcCntFast k]) ∧
  (∀ (s : State),
    (s.phase = .doze ∨ s.phase = .dormant) → s.regsWf = true →
    ∃ t, exec .vinBor s = .next t ∧
      t.lands = { s.lands with vin := false } ∧
      (t.tag = if s.tag.field then s.tag else { s.tag with lockout := s.tag.lockout.map (fun e => (e.1, e.1 * 1000000)) }) ∧
      t = { s with lands := t.lands, tag := t.tag }) ∧
  (∀ (s : State),
    s.phase ≠ .doze → s.phase ≠ .dormant → s.tag.field = true → s.txcsOn = [] → s.resets.contains .vinBor = false → s.regsWf = true →
    ∃ t, exec .vinBor s = .next t ∧
      t.resets = s.resets ++ [.vinBor] ∧ t.lands = { s.lands with vin := false } ∧ t = { s with resets := t.resets, lands := t.lands }) ∧
  (∀ (s : State) (us : Nat),
    us < 2 →
    exec (.pin us) s = .next s) ∧
  (∀ (s : State),
    exec .rstNRise s = .next { s with lands := { s.lands with rstN := true } }) ∧
  (∀ (s : State) (mgmt : Bool),
    (if mgmt then s.mgmtOn else s.coreOn) = false →
    exec (.clkfail mgmt) s = .next s)

/-- O29. VIO powering on at up to 4.0 V sets 3.3 V mode from 2.4 V; VIO going loses a frame in progress. The AO crystal in use or failed shows in
SYS_CLKSTAT.AO_SRC, and its failure is logged. REFIN_SIGNAL shows which lands carry signal: both in antiphase differential, one single-ended with SWAP
for the negative land, none no signal. REFIN valid shows VALID and FERR and begins the slew unless the host holds the TCXO. REFIN lost clears VALID,
sets LOST, raises REF_LOST, begins the slew back and is logged. The end of the slew makes REF follow the source wanted. -/
def Obligations.SuppliesClocksAndReference : Prop :=
  (∀ (s : State) (mv : Nat),
    mv ≤ 4000 → s.lands.vio = false →
    exec (.vioPowerOn mv) s = .next { s with lands := { s.lands with vio := true, vio33 := decide (2400 ≤ mv) } }) ∧
  (∀ (s : State) (mv : Nat),
    mv ≤ 4000 → s.lands.vio = true →
    exec (.vioPowerOn mv) s = .next s) ∧
  (∀ (s : State),
    s.tag.queue = [] → s.regsWf = true →
    ∃ t, exec .vioLoss s = .next t ∧
      t.lands = { s.lands with vio := false } ∧ t.hp = { s.hp with frame := none } ∧ t = { s with lands := t.lands, hp := t.hp }) ∧
  (∀ (s : State),
    s.lands.vao = true → s.regsWf = true →
    ∃ t, exec .aoXtalSwitch s = .next t ∧
      t.bit Reg.sysClkstat 1 = true ∧ t.reg Reg.sysClkstat = setBitN (s.reg Reg.sysClkstat) 1 true ∧ t = { s with regs := t.regs } ∧
      s.SameRegs t [Reg.sysClkstat]) ∧
  (∀ (s : State),
    s.bit Reg.sysClkstat 1 = true → s.regsWf = true →
    ∃ t, exec .aoXtalFail s = .next t ∧
      t.reg Reg.sysClkstat = setBitN (s.reg Reg.sysClkstat) 1 false ∧ t.logs 6 1 0 ∧ t = { s with regs := t.regs, mgmt := t.mgmt } ∧
      s.SameRegs t (Reg.sysClkstat :: logRegs)) ∧
  (∀ (s : State) (swingP swingN : Nat) (antiphase : Bool),
    (200 ≤ swingP ∨ 200 ≤ swingN) → ((200 ≤ swingP ∧ 200 ≤ swingN) → antiphase = true) → s.regsWf = true →
    ∃ t, exec (.refinSignal swingP swingN antiphase) s = .next t ∧
      t.bit Reg.clkRefstat 1 = true ∧ t.bit Reg.clkRefstat 5 = !(decide (200 ≤ swingP) && decide (200 ≤ swingN)) ∧
      t.bit Reg.clkRefstat 3 = decide (swingP < 200) ∧ (∀ b < 32, b = 1 ∨ b = 3 ∨ b = 5 ∨ t.bit Reg.clkRefstat b = s.bit Reg.clkRefstat b) ∧
      t = { s with regs := t.regs } ∧ s.SameRegs t [Reg.clkRefstat]) ∧
  (∀ (s : State) (swingP swingN : Nat) (antiphase : Bool),
    swingP < 200 → swingN < 200 → s.regsWf = true →
    ∃ t, exec (.refinSignal swingP swingN antiphase) s = .next t ∧
      t.reg Reg.clkRefstat = setBitN (setBitN (s.reg Reg.clkRefstat) 1 false) 3 false ∧ t = { s with regs := t.regs } ∧
      s.SameRegs t [Reg.clkRefstat]) ∧
  (∀ (s : State) (ferr : Byte),
    s.bit Reg.clkRefctrl 0 = false → s.bit Reg.clkRefstat 1 = true → s.regsWf = true →
    ∃ t, exec (.refinValid ferr) s = .next t ∧
      t.bit Reg.clkRefstat 2 = true ∧ t.fld Reg.clkRefstat 8 8 = ferr.toNat ∧
      t.bit Reg.clkRefstat 4 = (s.bit Reg.clkRefstat 4 || !s.bit Reg.clkRefstat 0) ∧
      t.bit Reg.clkRefstat 0 = s.bit Reg.clkRefstat 0 ∧ t.bit Reg.clkRefstat 31 = s.bit Reg.clkRefstat 31 ∧ t = { s with regs := t.regs } ∧
      s.SameRegs t [Reg.clkRefstat]) ∧
  (∀ (s : State),
    s.bit Reg.clkRefstat 2 = true → s.regsWf = true →
    ∃ t, exec .refinLost s = .next t ∧
      t.bit Reg.clkRefstat 2 = false ∧ t.bit Reg.clkRefstat 31 = true ∧
      t.bit Reg.clkRefstat 4 = (s.bit Reg.clkRefstat 4 || s.bit Reg.clkRefstat 0) ∧ t.bit Reg.sysIrqPend 2 = true ∧ t.logs 6 2 0 ∧
      t = { s with regs := t.regs, mgmt := t.mgmt } ∧ s.SameRegs t (Reg.clkRefstat :: logRegs)) ∧
  (∀ (s : State),
    s.bit Reg.clkRefstat 4 = true → s.regsWf = true →
    ∃ t, exec .refSlewEnd s = .next t ∧
      t.reg Reg.clkRefstat = setBitN (setBitN (s.reg Reg.clkRefstat) 4 false) 0 (s.bit Reg.clkRefstat 2 && !s.bit Reg.clkRefctrl 0) ∧
      t = { s with regs := t.regs } ∧ s.SameRegs t [Reg.clkRefstat])

/-- O30. With VIO present and the core powered, BYPASS, IDCODE and SAMPLE/PRELOAD become the current instruction, IDCODE shifts out 0x1648_0A3B,
SAMPLE/PRELOAD every level that something known fixes, and nothing else changes but, with SAMPLE/PRELOAD, the bits of the boundary-scan register,
which the tester shifts in and no clause fixes; in a reset TDO shows nothing new. That BYPASS captures 0 is the model's reading of IEEE 1149.1 (log
entry 14). EXTEST freezes the memory port queue, ramps an illuminator down fast, holds one in calibration off, and opens the port switches; it
captures the lands, as EXTEST given again does. Leaving EXTEST, by LEAVE_EXTEST or another instruction, triggers a core reset of cause TAP. -/
def Obligations.TestAccessPort : Prop :=
  (∀ (s : State),
    s.lands.vio = true → s.asleep = false → s.tap ≠ .extest →
    exec .bypass s = .next { s with tap := .bypass, tdo := if s.phase = .held then s.tdo else 0 }) ∧
  (∀ (s : State),
    s.lands.vio = true → s.asleep = false → s.tap ≠ .extest →
    exec .idcode s = .next { s with tap := .idcode, tdo := if s.phase = .held then s.tdo else 0x16480A3B }) ∧
  (∀ (s : State),
    s.lands.vio = true → s.asleep = false → s.tap ≠ .extest → s.regsWf = true →
    ∃ t, exec .samplePreload s = .next t ∧
      t.tap = .sample ∧ (s.phase = .held → t.tdo = s.tdo) ∧
      (s.phase ≠ .held → Land.all.all (fun l => (s.landLevel l).all (fun v => t.tdo.getLsbD l.place == v)) = true) ∧
      t = { s with tap := t.tap, tdo := t.tdo, bscan := t.bscan, freeCtr := t.freeCtr }) ∧
  (∀ (s : State),
    s.lands.vio = true → s.asleep = false → s.tap ≠ .extest → s.rounds = [] → s.txcsOn = [] → s.noTxcCal = true → s.switchesOpen = true →
    s.regsWf = true →
    ∃ t, exec .extest s = .next t ∧
      t.tap = .extest ∧ t.memp = { s.memp with frozen := true } ∧
      (s.phase ≠ .held → Land.all.all (fun l => (t.landLevel l).all (fun v => t.tdo.getLsbD l.place == v)) = true) ∧
      t = { s with tap := t.tap, memp := t.memp, tdo := t.tdo, freeCtr := t.freeCtr }) ∧
  (∀ (s : State),
    s.lands.vio = true → s.asleep = false → s.tap ≠ .extest → s.rounds = [] → s.txcsOn = [] → s.noTxcCal = true → s.regsWf = true →
    ∃ t, exec .extest s = .next t ∧
      (∀ n < 16, t.bit (Reg.rxcStat n) 15 = false) ∧ t.tap = .extest ∧ t.memp = { s.memp with frozen := true } ∧
      t = { s with tap := t.tap, memp := t.memp, regs := t.regs, tdo := t.tdo, freeCtr := t.freeCtr }) ∧
  (∀ (s : State) (k : Nat),
    s.lands.vio = true → s.asleep = false → s.tap ≠ .extest → s.rounds = [] → s.txcsOn = [k] → s.ramp k = 2 → s.noTxcCal = true →
    s.switchesOpen = true → s.regsWf = true →
    ∃ t, exec .extest s = .next t ∧
      t.tap = .extest ∧ t.ramp k = 3 ∧ t.reg (Reg.txcCntFast k) = s.reg (Reg.txcCntFast k) + 1 ∧
      t.txc = updAt s.txc k (fun x => { x with fast := true, after := .off }) ∧
      t = { s with tap := t.tap, memp := t.memp, txc := t.txc, regs := t.regs, tdo := t.tdo, freeCtr := t.freeCtr } ∧
      s.SameRegs t [Reg.txcStat k, Reg.txcCntFast k]) ∧
  (∀ (s : State) (k : Nat),
    s.lands.vio = true → s.asleep = false → s.tap ≠ .extest → s.rounds = [] → s.txcsOn = [] → s.ramp k = 5 → k < 4 →
    (List.range 4).all (fun n => n == k || s.ramp n != 5) = true → s.switchesOpen = true → s.regsWf = true →
    ∃ t, exec .extest s = .next t ∧
      t.tap = .extest ∧ t.ramp k = 0 ∧ t.txc = updAt s.txc k (fun x => { x with calibrating := false }) ∧
      t.memp = { s.memp with frozen := true } ∧
      t = { s with tap := t.tap, memp := t.memp, txc := t.txc, regs := t.regs, tdo := t.tdo, freeCtr := t.freeCtr } ∧
      s.SameRegs t [Reg.txcStat k]) ∧
  (∀ (s : State),
    s.lands.vio = true → s.asleep = false → s.tap = .extest → s.txcsOn = [] → s.resets = [] → s.regsWf = true →
    ∃ t, exec .leaveExtest s = .next t ∧
      t.tap = .reset ∧ t.resets = [.tap] ∧ t = { s with tap := t.tap, resets := t.resets }) ∧
  (∀ (s : State),
    s.lands.vio = true → s.asleep = false → s.tap = .extest → s.txcsOn = [] → s.resets = [] → s.regsWf = true →
    ∃ t, exec .idcode s = .next t ∧
      t.resets = [.tap] ∧ (t.tap = .idcode ∧ t.tdo = if s.phase = .held then s.tdo else 0x16480A3B) ∧
      t = { s with tap := t.tap, resets := t.resets, tdo := t.tdo }) ∧
  (∀ (s : State),
    s.lands.vio = true → s.asleep = false → s.tap = .extest → s.regsWf = true →
    ∃ t, exec .extest s = .next t ∧
      (s.phase = .held → t.tdo = s.tdo) ∧
      (s.phase ≠ .held → Land.all.all (fun l => (s.landLevel l).all (fun v => t.tdo.getLsbD l.place == v)) = true) ∧
      t = { s with tdo := t.tdo, bscan := t.bscan, freeCtr := t.freeCtr })

/-- O31. HP, MEMP, TAGF, PING and TAL set their bit of SYS_READY when what they need holds, and BRINGUP_DONE is raised at the moment the last expected
function is ready or out. A flash that R388 refuses leaves MEMP not ready with DISC_ERR; discovery shows both devices, and PSRAM brings the population
store into use. A CRC engine that fails its check goes out of service, is logged and raises SERVICE. The tag store is loaded with EARLY showing an
early access. After a full reset the baselines come from flash. -/
def Obligations.FunctionsBecomeReady : Prop :=
  (∀ (s : State),
    s.phase = .active → s.ready rdHp = false → s.regsWf = true →
    ∃ t, exec .hpReady s = .next t ∧
      t.ready rdHp = true ∧ t.broughtUp = (s.broughtUp || t.bringupOver) ∧
      t.bit Reg.sysIrqPend 0 = (s.bit Reg.sysIrqPend 0 || (!s.broughtUp && t.bringupOver)) ∧
      t = { s with regs := t.regs, broughtUp := t.broughtUp } ∧ s.SameRegs t [Reg.sysReady, Reg.sysIrqPend]) ∧
  (∀ (s : State),
    s.phase = .active → s.lands.vio = true → s.ready rdMemp = false → s.fld Reg.mempStat 28 4 = 0 → flashErr s.board.dev0 = 0 →
    s.regsWf = true →
    ∃ t, exec .mempDiscovery s = .next t ∧
      t.ready rdMemp = true ∧ t.bit Reg.sysClkstat 5 = true ∧ t.dev1 = dev1Code s.board.dev0 s.board.dev1 ∧
      t.fld Reg.mempStat 16 4 = memFreq s.board.dev0 s.board.dev1 % 16 ∧
      t.fld Reg.mempStat 6 2 = (s.board.dev0.elim 0 (fun x => (readMode x).1)) % 4 ∧ t.memOos false = false ∧ t.memOos true = false ∧
      t.popIn = (dev1Code s.board.dev0 s.board.dev1 == 1) ∧
      t.memp = { s.memp with point0 := ((s.board.dev0.bind memTiming).getD (0, 0)).2, point1 := t.memp.point1 } ∧
      t.broughtUp = (s.broughtUp || t.bringupOver) ∧ t.bit Reg.sysIrqPend 0 = (s.bit Reg.sysIrqPend 0 || (!s.broughtUp && t.bringupOver)) ∧
      t = { s with regs := t.regs, broughtUp := t.broughtUp, memp := t.memp } ∧
      s.SameRegs t [Reg.sysReady, Reg.sysIrqPend, Reg.sysClkstat, Reg.mempStat, Reg.mempFlash, Reg.mempPsram, Reg.seenCfg]) ∧
  (∀ (s : State),
    s.phase = .active → s.lands.vio = true → s.ready rdMemp = false → s.fld Reg.mempStat 28 4 = 0 → flashErr s.board.dev0 ≠ 0 →
    s.regsWf = true →
    ∃ t, exec .mempDiscovery s = .next t ∧
      t.reg Reg.mempStat = wordOf (flashErr s.board.dev0 * 2 ^ 28) ∧ t.bit Reg.sysClkstat 5 = true ∧ t = { s with regs := t.regs } ∧
      s.SameRegs t [Reg.sysClkstat, Reg.mempStat]) ∧
  (∀ (s : State) (bad : BitVec 4) (n : Fin 4),
    s.coreOn = true → s.ready rdMgmt = false → bad = BitVec.ofNat 4 (2 ^ n.val) → s.bit Reg.crcStat (16 + n.val) = false → s.regsWf = true →
    ∃ t, exec (.crcEngineSelftest bad) s = .next t ∧
      t.reg Reg.crcStat = setBitN (s.reg Reg.crcStat) (16 + n.val) true ∧ t.bit Reg.sysIrqPend 8 = true ∧ t.logs 0x0C 1 (wordOf n.val) ∧
      t = { s with regs := t.regs, mgmt := t.mgmt } ∧ s.SameRegs t (Reg.crcStat :: logRegs)) ∧
  (∀ (s : State),
    s.coreOn = true → s.ready rdMgmt = false →
    exec (.crcEngineSelftest 0) s = .next s) ∧
  (∀ (s : State),
    s.ready rdMgmt = true → s.ready rdTagf = false → s.regsWf = true →
    ∃ t, exec .tagfReady s = .next t ∧
      t.ready rdTagf = true ∧
      (t.tag = { s.tag with loaded := true, early := false, sticky := if s.tag.early then s.tag.sticky ||| 16 else s.tag.sticky }) ∧
      t.bit Reg.sysIrqPend 14 = (s.bit Reg.sysIrqPend 14 || s.tag.fieldCount != 0) ∧ t.broughtUp = (s.broughtUp || t.bringupOver) ∧
      t.bit Reg.sysIrqPend 0 = (s.bit Reg.sysIrqPend 0 || (!s.broughtUp && t.bringupOver)) ∧
      t = { s with regs := t.regs, tag := t.tag, broughtUp := t.broughtUp } ∧ s.SameRegs t [Reg.sysReady, Reg.sysIrqPend]) ∧
  (∀ (s : State),
    s.ready rdMgmt = true → s.ready rdPing = false → s.ping.wake = none → s.regsWf = true →
    ∃ t, exec .pingReady s = .next t ∧
      t.ready rdPing = true ∧
      (t.ping = { s.ping with lost := false, ports := if s.ping.lost then s.ping.flash.getD s.ping.ports else s.ping.ports }) ∧
      t.broughtUp = (s.broughtUp || t.bringupOver) ∧ t.bit Reg.sysIrqPend 0 = (s.bit Reg.sysIrqPend 0 || (!s.broughtUp && t.bringupOver)) ∧
      t = { s with regs := t.regs, ping := t.ping, broughtUp := t.broughtUp } ∧ s.SameRegs t [Reg.sysReady, Reg.sysIrqPend]) ∧
  (∀ (s : State),
    s.board.tally = true → s.ready rdMgmt = true → s.die.running = true → s.ready rdTal = false → s.regsWf = true →
    ∃ t, exec .talReady s = .next t ∧
      t.ready rdTal = true ∧ t.broughtUp = (s.broughtUp || t.bringupOver) ∧
      t.bit Reg.sysIrqPend 0 = (s.bit Reg.sysIrqPend 0 || (!s.broughtUp && t.bringupOver)) ∧
      t = { s with regs := t.regs, broughtUp := t.broughtUp } ∧ s.SameRegs t [Reg.sysReady, Reg.sysIrqPend])

/-- O32. MGMT ready, with no update record and no override, makes the half that PREFER names run, starts the proof of the slot the PROF lands name, and
shows it in SYS_PROF_STAT. A proof that passes makes the draft live: SYS_EXPECT follows it, SYS_DRAFT_STAT shows stage 5 and no section, every
illuminator it uses that is in service and not hot calibrates, the ping channel goes to AO. A proof that fails shows the first failing stage and
section, raises DRAFT_BAD, is logged and brings no draft; from staging, the update is reverted and the old draft is proofed. -/
def Obligations.ProofAndDraftGoLive : Prop :=
  (∀ (s : State),
    s.phase = .active → s.ready rdMgmt = false → s.ready rdMemp = true → s.mgmtOn = true → s.updRecord = none → s.upd.image = none →
    s.bit Reg.sysProfNext 31 = false → s.tag.bad.contains 3 = false → (s.tagByte 194).toNat < 0xA0 →
    s.upd.slots.getD (s.fld Reg.sysProfStat 0 2) none ≠ none → s.bit Reg.mgmtCfg 0 = false → s.regsWf = true →
    ∃ t, exec .mgmtReady s = .next t ∧
      t.ready rdMgmt = true ∧ t.mgmt.running = some (s.bit Reg.mgmtCfg 1) ∧
      t.halfState (s.bit Reg.mgmtCfg 1) = 4 ∧ t.halfState (!s.bit Reg.mgmtCfg 1) = 0 ∧ t.bit Reg.mgmtStat 31 = s.bit Reg.mgmtCfg 1 ∧
      t.xipBase (s.bit Reg.mgmtCfg 1) = 1 ∧ t.updState = 0 ∧ t.fld Reg.sysProfStat 4 4 = s.fld Reg.sysProfStat 0 2 ∧
      t.fld Reg.sysProfStat 8 4 = s.fld Reg.sysProfStat 0 2 ∧ t.fld Reg.sysProfStat 12 2 = 0 ∧
      t.upd = { s.upd with liveSlot := s.fld Reg.sysProfStat 0 2, proof := some (s.fld Reg.sysProfStat 0 2), fromStaging := false } ∧
      t.bit Reg.sysDraftStat 0 = true ∧ t.logs 7 (s.fld Reg.sysResetCause 28 4) (s.reg Reg.sysResetCause) ∧
      t.broughtUp = (s.broughtUp || t.bringupOver) ∧ t.bit Reg.sysIrqPend 0 = (s.bit Reg.sysIrqPend 0 || (!s.broughtUp && t.bringupOver)) ∧
      t.memp = { s.memp with queue := t.memp.queue, waiting := t.memp.waiting } ∧
      t = { s with regs := t.regs, upd := t.upd, mgmt := t.mgmt, memp := t.memp, freeCtr := t.freeCtr, broughtUp := t.broughtUp } ∧
      s.SameRegs t ([Reg.sysReady, Reg.sysProfStat, Reg.sysDraftStat, Reg.mgmtStat, Reg.mempXip, Reg.updStat, Reg.updBake, Reg.updFloor, Reg.updImage, Reg.updFw, Reg.updFwseq] ++ logRegs)) ∧
  (∀ (s : State) (slot : Nat) (x : DraftImage),
    s.upd.proof = some slot → s.proofImage slot s.upd.fromStaging = some x → s.proofFault (some x) = none → s.halfRuns = true →
    (List.range 4).all (fun n => s.txReason n == 0 && !s.txcHot n) = true → s.hot = [] → s.tap ≠ .extest → s.cmds = [] → s.cands = [] →
    s.rounds = [] → s.noAnt = true → s.regsWf = true →
    ∃ t, exec .proofPassed s = .next t ∧
      t.upd.live = some (draftOf x) ∧ t.upd.proof = none ∧ t.ready rdDraft = true ∧
      t.fld Reg.sysDraftStat 0 2 = 0 ∧ t.fld Reg.sysDraftStat 4 3 = 5 ∧ t.fld Reg.sysDraftStat 16 8 = 0xFF ∧
      (∀ b < 32, b < 8 ∨ b = 11 ∨ t.expected b = draftExpects (draftOf x) b) ∧
      (∀ n < 4, draftExpects (draftOf x) (12 + n) = false ∨ ((t.tx n).calibrating = (decide (n < s.txc.length)) ∧ t.ramp n = 5)) ∧
      t.reg Reg.pingRf = wordOf (2 ^ 31 + (draftOf x).region.pingLevel * 2 ^ 20 + (draftOf x).region.pingKhz) ∧
      t.broughtUp = (s.broughtUp || t.bringupOver) ∧ t.upd = { s.upd with live := some (draftOf x), proof := none } ∧
      t = { s with regs := t.regs, upd := t.upd, mgmt := t.mgmt, chains := t.chains, txc := t.txc, phi := t.phi, ping := t.ping, broughtUp := t.broughtUp }) ∧
  (∀ (s : State) (slot stage sec : Nat),
    s.upd.proof = some slot → s.upd.fromStaging = false → s.proofFault (s.proofImage slot false) = some (stage, sec) → s.halfRuns = true →
    s.regsWf = true →
    ∃ t, exec .proofFailed s = .next t ∧
      t.upd = { s.upd with proof := none } ∧ t.fld Reg.sysDraftStat 0 2 = 2 ∧ t.fld Reg.sysDraftStat 4 3 = stage % 8 ∧
      t.fld Reg.sysDraftStat 16 8 = sec % 256 ∧ t.bit Reg.sysIrqPend 1 = true ∧ t.logs 8 2 (t.reg Reg.sysDraftStat) ∧
      t = { s with regs := t.regs, upd := t.upd, mgmt := t.mgmt } ∧ s.SameRegs t (Reg.sysDraftStat :: logRegs)) ∧
  (∀ (s : State) (slot : Nat) (h : Bool),
    s.upd.proof = some slot → s.upd.fromStaging = true → s.proofFault (s.proofImage slot true) ≠ none → s.halfRuns = true →
    s.mgmt.running = some h → s.regsWf = true →
    ∃ t, exec .proofFailed s = .next t ∧
      t.updState = 2 ∧
      t.upd = { s.upd with proof := some slot, fromStaging := false, newSettings := false, reverting := false, switching := false, recA := t.upd.recA, recB := t.upd.recB } ∧
      (t.xipBase h = if s.fwActive then 7 else 1) ∧ t.logs 14 8 (s.reg Reg.updImage) ∧
      t.memp = { s.memp with queue := t.memp.queue, tasks := t.memp.tasks, waiting := t.memp.waiting } ∧
      t = { s with regs := t.regs, upd := t.upd, mgmt := t.mgmt, memp := t.memp, freeCtr := t.freeCtr } ∧
      s.SameRegs t ([Reg.sysDraftStat, Reg.updStat, Reg.mempXip] ++ logRegs))

/-- O33. A pool that the draft provides becomes ready while a decoder of it is in service. An illuminator that passes its isolated calibration and is not
hot is in service and ready, and the points of its geometries become due; one that fails goes out of service with CAL_FAIL, raises SERVICE, writes a
FAULT packet and is logged. A chain that passes at bring-up, with no point of its geometries owed, joins or stands by; one that fails is out with
SELFTEST. The first sample of a named port gives it its class; Intact it stays in service, else it goes out and PORT_FAULT is raised. -/
def Obligations.PartsBecomeReady : Prop :=
  (∀ (s : State) (pool : Pool),
    s.coreOn = true → s.ready rdDraft = true → s.expected (poolBits pool).1 = true → s.ready (poolBits pool).1 = false →
    s.draft.any (fun d => (poolBits pool).2.any (fun k => d.struct_.decoders.contains k && !s.decOos k)) = true → s.regsWf = true →
    ∃ t, exec (.poolReady pool) s = .next t ∧
      t.ready (poolBits pool).1 = true ∧ t.broughtUp = (s.broughtUp || t.bringupOver) ∧
      t.bit Reg.sysIrqPend 0 = (s.bit Reg.sysIrqPend 0 || (!s.broughtUp && t.bringupOver)) ∧
      t = { s with regs := t.regs, broughtUp := t.broughtUp } ∧ s.SameRegs t [Reg.sysReady, Reg.sysIrqPend]) ∧
  (∀ (s : State) (n : Fin 4),
    (s.tx n).calibrating = true → (List.range 64).all (fun p => p / 16 != n.val || !s.portNamed p || s.portClass p != 0) = true →
    s.txcHot n = false → s.hot = [] → s.cmds = [] → s.chains.all (fun c => c.svc != .points) = true → s.txReason n = 0 → s.regsWf = true →
    ∃ t, exec (.txcCalEnd n true) s = .next t ∧
      t.ready (rdTxc n) = true ∧ t.txReason n = 0 ∧ t.ramp n = 0 ∧ t.txc = updAt s.txc n (fun x => { x with calibrating := false }) ∧
      (∀ g ∈ s.geos, geoUses g (some n.val) none none = true → s.geo? g.warp g.idx = some g → g.warp < 4 → s.region.any (fun r => !r.groups.isEmpty) = true → s.portCal g.port = true → s.calPairs g ≠ [] → t.calPending (fun x => x == g) = true) ∧
      t.broughtUp = (s.broughtUp || t.bringupOver) ∧ t.bit Reg.sysIrqPend 0 = (s.bit Reg.sysIrqPend 0 || (!s.broughtUp && t.bringupOver)) ∧
      t = { s with regs := t.regs, broughtUp := t.broughtUp, txc := t.txc, cands := t.cands } ∧
      s.SameRegs t [Reg.txcStat n, Reg.sysReady, Reg.sysIrqPend]) ∧
  (∀ (s : State) (n : Fin 4),
    (s.tx n).calibrating = true → (List.range 64).all (fun p => p / 16 != n.val || !s.portNamed p || s.portClass p != 0) = true →
    s.txcHot n = false → s.hot = [] → s.cmds = [] → s.cands = [] → s.rounds = [] → s.fifo.fault.length < 32 → s.regsWf = true →
    ∃ t, exec (.txcCalEnd n false) s = .next t ∧
      t.txReason n = 5 ∧ t.ramp n = 0 ∧ t.ready (rdTxc n) = false ∧ t.txc = updAt s.txc n (fun x => { x with calibrating := false }) ∧
      s.faultQueued t (s.faultRec 2 n 5 0) ∧ t.logs 2 0 (wordOf (n.val * 2 ^ 24 + 5 * 2 ^ 16)) ∧ t.bit Reg.sysIrqPend 8 = true ∧
      t = { s with regs := t.regs, broughtUp := t.broughtUp, txc := t.txc, fifo := t.fifo, mgmt := t.mgmt } ∧
      s.SameRegs t ([Reg.txcStat n, Reg.sysReady] ++ logRegs)) ∧
  (∀ (s : State) (n : Fin 16),
    (s.chain n).svc = .calibrating → s.broughtUp = false → s.cmds = [] → s.awaitsTxc n = false →
    (s.chainSpare n = false ∨ s.chains.all (fun c => c.svc != .out) = true) →
    s.calPending (fun g => geoUses g none none (some n.val)) = false → s.regsWf = true →
    ∃ t, exec (.rxcReady n true) s = .next t ∧
      t.ready (rdRxc n) = true ∧
      (t.chains = updAt s.chains n (fun c => { c with svc := if s.chainSpare n then .standby else .inService })) ∧
      t.broughtUp = (s.broughtUp || t.bringupOver) ∧ t.bit Reg.sysIrqPend 0 = (s.bit Reg.sysIrqPend 0 || (!s.broughtUp && t.bringupOver)) ∧
      t = { s with regs := t.regs, broughtUp := t.broughtUp, chains := t.chains } ∧ s.SameRegs t [Reg.sysReady, Reg.sysIrqPend]) ∧
  (∀ (s : State) (n : Fin 16),
    (s.chain n).svc = .calibrating → s.freeSpareChain (n.val / 4) = none → s.cmds = [] → s.rounds = [] → s.fifo.fault.length < 32 →
    s.regsWf = true →
    ∃ t, exec (.rxcReady n false) s = .next t ∧
      t.fld (Reg.rxcStat n) 24 8 = 2 ∧ t.ready (rdRxc n) = false ∧ t.bit Reg.sysClkstat (16 + n.val) = false ∧
      t.chains = updAt s.chains n (fun c => { c with svc := .out, leaving := false }) ∧ s.faultQueued t (s.faultRec 3 n 2 0) ∧
      t.logs 3 0 (wordOf (n.val * 2 ^ 24 + 2 * 2 ^ 16)) ∧ t.bit Reg.sysIrqPend 8 = true ∧
      t = { s with regs := t.regs, broughtUp := t.broughtUp, chains := t.chains, fifo := t.fifo, mgmt := t.mgmt } ∧
      s.SameRegs t ([Reg.rxcStat n, Reg.sysReady, Reg.sysClkstat] ++ logRegs)) ∧
  (∀ (s : State) (o : PortObsAt),
    s.ready rdDraft = true → s.portNamed o.port = true → s.portClass o.port = 0 → firstClass o.obs = 1 → s.regsWf = true →
    ∃ t, exec (.portFirstClassification [o]) s = .next t ∧
      t.portClass o.port = 1 ∧ t = { s with regs := t.regs } ∧ s.SameRegs t [Reg.portState (o.port.val / 8)]) ∧
  (∀ (s : State) (o : PortObsAt),
    s.ready rdDraft = true → s.portNamed o.port = true → s.portClass o.port = 0 → firstClass o.obs ≠ 1 → s.portCarries o.port = false →
    s.cmds = [] → s.fifo.fault.length < 32 → s.noAnt = true → s.regsWf = true →
    ∃ t, exec (.portFirstClassification [o]) s = .next t ∧
      t.portClass o.port = firstClass o.obs ∧ t.portOos o.port = true ∧ t.bit Reg.sysIrqPend 6 = true ∧
      t.reg Reg.portFaultCnt = s.reg Reg.portFaultCnt + 1 ∧
      t.reg Reg.portLastFault = wordOf (min 255 (s.fld Reg.portLastFault 24 8 + 1) * 2 ^ 24 + firstClass o.obs * 2 ^ 16 + o.port.val) ∧
      s.faultQueued t (s.faultRec 1 o.port (firstClass o.obs) 0) ∧ t.logs 1 0 (wordOf (o.port.val * 2 ^ 24 + firstClass o.obs * 2 ^ 16)) ∧
      t = { s with regs := t.regs, fifo := t.fifo, mgmt := t.mgmt } ∧
      s.SameRegs t ([Reg.portState (o.port.val / 8), Reg.portFaultCnt, Reg.portLastFault] ++ logRegs))

/-- O34. A sensor rising through 115 degrees raises THERMAL, writes a FAULT packet with CODE 1 and is logged. A PA through 135 degrees does so with CODE
2, and its illuminator, if the draft uses it, goes out of service with THERMAL; one that the draft does not use is unaffected; a site through 135
degrees with CODE 3, and every illuminator that the draft uses goes out. A site through 145 degrees raises THERMAL and triggers a core reset of cause
THERM. A fall below 105 degrees, and below 125 after 135, is reported with CODE 4. -/
def Obligations.ThermalActions : Prop :=
  (∀ (s : State) (sensor : Fin 8) (temp : BitVec 16),
    s.coreOn = true → s.hot.contains sensor.val = false → s.fifo.fault.length < 32 → s.regsWf = true →
    ∃ t, exec (.thermalWarning sensor temp) s = .next t ∧
      t.hot = s.hot ++ [sensor.val] ∧ t.bit Reg.sysIrqPend 7 = true ∧
      s.faultQueued t (s.faultRec 4 sensor 1 (wordOf (ofTwos 16 temp.toNat % 2 ^ 32).toNat)) ∧
      t.logs 4 0 (wordOf (sensor.val * 2 ^ 24 + 2 ^ 16 + temp.toNat)) ∧
      t = { s with hot := t.hot, fifo := t.fifo, mgmt := t.mgmt, regs := t.regs } ∧ s.SameRegs t (logRegs)) ∧
  (∀ (s : State) (n : Fin 4) (temp : BitVec 16),
    s.coreOn = true → s.hotOut.contains (4 + n.val) = false → s.hot.contains (4 + n.val) = true → s.fifo.fault.length < 31 →
    s.txcUsed n = true → s.txReason n = 0 → s.ramp n = 0 → s.cmds = [] → s.cands = [] → s.rounds = [] → s.noAnt = true → s.regsWf = true →
    ∃ t, exec (.paOvertemp n temp) s = .next t ∧
      t.hotOut = s.hotOut ++ [4 + n.val] ∧ t.hot = s.hot ∧ t.txReason n = 2 ∧ t.ready (rdTxc n) = false ∧
      t.fifo = { s.fifo with fault := s.fifo.fault ++ [s.faultRec 4 (4 + n.val) 2 (wordOf (ofTwos 16 temp.toNat % 2 ^ 32).toNat), s.faultRec 2 n 2 0] } ∧
      t.bit Reg.sysIrqPend 7 = true ∧ t.bit Reg.sysIrqPend 8 = true ∧
      t = { s with hotOut := t.hotOut, fifo := t.fifo, mgmt := t.mgmt, txc := t.txc, broughtUp := t.broughtUp, regs := t.regs } ∧
      s.SameRegs t ([Reg.txcStat n, Reg.sysReady] ++ logRegs)) ∧
  (∀ (s : State) (n : Fin 4) (temp : BitVec 16),
    s.txcUsed n = false →
    exec (.paOvertemp n temp) s = .next s) ∧
  (∀ (s : State) (site : Fin 4) (temp : BitVec 16),
    s.coreOn = true → s.hotOut.contains site.val = false → s.fifo.fault.length < 28 → s.txcsOn = [] → s.noAnt = true → s.cmds = [] →
    s.cands = [] → s.rounds = [] → s.regsWf = true →
    ∃ t, exec (.dieOvertemp site temp) s = .next t ∧
      t.hotOut = s.hotOut ++ [site.val] ∧
      (∀ n < 4, s.txcUsed n = false ∨ t.ready (rdTxc n) = false ∧ t.txReason n = if s.txReason n = 0 then 2 else s.txReason n) ∧
      t.fifo.fault[s.fifo.fault.length]? = some (s.faultRec 4 site 3 (wordOf (ofTwos 16 temp.toNat % 2 ^ 32).toNat)) ∧
      t.bit Reg.sysIrqPend 7 = true ∧
      t = { s with hot := t.hot, hotOut := t.hotOut, fifo := t.fifo, mgmt := t.mgmt, txc := t.txc, broughtUp := t.broughtUp, regs := t.regs } ∧
      s.SameRegs t ([Reg.txcStat 0, Reg.txcStat 1, Reg.txcStat 2, Reg.txcStat 3, Reg.sysReady] ++ logRegs)) ∧
  (∀ (s : State) (site : Fin 4) (temp : BitVec 16),
    s.asleep = false → s.txcsOn = [] → s.resets.contains .therm = false → s.regsWf = true →
    ∃ t, exec (.therm site temp) s = .next t ∧
      t.resets = s.resets ++ [.therm] ∧ t.hot.contains site.val = true ∧ t.hotOut.contains site.val = true ∧ t.bit Reg.sysIrqPend 7 = true ∧
      t = { s with hot := t.hot, hotOut := t.hotOut, resets := t.resets, regs := t.regs } ∧ s.SameRegs t [Reg.sysIrqPend]) ∧
  (∀ (s : State) (sensor : Fin 8) (temp : BitVec 16),
    s.coreOn = true → s.hot.contains sensor.val = true → ofTwos 16 temp.toNat < 1050 → s.fifo.fault.length < 32 → s.regsWf = true →
    ∃ t, exec (.thermalFall sensor temp) s = .next t ∧
      t.hot = s.hot.filter (fun x => x != sensor.val) ∧ t.hotOut = s.hotOut.filter (fun x => x != sensor.val) ∧
      t.hotRead = s.hotRead.filter (fun x => x != sensor.val) ∧
      s.faultQueued t (s.faultRec 4 sensor 4 (wordOf (ofTwos 16 temp.toNat % 2 ^ 32).toNat)) ∧ t.bit Reg.sysIrqPend 7 = true ∧
      t = { s with hot := t.hot, hotOut := t.hotOut, hotRead := t.hotRead, fifo := t.fifo, mgmt := t.mgmt, regs := t.regs } ∧
      s.SameRegs t (logRegs))

/-- O35. A sample of an Intact named port that shows a fault class gives the port that class and takes it out of service: PORT_FAULT_CNT counts,
PORT_LAST_FAULT shows it, PORT_FAULT is raised, a FAULT packet is written and the change logged; a port that carries the carrier is taken out of
service when its ramp-down has ended; a round that transmits on it ramps down fast and ends with PORT_FAULT. A port back to Intact is reported and
stays out of service. -/
def Obligations.PortsFault : Prop :=
  (∀ (s : State) (p : Fin 64) (obs : PortObs) (c : Nat),
    s.portNamed p = true → s.portClass p = 1 → faultClass (s.portCarries p) obs = some c → s.cmds = [] → s.rounds = [] →
    s.portCarries p = false → s.switchesOpen = true → s.fifo.fault.length < 32 → s.noAnt = true → s.regsWf = true →
    ∃ t, exec (.portFault p obs) s = .next t ∧
      t.portClass p = c ∧ t.portOos p = true ∧ t.reg Reg.portFaultCnt = s.reg Reg.portFaultCnt + 1 ∧
      t.reg Reg.portLastFault = wordOf (min 255 (s.fld Reg.portLastFault 24 8 + 1) * 2 ^ 24 + c * 2 ^ 16 + p.val) ∧
      t.bit Reg.sysIrqPend 6 = true ∧ s.faultQueued t (s.faultRec 1 p c 0) ∧ t.logs 1 0 (wordOf (p.val * 2 ^ 24 + c * 2 ^ 16)) ∧
      t = { s with fifo := t.fifo, mgmt := t.mgmt, regs := t.regs } ∧
      s.SameRegs t ([Reg.portState (p.val / 8), Reg.portFaultCnt, Reg.portLastFault] ++ logRegs)) ∧
  (∀ (s : State) (p : Fin 64) (obs : PortObs) (c n : Nat) (r : Round),
    s.portNamed p = true → s.portClass p = 1 → faultClass (s.portCarries p) obs = some c → s.cmds = [] → s.soleRound r n = true → n < 4 →
    r.port = p.val → r.beams = [] → r.atRest = true → r.serves = true → s.ramp n = 2 → s.switchesOpen = true → s.fifo.fault.length < 32 →
    s.noAnt = true → s.regsWf = true →
    ∃ t, exec (.portFault p obs) s = .next t ∧
      t.portClass p = c ∧ t.portOos p = (s.portOos p || !s.portCarries p) ∧
      t.rounds = [{ r with status := some .portFault, noNew := true, phase := .ending }] ∧ t.ramp n = 3 ∧
      t.txc = updAt s.txc n (fun x => { x with fast := true, after := .endRound }) ∧
      t.reg (Reg.txcCntFast n) = s.reg (Reg.txcCntFast n) + 1 ∧
      t = { s with fifo := t.fifo, mgmt := t.mgmt, rounds := t.rounds, txc := t.txc, regs := t.regs } ∧
      s.SameRegs t ([Reg.portState (p.val / 8), Reg.portFaultCnt, Reg.portLastFault, Reg.txcStat n, Reg.txcCntFast n] ++ logRegs)) ∧
  (∀ (s : State) (n : Fin 4),
    s.ramp n = 3 → s.bit (Reg.txcStat n) 23 = true → 2 ≤ s.portClass (s.fld (Reg.txcStat n) 16 6) → (s.tx n).after = .off →
    s.roundOfTxc n = none → s.regsWf = true →
    ∃ t, exec (.rampDownEnd n) s = .next t ∧
      t.portOos (s.fld (Reg.txcStat n) 16 6) = true ∧ t.ramp n = 0 ∧ t.bit (Reg.txcStat n) 23 = false) ∧
  (∀ (s : State) (p : Fin 64),
    s.portNamed p = true → 2 ≤ s.portClass p → s.fifo.fault.length < 32 → s.noAnt = true → s.regsWf = true →
    ∃ t, exec (.portIntact p) s = .next t ∧
      t.portClass p = 1 ∧ t.portOos p = s.portOos p ∧
      t.reg Reg.portLastFault = wordOf (min 255 (s.fld Reg.portLastFault 24 8 + 1) * 2 ^ 24 + 2 ^ 16 + p.val) ∧
      t.bit Reg.sysIrqPend 6 = true ∧ s.faultQueued t (s.faultRec 1 p 1 0) ∧ t = { s with fifo := t.fifo, mgmt := t.mgmt, regs := t.regs } ∧
      s.SameRegs t ([Reg.portState (p.val / 8), Reg.portLastFault] ++ logRegs))

/-- O36. A synthesiser that loses lock with the carrier on ramps down fast and relock attempts follow. An attempt that settles ends the transaction in
flight with TIMEOUT and the carrier ramps up again; a failed one is followed by another, and after the third the illuminator is out with LOCK_LOST. A
PA fault on a port not in class Overpower puts its illuminator out with reason 3 and ramps it down fast. A canceller at its limit or a stopped ADC
puts the chain out with its reason; SERVICE is raised, a FAULT packet written and the event logged. -/
def Obligations.SynthesisersAmplifiersAndChainsFail : Prop :=
  (∀ (s : State) (n : Fin 4) (r : Round),
    s.soleRound r n = true → r.serves = true → s.ramp n = 2 → s.regsWf = true →
    ∃ t, exec (.lossOfLock n) s = .next t ∧
      t.ramp n = 3 ∧ t.txc = updAt s.txc n (fun x => { x with fast := true, after := .relock 0 .same }) ∧
      t.reg (Reg.txcCntFast n) = s.reg (Reg.txcCntFast n) + 1 ∧ t = { s with txc := t.txc, regs := t.regs } ∧
      s.SameRegs t [Reg.txcStat n, Reg.txcCntFast n]) ∧
  (∀ (s : State) (n : Fin 4) (k : Nat) (next : Relocked),
    (s.tx n).after = .relock k next → (s.tx n).cancelUp = false → s.ramp n = 4 → k < 2 → s.regsWf = true →
    ∃ t, exec (.relockAttemptEnd n false) s = .next t ∧
      t.txc = updAt s.txc n (fun x => { x with after := .relock (k + 1) next }) ∧ t = { s with txc := t.txc }) ∧
  (∀ (s : State) (n : Fin 4) (k : Nat) (next : Relocked),
    (s.tx n).after = .relock k next → (s.tx n).cancelUp = false → s.ramp n = 4 → 2 ≤ k → s.noHopWaits = true → s.txReason n = 0 →
    s.cmds = [] → s.cands = [] → s.rounds = [] → s.fifo.fault.length < 32 → s.regsWf = true →
    ∃ t, exec (.relockAttemptEnd n false) s = .next t ∧
      t.txReason n = 4 ∧ t.ready (rdTxc n) = false ∧ t.ramp n = 0 ∧ s.faultQueued t (s.faultRec 2 n 4 0) ∧
      t.logs 2 0 (wordOf (n.val * 2 ^ 24 + 4 * 2 ^ 16)) ∧ t.bit Reg.sysIrqPend 8 = true ∧
      t = { s with txc := t.txc, fifo := t.fifo, mgmt := t.mgmt, broughtUp := t.broughtUp, regs := t.regs } ∧
      s.SameRegs t ([Reg.txcStat n, Reg.sysReady] ++ logRegs)) ∧
  (∀ (s : State) (n : Fin 4) (k c : Nat) (r : Round),
    (s.tx n).after = .relock k .same → (s.tx n).cancelUp = false → s.noHopWaits = true → s.ramp n = 4 → s.soleRound r n = true →
    r.kind = .inventory → r.atRest = true → r.beams = [] → (s.tx n).chan = some c → s.chanOff.contains c = false → s.clash n c = false →
    s.regsWf = true →
    ∃ t, exec (.relockAttemptEnd n true) s = .next t ∧
      t.ramp n = 1 ∧ t.reg (Reg.txcCntRamp n) = s.reg (Reg.txcCntRamp n) + 1 ∧
      t.txc = updAt s.txc n (fun x => { x with after := .off, cancelUp := false, waiting := false, aired := true, onAt := some s.up }) ∧
      t.rounds = [{ r with upAt := some (r.upAt.getD s.up) }] ∧ t = { s with txc := t.txc, rounds := t.rounds, regs := t.regs } ∧
      s.SameRegs t [Reg.txcStat n, Reg.txcCntRamp n]) ∧
  (∀ (s : State) (n : Fin 4),
    s.ramp n = 2 → s.portClass (s.fld (Reg.txcStat n) 16 6) ≠ 5 → s.txReason n = 0 → s.cmds = [] → s.cands = [] → s.rounds = [] →
    s.fifo.fault.length < 32 → s.regsWf = true →
    ∃ t, exec (.paFault n) s = .next t ∧
      t.txReason n = 3 ∧ t.ready (rdTxc n) = false ∧ t.ramp n = 3 ∧ s.faultQueued t (s.faultRec 2 n 3 0) ∧
      t.reg (Reg.txcCntFast n) = s.reg (Reg.txcCntFast n) + 1 ∧ t.bit Reg.sysIrqPend 8 = true ∧
      t = { s with txc := t.txc, fifo := t.fifo, mgmt := t.mgmt, broughtUp := t.broughtUp, regs := t.regs } ∧
      s.SameRegs t ([Reg.txcStat n, Reg.txcCntFast n, Reg.sysReady] ++ logRegs)) ∧
  (∀ (s : State) (n : Fin 16),
    (s.chain n).svc = .inService → s.fld (Reg.rxcStat n) 24 8 = 0 → s.freeSpareChain (n.val / 4) = none → s.cmds = [] → s.rounds = [] →
    s.fifo.fault.length < 32 → s.regsWf = true →
    ∃ t, exec (.cancSat n) s = .next t ∧
      t.fld (Reg.rxcStat n) 24 8 = 4 ∧ t.ready (rdRxc n) = false ∧ t.bit Reg.sysClkstat (16 + n.val) = false ∧
      t.bit (Reg.rxcCancStat n) 30 = true ∧ t.chains = updAt s.chains n (fun c => { c with svc := .out, leaving := false }) ∧
      s.faultQueued t (s.faultRec 3 n 4 0) ∧ t.bit Reg.sysIrqPend 8 = true ∧
      t = { s with chains := t.chains, fifo := t.fifo, mgmt := t.mgmt, broughtUp := t.broughtUp, regs := t.regs } ∧
      s.SameRegs t ([Reg.rxcStat n, Reg.sysReady, Reg.sysClkstat, Reg.rxcCancStat n] ++ logRegs)) ∧
  (∀ (s : State) (n : Fin 16),
    (s.chain n).svc = .inService → s.fld (Reg.rxcStat n) 24 8 = 0 → s.freeSpareChain (n.val / 4) = none → s.cmds = [] → s.rounds = [] →
    s.fifo.fault.length < 32 → s.regsWf = true →
    ∃ t, exec (.adcFail n) s = .next t ∧
      t.fld (Reg.rxcStat n) 24 8 = 3 ∧ t.ready (rdRxc n) = false ∧ t.bit Reg.sysClkstat (16 + n.val) = false ∧
      t.chains = updAt s.chains n (fun c => { c with svc := .out, leaving := false }) ∧ s.faultQueued t (s.faultRec 3 n 3 0) ∧
      t.bit Reg.sysIrqPend 8 = true ∧
      t = { s with chains := t.chains, fifo := t.fifo, mgmt := t.mgmt, broughtUp := t.broughtUp, regs := t.regs } ∧
      s.SameRegs t ([Reg.rxcStat n, Reg.sysReady, Reg.sysClkstat] ++ logRegs))

/-- O37. A ramp-up that ends leaves the carrier on in CW mode, and a round that started is running. A ramp-down that ends turns the carrier off, or goes
on to the hop it was for (CNT_HOP, the new channel, RETUNE), to a ramp-up on the round's new port, or to the end of its round. A synthesiser that has
settled ramps up, counting CNT_RAMP, unless the channel is in its off-time: then it waits until that expires. In a peer round the PA stays off. -/
def Obligations.RampsAndSettling : Prop :=
  (∀ (s : State) (n : Fin 4),
    s.ramp n = 1 → s.roundOfTxc n = none → s.regsWf = true →
    ∃ t, exec (.rampUpEnd n) s = .next t ∧
      t.ramp n = 2 ∧ t.fld (Reg.txcStat n) 8 3 = 1 ∧ t = { s with regs := t.regs } ∧ s.SameRegs t [Reg.txcStat n]) ∧
  (∀ (s : State) (n : Fin 4) (r : Round),
    s.ramp n = 1 → s.soleRound r n = true → r.kind.peer = false → s.noHopWaits = true → s.regsWf = true →
    ∃ t, exec (.rampUpEnd n) s = .next t ∧
      t.ramp n = 2 ∧ t.fld (Reg.txcStat n) 8 3 = 1 ∧ (t.rounds = [{ r with phase := if r.phase = .starting then .running else r.phase }]) ∧
      t = { s with rounds := t.rounds, regs := t.regs } ∧ s.SameRegs t [Reg.txcStat n]) ∧
  (∀ (s : State) (n : Fin 4) (r : Round),
    s.ramp n = 1 → s.soleRound r n = true → r.kind.peer = true → s.noHopWaits = true → s.regsWf = true →
    ∃ t, exec (.rampUpEnd n) s = .next t ∧
      t.ramp n = 2 ∧ t.fld (Reg.txcStat n) 8 3 = 4 ∧ t = { s with rounds := t.rounds, regs := t.regs } ∧ s.SameRegs t [Reg.txcStat n]) ∧
  (∀ (s : State) (n : Fin 4) (c u : Nat) (rg : RegionProfile),
    s.ramp n = 3 → (s.tx n).after = .off → s.rounds = [] → s.fallsAlone n = true → (s.tx n).chan = some c → (s.tx n).onAt = some u →
    s.region = some rg → s.regsWf = true →
    ∃ t, exec (.rampDownEnd n) s = .next t ∧
      t.ramp n = 0 ∧ t.fld (Reg.txcStat n) 8 3 = 0 ∧ t.bit (Reg.txcStat n) 23 = false ∧
      t.txc = updAt s.txc n (fun x => { x with onAt := none, steer := s.peer.steer }) ∧
      t.airLog = s.airLog.filter (fun e => decide (s.up ≤ e.2.2 + 1000 * rg.occWindow)) ++ [(c, u, s.up)] ∧
      t = { s with airLog := t.airLog, txc := t.txc, regs := t.regs } ∧ s.SameRegs t [Reg.txcStat n]) ∧
  (∀ (s : State) (n : Fin 4) (r : Round) (ch : Nat) (rg : RegionProfile),
    s.ramp n = 3 → (s.tx n).after = .hop ch → s.soleRound r n = true → r.kind = .inventory → s.fallsAlone n = true →
    (s.tx n).chan.all (fun c => c != ch) = true → s.region = some rg → rg.offTime = 0 → r.port < 64 → s.regsWf = true →
    ∃ t, exec (.rampDownEnd n) s = .next t ∧
      t.ramp n = 4 ∧ t.reg (Reg.txcCntHop n) = s.reg (Reg.txcCntHop n) + 1 ∧ t.reg (Reg.txcFreq n) = wordOf (regionKhz rg ch) ∧
      t.reg (Reg.txcPower n) = wordOf (rg.caps.getD ch 0 * 65536 + min (levelCode r.words) (rg.caps.getD ch 0)) ∧
      t.fld (Reg.txcStat n) 8 3 = 0 ∧ t.bit (Reg.txcStat n) 23 = true ∧ t.fld (Reg.txcStat n) 16 6 = r.port ∧
      (t.txc = updAt s.txc n (fun x => { x with chan := some ch, waiting := false, onAt := if x.chan.isSome then none else x.onAt, steer := s.peer.steer })) ∧
      t = { s with airLog := t.airLog, txc := t.txc, regs := t.regs } ∧
      s.SameRegs t [Reg.txcStat n, Reg.txcCntHop n, Reg.txcFreq n, Reg.txcPower n]) ∧
  (∀ (s : State) (n : Fin 4) (r : Round),
    s.ramp n = 3 → (s.tx n).after = .change → s.soleRound r n = true → s.fallsAlone n = true → r.kind = .inventory → r.port < 64 →
    ((s.tx n).chan.all (fun c => !s.chanOff.contains c && !s.clash n c)) = true → s.regsWf = true →
    ∃ t, exec (.rampDownEnd n) s = .next t ∧
      t.ramp n = 1 ∧ t.reg (Reg.txcCntRamp n) = s.reg (Reg.txcCntRamp n) + 1 ∧
      t.fld (Reg.txcStat n) 16 6 = r.port ∧ t.bit (Reg.txcStat n) 23 = true ∧
      t.txc = updAt s.txc n (fun x => { x with cancelUp := false, waiting := false, aired := true, onAt := some s.up, steer := s.peer.steer }) ∧
      t.rounds = [{ r with upAt := some (r.upAt.getD s.up) }] ∧
      t = { s with airLog := t.airLog, txc := t.txc, rounds := t.rounds, regs := t.regs } ∧ s.SameRegs t [Reg.txcStat n, Reg.txcCntRamp n]) ∧
  (∀ (s : State) (n : Fin 4) (r : Round),
    s.ramp n = 4 → (s.tx n).after = .off → (s.tx n).waiting = false → (s.tx n).cancelUp = false → s.soleRound r n = true → r.serves = true →
    ((s.tx n).chan.all (fun c => !s.chanOff.contains c && !s.clash n c)) = true → s.regsWf = true →
    ∃ t, exec (.synthSettled n) s = .next t ∧
      t.ramp n = 1 ∧ t.reg (Reg.txcCntRamp n) = s.reg (Reg.txcCntRamp n) + 1 ∧ t.fld (Reg.txcStat n) 8 3 = 1 ∧
      t.rounds = [{ r with upAt := some (r.upAt.getD s.up) }] ∧
      t.txc = updAt s.txc n (fun x => { x with cancelUp := false, waiting := false, aired := true, onAt := some s.up }) ∧
      t = { s with txc := t.txc, rounds := t.rounds, regs := t.regs } ∧ s.SameRegs t [Reg.txcStat n, Reg.txcCntRamp n]) ∧
  (∀ (s : State) (n : Fin 4) (r : Round) (c : Nat),
    s.ramp n = 4 → (s.tx n).after = .off → (s.tx n).waiting = false → (s.tx n).cancelUp = false → s.soleRound r n = true → r.serves = true →
    (s.tx n).chan = some c → (s.chanOff.contains c = true ∨ s.clash n c = true) → s.regsWf = true →
    ∃ t, exec (.synthSettled n) s = .next t ∧
      t.txc = updAt s.txc n (fun x => { x with waiting := true }) ∧ t = { s with txc := t.txc }) ∧
  (∀ (s : State) (n : Fin 4) (r : Round),
    s.ramp n = 4 → (s.tx n).after = .off → (s.tx n).waiting = false → (s.tx n).cancelUp = false → s.soleRound r n = true →
    (r.kind = .peerWin ∨ r.kind = .peerRx) → s.regsWf = true →
    ∃ t, exec (.synthSettled n) s = .next t ∧
      t.ramp n = 0 ∧ t = { s with regs := t.regs } ∧ s.SameRegs t [Reg.txcStat n]) ∧
  (∀ (s : State) (ch : BitVec 6) (n : Nat),
    n < 4 → (s.tx n).waiting = true → (s.tx n).chan = some ch.toNat → s.ramp n = 4 → s.rounds = [] →
    s.chanOff.all (fun k => k == ch.toNat) = true → s.clash n ch.toNat = false → (∀ k < 4, k = n ∨ (s.tx k).waiting = false) →
    s.regsWf = true →
    ∃ t, exec (.offTimeExpiry ch) s = .next t ∧
      t.chanOff = s.chanOff.filter (fun k => k != ch.toNat) ∧ t.ramp n = 1 ∧ t.reg (Reg.txcCntRamp n) = s.reg (Reg.txcCntRamp n) + 1 ∧
      t.txc = updAt s.txc n (fun x => { x with cancelUp := false, waiting := false, aired := true, onAt := some s.up }) ∧
      t = { s with chanOff := t.chanOff, txc := t.txc, regs := t.regs } ∧ s.SameRegs t [Reg.txcStat n, Reg.txcCntRamp n]) ∧
  (∀ (s : State) (ch : BitVec 6),
    (∀ k < 4, (s.tx k).waiting = false) → s.regsWf = true →
    ∃ t, exec (.offTimeExpiry ch) s = .next t ∧
      t.chanOff = s.chanOff.filter (fun k => k != ch.toNat) ∧ t = { s with chanOff := t.chanOff })

/-- O38. The guard acts on a carrier that is on: CNT_GUARD counts, the next channel of the hop order is taken, and the carrier ramps down for a hop to it.
At a hop epoch the one round on air whose entry allows it has a hop due, and between two transactions it hops at once: the next channel of the order
is taken and its carrier ramps down for it; one whose entry does not hop goes on. A command with a delayed reply is not cut by the guard: while its
reply is awaited GUARD_HOP changes nothing, and a command that is held back (R207) keeps its place in the round through the hop. With coordination the
position in the hop order follows the epoch and the module's colour. -/
def Obligations.HopsAndGuard : Prop :=
  (∀ (s : State) (n : Fin 4) (r : Round) (rg : RegionProfile),
    s.ramp n = 2 → s.soleRound r n = true → r.kind = .inventory → r.atRest = true → r.beams = [] → r.leg = none → s.noHopWaits = true →
    s.region = some rg → rg.spread = false → (∀ k < 4, k = n.val ∨ s.ramp k = 0) → s.regsWf = true →
    ∃ t, exec (.guardHop n) s = .next t ∧
      t.ramp n = 3 ∧ t.reg (Reg.txcCntGuard n) = s.reg (Reg.txcCntGuard n) + 1 ∧ t.hopPos = (s.hopPos + 1) % rg.hopOrder.length ∧
      t.txc = updAt s.txc n (fun x => { x with fast := false, after := .hop (rg.hopOrder.getD (s.hopPos % rg.hopOrder.length) 0) }) ∧
      t.rounds = s.rounds ∧ t = { s with hopPos := t.hopPos, txc := t.txc, crcQ := t.crcQ, regs := t.regs } ∧
      s.SameRegs t [Reg.txcStat n, Reg.txcCntGuard n]) ∧
  (∀ (s : State) (d : Draft) (n : Nat) (r : Round),
    s.upd.live = some d → s.coreOn = true → d.region.spread = false → s.bit Reg.peerCfg 1 = false → s.soleRound r n = true → n < 4 →
    s.ramp n = 2 → s.noHopWaits = true → (∀ k < 4, k = n ∨ s.ramp k = 0) → r.atRest = true → r.serves = true → eHop r.words = 1 →
    s.regsWf = true →
    ∃ t, exec .hopEpoch s = .next t ∧
      t.ramp n = 3 ∧ t.hopPos = (s.hopPos + 1) % d.region.hopOrder.length ∧
      t.txc = updAt s.txc n (fun x => { x with fast := false, after := .hop (d.region.hopOrder.getD (s.hopPos % d.region.hopOrder.length) 0) }) ∧
      t.rounds = [{ r with hopDue := false }] ∧ t = { s with hopPos := t.hopPos, txc := t.txc, rounds := t.rounds, regs := t.regs } ∧
      s.SameRegs t [Reg.txcStat n]) ∧
  (∀ (s : State) (d : Draft) (n : Nat) (r : Round),
    s.upd.live = some d → s.coreOn = true → s.bit Reg.peerCfg 1 = false → s.soleRound r n = true → s.serving n = true → n < 4 →
    eHop r.words ≠ 1 → s.noHopWaits = true → d.region.spread = false → s.regsWf = true →
    ∃ t, exec .hopEpoch s = .next t ∧
      t = s) ∧
  (∀ (s : State) (d : Draft),
    s.upd.live = some d → s.coreOn = true → s.bit Reg.peerCfg 1 = true → s.rounds = [] → s.noHopWaits = true → d.hopEpoch ≠ 0 →
    s.regsWf = true →
    ∃ t, exec .hopEpoch s = .next t ∧
      t.hopPos = (s.now / (1000 * d.hopEpoch) + s.fld Reg.peerColour 0 2 * (d.region.hopOrder.length / 4)) % d.region.hopOrder.length ∧
      t.txc = s.txc.map (fun x => { x with hopPos := t.hopPos }) ∧ t = { s with hopPos := t.hopPos, txc := t.txc }) ∧
  (∀ (s : State) (n : Fin 4) (r : Round) (l : Leg),
    s.ramp n = 2 → s.soleRound r n = true → r.leg = some l → r.awaitsDelayed = true → s.regsWf = true →
    ∃ t, exec (.guardHop n) s = .next t ∧
      t = s) ∧
  (∀ (s : State) (n : Fin 4) (r : Round) (rg : RegionProfile) (l : Leg) (a : Air),
    s.ramp n = 2 → s.soleRound r n = true → r.kind = .access → r.leg = some l → l.phase = .accHeld → r.status = none → s.noHopWaits = true →
    l.held = some (a, false) → s.region = some rg → rg.spread = false → (∀ k < 4, k = n.val ∨ s.ramp k = 0) → s.regsWf = true →
    ∃ t, exec (.guardHop n) s = .next t ∧
      t.ramp n = 3 ∧ t.reg (Reg.txcCntGuard n) = s.reg (Reg.txcCntGuard n) + 1 ∧
      t.rounds = [{ r with leg := some { l with held := some (a, true) } }] ∧
      t.txc = updAt s.txc n (fun x => { x with fast := false, after := .hop (rg.hopOrder.getD (s.hopPos % rg.hopOrder.length) 0) }))

/-- O39. The end of a calibration point counts RECAL of its chains, keeps the seed of each where it has passed, and takes the carrier down; when that
ramp-down has ended, a point that passed is usable, one that failed is run again, and one that failed twice is marked unusable and logged. CAL_PERIOD
makes the points of one channel group, taken in turn, due on each warp. DIVERGE counts once a second for a point and makes it due again. At the end of
the CW interval each chain of the round's beams has its gain fixed, and a round that stands before a transaction sends its first command. -/
def Obligations.CalibrationAndGain : Prop :=
  (∀ (s : State) (w : Fin 4) (r : Round) (n g c : Nat) (pass : Bool),
    s.soleRound r n = true → r.warps.contains w.val = true → r.kind = .cal → r.points.head? = some (g, c) → s.ramp n = 2 →
    s.geo? r.warp g = none → s.regsWf = true →
    ∃ t, exec (.calPointEnd w pass) s = .next t ∧
      t.rounds = [{ r with verdict := some pass }] ∧ t.ramp n = 3 ∧
      t.txc = updAt s.txc n (fun x => { x with fast := true, after := .change }) ∧ t.reg (Reg.txcCntFast n) = s.reg (Reg.txcCntFast n) + 1 ∧
      t = { s with rounds := t.rounds, txc := t.txc, regs := t.regs } ∧ s.SameRegs t [Reg.txcStat n, Reg.txcCntFast n]) ∧
  (∀ (s : State) (w : Fin 4) (r : Round) (n g c k p : Nat) (x : Geometry),
    s.soleRound r n = true → r.warps.contains w.val = true → r.kind = .cal → r.points.head? = some (g, c) → s.ramp n = 2 →
    s.geo? r.warp g = some x → s.calPairs x = [(k, p)] → k < 16 → n < 4 → s.regsWf = true →
    ∃ t, exec (.calPointEnd w true) s = .next t ∧
      sget (fun _ => 0) t.seedWt (seedKey k r.warp g c) = t.reg (Reg.rxcCancTap k n) ∧ (∀ j < 4, j = n ∨ t.reg (Reg.rxcCancTap k j) = 0) ∧
      45 ≤ t.fld (Reg.rxcCancStat k) 8 8 ∧ t.rounds = [{ r with verdict := some true }] ∧
      t.fld (Reg.rxcCancRecal k) 0 16 = min 65535 (s.fld (Reg.rxcCancRecal k) 0 16 + 1) ∧ t.ramp n = 3 ∧
      t = { s with seedWt := t.seedWt, rounds := t.rounds, txc := t.txc, regs := t.regs, freeCtr := t.freeCtr } ∧
      s.SameRegs t [Reg.txcStat n, Reg.txcCntFast n, Reg.rxcCancStat k, Reg.rxcCancTap k 0, Reg.rxcCancTap k 1, Reg.rxcCancTap k 2, Reg.rxcCancTap k 3, Reg.rxcCancRecal k]) ∧
  (∀ (s : State) (n : Fin 4) (r : Round) (g c : Nat),
    s.ramp n = 3 → (s.tx n).after = .change → s.soleRound r n = true → s.fallsAlone n = true → r.kind = .cal → r.points = [(g, c)] →
    r.verdict = some true → s.cmds = [] → s.cands = [] → s.regsWf = true →
    ∃ t, exec (.rampDownEnd n) s = .next t ∧
      (t.seeds = if s.seeds.contains (r.warp, g, c) then s.seeds else s.seeds ++ [(r.warp, g, c)]) ∧
      t.unusable = s.unusable.filter (fun e => e != (r.warp, g, c)) ∧ t.rounds = [] ∧ t.seen = s.seen ∧ t.mgmt = s.mgmt ∧ t.tag = s.tag) ∧
  (∀ (s : State) (n : Fin 4) (r : Round) (g c : Nat),
    s.ramp n = 3 → (s.tx n).after = .change → s.soleRound r n = true → s.fallsAlone n = true → r.kind = .cal → r.points = [(g, c)] →
    r.verdict = some false → r.failed = true → s.halfRuns = true → s.cmds = [] → s.cands = [] → s.regsWf = true →
    ∃ t, exec (.rampDownEnd n) s = .next t ∧
      t.seeds = s.seeds ∧ (t.unusable = if s.unusable.contains (r.warp, g, c) then s.unusable else s.unusable ++ [(r.warp, g, c)]) ∧
      t.rounds = [] ∧ t.logs 8 3 (s.reg Reg.sysDraftStat)) ∧
  (∀ (s : State) (n : Fin 4) (r : Round) (g c : Nat) (x : Geometry) (rg : RegionProfile),
    s.ramp n = 3 → (s.tx n).after = .change → s.soleRound r n = true → s.fallsAlone n = true → r.kind = .cal → r.points = [(g, c)] →
    r.verdict = some false → r.failed = false → s.geo? r.warp g = some x → x.txc = n.val → s.txcUp n = true → s.geoCal x = true →
    s.region = some rg → s.noAnt = true → s.cmds = [] → s.cands = [] → s.regsWf = true →
    ∃ t, exec (.rampDownEnd n) s = .next t ∧
      t.seeds = s.seeds ∧ t.unusable = s.unusable ∧ t.rounds.map (fun k => (k.points, k.failed, k.verdict)) = [([(g, c)], true, none)] ∧
      (t.tx n).chan = some (groupCentre rg c)) ∧
  (∀ (s : State) (rg : RegionProfile),
    s.region = some rg → s.coreOn = true → rg.groups ≠ [] → s.cands = [] → s.regsWf = true →
    ∃ t, exec .calPeriod s = .next t ∧
      t.calNext = (s.calNext % rg.groups.length + 1) % rg.groups.length ∧
      (∀ w < 4, t.cands.filter (fun c => c.warp == w) = if (s.calPoints w (fun _ => true)).all (fun e => e.2 != s.calNext % rg.groups.length) then [] else [{ kind := .cal, seq := 0, entry := 0, warp := w, due := true, points := (s.calPoints w (fun _ => true)).filter (fun e => e.2 == s.calNext % rg.groups.length) }]) ∧
      t = { s with calNext := t.calNext, cands := t.cands }) ∧
  (∀ (s : State) (n : Fin 16) (r : Round) (b : Beam) (k g ch : Nat) (rg : RegionProfile),
    s.soleRound r k = true → r.beams = [0] → s.beam? 0 = some b → b.geo = g → b.chains.any (fun e => e.1 == n.val) = true →
    r.geos.head? = some g → s.region = some rg → (s.tx k).chan = some ch → s.ramp k = 2 →
    sget (fun _ => 0) s.divAt (256 * r.warp + 8 * g + regionGroup rg ch) = 0 → s.cands = [] → s.regsWf = true →
    ∃ t, exec (.diverge n) s = .next t ∧
      t.fld (Reg.rxcCancRecal n) 16 16 = min 65535 (s.fld (Reg.rxcCancRecal n) 16 16 + 1) ∧
      t.cands = [{ kind := .cal, seq := 0, entry := 0, warp := r.warp, due := true, points := [(g, regionGroup rg ch)] }] ∧
      t.divAt = sput (fun _ => 0) s.divAt (256 * r.warp + 8 * g + regionGroup rg ch) (s.up + 1) ∧
      t = { s with cands := t.cands, divAt := t.divAt, regs := t.regs } ∧ s.SameRegs t [Reg.rxcCancRecal n]) ∧
  (∀ (s : State) (w : Fin 4) (gains : List ChainGain) (r : Round) (n : Nat),
    s.soleRound r n = true → n < 4 → r.warps.contains w.val = true → r.kind = .inventory → r.atRest = true → s.ramp n = 2 → r.beams = [] →
    r.leg = none → r.uma = none → r.hopDue = false → eProto r.words = 0 → s.regsWf = true →
    ∃ t f, exec (.cwIntervalEnd w gains) s = .next t ∧
      t.rounds = [f] ∧ f.txn = some false ∧ f.leg = some (legInit (r.lb 8 4) .slot) ∧ f.sent = selectsOf r.words ++ [r.query (r.lb 8 4)] ∧
      t.fld (Reg.txcStat n) 8 3 = 2 + fieldN (r.link.getD 0 0) 23 1 ∧ t = { s with rounds := t.rounds, regs := t.regs } ∧
      s.SameRegs t [Reg.txcStat n, Reg.legCnt (r.port / 16) 0, Reg.legCnt (r.port / 16) 1]) ∧
  (∀ (s : State) (w : Fin 4) (gains : List ChainGain) (r : Round) (n k : Nat) (b : Beam) (g : ChainGain),
    s.soleRound r n = true → n < 4 → r.warps.contains w.val = true → r.kind = .inventory → r.atRest = true → s.ramp n = 2 → r.beams = [0] →
    s.beam? 0 = some b → r.geos.head? = some b.geo → b.chains.map (fun e => e.1) = [k] → k < 16 → gains = [g] → g.chain.val = k →
    s.bit (Reg.rxcCfg k) 7 = false → s.regsWf = true →
    ∃ t, exec (.cwIntervalEnd w gains) s = .next t ∧
      t.fld (Reg.rxcStat k) 0 5 = gainCode g.peak (s.chain k).clipped ∧ t.bit (Reg.rxcCancStat k) 30 = s.bit (Reg.rxcCancStat k) 30 ∧
      t.seen = s.seen ∧ t.fifo = s.fifo ∧ t.cands = s.cands ∧ t.cmds = s.cmds ∧ t.tag = s.tag)

/-- O40. In an open window with nothing received a peak at the threshold or above locks the beam: a reception of that power is in progress and LOCKS
counts, for a beam of a Umaolo engine UMA_LOCKS too; a weaker peak changes nothing. During a reception a secondary peak at the capture level captures,
with at most four captures in a window: LOCKS, CAPTURED and, by whether the header was complete, LOST_TO_CAPTURE or FALSE_LOCK count. The fifth such
peak counts CAP_LIMIT and secondary correlation is off for the rest of the window. A peak below the level changes nothing. A reception that ends
without a valid header counts HEADER_FAIL; one with a header goes to the decoder, what waited behind the frame taking its place. When a reply window
opens, the beams in use may lock, with no capture counted; when it closes while something is being received, only the windows close. At the end of the
last bit of a Write, a Lock or the second half of a Kill of an access operation its transaction and command are committed; a command that is no commit
point only leaves the air. -/
def Obligations.LocksAndReceptions : Prop :=
  (∀ (s : State) (m : Fin 16) (b : Beam) (r : Round) (p : Int),
    s.beam? m = some b → s.rounds = [r] → r.beams.contains m.val = true → b.window = true → b.rec_ = none → b.next = none → s.thrOf r ≤ p →
    s.fld (Reg.loomBeam m) 28 3 ≠ 2 → s.regsWf = true →
    ∃ t, exec (.primaryLock m p) s = .next t ∧
      t.beams = updAt s.beams m.val (fun _ => some { b with rec_ := some (s.lockAt p), last := s.lockAt p, locked := true }) ∧
      t.reg (Reg.loomCnt m 0) = s.reg (Reg.loomCnt m 0) + 1 ∧ t = { s with beams := t.beams, regs := t.regs } ∧
      s.SameRegs t [Reg.loomCnt m 0]) ∧
  (∀ (s : State) (m : Fin 16) (b : Beam) (r : Round) (p : Int),
    s.beam? m = some b → s.rounds = [r] → r.beams.contains m.val = true → b.window = true → b.rec_ = none → b.next = none → s.thrOf r ≤ p →
    s.fld (Reg.loomBeam m) 28 3 = 2 → s.regsWf = true →
    ∃ t, exec (.primaryLock m p) s = .next t ∧
      t.beams = updAt s.beams m.val (fun _ => some { b with rec_ := some (s.lockAt p), last := s.lockAt p, locked := true }) ∧
      t.reg (Reg.loomCnt m 0) = s.reg (Reg.loomCnt m 0) + 1 ∧
      t.reg (Reg.umaCnt (s.fld (Reg.loomBeam m) 24 4 % 4) 0) = s.reg (Reg.umaCnt (s.fld (Reg.loomBeam m) 24 4 % 4) 0) + 1 ∧
      t = { s with beams := t.beams, regs := t.regs } ∧ s.SameRegs t [Reg.loomCnt m 0, Reg.umaCnt (s.fld (Reg.loomBeam m) 24 4 % 4) 0]) ∧
  (∀ (s : State) (m : Fin 16) (r : Round) (p : Int),
    s.rounds = [r] → p < s.thrOf r → s.regsWf = true →
    ∃ t, exec (.primaryLock m p) s = .next t ∧
      t = s) ∧
  (∀ (s : State) (m : Fin 16) (b : Beam) (r : Round) (x : Reception) (p : Int) (y : RxSignal) (h : Bool),
    s.beam? m = some b → s.rounds = [r] → r.beams.contains m.val = true → b.rec_ = some x → b.ending = false → b.secOff = false →
    b.captures < 4 → s.captures r x p = true → s.fld (Reg.loomBeam m) 28 3 ≠ 2 → b.chains.all (fun e => decide (e.1 < 16)) = true →
    (s.report r b (s.weightsAfter r b y) y).header = h → s.regsWf = true →
    ∃ t, exec (.capture m p y false) s = .next t ∧
      t.beams = updAt s.beams m.val (fun _ => some { b with rec_ := some (s.lockAt p), last := s.lockAt p, locked := true, captures := b.captures + 1 }) ∧
      t.reg (Reg.loomCnt m 0) = s.reg (Reg.loomCnt m 0) + 1 ∧ t.reg (Reg.loomCnt m 1) = s.reg (Reg.loomCnt m 1) + 1 ∧
      t.reg (Reg.loomCnt m (if h then 3 else 2)) = s.reg (Reg.loomCnt m (if h then 3 else 2)) + 1 ∧
      t = { s with beams := t.beams, wts := t.wts, regs := t.regs } ∧
      s.SameRegs t ([Reg.loomCnt m 0, Reg.loomCnt m 1, Reg.loomCnt m (if h then 3 else 2)] ++ b.chains.map (fun e => Reg.loomWt e.1))) ∧
  (∀ (s : State) (m : Fin 16) (b : Beam) (r : Round) (x : Reception) (p : Int) (y : RxSignal),
    s.beam? m = some b → s.rounds = [r] → r.beams.contains m.val = true → b.rec_ = some x → b.ending = false → b.secOff = false →
    4 ≤ b.captures → s.captures r x p = true → s.regsWf = true →
    ∃ t, exec (.capture m p y false) s = .next t ∧
      t.beams = updAt s.beams m.val (fun _ => some { b with secOff := true }) ∧ t.reg (Reg.loomCnt m 5) = s.reg (Reg.loomCnt m 5) + 1 ∧
      t = { s with beams := t.beams, regs := t.regs } ∧ s.SameRegs t [Reg.loomCnt m 5]) ∧
  (∀ (s : State) (m : Fin 16) (b : Beam) (r : Round) (x : Reception) (p : Int) (y : RxSignal) (l : Bool),
    s.beam? m = some b → s.rounds = [r] → b.rec_ = some x → p < x.pref + (x.margin : Int) → s.regsWf = true →
    ∃ t, exec (.capture m p y l) s = .next t ∧
      t = s) ∧
  (∀ (s : State) (m : Fin 16) (b : Beam) (r : Round) (x : Reception) (y : RxSignal) (l : Leg),
    s.beam? m = some b → s.rounds = [r] → r.beams.contains m.val = true → b.rec_ = some x → b.decoding = none → b.heard = none →
    b.chains.all (fun e => decide (e.1 < 16)) = true → r.uma = none → r.leg = some l → r.isU0 = false → s.fld (Reg.loomBeam m) 24 4 < 8 →
    (r.devOk y.dev && decide (8 ≤ y.bits.length) && y.collision.all (fun k => decide (8 ≤ k))) = false → s.regsWf = true →
    ∃ t, exec (.receptionEnd m y) s = .next t ∧
      t.beams = updAt s.beams m.val (fun _ => some { b with rec_ := b.next, next := none, ending := false, sp := b.spOf r (s.weightsAfter r b y) y, decoding := none, heard := some (s.report r b (s.weightsAfter r b y) y) }) ∧
      t.reg (Reg.loomCnt m 4) = s.reg (Reg.loomCnt m 4) + 1 ∧
      t.fld (Reg.legLdStat (s.fld (Reg.loomBeam m) 24 4)) 0 16 = s.fld (Reg.legLdStat (s.fld (Reg.loomBeam m) 24 4)) 0 16 ∧
      t = { s with beams := t.beams, wts := t.wts, regs := t.regs } ∧
      s.SameRegs t ([Reg.loomCnt m 4, Reg.legLdStat (s.fld (Reg.loomBeam m) 24 4), Reg.legCnt r.legWarp 10] ++ b.chains.map (fun e => Reg.loomWt e.1))) ∧
  (∀ (s : State) (m : Fin 16) (b : Beam) (r : Round) (x : Reception) (y : RxSignal) (u : Uma),
    s.beam? m = some b → s.rounds = [r] → r.beams.contains m.val = true → b.rec_ = some x → b.decoding = none → b.heard = none →
    b.chains.all (fun e => decide (e.1 < 16)) = true → r.beams = [m.val] → r.geos.head? = some b.geo → b.next = none → r.uma = some u →
    y.wefts = [] → s.regsWf = true →
    ∃ t, exec (.receptionEnd m y) s = .next t ∧
      t.beams = updAt s.beams m.val (fun _ => some { b with rec_ := none, next := none, ending := false, sp := b.spOf r (s.weightsAfter r b y) y, decoding := none, heard := some (s.report r b (s.weightsAfter r b y) y) }) ∧
      t.reg (Reg.loomCnt m 4) = s.reg (Reg.loomCnt m 4) + 1 ∧ t = { s with beams := t.beams, wts := t.wts, regs := t.regs } ∧
      s.SameRegs t ([Reg.loomCnt m 4] ++ b.chains.map (fun e => Reg.loomWt e.1))) ∧
  (∀ (s : State) (m : Fin 16) (b : Beam) (r : Round) (x : Reception) (y : RxSignal) (l : Leg) (n p : Nat) (c : ChainRx),
    s.beam? m = some b → s.rounds = [r] → r.beams.contains m.val = true → b.rec_ = some x → b.decoding = none → b.chains = [(n, p)] →
    n < 16 → r.uma = none → r.leg = some l → r.isU0 = false → s.fld (Reg.loomBeam m) 24 4 < 8 →
    (r.devOk y.dev && decide (8 ≤ y.bits.length) && y.collision.all (fun k => decide (8 ≤ k))) = true → y.chains = [c] → c.chain.val = n →
    c.clip = false → swf (fun _ => ((0, 0) : Cx)) s.wts = true → s.regsWf = true →
    ∃ t, exec (.receptionEnd m y) s = .next t ∧
      t.beams = updAt s.beams m.val (fun _ => some { b with rec_ := b.next, next := none, ending := false, sp := b.spOf r (s.weightsAfter r b y) y, decoding := some (s.report r b (s.weightsAfter r b y) y) }) ∧
      t.reg (Reg.rxcRssi n) = wordOf (satN 8 y.snr * 2 ^ 24 + twos 16 c.rssi) ∧ t.reg (Reg.rxcCntReply n) = s.reg (Reg.rxcCntReply n) + 1 ∧
      t.bit (Reg.rxcStat n) 6 = false ∧
      sget (fun _ => (0, 0)) t.wts (128 * n + 32 * r.warp + b.geo) = (trained (s.fld Reg.loomCtrl 8 4) [c.train] (r.knownSigns y) [s.weightAt r.warp b.geo n]).getD 0 (0, 0) ∧
      t.reg (Reg.loomWt n) = weightWord (sget (fun _ => (0, 0)) t.wts (128 * n + 32 * r.warp + b.geo)) ∧
      t.fld (Reg.legLdStat (s.fld (Reg.loomBeam m) 24 4)) 0 16 = (s.fld (Reg.legLdStat (s.fld (Reg.loomBeam m) 24 4)) 0 16 + 1) % 65536 ∧
      t.fld (Reg.legLdStat (s.fld (Reg.loomBeam m) 24 4)) 16 8 = twos 8 y.dev ∧
      t = { s with beams := t.beams, wts := t.wts, regs := t.regs } ∧
      s.SameRegs t [Reg.rxcRssi n, Reg.rxcCntReply n, Reg.rxcStat n, Reg.loomWt n, Reg.legLdStat (s.fld (Reg.loomBeam m) 24 4), Reg.legCnt r.legWarp 10]) ∧
  (∀ (s : State) (w : Fin 4) (r : Round) (m n : Nat) (b : Beam),
    s.rounds = [r] → r.warps.contains w.val = true → r.txc = some n → s.ramp n = 2 → r.beams = [m] → s.beam? m = some b →
    r.geos.head? = some b.geo → r.expectsReply = true → s.regsWf = true →
    ∃ t, exec (.replyWindowOpen w) s = .next t ∧
      t.beams = updAt s.beams m (fun _ => some { b with window := true, captures := 0, secOff := false }) ∧ t.fld (Reg.txcStat n) 8 3 = 1 ∧
      t = { s with beams := t.beams, regs := t.regs } ∧ s.SameRegs t [Reg.txcStat n]) ∧
  (∀ (s : State) (w : Fin 4) (r : Round) (m : Nat) (b : Beam),
    s.rounds = [r] → r.warps.contains w.val = true → r.beams = [m] → s.beam? m = some b → r.geos.head? = some b.geo → b.locked = true →
    s.regsWf = true →
    ∃ t, exec (.replyWindowClose w) s = .next t ∧
      t.beams = updAt s.beams m (fun _ => some { b with window := false, captures := 0, secOff := false }) ∧ t = { s with beams := t.beams }) ∧
  (∀ (s : State) (w : Fin 4) (r : Round) (n : Nat) (l : Leg) (c : Cmd) (k p v h : Nat),
    s.rounds = [r] → r.warps.contains w.val = true → r.txc = some n → s.ramp n = 2 → r.uma = none → r.kind = .access → r.leg = some l →
    l.phase = .accOp → r.sent = [.write k p v h] → r.txn = some false → s.cmds = [c] → c.seq = r.seq → c.cell = none → s.regsWf = true →
    ∃ t, exec (.lastBitOnAir w) s = .next t ∧
      t.rounds = [{ r with txn := some true, commitAt := some s.now }] ∧ t.cmds = [{ c with cell := some true }] ∧
      t.fld (Reg.txcStat n) 8 3 = 1 ∧ t = { s with rounds := t.rounds, cmds := t.cmds, regs := t.regs } ∧ s.SameRegs t [Reg.txcStat n]) ∧
  (∀ (s : State) (w : Fin 4) (r : Round) (n : Nat) (l : Leg) (c : Cmd) (p h : Nat),
    s.rounds = [r] → r.warps.contains w.val = true → r.txc = some n → s.ramp n = 2 → r.uma = none → r.kind = .access → r.leg = some l →
    l.phase = .accOp → r.sent = [.lock p h] → r.txn = some false → s.cmds = [c] → c.seq = r.seq → c.cell = none → s.regsWf = true →
    ∃ t, exec (.lastBitOnAir w) s = .next t ∧
      t.rounds = [{ r with txn := some true, commitAt := some s.now }] ∧ t.cmds = [{ c with cell := some true }] ∧
      t.fld (Reg.txcStat n) 8 3 = 1 ∧ t = { s with rounds := t.rounds, cmds := t.cmds, regs := t.regs } ∧ s.SameRegs t [Reg.txcStat n]) ∧
  (∀ (s : State) (w : Fin 4) (r : Round) (n : Nat) (l : Leg) (c : Cmd) (p h : Nat),
    s.rounds = [r] → r.warps.contains w.val = true → r.txc = some n → s.ramp n = 2 → r.uma = none → r.kind = .access → r.leg = some l →
    l.phase = .accOp → r.sent = [.kill p h] → l.words = 1 → r.txn = some false → s.cmds = [c] → c.seq = r.seq → c.cell = none →
    s.regsWf = true →
    ∃ t, exec (.lastBitOnAir w) s = .next t ∧
      t.rounds = [{ r with txn := some true, commitAt := some s.now }] ∧ t.cmds = [{ c with cell := some true }] ∧
      t.fld (Reg.txcStat n) 8 3 = 1 ∧ t = { s with rounds := t.rounds, cmds := t.cmds, regs := t.regs } ∧ s.SameRegs t [Reg.txcStat n]) ∧
  (∀ (s : State) (w : Fin 4) (r : Round) (n : Nat) (l : Leg),
    s.rounds = [r] → r.warps.contains w.val = true → r.txc = some n → s.ramp n = 2 → r.uma = none → r.kind.peer = false → r.leg = some l →
    r.sent = [.queryRep 0] → s.regsWf = true →
    ∃ t, exec (.lastBitOnAir w) s = .next t ∧
      t.fld (Reg.txcStat n) 8 3 = 1 ∧ t = { s with regs := t.regs } ∧ s.SameRegs t [Reg.txcStat n])

/-- O41. A decoder that releases an identity reply hands it to the CRC and alive unit; a slot's reply stays with its beam. The unit checks its head: a
legacy frame whose CRC fails counts in both counters of the unit and makes no sighting. An 18000-63 identity reply of an inventory whose CRC passes is
sighted: the transaction in flight is past its commit point, the engine has its sighting and the PC is dropped from the identity. A new identity
misses and takes the lowest free entry; one that the table holds hits. Which of several free indexes is taken is the model's choice (log entry 12). -/
def Obligations.DecodersAndFrames : Prop :=
  (∀ (s : State) (m : Fin 16) (b : Beam) (r : Round) (x : RxReport) (l : Leg) (ties : List Nat),
    s.beam? m = some b → s.rounds = [r] → r.beams.contains m.val = true → b.decoding = some x → r.leg = some l → r.isU0 = false →
    (l.phase = .slot ∨ l.phase = .accSlot) → s.regsWf = true →
    ∃ t, exec (.decoderRelease m ties) s = .next t ∧
      t.beams = updAt s.beams m.val (fun _ => some { b with decoding := none, heard := some { x with ties := ties } }) ∧
      t = { s with beams := t.beams }) ∧
  (∀ (s : State) (m : Fin 16) (b : Beam) (r : Round) (x : RxReport) (l : Leg) (ties : List Nat),
    s.beam? m = some b → s.rounds = [r] → r.beams.contains m.val = true → b.decoding = some x → r.leg = some l → l.phase ≠ .slot →
    l.phase ≠ .accSlot → s.regsWf = true →
    ∃ t, exec (.decoderRelease m ties) s = .next t ∧
      t.beams = updAt s.beams m.val (fun _ => some { b with decoding := none, heard := some { x with ties := ties } }) ∧
      t.crcQ = s.crcQ ++ [{ beam := m.val, rx := { x with ties := ties }, weft := none }] ∧ t = { s with beams := t.beams, crcQ := t.crcQ }) ∧
  (∀ (s : State) (b : Beam) (r : Round) (l : Leg) (j : CrcJob) (q : List CrcJob),
    s.crcQ = j :: q → s.beam? j.beam = some b → s.rounds = [r] → r.beams.contains j.beam = true → r.leg = some l → r.uma = none →
    r.isU0 = false → eProto r.words = 0 →
    (j.rx.bits.length < 16 ∨ crc16 (j.rx.bits.take (j.rx.bits.length - 16)) ≠ natOfBits (j.rx.bits.drop (j.rx.bits.length - 16))) →
    s.regsWf = true →
    ∃ t, exec .crcAliveCheck s = .next t ∧
      t.crcQ = q ∧ t.reg (Reg.crcCnt 0) = s.reg (Reg.crcCnt 0) + 1 ∧ t.reg (Reg.crcCnt 1) = s.reg (Reg.crcCnt 1) + 1 ∧
      t = { s with crcQ := t.crcQ, regs := t.regs } ∧ s.SameRegs t [Reg.crcCnt 0, Reg.crcCnt 1]) ∧
  (∀ (s : State) (b : Beam) (r : Round) (l : Leg) (j : CrcJob) (q : List CrcJob) (i : Nat),
    s.crcQ = j :: q → s.beam? j.beam = some b → s.rounds = [r] → r.beams.contains j.beam = true → r.warps = [r.warp] → r.warp < 4 →
    r.port < 64 → r.leg = some l → r.uma = none → r.isU0 = false → r.kind = .inventory → r.txn = some false → eProto r.words = 0 →
    l.phase = .ident → l.sighted = false → 32 ≤ j.rx.bits.length →
    crc16 (j.rx.bits.take (j.rx.bits.length - 16)) = natOfBits (j.rx.bits.drop (j.rx.bits.length - 16)) →
    s.findSeen 0 (s.keyOf 0 ((j.rx.bits.take (j.rx.bits.length - 16)).drop 16)) = none → s.freeSeen = some i → s.seenWf = true →
    s.regsWf = true →
    ∃ t, exec .crcAliveCheck s = .next t ∧
      t.crcQ = q ∧ t.reg (Reg.crcCnt 0) = s.reg (Reg.crcCnt 0) + 1 ∧ t.reg (Reg.crcCnt 1) = s.reg (Reg.crcCnt 1) ∧
      t.reg (Reg.legCnt r.legWarp 4) = s.reg (Reg.legCnt r.legWarp 4) + 1 ∧
      t.reg (Reg.seenCnt 0) = s.reg (Reg.seenCnt 0) ∧ t.reg (Reg.seenCnt 1) = s.reg (Reg.seenCnt 1) + 1 ∧
      (t.seenAt i).map (fun e => (e.valid, e.proto, e.id, e.count, e.first)) = some (true, 0, s.keyOf 0 ((j.rx.bits.take (j.rx.bits.length - 16)).drop 16), 1, s.now / 1000000 % 2 ^ 32) ∧
      (∀ k < 4096, k = i ∨ t.seenAt k = s.seenAt k) ∧
      t.rounds.map (fun x => (x.leg, x.txn)) = [(some { l with sighted := true, crcOk := some true }, some true)] ∧
      t = { s with crcQ := t.crcQ, seen := t.seen, regs := t.regs, fifo := t.fifo, rounds := t.rounds, tal := t.tal, freeCtr := t.freeCtr, fetches := t.fetches, memp := t.memp, phi := t.phi, refAt := t.refAt }) ∧
  (∀ (s : State) (b : Beam) (r : Round) (l : Leg) (j : CrcJob) (q : List CrcJob) (i : Nat) (e : Seen),
    s.crcQ = j :: q → s.beam? j.beam = some b → s.rounds = [r] → r.beams.contains j.beam = true → r.warps = [r.warp] → r.warp < 4 →
    r.port < 64 → r.leg = some l → r.uma = none → r.isU0 = false → r.kind = .inventory → r.txn = some false → eProto r.words = 0 →
    l.phase = .ident → l.sighted = false → 32 ≤ j.rx.bits.length →
    crc16 (j.rx.bits.take (j.rx.bits.length - 16)) = natOfBits (j.rx.bits.drop (j.rx.bits.length - 16)) →
    s.findSeen 0 (s.keyOf 0 ((j.rx.bits.take (j.rx.bits.length - 16)).drop 16)) = some i → s.seenAt i = some e → s.seenWf = true →
    s.regsWf = true →
    ∃ t, exec .crcAliveCheck s = .next t ∧
      t.crcQ = q ∧ t.reg (Reg.crcCnt 0) = s.reg (Reg.crcCnt 0) + 1 ∧ t.reg (Reg.crcCnt 1) = s.reg (Reg.crcCnt 1) ∧
      t.reg (Reg.legCnt r.legWarp 4) = s.reg (Reg.legCnt r.legWarp 4) + 1 ∧
      t.reg (Reg.seenCnt 0) = s.reg (Reg.seenCnt 0) + 1 ∧ t.reg (Reg.seenCnt 1) = s.reg (Reg.seenCnt 1) ∧
      (t.seenAt i).map (fun x => (x.id, x.first, x.count, x.last, x.miss, x.alive)) = some (e.id, e.first, satN 16 (e.count + 1), s.nowMs, 0, e.alive) ∧
      (∀ k < 4096, k = i ∨ t.seenAt k = s.seenAt k) ∧
      t.rounds.map (fun x => (x.leg, x.txn)) = [(some { l with sighted := true, crcOk := some true }, some true)] ∧
      t = { s with crcQ := t.crcQ, seen := t.seen, regs := t.regs, fifo := t.fifo, rounds := t.rounds, tal := t.tal, freeCtr := t.freeCtr, phi := t.phi, refAt := t.refAt })

/-- O42. An 18000-63 slot over in which its beam locked on nothing is EMPTY: the count goes up, Qfp falls by the step but not below its lowest value, Q
follows by at most one, and QueryRep or QueryAdjust goes out; the window is closed, what was heard is forgotten and the transaction counts. One in
which a clean RN16 was heard is SINGLE: it is acknowledged. One in which the beam locked on nothing usable is COLLIDED: Qfp rises by the step, up to
its highest value. An identity phase whose tag was sighted is resolved: the next slot begins with Q unchanged by that slot. -/
def Obligations.SlotsAndIdentities : Prop :=
  (∀ (s : State) (w : Fin 4) (r : Round) (l : Leg) (n m : Nat) (b : Beam),
    s.rounds = [r] → r.warps = [r.warp] → r.warp = w.val → r.txc = some n → s.ramp n = 2 → s.fld (Reg.txcStat n) 8 3 = 1 →
    r.phase = .running → r.txn = some false → r.uma = none → r.leg = some l → r.port < 64 → r.beams = [m] → s.beam? m = some b →
    r.geos = [b.geo] → b.rec_ = none → b.next = none → b.decoding = none → s.crcQ = [] → n < 4 → m < 16 → s.cmds = [] →
    s.fld (Reg.loomBeam m) 0 16 = b.chains.foldl (fun a e => a + 2 ^ e.1) 0 → (∀ e ∈ b.chains, e.1 < 16 ∧ (s.chain e.1).leaving = false) →
    r.status = none → r.noNew = false → r.hopDue = false → r.kind = .inventory → l.phase = .slot → l.split = [] → r.isU0 = false →
    b.locked = false → b.heard = none → r.lb 24 4 = 0 → s.regsWf = true →
    ∃ t q p, exec (.legacySlotEnd w) s = .next t ∧
      p = max (16 * r.lb 12 4) (l.qfp - r.lb 20 4) ∧
      (q = (if l.q < (p + 8) / 16 then l.q + 1 else if (p + 8) / 16 < l.q then l.q - 1 else l.q)) ∧
      (t.rounds = [{ r with trans := r.trans + 1, txn := some false, leg := some { l with qfp := p, q := q, empties := if l.q = r.lb 12 4 then l.empties + 1 else l.empties, sighted := false, crcOk := none }, sent := [if l.q < q then .queryAdjust (r.lb 4 2) true else if q < l.q then .queryAdjust (r.lb 4 2) false else .queryRep (r.lb 4 2)] }]) ∧
      t.reg (Reg.legCnt r.legWarp 1) = s.reg (Reg.legCnt r.legWarp 1) + 1 ∧ t.fld (Reg.txcStat n) 8 3 = 2 + fieldN (r.link.getD 0 0) 23 1 ∧
      t.beams = updAt s.beams m (fun _ => some { b with window := false, secOff := false, captures := 0}) ∧
      t = { s with rounds := t.rounds, beams := t.beams, freeCtr := t.freeCtr, regs := t.regs } ∧
      s.SameRegs t ([Reg.legCnt r.legWarp 1, Reg.txcStat n] ++ b.chains.map (fun e => Reg.rxcStat e.1))) ∧
  (∀ (s : State) (w : Fin 4) (r : Round) (l : Leg) (n m : Nat) (b : Beam) (x : RxReport),
    s.rounds = [r] → r.warps = [r.warp] → r.warp = w.val → r.txc = some n → s.ramp n = 2 → s.fld (Reg.txcStat n) 8 3 = 1 →
    r.phase = .running → r.txn = some false → r.uma = none → r.leg = some l → r.port < 64 → r.beams = [m] → s.beam? m = some b →
    r.geos = [b.geo] → b.rec_ = none → b.next = none → b.decoding = none → s.crcQ = [] → n < 4 → m < 16 → l.phase = .slot → r.isU0 = false →
    b.heard = some x → r.devOk x.dev = true → clean16 x = true → s.regsWf = true →
    ∃ t, exec (.legacySlotEnd w) s = .next t ∧
      t.rounds = [{ r with leg := some { l with phase := .ident, rn := natOfBits (x.bits.take 16), sighted := false, crcOk := none }, sent := [.ack (natOfBits (x.bits.take 16))] }] ∧
      t.reg (Reg.legCnt r.legWarp 2) = s.reg (Reg.legCnt r.legWarp 2) + 1 ∧ t.fld (Reg.txcStat n) 8 3 = 2 + fieldN (r.link.getD 0 0) 23 1 ∧
      t.beams = updAt s.beams m (fun _ => some { b with window := false, secOff := false, captures := 0, heard := none, locked := false }) ∧
      t = { s with rounds := t.rounds, beams := t.beams, regs := t.regs } ∧ s.SameRegs t [Reg.legCnt r.legWarp 2, Reg.txcStat n]) ∧
  (∀ (s : State) (w : Fin 4) (r : Round) (l : Leg) (n m : Nat) (b : Beam),
    s.rounds = [r] → r.warps = [r.warp] → r.warp = w.val → r.txc = some n → s.ramp n = 2 → s.fld (Reg.txcStat n) 8 3 = 1 →
    r.phase = .running → r.txn = some false → r.uma = none → r.leg = some l → r.port < 64 → r.beams = [m] → s.beam? m = some b →
    r.geos = [b.geo] → b.rec_ = none → b.next = none → b.decoding = none → s.crcQ = [] → n < 4 → m < 16 → s.cmds = [] →
    s.fld (Reg.loomBeam m) 0 16 = b.chains.foldl (fun a e => a + 2 ^ e.1) 0 → (∀ e ∈ b.chains, e.1 < 16 ∧ (s.chain e.1).leaving = false) →
    r.status = none → r.noNew = false → r.hopDue = false → r.kind = .inventory → l.phase = .slot → l.split = [] → r.isU0 = false →
    b.locked = true → b.heard = none → r.lb 24 4 = 0 → s.regsWf = true →
    ∃ t q p, exec (.legacySlotEnd w) s = .next t ∧
      p = min (16 * r.lb 16 4) (l.qfp + r.lb 20 4) ∧
      (q = (if l.q < (p + 8) / 16 then l.q + 1 else if (p + 8) / 16 < l.q then l.q - 1 else l.q)) ∧
      (t.rounds = [{ r with trans := r.trans + 1, txn := some false, leg := some { l with qfp := p, q := q, empties := 0, sighted := false, crcOk := none }, sent := [if l.q < q then .queryAdjust (r.lb 4 2) true else if q < l.q then .queryAdjust (r.lb 4 2) false else .queryRep (r.lb 4 2)] }]) ∧
      t.reg (Reg.legCnt r.legWarp 3) = s.reg (Reg.legCnt r.legWarp 3) + 1 ∧ t.fld (Reg.txcStat n) 8 3 = 2 + fieldN (r.link.getD 0 0) 23 1 ∧
      t.beams = updAt s.beams m (fun _ => some { b with window := false, secOff := false, captures := 0, locked := false }) ∧
      t = { s with rounds := t.rounds, beams := t.beams, freeCtr := t.freeCtr, regs := t.regs } ∧
      s.SameRegs t ([Reg.legCnt r.legWarp 3, Reg.txcStat n] ++ b.chains.map (fun e => Reg.rxcStat e.1))) ∧
  (∀ (s : State) (w : Fin 4) (r : Round) (l : Leg) (n m : Nat) (b : Beam),
    s.rounds = [r] → r.warps = [r.warp] → r.warp = w.val → r.txc = some n → s.ramp n = 2 → s.fld (Reg.txcStat n) 8 3 = 1 →
    r.phase = .running → r.txn = some true → r.uma = none → r.leg = some l → r.port < 64 → r.beams = [m] → s.beam? m = some b →
    r.geos = [b.geo] → b.rec_ = none → b.next = none → b.decoding = none → s.crcQ = [] → n < 4 → m < 16 → s.cmds = [] →
    s.fld (Reg.loomBeam m) 0 16 = b.chains.foldl (fun a e => a + 2 ^ e.1) 0 → (∀ e ∈ b.chains, e.1 < 16 ∧ (s.chain e.1).leaving = false) →
    r.status = none → r.noNew = false → r.hopDue = false → r.kind = .inventory → l.phase = .ident → l.sighted = true → l.split = [] →
    r.isU0 = false → r.lb 24 4 = 0 → (l.qfp + 8) / 16 = l.q → s.regsWf = true →
    ∃ t, exec (.identityReply w) s = .next t ∧
      t.rounds = [{ r with trans := r.trans + 1, txn := some false, leg := some { l with phase := .slot, empties := 0, sighted := false, crcOk := none }, sent := [.queryRep (r.lb 4 2)] }] ∧
      t.fld (Reg.txcStat n) 8 3 = 2 + fieldN (r.link.getD 0 0) 23 1 ∧
      t.beams = updAt s.beams m (fun _ => some { b with window := false, secOff := false, captures := 0, heard := none, locked := false }) ∧
      t = { s with rounds := t.rounds, beams := t.beams, freeCtr := t.freeCtr, regs := t.regs } ∧
      s.SameRegs t ([Reg.txcStat n] ++ b.chains.map (fun e => Reg.rxcStat e.1)))

/-- O43. A Read is committed, transaction and command, as its reply passes the CRC-16; a reply without error ends the operation: the count of operations
that succeeded goes up, and the carrier ramps down for the end of the round. One whose first reply fails its CRC goes out again once. A Req_RN
answered with a handle starts the operation when no access password is used: for a Read the Read goes out with that handle. A delayed reply that has
not come within the time limit ends the operation with NO_REPLY, counted as a failure: it is reported with ERR_CODE 0xFF and the round goes down. A
time limit for no delayed reply changes nothing. -/
def Obligations.AccessOperations : Prop :=
  (∀ (s : State) (w : Fin 4) (r : Round) (l : Leg) (n m : Nat) (b : Beam) (x : RxReport),
    s.rounds = [r] → r.warps = [r.warp] → r.warp = w.val → r.txc = some n → s.ramp n = 2 → s.fld (Reg.txcStat n) 8 3 = 1 →
    r.phase = .running → r.txn = some false → r.uma = none → r.leg = some l → r.port < 64 → r.beams = [m] → s.beam? m = some b →
    r.geos = [b.geo] → b.rec_ = none → b.next = none → b.decoding = none → s.crcQ = [] → n < 4 → m < 16 → r.kind = .access →
    r.isU0 = false → l.phase = .accOp → eOp r.words = 1 → b.heard = some x → x.header = true → r.devOk x.dev = true → x.collision = none →
    crc16Ok x.bits = true → (x.bits.take (x.bits.length - 16)).headD false = false → l.kept = none →
    (s.fifo.warp.getD r.warp []).length < 64 → s.regsWf = true →
    ∃ t, exec (.accessReply w) s = .next t ∧
      t.rounds.map (fun y => (y.phase, y.txn, y.noNew, y.commitAt, y.trans)) = [(.ending, none, true, r.commitAt, r.trans + 1)] ∧
      t.rounds.map (fun y => y.leg.map (fun k => (k.phase, k.words, k.data))) = [some (.done, eLen r.words, (List.range (eLen r.words)).map (fun k => wordOf (natOfBits (((x.bits.take (x.bits.length - 16)).drop (1 + 16 * k)).take 16))))] ∧
      t.reg (Reg.legCnt r.legWarp 8) = s.reg (Reg.legCnt r.legWarp 8) + 1 ∧ t.reg (Reg.legCnt r.legWarp 9) = s.reg (Reg.legCnt r.legWarp 9) ∧
      t.ramp n = 3 ∧ t.txc = updAt s.txc n (fun y => { y with fast := false, after := .endRound }) ∧
      t = { s with rounds := t.rounds, beams := t.beams, fifo := t.fifo, txc := t.txc, regs := t.regs } ∧
      s.SameRegs t [Reg.legCnt r.legWarp 8, Reg.txcStat n]) ∧
  (∀ (s : State) (b : Beam) (r : Round) (l : Leg) (j : CrcJob) (q : List CrcJob) (c : Cmd),
    s.crcQ = j :: q → s.beam? j.beam = some b → s.rounds = [r] → r.beams.contains j.beam = true → r.warps = [r.warp] → r.leg = some l →
    r.isU0 = false → r.txn = some false → l.phase = .accOp → eOp r.words = 1 → 16 ≤ j.rx.bits.length →
    crc16 (j.rx.bits.take (j.rx.bits.length - 16)) = natOfBits (j.rx.bits.drop (j.rx.bits.length - 16)) → s.cmds = [c] → c.seq = r.seq →
    c.cell = none → s.regsWf = true →
    ∃ t, exec .crcAliveCheck s = .next t ∧
      t.crcQ = q ∧ t.reg (Reg.crcCnt 0) = s.reg (Reg.crcCnt 0) + 1 ∧
      t.rounds = [{ r with txn := some true, commitAt := some s.now, leg := some { l with kept := some (readStatus r (j.rx.bits.take (j.rx.bits.length - 16))), data := readData r l (j.rx.bits.take (j.rx.bits.length - 16)) } }] ∧
      t.cmds = [{ c with cell := some true }] ∧ t = { s with crcQ := t.crcQ, rounds := t.rounds, cmds := t.cmds, regs := t.regs } ∧
      s.SameRegs t [Reg.crcCnt 0]) ∧
  (∀ (s : State) (w : Fin 4) (r : Round) (l : Leg) (n m : Nat) (b : Beam) (x : RxReport),
    s.rounds = [r] → r.warps = [r.warp] → r.warp = w.val → r.txc = some n → s.ramp n = 2 → s.fld (Reg.txcStat n) 8 3 = 1 →
    r.phase = .running → r.txn = some false → r.uma = none → r.leg = some l → r.port < 64 → r.beams = [m] → s.beam? m = some b →
    r.geos = [b.geo] → b.rec_ = none → b.next = none → b.decoding = none → s.crcQ = [] → n < 4 → m < 16 → r.kind = .access →
    r.isU0 = false → l.phase = .accOp → eOp r.words = 1 → l.retried = false → l.kept = none → b.heard = some x → x.header = true →
    r.devOk x.dev = true → x.bits.length < 16 → r.status = none → s.regsWf = true →
    ∃ t, exec (.accessReply w) s = .next t ∧
      t.rounds = [{ r with leg := some { l with retried := true, crcOk := none, delayed := false, held := none }, sent := [.read (eBank r.words) (eAddr r.words) (eLen r.words) l.handle] }] ∧
      t.fld (Reg.txcStat n) 8 3 = 2 + fieldN (r.link.getD 0 0) 23 1 ∧
      t.beams = updAt s.beams m (fun _ => some { b with window := false, secOff := false, captures := 0, heard := none, locked := false }) ∧
      t = { s with rounds := t.rounds, beams := t.beams, regs := t.regs } ∧ s.SameRegs t [Reg.txcStat n]) ∧
  (∀ (s : State) (w : Fin 4) (r : Round) (l : Leg) (n m : Nat) (b : Beam) (x : RxReport),
    s.rounds = [r] → r.warps = [r.warp] → r.warp = w.val → r.txc = some n → s.ramp n = 2 → s.fld (Reg.txcStat n) 8 3 = 1 →
    r.phase = .running → r.txn = some false → r.uma = none → r.leg = some l → r.port < 64 → r.beams = [m] → s.beam? m = some b →
    r.geos = [b.geo] → b.rec_ = none → b.next = none → b.decoding = none → s.crcQ = [] → n < 4 → m < 16 → r.kind = .access →
    r.isU0 = false → l.phase = .accHandle → eOp r.words = 1 → r.words.getD 11 0 = 0 → b.heard = some x → x.header = true →
    r.devOk x.dev = true → x.collision = none → crc16Ok x.bits = true → r.status = none → s.regsWf = true →
    ∃ t h, exec (.accessReply w) s = .next t ∧
      h = natOfBits ((x.bits.take (x.bits.length - 16)).take 16) ∧
      t.rounds = [{ r with leg := some { l with phase := .accOp, handle := h, crcOk := none, delayed := false, held := none }, sent := [.read (eBank r.words) (eAddr r.words) (eLen r.words) h] }] ∧
      t.fld (Reg.txcStat n) 8 3 = 2 + fieldN (r.link.getD 0 0) 23 1 ∧
      t.beams = updAt s.beams m (fun _ => some { b with window := false, secOff := false, captures := 0, heard := none, locked := false }) ∧
      t = { s with rounds := t.rounds, beams := t.beams, regs := t.regs } ∧ s.SameRegs t [Reg.txcStat n]) ∧
  (∀ (s : State) (w : Fin 4) (r : Round) (l : Leg) (n m : Nat) (b : Beam),
    s.rounds = [r] → r.warps = [r.warp] → r.warp = w.val → r.txc = some n → s.ramp n = 2 → s.fld (Reg.txcStat n) 8 3 = 1 →
    r.phase = .running → r.txn = some true → r.uma = none → r.leg = some l → r.port < 64 → r.beams = [m] → s.beam? m = some b →
    r.geos = [b.geo] → b.rec_ = none → b.next = none → b.decoding = none → s.crcQ = [] → n < 4 → m < 16 → r.kind = .access →
    r.isU0 = false → eOp r.words ≠ 6 → l.phase = .accOp → l.delayed = true → b.locked = false → b.heard = none → eOp r.words ≠ 1 →
    l.kept = none → (s.fifo.warp.getD r.warp []).length < 64 → s.regsWf = true →
    ∃ t, exec (.delayedReplyTimeout w) s = .next t ∧
      t.rounds.map (fun y => (y.phase, y.txn, y.noNew, y.commitAt, y.trans)) = [(.ending, none, true, r.commitAt, r.trans + 1)] ∧
      t.rounds.map (fun y => y.leg) = [some { l with phase := .done }] ∧
      t.reg (Reg.legCnt r.legWarp 8) = s.reg (Reg.legCnt r.legWarp 8) ∧ t.reg (Reg.legCnt r.legWarp 9) = s.reg (Reg.legCnt r.legWarp 9) + 1 ∧
      t.ramp n = 3 ∧ t.txc = updAt s.txc n (fun y => { y with fast := false, after := .endRound }) ∧
      t = { s with rounds := t.rounds, beams := t.beams, fifo := t.fifo, txc := t.txc, regs := t.regs } ∧
      s.SameRegs t [Reg.legCnt r.legWarp 9, Reg.txcStat n]) ∧
  (∀ (s : State) (w : Fin 4) (r : Round),
    s.rounds = [r] → r.awaitsDelayed = false → s.regsWf = true →
    ∃ t, exec (.delayedReplyTimeout w) s = .next t ∧
      t = s)

/-- O44. An inventory slot over in which its beam heard nothing leaves every weft EMPTY, each counted in UMA_EMPTY: Qfp falls by C but not below the
lowest Q, Q is its rounded value, the quiet slots at that Q are counted, and UNEXT with the new Q goes out. A poll slot before the last of its train
over with nothing heard, in a group that holds no tag, opens the next slot of the same train. After the write time of a UWRITE the tag is read back: a
UREAD of the same bank, address and length goes out on its handle, and the engine waits for its reply; the wait of any other round changes nothing. -/
def Obligations.UmaoloSlotsAndReads : Prop :=
  (∀ (s : State) (w : Fin 4) (r : Round) (u : Uma) (n m : Nat) (b : Beam),
    s.rounds = [r] → r.warps = [r.warp] → r.warp = w.val → r.txc = some n → s.ramp n = 2 → s.fld (Reg.txcStat n) 8 3 = 1 →
    r.phase = .running → r.txn = some false → r.leg = none → r.uma = some u → r.port < 64 → r.beams = [m] → s.beam? m = some b →
    r.geos = [b.geo] → b.rec_ = none → b.next = none → b.decoding = none → s.crcQ = [] → n < 4 → m < 16 → s.cmds = [] →
    s.fld (Reg.loomBeam m) 0 16 = b.chains.foldl (fun a e => a + 2 ^ e.1) 0 → (∀ e ∈ b.chains, e.1 < 16 ∧ (s.chain e.1).leaving = false) →
    r.status = none → r.noNew = false → r.hopDue = false → r.kind = .inventory → eSplit r.words = false → u.phase = .inv → u.res = [] →
    b.heard = none → ew r.words 3 12 4 = 0 → s.regsWf = true →
    ∃ t p q, exec (.umaoloSlotEnd w) s = .next t ∧
      p = max (16 * ew r.words 3 24 4) (u.qfp - ew r.words 3 16 4) ∧ q = (p + 8) / 16 ∧
      (t.rounds = [{ r with trans := r.trans + 1, txn := some false, sent := [.unext q], uma := some { u with qfp := p, q := q, quiet := if q = ew r.words 3 24 4 then u.quiet + 1 else 0, out := [] } }]) ∧
      t.reg (Reg.umaCnt (s.fld (Reg.loomBeam m) 24 4 % 4) 2) = s.reg (Reg.umaCnt (s.fld (Reg.loomBeam m) 24 4 % 4) 2) + wordOf (2 ^ ew r.words 3 10 2) ∧
      t.fld (Reg.txcStat n) 8 3 = 2 + fieldN (r.link.getD 0 0) 23 1 ∧
      t.beams = updAt s.beams m (fun _ => some { b with window := false, secOff := false, captures := 0, locked := false }) ∧
      t = { s with rounds := t.rounds, beams := t.beams, freeCtr := t.freeCtr, regs := t.regs } ∧
      s.SameRegs t ([Reg.umaCnt (s.fld (Reg.loomBeam m) 24 4 % 4) 2, Reg.txcStat n] ++ b.chains.map (fun e => Reg.rxcStat e.1))) ∧
  (∀ (s : State) (w : Fin 4) (r : Round) (u : Uma) (n m : Nat) (b : Beam),
    s.rounds = [r] → r.warps = [r.warp] → r.warp = w.val → r.txc = some n → s.ramp n = 2 → s.fld (Reg.txcStat n) 8 3 = 1 →
    r.phase = .running → r.txn = some false → r.leg = none → r.uma = some u → r.port < 64 → r.beams = [m] → s.beam? m = some b →
    r.geos = [b.geo] → b.rec_ = none → b.next = none → b.decoding = none → s.crcQ = [] → n < 4 → m < 16 → r.kind = .poll → u.phase = .poll →
    u.slot < ew r.words 3 0 4 → b.heard = none → s.slotWefts r u = [] → s.regsWf = true →
    ∃ t, exec (.umaoloSlotEnd w) s = .next t ∧
      t.rounds = [{ r with trans := r.trans + 1, uma := some { u with slot := u.slot + 1, res := [] } }] ∧
      (t.beams = updAt s.beams m (fun _ => some { b with window := false, secOff := false, captures := 0, rec_ := if b.locked then some b.last else none })) ∧
      t = { s with rounds := t.rounds, beams := t.beams }) ∧
  (∀ (s : State) (w : Fin 4) (r : Round) (u : Uma) (n : Nat) (e : Seen) (g : UmTag) (p : Loading),
    s.rounds = [r] → r.warps.contains w.val = true → r.txc = some n → n < 4 → r.beams = [] → r.phase = .running → r.txn = some true →
    r.uma = some u → u.phase = .wrWait → s.seenAt u.index = some e → s.umTag? u.index = some g → g.confirmed = false → g.latest = some p →
    s.regsWf = true →
    ∃ t, exec (.wrWait w) s = .next t ∧
      t.rounds = [{ r with uma := some { u with phase := .read, res := [] }, sent := [.uread e.handle (eBank r.words) (eAddr r.words % 2 ^ 14) (eLen r.words) (linkBlock p e.wfirst g.trim)] }] ∧
      (t.umTags = s.umTags.map (fun x => if x.index = g.index then { g with trim := 0 } else x)) ∧
      t.fld (Reg.txcStat n) 8 3 = 2 + fieldN (r.link.getD 0 0) 23 1 ∧
      t = { s with rounds := t.rounds, umTags := t.umTags, regs := t.regs } ∧ s.SameRegs t [Reg.txcStat n]) ∧
  (∀ (s : State) (w : Fin 4) (r : Round) (u : Uma),
    s.rounds = [r] → r.uma = some u → u.phase ≠ .wrWait → s.regsWf = true →
    ∃ t, exec (.wrWait w) s = .next t ∧
      t = s)

/-- O45. With peer mode on, the peer engine ready, nothing in flight or waiting on the peer warp and its resources free, a peer window starts a peer round
on the warp of PEER_CFG with its illuminator, its first slot begun and the windows counted; a module at stratum 15 with no fresh neighbour starts a
receive period in the same way. While another peer round stands, neither does anything. In its own slot with a beacon not due, no frame of the host,
nothing to offer and nothing to request the module sends nothing; a broadcast DATA frame of the host that fits goes out, the transmit and ramp
counters go up, and its command completes with OK. The end of a window takes the round down, counts a missed interval for each neighbour in a window
of a beacon interval, and takes reference and colour anew; with coordination off and PEER_CFG.HOST_TIME set there is no reference at all. The end of a
receive period takes its round down. -/
def Obligations.PeerWindowsAndSlots : Prop :=
  (∀ (s : State),
    s.coreOn = true → s.peerOn = true → s.rounds = [] → s.cands = [] → s.mayStart = true → s.tag.session = none →
    s.candLive { kind := .peerWin, seq := 0, entry := 0, warp := s.fld Reg.peerCfg 10 2, due := true, points := [] } = true →
    s.resFree (s.peerPlan { kind := .peerWin, seq := 0, entry := 0, warp := s.fld Reg.peerCfg 10 2, due := true, points := [] }) = true →
    s.regsWf = true →
    ∃ t, exec .peerWindowOpen s = .next t ∧
      t.rounds.map (fun r => (r.kind, r.phase, r.warp, r.txc, r.seq)) = [(.peerWin, .running, s.fld Reg.peerCfg 10 2, some (s.fld Reg.peerCfg 10 2), 0)] ∧
      t.rounds.map (fun r => (r.txn, r.start, r.leg, r.uma)) = [(none, s.now, none, none)] ∧
      t.peer = { s.peer with windows := s.peer.windows + 1, slot := some 0 } ∧ t.cands = [] ∧
      t = { s with rounds := t.rounds, peer := t.peer, mgmt := t.mgmt, beams := t.beams, txc := t.txc, chanOff := t.chanOff, freeCtr := t.freeCtr, regs := t.regs }) ∧
  (∀ (s : State),
    s.peerRound.isSome = true → s.regsWf = true →
    ∃ t, exec .peerWindowOpen s = .next t ∧
      t = s) ∧
  (∀ (s : State) (r : Round),
    s.rounds = [r] → r.kind = .peerWin → s.peerCanSend r = true → s.fld Reg.peerWin 8 8 ≠ 0 → s.peer.windows % s.fld Reg.peerWin 8 8 ≠ 0 →
    s.peer.job = none → s.upd.image = none → s.peer.offer = none → s.regsWf = true →
    ∃ t, exec .peerSlot s = .next t ∧
      t.peer = { s.peer with sent := [], slot := some (s.fld Reg.peerCfg 12 4) } ∧ t = { s with peer := t.peer }) ∧
  (∀ (s : State) (r : Round) (n : Nat) (j : PeerJob),
    s.rounds = [r] → r.kind = .peerWin → r.warps.contains r.warp = true → s.peerCanSend r = true → r.txc = some n → n < 4 →
    s.fld Reg.peerWin 8 8 ≠ 0 → s.peer.windows % s.fld Reg.peerWin 8 8 ≠ 0 → s.peer.job = some j → j.waiting = false → j.dst = 0xFFFF →
    s.dataUs 0xFFFF j.data.length ≤ 10000 → s.upd.image = none → s.peer.offer = none →
    s.soleCmd j.seq Reg.peerTxRes (.peerTx j.dst j.data.length) = true → s.regsWf = true →
    ∃ t, exec .peerSlot s = .next t ∧
      t.peer = { s.peer with sent := [{ ty := 1, rep := 0, map := List.replicate 12 1, body := beBytes 2 0xFFFF ++ beBytes 2 s.peerAddr ++ beBytes 1 j.num ++ j.data }], slot := some (s.fld Reg.peerCfg 12 4), job := none } ∧
      t.endedWith j.seq Reg.peerTxRes .ok ∧
      t.reg (Reg.peerCnt 0) = s.reg (Reg.peerCnt 0) + 1 ∧ t.reg (Reg.txcCntRamp n) = s.reg (Reg.txcCntRamp n) + 1 ∧
      t.rounds = [{ r with upAt := some (r.upAt.getD s.up), trans := r.trans + 1 }] ∧ t.ramp n = 1 ∧
      t.txc = updAt s.txc n (fun x => { x with cancelUp := false, waiting := false, aired := true, onAt := some s.up }) ∧
      t = { s with peer := t.peer, rounds := t.rounds, txc := t.txc, cmds := t.cmds, acc := t.acc, regs := t.regs } ∧
      s.SameRegs t [Reg.peerCnt 0, Reg.txcCntRamp n, Reg.txcStat n, Reg.peerTxRes]) ∧
  (∀ (s : State) (r : Round) (n : Nat),
    s.rounds = [r] → r.kind = .peerWin → r.warps = [r.warp] → r.txc = some n → s.ramp n = 2 → n < 4 → r.beams = [] →
    s.fld Reg.peerWin 8 8 ≠ 0 → s.bit Reg.peerCfg 2 = true → s.bit Reg.peerCfg 1 = false → s.regsWf = true →
    ∃ t, exec .peerWindowEnd s = .next t ∧
      (t.peer = { s.peer with slot := none, slew := if s.bit Reg.peerTime 31 then 0 else s.peer.slew, neighbours := if s.peer.windows % s.fld Reg.peerWin 8 8 = 0 then s.peer.neighbours.map (fun k => if k.now then { k with missed := 0, now := false } else { k with missed := satN 8 (k.missed + 1) }) else s.peer.neighbours }) ∧
      t.reg Reg.peerTime = 0 ∧ t.reg (Reg.peerCnt 7) = s.reg (Reg.peerCnt 7) + (if s.bit Reg.peerTime 31 then 1 else 0) ∧ t.ramp n = 3 ∧
      t.rounds = [{ r with phase := .ending, txn := none, noNew := true }] ∧
      t.txc = updAt s.txc n (fun y => { y with fast := false, after := .endRound }) ∧
      t = { s with peer := t.peer, rounds := t.rounds, txc := t.txc, regs := t.regs } ∧
      s.SameRegs t [Reg.peerTime, Reg.peerCnt 7, Reg.txcStat n]) ∧
  (∀ (s : State),
    s.coreOn = true → s.peerOn = true → s.stratum = 15 → s.peer.neighbours.all (fun k => decide (8 ≤ k.missed)) = true → s.rounds = [] →
    s.cands = [] → s.mayStart = true → s.tag.session = none →
    s.candLive { kind := .peerRx, seq := 0, entry := 0, warp := s.fld Reg.peerCfg 10 2, due := true, points := [] } = true →
    s.resFree (s.peerPlan { kind := .peerRx, seq := 0, entry := 0, warp := s.fld Reg.peerCfg 10 2, due := true, points := [] }) = true →
    s.regsWf = true →
    ∃ t, exec .peerReceivePeriod s = .next t ∧
      t.rounds.map (fun r => (r.kind, r.phase, r.warp, r.txc, r.seq)) = [(.peerRx, .running, s.fld Reg.peerCfg 10 2, some (s.fld Reg.peerCfg 10 2), 0)] ∧
      t.peer = s.peer ∧ t.cands = [] ∧
      t = { s with rounds := t.rounds, mgmt := t.mgmt, beams := t.beams, txc := t.txc, chanOff := t.chanOff, freeCtr := t.freeCtr, regs := t.regs }) ∧
  (∀ (s : State),
    s.stratum ≠ 15 → s.regsWf = true →
    ∃ t, exec .peerReceivePeriod s = .next t ∧
      t = s) ∧
  (∀ (s : State) (r : Round) (n : Nat),
    s.rounds = [r] → r.kind = .peerRx → r.warps = [r.warp] → r.txc = some n → s.ramp n = 2 → n < 4 → r.beams = [] → s.regsWf = true →
    ∃ t, exec .peerReceivePeriodEnd s = .next t ∧
      t.ramp n = 3 ∧ t.rounds = [{ r with phase := .ending, txn := none, noNew := true }] ∧
      t.txc = updAt s.txc n (fun y => { y with fast := false, after := .endRound }) ∧
      t = { s with rounds := t.rounds, txc := t.txc, regs := t.regs } ∧ s.SameRegs t [Reg.txcStat n]) ∧
  (∀ (s : State) (w : Fin 4) (r : Round) (n : Nat),
    s.rounds = [r] → r.warps.contains w.val = true → r.kind = .peerWin → r.txc = some n → n < 4 → s.ramp n = 2 → s.regsWf = true →
    ∃ t, exec (.lastBitOnAir w) s = .next t ∧
      t.ramp n = 3 ∧ t.txc = updAt s.txc n (fun y => { y with fast := false, after := .off }) ∧
      t = { s with txc := t.txc, regs := t.regs } ∧ s.SameRegs t [Reg.txcStat n])

/-- O46. Of a frame that reaches the module whole, RX_OK counts. DATA that fits the report FIFO becomes a PEER_FRAME record with the reserved words set
aside, its SEQ is kept for its source, and one for the module is acknowledged in its own loading. An ACK from the destination of the waiting frame
completes its command with OK and keeps the tuft SNRs. A beacon of a module that may not be the reference is counted and its sender kept as heard. An
offer of an unknown image is remembered while STATE is IDLE, with nothing held. A request for chunks of the image held is noted, each chunk once. A
chunk of an offered image that is wanted goes to its place in staging and is held. A frame whose header is bad counts in HDR_FAIL of the peer counters
and of its beam and is measured by no chain; one of a type that is not sent counts in HDR_FAIL of the peer counters alone; one whose CRC-24 fails
counts in CRC_FAIL and at the CRC unit; none of them does more than train its beam. A DATA frame without its ACK in time is sent again, and after five
windows its command ends with NO_REPLY. A reference that is lost no longer counts as fresh. A fetch of which every chunk is held begins verification
while STATE is LOADING. -/
def Obligations.PeerFrames : Prop :=
  (∀ (s : State) (r : Round) (m : Nat) (b : Beam) (x : RxSignal) (f : PeerFrame) (n : Nat),
    s.hearsPeer r m b x 1 = true → s.frameHeard r b x = f → s.refPeer ≠ some (bSrc f.body) → bDst f.body = s.peerAddr →
    (bRest f.body).length ≠ 0 → s.peerCanSend r = true → r.txc = some n → n < 4 →
    s.peer.dups.any (fun d => d.1 == bSrc f.body && d.2 == bSeq f.body) = false → s.fits 5 (16 + (bRest f.body).length) = true →
    s.fifo.peer.length < 2 → s.regsWf = true →
    ∃ t, exec (.data x) s = .next t ∧
      t.reg (Reg.peerCnt 0) = s.reg (Reg.peerCnt 0) + 1 ∧ t.reg (Reg.peerCnt 1) = s.reg (Reg.peerCnt 1) + 1 ∧ t.reg (Reg.crcCnt 0) = s.reg (Reg.crcCnt 0) + 1 ∧
      t.reg (Reg.txcCntRamp n) = s.reg (Reg.txcCntRamp n) + 1 ∧ t.fifo.setAside = s.fifo.setAside + padded (16 + (bRest f.body).length) ∧
      t.fifo.peer = s.fifo.peer ++ [{ ty := 5, flags := 0, len := 16 + (bRest f.body).length, words := [wordOf (bSrc f.body * 65536 + bDst f.body), wordOf (bSeq f.body * 2 ^ 24 + twos 16 f.power), wordOf (s.ppStart f % 2 ^ 32)] ++ wordsOfBytes (bRest f.body) }] ∧
      t.peer = { s.peer with dups := ((bSrc f.body, bSeq f.body) :: s.peer.dups.filter (fun d => d.1 != bSrc f.body)).take 32, sent := s.peer.sent ++ [{ ty := 2, rep := f.rep % 4, map := mapOf f.map, body := beBytes 2 (bSrc f.body) ++ beBytes 2 s.peerAddr ++ beBytes 1 (bSeq f.body) ++ (List.range 12).map (fun k => BitVec.ofNat 8 (satN 8 (f.snr.getD k 0))) }] } ∧
      s.receptionOver t m ∧ t.fifo.asideFor = s.fifo.asideFor + 1 ∧ t.ramp n = 1 ∧ t.rounds = [{ r with upAt := some (r.upAt.getD s.up) }] ∧
      t.txc = updAt s.txc n (fun x => { x with cancelUp := false, waiting := false, aired := true, onAt := some s.up }) ∧
      t = { s with peer := t.peer, fifo := t.fifo, coal := t.coal, beams := t.beams, wts := t.wts, chains := t.chains, rounds := t.rounds, txc := t.txc, regs := t.regs }) ∧
  (∀ (s : State) (r : Round) (m : Nat) (b : Beam) (x : RxSignal) (f : PeerFrame) (j : PeerJob),
    s.hearsPeer r m b x 2 = true → s.frameHeard r b x = f → s.refPeer ≠ some (bSrc f.body) → s.peer.job = some j → j.waiting = true →
    bDst f.body = s.peerAddr → bSrc f.body = j.dst → bSeq f.body = j.num → (bRest f.body).length = 12 →
    s.soleCmd j.seq Reg.peerTxRes (.peerTx j.dst j.data.length) = true → s.regsWf = true →
    ∃ t, exec (.ack x) s = .next t ∧
      t.endedWith j.seq Reg.peerTxRes .ok ∧
      t.reg (Reg.peerCnt 1) = s.reg (Reg.peerCnt 1) + 1 ∧ t.reg (Reg.crcCnt 0) = s.reg (Reg.crcCnt 0) + 1 ∧
      t.peer.job = none ∧ t.peer.snrs.map (fun x => x.dst) = j.dst :: (s.peer.snrs.filter (fun y => y.dst != j.dst)).map (fun x => x.dst) ∧
      t.peer.snrs.head?.map (fun x => (x.snr, x.at_)) = some ((bRest f.body).map (fun b => b.toNat), s.up) ∧
      t.peer = { s.peer with job := none, snrs := t.peer.snrs } ∧ s.receptionOver t m ∧
      t = { s with peer := t.peer, beams := t.beams, wts := t.wts, chains := t.chains, cmds := t.cmds, acc := t.acc, regs := t.regs } ∧
      s.SameRegs t (hearRegs b ++ [Reg.peerCnt 1, Reg.peerTxRes])) ∧
  (∀ (s : State) (r : Round) (m : Nat) (b : Beam) (x : RxSignal) (f : PeerFrame),
    s.hearsPeer r m b x 3 = true → s.frameHeard r b x = f → s.bit Reg.peerCfg 2 = true → s.refPeer = none → r.kind = .peerWin →
    (bRest f.body).length = 17 → s.regsWf = true →
    ∃ t, exec (.beacon x) s = .next t ∧
      t.reg (Reg.peerCnt 1) = s.reg (Reg.peerCnt 1) + 1 ∧ t.reg (Reg.crcCnt 0) = s.reg (Reg.crcCnt 0) + 1 ∧ t.reg (Reg.peerCnt 6) = s.reg (Reg.peerCnt 6) + 1 ∧
      t.reg Reg.peerTime = 0 ∧
      t.peer = { s.peer with neighbours := { addr := bSrc f.body, stratum := min 15 (beNum (bRest f.body) 0 1), colour := beNum (bRest f.body) 14 1 % 4, power := f.power, missed := 0, now := true } :: s.peer.neighbours.filter (fun x => x.addr != bSrc f.body) } ∧
      s.receptionOver t m ∧ t = { s with peer := t.peer, beams := t.beams, wts := t.wts, chains := t.chains, regs := t.regs } ∧
      s.SameRegs t (hearRegs b ++ [Reg.peerCnt 1, Reg.peerCnt 6, Reg.peerTime])) ∧
  (∀ (s : State) (r : Round) (m : Nat) (b : Beam) (x : RxSignal) (f : PeerFrame),
    s.hearsPeer r m b x 4 = true → s.frameHeard r b x = f → s.refPeer ≠ some (bSrc f.body) → (bRest f.body).length = 10 →
    s.bit Reg.updCfg 1 = true → s.peer.offer = none → s.updState = 0 → wordOf (beNum (bRest f.body) 0 4) ≠ s.reg Reg.updImage →
    s.upd.used ≠ some (wordOf (beNum (bRest f.body) 0 4)) → s.regsWf = true →
    ∃ t, exec (.updOffer x) s = .next t ∧
      t.reg (Reg.peerCnt 1) = s.reg (Reg.peerCnt 1) + 1 ∧ t.reg (Reg.crcCnt 0) = s.reg (Reg.crcCnt 0) + 1 ∧
      t.peer = { s.peer with held := [], offer := some { src := bSrc f.body, image := wordOf (beNum (bRest f.body) 0 4), chunks := beNum (bRest f.body) 4 2, bake := wordOf (beNum (bRest f.body) 6 4) } } ∧
      s.receptionOver t m ∧ t = { s with peer := t.peer, beams := t.beams, wts := t.wts, chains := t.chains, regs := t.regs } ∧
      s.SameRegs t (hearRegs b ++ [Reg.peerCnt 1])) ∧
  (∀ (s : State) (r : Round) (m : Nat) (b : Beam) (x : RxSignal) (f : PeerFrame) (i : CerrexImage),
    s.hearsPeer r m b x 5 = true → s.frameHeard r b x = f → s.refPeer ≠ some (bSrc f.body) → s.upd.image = some i →
    (bRest f.body).length = 38 → wordOf (beNum (bRest f.body) 0 4) = crxId i → s.peer.asked = [] → s.regsWf = true →
    ∃ t, exec (.updReq x) s = .next t ∧
      t.reg (Reg.peerCnt 1) = s.reg (Reg.peerCnt 1) + 1 ∧ t.reg (Reg.crcCnt 0) = s.reg (Reg.crcCnt 0) + 1 ∧
      (∀ k < 65536, t.peer.asked.contains k = (decide (beNum (bRest f.body) 4 2 ≤ k) && decide (k < beNum (bRest f.body) 4 2 + 256) && decide (k < (crxLen i.bytes + 255) / 256) && (((bRest f.body).getD (6 + (k - beNum (bRest f.body) 4 2) / 8) 0).getMsbD ((k - beNum (bRest f.body) 4 2) % 8)))) ∧
      t.peer = { s.peer with asked := t.peer.asked } ∧ s.receptionOver t m ∧
      t = { s with peer := t.peer, beams := t.beams, wts := t.wts, chains := t.chains, regs := t.regs } ∧
      s.SameRegs t (hearRegs b ++ [Reg.peerCnt 1])) ∧
  (∀ (s : State) (r : Round) (m : Nat) (b : Beam) (x : RxSignal) (f : PeerFrame) (o : Offer),
    s.hearsPeer r m b x 6 = true → s.frameHeard r b x = f → s.refPeer ≠ some (bSrc f.body) → s.peer.offer = some o →
    s.bit Reg.updCfg 1 = true → s.upd.busy = false → s.updState = 1 → s.peer.held ≠ [] → (bRest f.body).length = 262 →
    wordOf (beNum (bRest f.body) 0 4) = o.image → beNum (bRest f.body) 4 2 < o.chunks →
    s.peer.held.contains (beNum (bRest f.body) 4 2) = false → (∀ b ∈ s.upd.blocks, b.2.length = 128) → s.regsWf = true →
    ∃ t, exec (.updChunk x) s = .next t ∧
      t.reg (Reg.peerCnt 1) = s.reg (Reg.peerCnt 1) + 1 ∧ t.reg (Reg.crcCnt 0) = s.reg (Reg.crcCnt 0) + 1 ∧
      t.peer = { s.peer with held := beNum (bRest f.body) 4 2 :: s.peer.held } ∧
      t.chunkWords (beNum (bRest f.body) 4 2) = wordsOfBytes ((bRest f.body).drop 6) ∧ s.receptionOver t m ∧
      t = { s with peer := t.peer, upd := t.upd, memp := t.memp, beams := t.beams, wts := t.wts, chains := t.chains, freeCtr := t.freeCtr, regs := t.regs }) ∧
  (∀ (s : State) (r : Round) (m : Nat) (b : Beam) (x : RxSignal) (f : PeerFrame),
    s.hearsFrame r m b = true → s.frameHeard r b x = f → peerHeaderOk f = false → s.regsWf = true →
    ∃ t, exec (.data x) s = .next t ∧
      t.reg (Reg.peerCnt 2) = s.reg (Reg.peerCnt 2) + 1 ∧ t.reg (Reg.loomCnt m 4) = s.reg (Reg.loomCnt m 4) + 1 ∧ s.receptionOver t m ∧
      t = { s with beams := t.beams, wts := t.wts, regs := t.regs } ∧ s.SameRegs t (hearRegs b ++ [Reg.peerCnt 2, Reg.loomCnt m 4])) ∧
  (∀ (s : State) (r : Round) (m : Nat) (b : Beam) (x : RxSignal) (f : PeerFrame),
    s.hearsFrame r m b = true → s.frameHeard r b x = f → peerHeaderOk f = true → peerTypeOk f = false → s.regsWf = true →
    ∃ t, exec (.data x) s = .next t ∧
      t.reg (Reg.peerCnt 2) = s.reg (Reg.peerCnt 2) + 1 ∧ s.receptionOver t m ∧
      t = { s with beams := t.beams, wts := t.wts, chains := t.chains, regs := t.regs } ∧ s.SameRegs t (hearRegs b ++ [Reg.peerCnt 2])) ∧
  (∀ (s : State) (r : Round) (m : Nat) (b : Beam) (x : RxSignal) (f : PeerFrame),
    s.hearsFrame r m b = true → s.frameHeard r b x = f → peerHeaderOk f = true → peerTypeOk f = true → peerCrcOk f = false →
    s.regsWf = true →
    ∃ t, exec (.beacon x) s = .next t ∧
      t.reg (Reg.peerCnt 3) = s.reg (Reg.peerCnt 3) + 1 ∧
      t.reg (Reg.crcCnt 0) = s.reg (Reg.crcCnt 0) + 1 ∧ t.reg (Reg.crcCnt 1) = s.reg (Reg.crcCnt 1) + 1 ∧ s.receptionOver t m ∧
      t = { s with beams := t.beams, wts := t.wts, chains := t.chains, regs := t.regs } ∧
      s.SameRegs t (hearRegs b ++ [Reg.peerCnt 3, Reg.crcCnt 1])) ∧
  (∀ (s : State) (j : PeerJob),
    s.peer.job = some j → j.waiting = true → j.tries < 5 → s.coreOn = true → s.regsWf = true →
    ∃ t, exec .ackTimeout s = .next t ∧
      t.reg (Reg.peerCnt 4) = s.reg (Reg.peerCnt 4) + 1 ∧ t.peer = { s.peer with job := some { j with waiting := false } } ∧
      t = { s with peer := t.peer, regs := t.regs } ∧ s.SameRegs t [Reg.peerCnt 4]) ∧
  (∀ (s : State) (j : PeerJob),
    s.peer.job = some j → j.waiting = true → 5 ≤ j.tries → s.coreOn = true →
    s.soleCmd j.seq Reg.peerTxRes (.peerTx j.dst j.data.length) = true → s.regsWf = true →
    ∃ t, exec .ackTimeout s = .next t ∧
      t.reg (Reg.peerCnt 4) = s.reg (Reg.peerCnt 4) + 1 ∧ t.reg (Reg.peerCnt 5) = s.reg (Reg.peerCnt 5) + 1 ∧
      t.peer = { s.peer with job := none } ∧ t.endedWith j.seq Reg.peerTxRes .noReply ∧
      t = { s with peer := t.peer, cmds := t.cmds, acc := t.acc, regs := t.regs } ∧
      s.SameRegs t [Reg.peerCnt 4, Reg.peerCnt 5, Reg.peerTxRes]) ∧
  (∀ (s : State),
    (s.peer.job = none ∨ s.peer.job.any (fun j => !j.waiting) = true) → s.regsWf = true →
    ∃ t, exec .ackTimeout s = .next t ∧
      t = s) ∧
  (∀ (s : State) (n : Neighbour),
    s.refPeer = some n.addr → s.peer.neighbours = [n] → s.bit Reg.peerCfg 2 = false → s.coreOn = true → s.regsWf = true →
    ∃ t, exec .referenceLost s = .next t ∧
      t.peer = { s.peer with neighbours := [{ n with missed := max 8 n.missed }], slew := 0 } ∧ t.stratum = 15 ∧ t.refPeer = none ∧
      t.reg (Reg.peerCnt 7) = s.reg (Reg.peerCnt 7) + 1 ∧ t = { s with peer := t.peer, regs := t.regs } ∧
      s.SameRegs t [Reg.peerTime, Reg.peerCnt 7]) ∧
  (∀ (s : State),
    s.bit Reg.peerTime 31 = false → s.regsWf = true →
    ∃ t, exec .referenceLost s = .next t ∧
      t = s) ∧
  (∀ (s : State) (o : Offer),
    s.halfRuns = true → s.peer.offer = some o → s.bit Reg.updCfg 1 = true → (∀ k < o.chunks, s.peer.held.contains k = true) →
    s.updState = 1 → s.upd.busy = false → s.regsWf = true →
    ∃ t, exec .peerFetchComplete s = .next t ∧
      t.upd = { s.upd with busy := true } ∧ t = { s with upd := t.upd }) ∧
  (∀ (s : State),
    (s.peer.offer = none ∨ s.updState ≠ 1) → s.regsWf = true →
    ∃ t, exec .peerFetchComplete s = .next t ∧
      t = s)

/-- O47. With RUN set, a valid entry with a period falls due: unless its last due round still waits or runs, a candidate of its kind joins those that
wait; otherwise only the LATE count goes up. With RUN clear, or for an entry that is not valid or has no period, nothing changes. A host-run round
still waiting at its bound ends: its command completes with TIMEOUT, LATE counts, and a ROUND_END with zero counts is queued. Every 10 ms the shedding
level falls by one while less than SHED_FREE KiB of the FIFO is free, down to 1, rises by one from SHED_FREE + 8 KiB on, up to 16, and stays in
between. -/
def Obligations.EntriesFallDue : Prop :=
  (∀ (s : State) (e : BitVec 8),
    s.coreOn = true → s.bit Reg.schedCtrl 0 = true → s.bit (Reg.schedTable e.toNat 0) 31 = true →
    s.fld (Reg.schedTable e.toNat 1) 16 16 ≠ 0 → s.atDue (s.entryWords e.toNat) = true →
    sget (fun _ => 0) s.dueAt e.toNat ≠ s.now / 1000 + 1 → (∀ c ∈ s.cands, c.due = false ∨ c.entry ≠ e.toNat ∨ c.kind.internal = true) →
    (∀ r ∈ s.rounds, r.entry ≠ e.toNat ∨ r.seq < 8388608 ∨ r.kind.internal = true) → s.regsWf = true →
    ∃ t, exec (.entryDue e) s = .next t ∧
      t.cands = s.cands ++ [{ kind := kindOf (s.entryWords e.toNat), seq := 0, entry := e.toNat, warp := s.fld (Reg.schedTable e.toNat 0) 20 2, due := true, points := [] }] ∧
      t.dueAt = sput (fun _ => 0) s.dueAt e.toNat (s.now / 1000 + 1) ∧ t = { s with cands := t.cands, dueAt := t.dueAt }) ∧
  (∀ (s : State) (e : BitVec 8) (c : Cand),
    s.coreOn = true → s.bit Reg.schedCtrl 0 = true → s.bit (Reg.schedTable e.toNat 0) 31 = true →
    s.fld (Reg.schedTable e.toNat 1) 16 16 ≠ 0 → s.atDue (s.entryWords e.toNat) = true →
    sget (fun _ => 0) s.dueAt e.toNat ≠ s.now / 1000 + 1 → c ∈ s.cands → c.due = true → c.entry = e.toNat → c.kind.internal = false →
    s.regsWf = true →
    ∃ t, exec (.entryDue e) s = .next t ∧
      t.reg (Reg.schedCnt 2) = s.reg (Reg.schedCnt 2) + 1 ∧ t.dueAt = sput (fun _ => 0) s.dueAt e.toNat (s.now / 1000 + 1) ∧
      t = { s with regs := t.regs, dueAt := t.dueAt } ∧ s.SameRegs t [Reg.schedCnt 2]) ∧
  (∀ (s : State) (e : BitVec 8),
    (s.bit Reg.schedCtrl 0 = false ∨ s.bit (Reg.schedTable e.toNat 0) 31 = false ∨ s.fld (Reg.schedTable e.toNat 1) 16 16 = 0) →
    s.regsWf = true →
    ∃ t, exec (.entryDue e) s = .next t ∧
      t = s) ∧
  (∀ (s : State) (e : BitVec 8),
    (s.now / 1000 % s.fld (Reg.schedTable e.toNat 1) 16 16 ≠ s.fld (Reg.schedTable e.toNat 4) 16 16 % s.fld (Reg.schedTable e.toNat 1) 16 16 ∨ sget (fun _ => 0) s.dueAt e.toNat = s.now / 1000 + 1) →
    s.regsWf = true →
    ∃ t, exec (.entryDue e) s = .next t ∧
      t = s) ∧
  (∀ (s : State) (c : Cand) (k : Cmd),
    s.cands = [c] → c.due = false → c.kind.internal = false → (0 < c.seq ∧ c.seq < 8388608) → s.cmds = [k] → k.seq = c.seq →
    k.res = some Reg.schedCmdRes → s.fld Reg.schedCmdRes 0 24 = c.seq →
    (s.fifo.warp.getD (s.fld (Reg.schedTable c.entry 0) 20 2) []).length < 64 → s.coreOn = true → s.regsWf = true →
    ∃ t, exec (.hostRunTimeout (BitVec.ofNat 24 c.seq)) s = .next t ∧
      t.cands = [] ∧ t.endedWith c.seq Reg.schedCmdRes .timeout ∧ t.reg (Reg.schedCnt 2) = s.reg (Reg.schedCnt 2) + 1 ∧
      t.fifo = { s.fifo with warp := s.fifo.warp.set (s.fld (Reg.schedTable c.entry 0) 20 2) (s.fifo.warp.getD (s.fld (Reg.schedTable c.entry 0) 20 2) [] ++ [{ ty := 3, flags := 0, len := 44, words := [wordOf (Status.timeout.code * 2 ^ 24 + c.seq), wordOf (c.entry * 2 ^ 24), wordOf (s.fld (Reg.schedTable c.entry 15) 16 16 * 2 ^ 16 + s.fld (Reg.schedTable c.entry 0) 20 2 * 2 ^ 14 + s.fld (Reg.schedTable c.entry 0) 28 3 * 2 ^ 11), wordOf (s.now % 2 ^ 32), wordOf (s.now / 2 ^ 32), 0, 0, 0, 0, 0] }]) } ∧
      t = { s with cands := t.cands, cmds := t.cmds, abortedEnded := t.abortedEnded, acc := t.acc, fifo := t.fifo, regs := t.regs } ∧
      s.SameRegs t [Reg.schedCnt 2, Reg.schedCmdRes]) ∧
  (∀ (s : State) (n : BitVec 24),
    (∀ c ∈ s.cands, c.due = true ∨ c.seq ≠ n.toNat) → s.regsWf = true →
    ∃ t, exec (.hostRunTimeout n) s = .next t ∧
      t = s) ∧
  (∀ (s : State),
    s.coreOn = true → s.regsWf = true →
    ∃ t, exec .shedLevelStep s = .next t ∧
      (t.shed = (if s.fifo.free < s.fld Reg.schedLoad 0 8 * 1024 then max 1 (s.shed - 1) else if s.fld Reg.schedLoad 0 8 * 1024 + 8192 ≤ s.fifo.free then min 16 (s.shed + 1) else s.shed)) ∧
      t = { s with shed := t.shed })

/-- O48. The first candidate of a warp whose checks pass, whose resources are free and which meets no peer window starts: an inventory entry that fell due
takes the scheduler's next number, its command live and undecided; its round begins now with no transaction, the count of rounds goes up, its
illuminator tunes, and it is a candidate no longer. One whose PRIO has reached the shedding level ends with OVERLOAD instead, counted as shed. With no
candidate, or where none may start, nothing changes. When DURATION has passed, a round with a transaction in flight begins no new one, and one between
transactions ramps down. A draining round at its bound is stopped with DISABLED: with no transaction past its commit point it ramps down; past it, the
transaction runs on. A round that does not drain is left alone. -/
def Obligations.RoundsStartAndAreStopped : Prop :=
  (∀ (s : State) (w : Fin 4) (c : Cand) (p : Plan),
    s.mayStart = true → s.bit Reg.schedCtrl 0 = true → s.rounds = [] → s.cands = [c] → c.kind = .inventory → c.due = true →
    s.bit (Reg.schedTable c.entry 0) 31 = true → s.entryPlan c.entry false = p → p.status = none → p.warps.contains w.val = true →
    (ePrio p.words = 0 ∨ ePrio p.words < s.shed) → s.resFree p = true → s.meetsWindow c p = false → s.tag.session = none → s.cmds = [] →
    (1 ≤ s.schedNext ∧ s.schedNext < 0x7FFFFF) → s.regsWf = true →
    ∃ t, exec (.roundStart w) s = .next t ∧
      t.cands = [] ∧
      t.rounds.map (fun r => (r.kind, r.phase, r.entry, r.warp, r.warps)) = [(.inventory, .starting, c.entry, eWarp p.words, p.warps)] ∧
      t.rounds.map (fun r => (r.seq, r.start, r.txn)) = [(8388608 + s.schedNext, s.now, none)] ∧
      t.rounds.map (fun r => (r.leg, r.uma)) = [(none, none)] ∧
      t.rounds.map (fun r => (r.txc, r.words, r.geos, r.status, r.noNew)) = [(p.txc, p.words, p.geos.map (fun g => g.idx), none, false)] ∧
      t.cmds = [{ seq := 8388608 + s.schedNext, res := none, kind := .entry c.entry, cell := none }] ∧ t.schedNext = s.schedNext + 1 ∧
      t.reg (Reg.schedCnt 0) = s.reg (Reg.schedCnt 0) + 1 ∧ t.ramp (p.txc.getD 0) = 4 ∧
      t = { s with cands := t.cands, rounds := t.rounds, cmds := t.cmds, abortedEnded := t.abortedEnded, schedNext := t.schedNext, beams := t.beams, mgmt := t.mgmt, hopPos := t.hopPos, txc := t.txc, chanOff := t.chanOff, regs := t.regs }) ∧
  (∀ (s : State) (w : Fin 4) (c : Cand) (p : Plan),
    s.mayStart = true → s.bit Reg.schedCtrl 0 = true → s.rounds = [] → s.cands = [c] → c.kind = .inventory → c.due = true →
    s.bit (Reg.schedTable c.entry 0) 31 = true → s.entryPlan c.entry false = p → p.status = none → p.warps.contains w.val = true →
    (ePrio p.words ≠ 0 ∧ s.shed ≤ ePrio p.words) → s.resFree p = true → s.meetsWindow c p = false → s.tag.session = none → s.cmds = [] →
    (1 ≤ s.schedNext ∧ s.schedNext < 0x7FFFFF) → (s.fifo.warp.getD (eWarp p.words) []).length < 64 → s.regsWf = true →
    ∃ t, exec (.roundStart w) s = .next t ∧
      t.cands = [] ∧ t.rounds = [] ∧ t.cmds = [] ∧ t.schedNext = s.schedNext + 1 ∧ t.reg (Reg.schedCnt 1) = s.reg (Reg.schedCnt 1) + 1 ∧
      (t.fifo.warp.getD (eWarp p.words) []).length = (s.fifo.warp.getD (eWarp p.words) []).length + (if eWarp p.words < s.fifo.warp.length then 1 else 0) ∧
      (∀ r ∈ (t.fifo.warp.getD (eWarp p.words) []).drop (s.fifo.warp.getD (eWarp p.words) []).length, r.ty = 3 ∧ r.words.head? = some (wordOf (Status.overload.code * 2 ^ 24 + 8388608 + s.schedNext))) ∧
      t = { s with cands := t.cands, cmds := t.cmds, abortedEnded := t.abortedEnded, acc := t.acc, schedNext := t.schedNext, fifo := t.fifo, regs := t.regs } ∧
      s.SameRegs t [Reg.schedCnt 1]) ∧
  (∀ (s : State) (w : Fin 4),
    (s.mayStart = false ∨ s.cands = []) → s.regsWf = true →
    ∃ t, exec (.roundStart w) s = .next t ∧
      t = s) ∧
  (∀ (s : State) (w : Fin 4) (r : Round) (n : Nat),
    s.soleRound r n = true → r.warps = [r.warp] → r.warp = w.val → r.kind = .inventory → r.phase = .running → r.beams = [] → s.ramp n = 2 →
    n < 4 → s.regsWf = true →
    ∃ t, exec (.durationExpiry w) s = .next t ∧
      t.rounds = [if r.txn = none then { r with noNew := true, phase := .ending } else { r with noNew := true }] ∧
      t.ramp n = (if r.txn = none then 3 else 2) ∧
      t.txc = (if r.txn = none then updAt s.txc n (fun y => { y with fast := false, after := .endRound }) else s.txc) ∧
      t = { s with rounds := t.rounds, txc := t.txc, regs := t.regs } ∧ s.SameRegs t [Reg.txcStat n]) ∧
  (∀ (s : State) (w : Fin 4) (r : Round) (n : Nat),
    s.soleRound r n = true → r.warps = [r.warp] → r.warp = w.val → r.kind = .inventory → r.draining = true → r.status = none →
    r.txn ≠ some true → r.phase = .running → r.beams = [] → r.leg = none → s.ramp n = 2 → n < 4 → s.regsWf = true →
    ∃ t, exec (.disableBound w) s = .next t ∧
      t.rounds = [{ r with draining := false, status := some .disabled, noNew := true, phase := .ending, txn := none }] ∧ t.ramp n = 3 ∧
      t.txc = updAt s.txc n (fun y => { y with fast := false, after := .endRound }) ∧
      t = { s with rounds := t.rounds, txc := t.txc, regs := t.regs } ∧ s.SameRegs t [Reg.txcStat n]) ∧
  (∀ (s : State) (w : Fin 4) (r : Round),
    s.rounds = [r] → r.warps = [r.warp] → r.warp = w.val → r.draining = true → r.status = none → r.txn = some true → r.phase = .running →
    s.regsWf = true →
    ∃ t, exec (.disableBound w) s = .next t ∧
      t.rounds = [{ r with draining := false, status := some .disabled, noNew := true }] ∧ t = { s with rounds := t.rounds }) ∧
  (∀ (s : State) (w : Fin 4),
    (∀ r ∈ s.rounds, r.draining = false) → s.regsWf = true →
    ∃ t, exec (.disableBound w) s = .next t ∧
      t = s)

/-- O49. With fewer than 16 entries free the oldest entry without an assignment and without a fetch under way leaves the table and EVICTED counts: with a
population store and room among its write-backs it is written back, else it is lost and counted so. With 16 free or more nothing leaves. A fetch that
returns an entry of the same identity merges it: the entry takes the stored FIRST, the sum of the counts held to 16 bits and the stronger signal, its
history is known, and no report is held back for it; one that finds none only ends the entry's wait. A fetch that is not answered in time is given up,
its entry continues as a new tag, and the count of timeouts goes up. -/
def Obligations.TheTableEvictsAndMerges : Prop :=
  (∀ (s : State) (i : Nat) (e : Seen),
    4080 < s.seenUsed → s.evictee = some i → s.seenAt i = some e → s.popIn = false → s.seenWf = true → s.regsWf = true →
    ∃ t, exec .evict s = .next t ∧
      t.seenAt i = none ∧ (∀ k < 4096, k = i ∨ t.seenAt k = s.seenAt k) ∧
      t.reg (Reg.seenCnt 2) = s.reg (Reg.seenCnt 2) + 1 ∧ t.reg (Reg.seenCnt 3) = s.reg (Reg.seenCnt 3) + 1 ∧
      t = { s with seen := t.seen, regs := t.regs } ∧ s.SameRegs t [Reg.seenCnt 2, Reg.seenCnt 3]) ∧
  (∀ (s : State) (i : Nat) (e : Seen),
    4080 < s.seenUsed → s.evictee = some i → s.seenAt i = some e → s.popIn = true → s.seenWb.length < 32 → s.seenWf = true →
    s.regsWf = true →
    ∃ t, exec .evict s = .next t ∧
      t.seenAt i = none ∧ (∀ k < 4096, k = i ∨ t.seenAt k = s.seenAt k) ∧ t.seenWb = s.seenWb ++ [e] ∧
      t.reg (Reg.seenCnt 2) = s.reg (Reg.seenCnt 2) + 1 ∧ t.reg (Reg.seenCnt 3) = s.reg (Reg.seenCnt 3) ∧
      t = { s with seen := t.seen, seenWb := t.seenWb, memp := t.memp, freeCtr := t.freeCtr, regs := t.regs }) ∧
  (∀ (s : State),
    s.seenUsed ≤ 4080 → s.regsWf = true →
    ∃ t, exec .evict s = .next t ∧
      t = s) ∧
  (∀ (s : State) (i : Nat) (l : List Nat) (e p : Seen) (k : Nat),
    s.coreOn = true → s.memp.arrived = i :: l → s.seenAt i = some e → s.popFind e.family e.id = some k → s.popAt k = some p →
    e.aliveTaken = false → s.seenWf = true → s.regsWf = true →
    ∃ t, exec .populationFetchReturn s = .next t ∧
      t.fetches = s.fetches.filter (fun k => k != i) ∧ t.memp.arrived = l.filter (fun k => k != i) ∧
      t.seenAt i = some { e with first := p.first, count := satN 16 (e.count + p.count), best := min e.best p.best, noHist := false, coal := false } ∧
      (∀ j < 4096, j = i ∨ t.seenAt j = s.seenAt j) ∧ t = { s with fetches := t.fetches, seen := t.seen, memp := t.memp }) ∧
  (∀ (s : State) (i : Nat) (l : List Nat) (e : Seen),
    s.coreOn = true → s.memp.arrived = i :: l → s.seenAt i = some e → s.popFind e.family e.id = none → s.seenWf = true → s.regsWf = true →
    ∃ t, exec .populationFetchReturn s = .next t ∧
      t.fetches = s.fetches.filter (fun k => k != i) ∧ t.memp.arrived = l.filter (fun k => k != i) ∧
      t.seenAt i = some { e with noHist := false } ∧ (∀ j < 4096, j = i ∨ t.seenAt j = s.seenAt j) ∧
      t = { s with fetches := t.fetches, seen := t.seen, memp := t.memp }) ∧
  (∀ (s : State) (i : Nat) (l : List Nat) (e : Seen),
    s.coreOn = true → s.fetches = i :: l → s.seenAt i = some e → s.seenWf = true → s.regsWf = true →
    ∃ t, exec .populationFetchTimeout s = .next t ∧
      t.fetches = l.filter (fun k => k != i) ∧ t.seenAt i = some { e with noHist := false } ∧
      (∀ j < 4096, j = i ∨ t.seenAt j = s.seenAt j) ∧ t.reg (Reg.seenCnt 5) = s.reg (Reg.seenCnt 5) + 1 ∧
      t = { s with fetches := t.fetches, seen := t.seen, memp := t.memp, regs := t.regs } ∧ s.SameRegs t [Reg.seenCnt 5]) ∧
  (∀ (s : State),
    s.memp.arrived = [] → s.regsWf = true →
    ∃ t, exec .populationFetchReturn s = .next t ∧
      t = s)

/-- O50. With no packet under construction the assembler takes the first record in the order FAULT, warps in turn, PEER, TALLY, DIAG when none of the last
three has waited for seven packets. A record that fits becomes the packet under construction, the write pointer advancing over its padded length; one
that does not is dropped with reason RING, counted, and shown in FIFO_DROP_LAST. With a packet under construction, or nothing queued, nothing is
taken. Its completion makes it the last complete packet, headed by its length word; the completion pointer advances with it, and PKT_CNT counts. A
pointer mismatch discards the whole ring and returns every pointer to zero: FIFO_PTR is raised and counted, rounds in flight are marked, records in
the queues survive, and the FAULT packet with the number of packets lost is the first after it. When the oldest complete packet has waited for AGE,
that is kept with it. -/
def Obligations.PacketsAreAssembled : Prop :=
  (∀ (s : State) (r : Rec) (l : List Rec),
    s.coreOn = true → s.mgmt.dumps = [] → s.fifo.building = none → s.fifo.fault = r :: l →
    (s.fifo.sincePeer < 5 ∧ s.fifo.sinceTally < 5 ∧ s.fifo.sinceDiag < 5) → s.fits r.ty r.len = true → s.regsWf = true →
    ∃ t, exec .packetAssembly s = .next t ∧
      (t.fifo = { s.fifo with fault := l, building := some r, wptr := (s.fifo.wptr + padded r.len) % 131072, wptr2 := (s.fifo.wptr + padded r.len) % 131072, sincePeer := if s.fifo.peer.isEmpty then 0 else s.fifo.sincePeer + 1, sinceTally := if s.fifo.tally.isEmpty then 0 else s.fifo.sinceTally + 1, sinceDiag := if s.fifo.diag.isEmpty then 0 else s.fifo.sinceDiag + 1 }) ∧
      t.bit Reg.fifoStat 0 = true ∧ t = { s with fifo := t.fifo, coal := t.coal, regs := t.regs } ∧ s.SameRegs t [Reg.fifoStat]) ∧
  (∀ (s : State) (r : Rec) (l : List Rec),
    s.coreOn = true → s.mgmt.dumps = [] → s.fifo.building = none → s.fifo.fault = [] → s.fifo.warp = [[], [], [], []] → s.fifo.peer = [] →
    s.fifo.tally = r :: l → (s.fifo.sincePeer < 5 ∧ s.fifo.sinceTally < 5 ∧ s.fifo.sinceDiag < 5) → s.fits r.ty r.len = false →
    s.regsWf = true →
    ∃ t, exec .packetAssembly s = .next t ∧
      (t.fifo = { s.fifo with tally := l, sincePeer := 0, sinceTally := 0, sinceDiag := if s.fifo.diag.isEmpty then 0 else s.fifo.sinceDiag + 1 }) ∧
      t.reg Reg.fifoDropCnt = s.reg Reg.fifoDropCnt + 1 ∧ t.reg Reg.fifoDropLast = wordOf (r.ty * 2 ^ 24 + 2 ^ 22 + r.len) ∧
      t.bit Reg.sysIrqPend 5 = true ∧ t.rounds = s.rounds.map (fun r => { r with dropped := r.dropped + 1 }) ∧
      t = { s with fifo := t.fifo, rounds := t.rounds, regs := t.regs } ∧ s.SameRegs t [Reg.fifoDropCnt, Reg.fifoDropLast, Reg.sysIrqPend]) ∧
  (∀ (s : State),
    s.mgmt.dumps = [] → (s.fifo.building.isSome = true ∨ s.fifo.pick = none) → s.regsWf = true →
    ∃ t, exec .packetAssembly s = .next t ∧
      t = s) ∧
  (∀ (s : State) (r : Rec),
    s.coreOn = true → s.hp.frame = none → s.fifo.building = some r → s.regsWf = true →
    ∃ t, exec .packetComplete s = .next t ∧
      t.fifo = { s.fifo with building := none, packets := s.fifo.packets ++ [{ words := lengthWord r :: r.words, at_ := s.up, aged := 0 }], cptr := (s.fifo.cptr + padded r.len) % 131072, cptr2 := (s.fifo.cptr + padded r.len) % 131072 } ∧
      t.bit Reg.fifoStat 0 = false ∧ t.reg Reg.fifoPktCnt = s.reg Reg.fifoPktCnt + 1 ∧
      t = { s with fifo := t.fifo, coal := t.coal, regs := t.regs } ∧ s.SameRegs t [Reg.fifoStat, Reg.fifoPktCnt]) ∧
  (∀ (s : State) (p : Fin 3),
    s.fifo.building = none → s.hp.frame.all (fun f => f.kind != some .frd) = true → s.regsWf = true →
    ∃ t, exec (.pointerMismatch p) s = .next t ∧
      (t.fifo = { s.fifo.served 0 with packets := [], head := [], setAside := 0, asideFor := 0, cptr := 0, cptr2 := 0, rptr := 0, rptr2 := 0, wptr := 16, wptr2 := 16, building := some { ty := 7, flags := 0, len := 16, words := [wordOf (5 * 2 ^ 24 + p.val * 2 ^ 16 + 2 ^ 8), s.timeLo, wordOf (satN 16 (s.fifo.packets.length + if s.fifo.head.isEmpty then 0 else 1))] } }) ∧
      t.bit Reg.sysIrqPend 4 = true ∧ t.bit Reg.fifoStat 0 = true ∧ t.reg Reg.fifoPtrCnt = s.reg Reg.fifoPtrCnt + 1 ∧
      t.rounds = s.rounds.map (fun r => { r with fifoReset := true }) ∧
      (t.logs 5 0 (wordOf (p.val * 2 ^ 24 + 2 ^ 16 + satN 16 (s.fifo.packets.length + if s.fifo.head.isEmpty then 0 else 1)))) ∧
      t = { s with fifo := t.fifo, coal := t.coal, rounds := t.rounds, mgmt := t.mgmt, regs := t.regs } ∧
      s.SameRegs t ([Reg.fifoPtrCnt, Reg.fifoStat] ++ logRegs)) ∧
  (∀ (s : State) (p : Packet) (l : List Packet),
    s.fifo.packets = p :: l → s.regsWf = true →
    ∃ t, exec .fifoAgeExpiry s = .next t ∧
      t.fifo = { s.fifo with packets := { p with aged := max p.aged (s.fld Reg.fifoCfg 24 8) } :: l } ∧ t = { s with fifo := t.fifo }) ∧
  (∀ (s : State),
    s.fifo.packets = [] → s.regsWf = true →
    ∃ t, exec .fifoAgeExpiry s = .next t ∧
      t = s)

/-- O51. A write of FLUSH discards at once every complete packet, one partly read included, and the room set aside under R307; no drop is counted or
named, no command is accepted and no number given. The packet under construction stays, and its completion makes it the one complete packet of the
FIFO. -/
def Obligations.FlushDiscardsWhatIsComplete : Prop :=
  (∀ (s : State),
    s.hostCan Reg.fifoCmd = true →
    ∃ t, exec .flush s = .next t ∧
      t.fifo.unread = [] ∧ t.fifo.setAside = 0 ∧ t.fifo.asideFor = 0 ∧ t.fifo.pkts = 0 ∧ t.fifo.building = s.fifo.building ∧
      t.fifo = { s.fifo with packets := [], head := [], setAside := 0, asideFor := 0, rptr := t.fifo.rptr, rptr2 := t.fifo.rptr2 } ∧
      t.reg Reg.fifoDropCnt = s.reg Reg.fifoDropCnt ∧ t.reg Reg.fifoDropLast = s.reg Reg.fifoDropLast ∧
      t.cmds = s.cmds ∧ t.hostNext = s.hostNext ∧ t.rounds = s.rounds ∧
      t = { s with regs := t.regs, fifo := t.fifo, coal := t.coal, acc := t.acc } ∧ s.SameRegs t [Reg.fifoStat, Reg.hpFrames]) ∧
  (∀ (s : State) (r : Rec),
    s.hostCan Reg.fifoCmd = true → s.coreOn = true → s.hp.frame = none → s.fifo.building = some r →
    ∃ t, exec .flush s = .next t ∧
      t.fifo.building = some r ∧
      (∃ u, exec .packetComplete t = .next u ∧ u.fifo.building = none ∧ u.fifo.packets = [{ words := lengthWord r :: r.words, at_ := s.now, aged := 0 }] ∧ u.reg Reg.fifoPktCnt = s.reg Reg.fifoPktCnt + 1))

/-- O52. A command that reaches the open session counts. A Select whose mask matches or does not sets, clears or negates its flag or SL as its Action says
and leaves the tag in Ready. A Query with Q zero whose Sel and Target the tag meets is answered with an RN16 in Reply; one it does not meet leaves it
in Ready. QueryRep counts the slot down, answering at zero with an RN16; after an acknowledgement QueryRep and QueryAdjust of the session invert its
flag. An ACK with the right RN16 is answered with StoredPC, EPC and their CRC-16, truncated after a Select with Truncate, a wrong one returns to
Arbitrate. NAK returns to Arbitrate. Req_RN from Acknowledged hands out a handle, the tag being Secured when its access password is zero and Open
otherwise. The RN16 and handle are free values; the tag's states and transitions are the model's reading of the standard (log entry 17). -/
def Obligations.TheTagAnswersInventory : Prop :=
  (∀ (s : State) (x : Session) (a : SelectArgs),
    s.fieldOpen x = true → a.target = 4 → a.bank ≠ 0 → (a.truncate = false ∨ a.bank = 1) → s.regsWf = true →
    ∃ t h, exec (.fieldSelect x.fe a) s = .next t ∧
      h = (s.bankBits a.bank.toNat a.ptr a.mask.length == some a.mask) ∧
      (t.tag = { s.tag with field := s.fieldAt x.fe, reply := .none, session := some { x with cover := none, state := .ready, trunc := if a.truncate && h then some (max 32 (a.ptr + a.mask.length)) else none }, sl := if (selAction a.action.toNat h).2 then !s.tag.sl else (selAction a.action.toNat h).1.getD s.tag.sl }) ∧
      t.reg (Reg.tagCnt 0) = s.reg (Reg.tagCnt 0) + 1 ∧ t = { s with tag := t.tag, regs := t.regs } ∧ s.SameRegs t [Reg.tagCnt 0]) ∧
  (∀ (s : State) (fe : FrontEnd) (a : SelectArgs),
    s.phase = .active → s.tag.session = none → s.feOk fe = true → s.fieldBusy = false → s.tag.half = none → a.target.toNat < 4 →
    a.bank ≠ 0 → s.tag.flags.length = 4 → s.sameCycle = false → a.truncate = false → a.action = 0 → s.regsWf = true →
    ∃ t, exec (.fieldSelect fe a) s = .next t ∧
      t.tag = { s.tag with field := s.fieldAt fe, reply := .none, session := some (Session.start fe), flags := s.tag.flags.set a.target.toNat (!(s.bankBits a.bank.toNat a.ptr a.mask.length == some a.mask)) } ∧
      t.reg (Reg.tagCnt 0) = s.reg (Reg.tagCnt 0) + 1 ∧ t = { s with tag := t.tag, regs := t.regs } ∧ s.SameRegs t [Reg.tagCnt 0]) ∧
  (∀ (s : State) (x : Session) (a : QueryArgs),
    s.fieldOpen x = true → a.q % 16 = 0 → a.sel.toNat < 2 → x.acked = false → a.session ≠ 1 → s.invFlag a.session.toNat = a.target →
    s.regsWf = true →
    ∃ t r, exec (.fieldQuery x.fe a) s = .next t ∧
      r < 65536 ∧
      t.tag = { s.tag with field := s.fieldAt x.fe, reply := .rn16 r, session := some { x with cover := none, state := .reply, session := a.session.toNat, q := 0, slot := 0, rn := r, bySl := false }, flags := t.tag.flags } ∧
      t.tag.flags.length = s.tag.flags.length ∧ (∀ k < 4, k = 1 ∨ t.invFlag k = s.invFlag k) ∧ (t.invFlag 1 = true → s.invFlag 1 = true) ∧
      t.reg (Reg.tagCnt 0) = s.reg (Reg.tagCnt 0) + 1 ∧ t = { s with tag := t.tag, freeCtr := t.freeCtr, regs := t.regs } ∧
      s.SameRegs t [Reg.tagCnt 0]) ∧
  (∀ (s : State) (x : Session) (a : QueryArgs),
    s.fieldOpen x = true → a.session ≠ 1 → x.acked = false → s.invFlag a.session.toNat ≠ a.target → s.regsWf = true →
    ∃ t, exec (.fieldQuery x.fe a) s = .next t ∧
      t.tag = { s.tag with field := s.fieldAt x.fe, reply := .none, session := some { x with cover := none, state := .ready, session := a.session.toNat, bySl := decide (2 ≤ a.sel.toNat) }, flags := t.tag.flags } ∧
      t.reg (Reg.tagCnt 0) = s.reg (Reg.tagCnt 0) + 1 ∧ t = { s with tag := t.tag, freeCtr := t.freeCtr, regs := t.regs } ∧
      s.SameRegs t [Reg.tagCnt 0]) ∧
  (∀ (s : State) (x : Session) (n : BitVec 2),
    s.fieldOpen x = true → x.acked = true → n.toNat = x.session → s.regsWf = true →
    ∃ t, exec (.fieldQueryadjust x.fe n 1) s = .next t ∧
      t.tag = { s.tag with field := s.fieldAt x.fe, reply := .none, session := some { x with cover := none, state := .ready }, flags := s.tag.flags.set x.session (!s.invFlag x.session) } ∧
      t.reg (Reg.tagCnt 0) = s.reg (Reg.tagCnt 0) + 1 ∧ t = { s with tag := t.tag, regs := t.regs } ∧ s.SameRegs t [Reg.tagCnt 0]) ∧
  (∀ (s : State) (x : Session) (n : BitVec 2) (up : Int),
    s.fieldOpen x = true → n.toNat ≠ x.session → s.regsWf = true →
    ∃ t, exec (.fieldQueryadjust x.fe n up) s = .next t ∧
      t.tag = { s.tag with field := s.fieldAt x.fe, session := some { x with cover := none }, reply := .none } ∧
      t.reg (Reg.tagCnt 0) = s.reg (Reg.tagCnt 0) + 1 ∧ t = { s with tag := t.tag, regs := t.regs } ∧ s.SameRegs t [Reg.tagCnt 0]) ∧
  (∀ (s : State) (x : Session) (n : BitVec 2),
    s.fieldOpen x = true → x.state = .arbitrate → n.toNat = x.session → (1 < x.slot ∧ x.slot < 32768) → s.regsWf = true →
    ∃ t, exec (.fieldQueryrep x.fe n) s = .next t ∧
      t.tag = { s.tag with field := s.fieldAt x.fe, reply := .none, session := some { x with cover := none, slot := x.slot - 1 } } ∧
      t.reg (Reg.tagCnt 0) = s.reg (Reg.tagCnt 0) + 1 ∧ t = { s with tag := t.tag, regs := t.regs } ∧ s.SameRegs t [Reg.tagCnt 0]) ∧
  (∀ (s : State) (x : Session) (n : BitVec 2),
    s.fieldOpen x = true → x.state = .arbitrate → n.toNat = x.session → x.slot = 1 → s.regsWf = true →
    ∃ t r, exec (.fieldQueryrep x.fe n) s = .next t ∧
      r < 65536 ∧
      t.tag = { s.tag with field := s.fieldAt x.fe, reply := .rn16 r, session := some { x with cover := none, state := .reply, slot := 0, rn := r } } ∧
      t.reg (Reg.tagCnt 0) = s.reg (Reg.tagCnt 0) + 1 ∧ t = { s with tag := t.tag, freeCtr := t.freeCtr, regs := t.regs } ∧
      s.SameRegs t [Reg.tagCnt 0]) ∧
  (∀ (s : State) (x : Session) (rn : BitVec 16),
    s.fieldOpen x = true → x.state = .reply → (x.bySl = false ∨ x.trunc = none) → s.regsWf = true →
    ∃ t, exec (.fieldAck x.fe rn) s = .next t ∧
      (t.tag = { s.tag with field := s.fieldAt x.fe, session := some { x with cover := none, state := if rn.toNat = x.rn then .acknowledged else .arbitrate }, reply := if rn.toNat = x.rn then .identity (s.tagIdWords.map wordOf ++ [wordOf (crc16 (s.tagIdWords.flatMap (bitsHigh 16)))]) else .none }) ∧
      t.reg (Reg.tagCnt 0) = s.reg (Reg.tagCnt 0) + 1 ∧ t = { s with tag := t.tag, regs := t.regs } ∧ s.SameRegs t [Reg.tagCnt 0]) ∧
  (∀ (s : State) (x : Session) (rn : BitVec 16) (p : Nat),
    s.fieldOpen x = true → x.state = .reply → rn.toNat = x.rn → x.bySl = true → x.trunc = some p → s.regsWf = true →
    ∃ t b, exec (.fieldAck x.fe rn) s = .next t ∧
      b = s.tagIdWords.flatMap (bitsHigh 16) ∧
      t.tag = { s.tag with field := s.fieldAt x.fe, session := some { x with cover := none, state := .acknowledged }, reply := .truncated (List.replicate 5 false ++ b.drop (p - 16) ++ bitsHigh 16 (crc16 b)) } ∧
      t.reg (Reg.tagCnt 0) = s.reg (Reg.tagCnt 0) + 1 ∧ t = { s with tag := t.tag, regs := t.regs } ∧ s.SameRegs t [Reg.tagCnt 0]) ∧
  (∀ (s : State) (x : Session),
    s.fieldOpen x = true → x.state ≠ .ready → s.regsWf = true →
    ∃ t, exec (.fieldNak x.fe) s = .next t ∧
      t.tag = { s.tag with field := s.fieldAt x.fe, reply := .none, session := some { x with cover := none, state := .arbitrate } } ∧
      t.reg (Reg.tagCnt 0) = s.reg (Reg.tagCnt 0) + 1 ∧ t = { s with tag := t.tag, regs := t.regs } ∧ s.SameRegs t [Reg.tagCnt 0]) ∧
  (∀ (s : State) (x : Session) (rn : BitVec 16),
    s.fieldOpen x = true → x.state = .acknowledged → rn.toNat = x.rn → s.regsWf = true →
    ∃ t h, exec (.fieldReqRn x.fe rn) s = .next t ∧
      h < 65536 ∧
      (t.tag = { s.tag with field := s.fieldAt x.fe, reply := .handle h, session := some { x with cover := none, handle := h, state := if s.accessPwd = (0, 0) then .secured else .open_ } }) ∧
      t.reg (Reg.tagCnt 0) = s.reg (Reg.tagCnt 0) + 1 ∧ t = { s with tag := t.tag, freeCtr := t.freeCtr, regs := t.regs } ∧
      s.SameRegs t [Reg.tagCnt 0])

/-- O53. With the tag's handle in Open or Secured: a Read inside a readable bank is answered with the words committed; one past the end of the bank with
error 3, one of the Reserved bank with error 4. A Write, whose data the latest Req_RN covers and which is ignored otherwise, or a BlockWrite of words
of one crumb, that no lock forbids starts a crumb write with those bytes when there is energy and no other write; without energy the answer is error
11. A Lock in Secured that changes no permalocked state sets the lock bits and succeeds; one that would is refused with error 4. The first half of an
Access counts an attempt in the guard record and waits for its write; a right second half secures the tag and takes the attempt back, a wrong one
leaves the failure with its lockout. Kill, BlockErase, BlockPermalock, Untraceable and Authenticate are ignored. The places of the password halves and
the cover-coding are the model's reading of the standard (log entry 17). -/
def Obligations.TheTagAnswersAccess : Prop :=
  (∀ (s : State) (x : Session) (bank : BitVec 2) (ptr n : Nat) (rn : BitVec 16),
    s.fieldOpen x = true → x.open rn = true → bank ≠ 0 → 0 < n → ptr + n ≤ bankWords bank.toNat → s.tag.bad = [] → s.regsWf = true →
    ∃ t, exec (.fieldRead x.fe bank ptr n rn .clean) s = .next t ∧
      t.tag = { s.tag with field := s.fieldAt x.fe, session := some { x with cover := none }, reply := .data ((List.range n).map (fun k => s.tagWord (bankLoc bank.toNat (ptr + k)).1 (bankLoc bank.toNat (ptr + k)).2)) x.handle } ∧
      t.reg (Reg.tagCnt 0) = s.reg (Reg.tagCnt 0) + 1 ∧ t = { s with tag := t.tag, regs := t.regs } ∧ s.SameRegs t [Reg.tagCnt 0]) ∧
  (∀ (s : State) (x : Session) (bank : BitVec 2) (ptr n : Nat) (rn : BitVec 16) (e : EccResult),
    s.fieldOpen x = true → x.open rn = true → 0 < n → (bank = 0 ∨ bankWords bank.toNat < ptr + n) → s.regsWf = true →
    ∃ t, exec (.fieldRead x.fe bank ptr n rn e) s = .next t ∧
      t.tag = { s.tag with field := s.fieldAt x.fe, session := some { x with cover := none }, reply := .error (if bankWords bank.toNat < ptr + n then 3 else 4) x.handle } ∧
      t.reg (Reg.tagCnt 0) = s.reg (Reg.tagCnt 0) + 1 ∧ t = { s with tag := t.tag, regs := t.regs } ∧ s.SameRegs t [Reg.tagCnt 0]) ∧
  (∀ (s : State) (x : Session) (ptr : Nat) (data : BitVec 16) (rn : BitVec 16) (energy : Bool) (k d : Nat),
    s.fieldOpen x = true → x.open rn = true → x.cover = some k → d = data.toNat ^^^ k → ptr < 3744 →
    lockForbids (s.lockBits 3) (decide (x.state = .secured)) = false → (s.lands.vin || energy) = true → s.crumbOos (3 + ptr / 32) = false →
    s.crumbFree (3 + ptr / 32) = true → s.regsWf = true →
    ∃ t, exec (.fieldWrite x.fe 3 ptr data rn energy) s = .next t ∧
      t.tag = { s.tag with field := s.fieldAt x.fe, session := some { x with cover := none }, reply := .none, job := some { crumb := 3 + ptr / 32, patch := [(2 * (ptr % 32), BitVec.ofNat 8 d), (2 * (ptr % 32) + 1, BitVec.ofNat 8 (d / 256))], who := .field x.handle, failed := false, reply := true } } ∧
      t.reg (Reg.tagCnt 0) = s.reg (Reg.tagCnt 0) + 1 ∧ t = { s with tag := t.tag, regs := t.regs } ∧ s.SameRegs t [Reg.tagCnt 0]) ∧
  (∀ (s : State) (x : Session) (ptr : Nat) (data : BitVec 16) (rn : BitVec 16) (k : Nat),
    s.fieldOpen x = true → x.open rn = true → x.cover = some k → ptr < 3744 →
    lockForbids (s.lockBits 3) (decide (x.state = .secured)) = false → s.lands.vin = false → s.regsWf = true →
    ∃ t, exec (.fieldWrite x.fe 3 ptr data rn false) s = .next t ∧
      t.tag = { s.tag with field := s.fieldAt x.fe, session := some { x with cover := none }, reply := .error 11 x.handle } ∧
      t.reg (Reg.tagCnt 0) = s.reg (Reg.tagCnt 0) + 1 ∧ t = { s with tag := t.tag, regs := t.regs } ∧ s.SameRegs t [Reg.tagCnt 0]) ∧
  (∀ (s : State) (x : Session) (bank : BitVec 2) (ptr : Nat) (data : BitVec 16) (rn : BitVec 16) (energy : Bool),
    s.fieldOpen x = true → x.open rn = true → x.cover = none → s.regsWf = true →
    ∃ t, exec (.fieldWrite x.fe bank ptr data rn energy) s = .next t ∧
      t.tag = { s.tag with field := s.fieldAt x.fe, session := some { x with cover := none }, reply := .none } ∧
      t.reg (Reg.tagCnt 0) = s.reg (Reg.tagCnt 0) + 1 ∧ t = { s with tag := t.tag, regs := t.regs } ∧ s.SameRegs t [Reg.tagCnt 0]) ∧
  (∀ (s : State) (x : Session) (ptr : Nat) (a b : BitVec 16) (rn : BitVec 16) (energy : Bool),
    s.fieldOpen x = true → x.open rn = true → ptr + 1 < 3744 → ptr % 32 ≠ 31 →
    lockForbids (s.lockBits 3) (decide (x.state = .secured)) = false → (s.lands.vin || energy) = true → s.crumbOos (3 + ptr / 32) = false →
    s.crumbFree (3 + ptr / 32) = true → s.regsWf = true →
    ∃ t, exec (.fieldBlockwrite x.fe 3 ptr [a, b] rn energy) s = .next t ∧
      t.tag = { s.tag with field := s.fieldAt x.fe, session := some { x with cover := none }, reply := .none, job := some { crumb := 3 + ptr / 32, patch := [(2 * (ptr % 32), BitVec.ofNat 8 a.toNat), (2 * (ptr % 32) + 1, BitVec.ofNat 8 (a.toNat / 256)), (2 * (ptr % 32 + 1), BitVec.ofNat 8 b.toNat), (2 * (ptr % 32 + 1) + 1, BitVec.ofNat 8 (b.toNat / 256))], who := .field x.handle, failed := false, reply := true } } ∧
      t.reg (Reg.tagCnt 0) = s.reg (Reg.tagCnt 0) + 1 ∧ t = { s with tag := t.tag, regs := t.regs } ∧ s.SameRegs t [Reg.tagCnt 0]) ∧
  (∀ (s : State) (x : Session) (p : BitVec 20) (rn : BitVec 16),
    s.fieldOpen x = true → x.state = .secured → rn.toNat = x.handle → s.tag.locks = 0 → p.toNat / 2 ^ 18 = 0 → p.toNat / 2 ^ 12 % 4 = 0 →
    s.regsWf = true →
    ∃ t, exec (.fieldLock x.fe p rn) s = .next t ∧
      t.tag = { s.tag with field := s.fieldAt x.fe, session := some { x with cover := none }, reply := .success x.handle, locks := t.tag.locks } ∧
      t.lockBits 1 = ((p.toNat / 2 ^ 15 % 2) * (p.toNat / 2 ^ 5 % 2)) + 2 * ((p.toNat / 2 ^ 14 % 2) * (p.toNat / 2 ^ 4 % 2)) ∧
      t.lockBits 3 = ((p.toNat / 2 ^ 11 % 2) * (p.toNat / 2 % 2)) + 2 * ((p.toNat / 2 ^ 10 % 2) * (p.toNat % 2)) ∧
      t.lockBits 0 = ((p.toNat / 2 ^ 17 % 2) * (p.toNat / 2 ^ 7 % 2)) + 2 * ((p.toNat / 2 ^ 16 % 2) * (p.toNat / 2 ^ 6 % 2)) ∧
      t.reg (Reg.tagCnt 0) = s.reg (Reg.tagCnt 0) + 1 ∧ t = { s with tag := t.tag, regs := t.regs } ∧ s.SameRegs t [Reg.tagCnt 0]) ∧
  (∀ (s : State) (x : Session) (p : BitVec 20) (rn : BitVec 16),
    s.fieldOpen x = true → x.state = .secured → rn.toNat = x.handle → lockPair (s.lockBits 3) (p.toNat / 2 ^ 10 % 4) (p.toNat % 4) = none →
    s.regsWf = true →
    ∃ t, exec (.fieldLock x.fe p rn) s = .next t ∧
      t.tag = { s.tag with field := s.fieldAt x.fe, session := some { x with cover := none }, reply := .error 4 x.handle } ∧
      t.reg (Reg.tagCnt 0) = s.reg (Reg.tagCnt 0) + 1 ∧ t = { s with tag := t.tag, regs := t.regs } ∧ s.SameRegs t [Reg.tagCnt 0]) ∧
  (∀ (s : State) (x : Session) (v rn : BitVec 16) (k : Nat),
    s.fieldOpen x = true → x.open rn = true → x.cover = some k → s.tag.locked = false → s.tag.lockout = none → s.regsWf = true →
    ∃ t, exec (.fieldAccess x.fe v rn) s = .next t ∧
      t.tag = { s.tag with field := s.fieldAt x.fe, session := some { x with cover := none }, consec := min 15 (s.tag.consec + 1), cum := min 64 (s.tag.cum + 1), half := some (v.toNat ^^^ k), guardBusy := true, reply := .handle x.handle } ∧
      t.reg (Reg.tagCnt 0) = s.reg (Reg.tagCnt 0) + 1 ∧ t = { s with tag := t.tag, regs := t.regs } ∧ s.SameRegs t [Reg.tagCnt 0]) ∧
  (∀ (s : State) (x : Session) (v rn : BitVec 16) (k : Nat),
    s.fieldTakes x = true → x.open rn = true → x.cover = some k → s.tag.locked = false → s.tag.lockout = none → s.tag.guardBusy = false →
    s.tag.half = some s.accessPwd.1 → v.toNat ^^^ k = s.accessPwd.2 → s.regsWf = true →
    ∃ t, exec (.fieldAccess x.fe v rn) s = .next t ∧
      t.tag = { s.tag with field := s.fieldAt x.fe, consec := 0, cum := s.tag.cum - 1, half := none, session := some { x with cover := none, state := .secured }, reply := .handle x.handle } ∧
      t.reg (Reg.tagCnt 0) = s.reg (Reg.tagCnt 0) + 1 ∧ t = { s with tag := t.tag, regs := t.regs } ∧ s.SameRegs t [Reg.tagCnt 0]) ∧
  (∀ (s : State) (x : Session) (h : Nat) (v rn : BitVec 16) (k : Nat),
    s.fieldTakes x = true → x.open rn = true → x.cover = some k → s.tag.locked = false → s.tag.lockout = none → s.tag.guardBusy = false →
    s.tag.half = some h → (h, v.toNat ^^^ k) ≠ s.accessPwd → s.tag.cum < 64 → s.regsWf = true →
    ∃ t, exec (.fieldAccess x.fe v rn) s = .next t ∧
      (t.tag = { s.tag with field := s.fieldAt x.fe, half := none, session := some { x with cover := none, state := .arbitrate }, reply := .none, lockout := if s.tag.consec < 4 then none else some (if s.tag.consec ≤ 11 then (2 ^ (s.tag.consec - 3), 2 ^ (s.tag.consec - 3) * 1000000) else (256, 256000000)) }) ∧
      t.reg (Reg.tagCnt 0) = s.reg (Reg.tagCnt 0) + 1 ∧ t.reg (Reg.tagCnt 5) = s.reg (Reg.tagCnt 5) + 1 ∧
      t = { s with tag := t.tag, regs := t.regs } ∧ s.SameRegs t [Reg.tagCnt 0, Reg.tagCnt 5]) ∧
  (∀ (s : State) (x : Session) (fe : FrontEnd),
    s.fieldOpen x = true → s.feOk fe = true → s.regsWf = true →
    ∃ t, exec (.fieldKill fe) s = .next t ∧
      t.tag = { s.tag with field := s.fieldAt fe } ∧ t = { s with tag := t.tag }) ∧
  (∀ (s : State) (x : Session) (fe : FrontEnd),
    s.fieldOpen x = true → s.feOk fe = true → s.regsWf = true →
    ∃ t, exec (.fieldBlockerase fe) s = .next t ∧
      t.tag = { s.tag with field := s.fieldAt fe } ∧ t = { s with tag := t.tag }) ∧
  (∀ (s : State) (x : Session) (fe : FrontEnd),
    s.fieldOpen x = true → s.feOk fe = true → s.regsWf = true →
    ∃ t, exec (.fieldBlockpermalock fe) s = .next t ∧
      t.tag = { s.tag with field := s.fieldAt fe } ∧ t = { s with tag := t.tag }) ∧
  (∀ (s : State) (x : Session) (fe : FrontEnd),
    s.fieldOpen x = true → s.feOk fe = true → s.regsWf = true →
    ∃ t, exec (.fieldUntraceable fe) s = .next t ∧
      t.tag = { s.tag with field := s.fieldAt fe } ∧ t = { s with tag := t.tag }) ∧
  (∀ (s : State) (x : Session) (fe : FrontEnd),
    s.fieldOpen x = true → s.feOk fe = true → s.regsWf = true →
    ∃ t, exec (.fieldAuthenticate fe) s = .next t ∧
      t.tag = { s.tag with field := s.fieldAt fe } ∧ t = { s with tag := t.tag })

/-- O54. A session that times out, or loses its field while VIN is present, ends: a crumb write it began goes on without its reply. Without VIN the
function is unpowered: writes that wait are gone, a lockout restarts in full, and S0 is A. A verified crumb write changes its bytes and those only,
counts one write of its place and, asked for from the field, is answered with success, counted and kept in the guard record. One whose first verify
fails is written again. The end of a guard write and of a lockout end just that. A crumb that a read had to correct is rewritten with its own content
while VIN is present and no command owns it; without VIN it is left. -/
def Obligations.TheTagStoreEndsItsWork : Prop :=
  (∀ (s : State) (x : Session),
    s.tag.session = some x → s.tag.half = none → s.regsWf = true →
    ∃ t, exec .fieldSessionTimeout s = .next t ∧
      t.tag = { s.tag with session := none, job := s.tag.job.map (fun j => { j with reply := false }), queue := s.tag.queue.map (fun j => { j with reply := false }) } ∧
      t = { s with tag := t.tag }) ∧
  (∀ (s : State) (x : Session),
    s.tag.session = some x → s.tag.half = none → s.antSession = false → s.tagFromVin = true → s.regsWf = true →
    ∃ t, exec .fieldLoss s = .next t ∧
      t.tag = { s.tag with session := none, field := false, job := s.tag.job.map (fun j => { j with reply := false }), queue := s.tag.queue.map (fun j => { j with reply := false }) } ∧
      t = { s with tag := t.tag }) ∧
  (∀ (s : State) (x : Session),
    s.tag.session = some x → x.fe ≠ .comm → s.tag.half = none → s.regsWf = true →
    ∃ t, exec .fieldLoss s = .next t ∧
      t.tag = { s.tag with session := none, job := s.tag.job.map (fun j => { j with reply := false }), queue := s.tag.queue.map (fun j => { j with reply := false }) } ∧
      t = { s with tag := t.tag }) ∧
  (∀ (s : State),
    s.tag.session = none → s.tag.half = none → s.tagFromVin = false → s.tag.job = none → s.regsWf = true →
    ∃ t, exec .fieldLoss s = .next t ∧
      t.tag = { s.tag with queue := [], guardBusy := false, reply := .none, field := false, oos := [], fix := [], flags := t.tag.flags, sl := t.tag.sl, lockout := s.tag.lockout.map (fun e => (e.1, e.1 * 1000000)) } ∧
      t.invFlag 0 = false ∧ (∀ k < 4, t.invFlag k = true → s.invFlag k = true) ∧ (t.tag.sl = true → s.tag.sl = true) ∧
      t = { s with tag := t.tag, freeCtr := t.freeCtr }) ∧
  (∀ (s : State) (j : CrumbJob) (h : Nat),
    s.tag.job = some j → s.tag.queue = [] → j.who = .field h → j.reply = true → j.crumb ≠ 1 → j.crumb < 128 → (∀ e ∈ j.patch, e.1 < 64) →
    s.wearOf (s.locOf j.crumb) < 89999 → s.hp.frame = none → s.hp.posted = [] → s.phase = .active →
    swf (tagFactory s.board.serial) s.tag.bytes = true → s.regsWf = true →
    ∃ t, exec (.crumbWriteEnd true) s = .next t ∧
      t.tag.job = none ∧ t.tag.reply = .success h ∧
      (∀ a < 8192, t.tagByte a = if a / 64 = j.crumb then ((j.patch.filter (fun e => e.1 == a % 64)).getLast?.map (fun e => e.2)).getD (s.tagByte a) else s.tagByte a) ∧
      t.wearOf (s.locOf j.crumb) = s.wearOf (s.locOf j.crumb) + 1 ∧
      t.tag = { s.tag with job := none, reply := .success h, bytes := t.tag.bytes, wear := t.tag.wear, bad := s.tag.bad.filter (fun c => c != j.crumb), fix := s.tag.fix.filter (fun c => c != j.crumb), fieldCount := satN 8 (s.tag.fieldCount + 1), fieldCrumb := j.crumb } ∧
      t.reg (Reg.tagCnt 1) = s.reg (Reg.tagCnt 1) + 1 ∧ t.bit Reg.sysIrqPend 14 = true ∧ t = { s with tag := t.tag, regs := t.regs } ∧
      s.SameRegs t [Reg.tagCnt 1, Reg.sysIrqPend]) ∧
  (∀ (s : State) (j : CrumbJob),
    s.tag.job = some j → j.failed = false → s.hp.frame = none → s.hp.posted = [] → s.regsWf = true →
    ∃ t, exec (.crumbWriteEnd false) s = .next t ∧
      t.tag = { s.tag with job := some { j with failed := true } } ∧ t = { s with tag := t.tag }) ∧
  (∀ (s : State) (v : Bool),
    s.tag.job = none → s.regsWf = true →
    ∃ t, exec (.crumbWriteEnd v) s = .next t ∧
      t = s) ∧
  (∀ (s : State),
    s.regsWf = true →
    ∃ t, exec .guardWriteEnd s = .next t ∧
      t.tag = { s.tag with guardBusy := false } ∧ t = { s with tag := t.tag }) ∧
  (∀ (s : State),
    s.regsWf = true →
    ∃ t, exec .lockoutExpiry s = .next t ∧
      t.tag = { s.tag with lockout := none } ∧ t = { s with tag := t.tag }) ∧
  (∀ (s : State) (c : Fin 128),
    s.tagFromVin = true → s.crumbOos c = false → s.crumbFree c = true → s.tag.fix.contains c.val = true → s.regsWf = true →
    ∃ t, exec (.eccRewrite c) s = .next t ∧
      t.tag = { s.tag with job := some { crumb := c, patch := [], who := .ecc, failed := false, reply := false } } ∧
      t = { s with tag := t.tag }) ∧
  (∀ (s : State) (c : Fin 128),
    (s.tagFromVin = false ∨ s.tag.fix.contains c.val = false ∨ s.crumbOwned c = true ∨ s.crumbOos c = true) → s.regsWf = true →
    ∃ t, exec (.eccRewrite c) s = .next t ∧
      t = s)

/-- O55. From COMMIT into IDLE or DOZE on the timer begins a sweep of the ports of PING_PORTS that PING_SKIP does not name, under the thresholds of that
moment, when the region copy is valid and a period is set; in ACTIVE and DORMANT it begins none. A sweep that ends with one measurement: a void one
only counts in INTERF; the first of a port seeds its baseline; on a CLEAR port below PRES and RELEASE the baseline tracks by 2^-DRIFT of the
difference, cut toward zero; at PRES, with the confirmations reached, the port changes to PRESENCE or NEAR, in ACTIVE raising PING and naming the
port. A sweep that measured all its ports counts. A ping round whose sweep has no record ends without a packet. Changed baselines are copied to flash. -/
def Obligations.SweepsAndBaselines : Prop :=
  (∀ (s : State) (l : List Nat),
    (s.sleeping = some .idle ∨ s.sleeping = some .doze) → s.tap ≠ .extest → s.ping.sweep = none → s.bit Reg.pingRf 31 = true →
    s.fld Reg.pingSweep 0 16 ≠ 0 →
    l = (List.range 64).filter (fun p => s.bit (Reg.pingPorts (p / 32)) (p % 32) && !s.bit (Reg.pingSkip (p / 32)) (p % 32)) → l ≠ [] →
    s.regsWf = true →
    ∃ t, exec .sweepTimer s = .next t ∧
      t.ping = { s.ping with sweep := some l, thr := s.reg Reg.pingThr } ∧ t = { s with ping := t.ping }) ∧
  (∀ (s : State),
    (s.sleeping = none ∨ s.sleeping = some .dormant) → s.regsWf = true →
    ∃ t, exec .sweepTimer s = .next t ∧
      t = s) ∧
  (∀ (s : State) (m : GammaMeas) (p : PingPort),
    s.tap ≠ .extest → s.rounds = [] → s.ping.sweep = some [m.port.val] → s.pingPort m.port = p → -40 ≤ m.listen → s.regsWf = true →
    ∃ t, exec (.sweepEnd [m]) s = .next t ∧
      t.ping = { s.ping with sweep := none } ∧
      t.reg (Reg.pingCnt 3) = s.reg (Reg.pingCnt 3) + 1 ∧ t.reg (Reg.pingCnt 0) = s.reg (Reg.pingCnt 0) + 1 ∧
      t = { s with ping := t.ping, regs := t.regs } ∧ s.SameRegs t [Reg.pingCnt 3, Reg.pingCnt 0]) ∧
  (∀ (s : State) (m : GammaMeas) (p : PingPort),
    s.tap ≠ .extest → s.rounds = [] → s.ping.sweep = some [m.port.val] → s.pingPort m.port = p → m.listen < -40 → p.valid = false →
    swf (fun _ => PingPort.init) s.ping.ports = true → s.regsWf = true →
    ∃ t, exec (.sweepEnd [m]) s = .next t ∧
      t.pingPort m.port = { p with valid := true, bi := m.i, bq := m.q, mi := m.i, mq := m.q, md := 0 } ∧
      (∀ k < 64, k = m.port.val ∨ t.pingPort k = s.pingPort k) ∧
      t.ping = { s.ping with sweep := none, ports := t.ping.ports, changed := true } ∧ t.reg (Reg.pingCnt 0) = s.reg (Reg.pingCnt 0) + 1 ∧
      t = { s with ping := t.ping, regs := t.regs } ∧ s.SameRegs t [Reg.pingCnt 0]) ∧
  (∀ (s : State) (m : GammaMeas) (p : PingPort),
    s.tap ≠ .extest → s.rounds = [] → s.ping.sweep = some [m.port.val] → s.pingPort m.port = p → m.listen < -40 → p.valid = true →
    p.state = 0 → pingD p m.i m.q < fieldN s.ping.thr 0 10 → pingD p m.i m.q < fieldN s.ping.thr 10 10 →
    ((m.i - p.bi).tdiv (2 ^ s.fld Reg.pingCfg 24 4) ≠ 0 ∨ (m.q - p.bq).tdiv (2 ^ s.fld Reg.pingCfg 24 4) ≠ 0) →
    swf (fun _ => PingPort.init) s.ping.ports = true → s.regsWf = true →
    ∃ t, exec (.sweepEnd [m]) s = .next t ∧
      t.pingPort m.port = { p with mi := m.i, mq := m.q, md := pingD p m.i m.q, pend := 0, bi := p.bi + (m.i - p.bi).tdiv (2 ^ s.fld Reg.pingCfg 24 4), bq := p.bq + (m.q - p.bq).tdiv (2 ^ s.fld Reg.pingCfg 24 4) } ∧
      (∀ k < 64, k = m.port.val ∨ t.pingPort k = s.pingPort k) ∧
      t.ping = { s.ping with sweep := none, ports := t.ping.ports, changed := true } ∧ t.reg (Reg.pingCnt 0) = s.reg (Reg.pingCnt 0) + 1 ∧
      t = { s with ping := t.ping, regs := t.regs } ∧ s.SameRegs t [Reg.pingCnt 0]) ∧
  (∀ (s : State) (m : GammaMeas) (p : PingPort),
    s.tap ≠ .extest → s.rounds = [] → s.phase = .active → s.ping.sweep = some [m.port.val] → s.pingPort m.port = p → m.listen < -40 →
    p.valid = true → p.state = 0 → fieldN s.ping.thr 0 10 ≤ pingD p m.i m.q → pingD p m.i m.q < fieldN s.ping.thr 20 10 →
    s.fld Reg.pingCfg 28 4 ≤ p.pend + 1 → s.ping.wake = none → swf (fun _ => PingPort.init) s.ping.ports = true → s.regsWf = true →
    ∃ t, exec (.sweepEnd [m]) s = .next t ∧
      t.pingPort m.port = { p with mi := m.i, mq := m.q, md := pingD p m.i m.q, state := 1, hold := 0, pend := 0 } ∧
      (∀ k < 64, k = m.port.val ∨ t.pingPort k = s.pingPort k) ∧ t.bit (Reg.pingEvt (m.port.val / 32)) (m.port.val % 32) = true ∧
      t.reg (Reg.pingNear 0) = 0 ∧ t.reg (Reg.pingNear 1) = 0 ∧ t.bit Reg.sysIrqPend 12 = true ∧
      t.ping = { s.ping with sweep := none, ports := t.ping.ports } ∧
      t.reg (Reg.pingCnt 0) = s.reg (Reg.pingCnt 0) + 1 ∧ t.reg (Reg.pingCnt 1) = s.reg (Reg.pingCnt 1) + 1 ∧
      t = { s with ping := t.ping, regs := t.regs } ∧
      s.SameRegs t [Reg.pingCnt 0, Reg.pingCnt 1, Reg.pingEvt 0, Reg.pingEvt 1, Reg.pingNear 0, Reg.pingNear 1, Reg.sysIrqPend]) ∧
  (∀ (s : State) (r : Round),
    s.tap ≠ .extest → s.rounds = [r] → r.kind = .ping → r.phase = .running → r.warp < 4 → r.warps = [0, 1, 2, 3] → r.txc = none →
    (r.beams = [] ∧ r.decs = [] ∧ r.points = [] ∧ r.leg = none ∧ r.uma = none) → r.status = none → s.cmds = [] → s.upd.boundary = [] →
    s.regsWf = true →
    ∃ t, exec (.sweepEnd []) s = .next t ∧
      t.rounds = [] ∧ t.reg (Reg.pingCnt 0) = s.reg (Reg.pingCnt 0) + 1 ∧ t.cands = s.cands ∧ t.ping = s.ping) ∧
  (∀ (s : State),
    s.ping.changed = true → s.halfRuns = true → s.regsWf = true →
    ∃ t, exec .baselineSave s = .next t ∧
      t.ping = { s.ping with flash := some (baselinesOf s.ping.ports), changed := false } ∧
      s.taskAdded t (.baselines s.ping.flash) 0x1E80000 ∧ t = { s with ping := t.ping, memp := t.memp, freeCtr := t.freeCtr }) ∧
  (∀ (s : State),
    s.ping.changed = false → s.regsWf = true →
    ∃ t, exec .baselineSave s = .next t ∧
      t = s)

/-- O56. A write of PING_THR with RELEASE < PRES < NEAR stores it and leaves every port's state and baseline, and the thresholds in use, unchanged; any
other write leaves the register unchanged. The next sweep, whether the timer, a ping round or a calibration begins it, takes the register's
thresholds. -/
def Obligations.ThresholdsTakeEffectAtTheNextSweep : Prop :=
  (∀ (s : State) (value : Word),
    s.hostCan Reg.pingThr = true → fieldN value 10 10 < fieldN value 0 10 → fieldN value 0 10 < fieldN value 20 10 →
    ∃ t, exec (.pingThrWrite value) s = .next t ∧
      t.fld Reg.pingThr 0 30 = value.toNat % 2 ^ 30 ∧ t.ping = s.ping ∧ t = { s with regs := t.regs, acc := t.acc } ∧
      s.SameRegs t [Reg.pingThr, Reg.hpFrames]) ∧
  (∀ (s : State) (value : Word),
    s.hostCan Reg.pingThr = true → (fieldN value 0 10 ≤ fieldN value 10 10 ∨ fieldN value 20 10 ≤ fieldN value 0 10) →
    ∃ t, exec (.pingThrWrite value) s = .next t ∧
      t.reg Reg.pingThr = s.reg Reg.pingThr ∧ t.ping = s.ping ∧ t = { s with regs := t.regs, acc := t.acc } ∧ s.SameRegs t [Reg.hpFrames]) ∧
  (∀ (s : State) (p : Nat),
    (s.sleeping = some .idle ∨ s.sleeping = some .doze) → s.tap ≠ .extest → s.ping.sweep = none → s.bit Reg.pingRf 31 = true →
    s.fld Reg.pingSweep 0 16 ≠ 0 → p < 64 →
    (s.bit (Reg.pingPorts (p / 32)) (p % 32) = true ∧ s.bit (Reg.pingSkip (p / 32)) (p % 32) = false) → s.regsWf = true →
    ∃ t, exec .sweepTimer s = .next t ∧
      t.ping.thr = s.reg Reg.pingThr) ∧
  (∀ (s : State) (w : Fin 4) (c : Cand),
    s.mayStart = true → s.bit Reg.schedCtrl 0 = true → s.rounds = [] → s.cands = [c] → c.kind = .pingCal → s.warpsOn [0, 1, 2, 3] = true →
    s.tag.session = none → s.halfRuns = true → s.regsWf = true →
    ∃ t, exec (.roundStart w) s = .next t ∧
      t.ping.thr = s.reg Reg.pingThr) ∧
  (∀ (s : State) (w : Fin 4) (c : Cand),
    s.mayStart = true → s.bit Reg.schedCtrl 0 = true → s.rounds = [] → s.cands = [c] → c.kind = .ping → c.due = true →
    s.bit (Reg.schedTable c.entry 0) 31 = true → (s.entryPlan c.entry false).status = none →
    (s.entryPlan c.entry false).warps = [0, 1, 2, 3] →
    ((s.entryPlan c.entry false).pool = [] ∧ (s.entryPlan c.entry false).beams = [] ∧ (s.entryPlan c.entry false).decOf = []) →
    s.fld (Reg.schedTable c.entry 0) 22 4 = 0 → s.meetsWindow c (s.entryPlan c.entry false) = false → s.tag.session = none →
    s.regsWf = true →
    ∃ t, exec (.roundStart w) s = .next t ∧
      t.ping.thr = s.reg Reg.pingThr)

/-- O57. The main die sends a window request before any sighting, with the count of drops since the last item, and counts it. A sighting of an open dwell
in its own zone, or a weak one, moves LAST and SIL_FROM to its stamp, counts and cancels a candidate; one weaker than RSSI_MIN, and a weak one of no
dwell, moves none; a first zone sighting takes the lowest free entry as candidate (the choice of the index is the model's, log entry 12); one that
reaches ENTRY_N opens the dwell, in another zone after closing the old one with flag ZONE. Drops set LOSS on the open dwells; an item ends a gap and
restarts their silence. A discarded item is counted and is none for the gap. A window request makes its block due, an ATTEST the signing. An item of
another kind is not taken, and one that comes while the die restarts on an accepted image is lost. The end of ENTRY_WIN frees a candidate; EXIT_SIL
without a gap and MAX_DWELL close a dwell, the latter with MAX: record, log head and chain change at once; GAP_MAX closes the dwell of the gap;
FEED_GAP begins a gap, frees candidates and flags open dwells GAP. TT advances by one per tick, nothing else changing while no test is due, and stands
with the crystal. -/
def Obligations.DwellsFollowSightings : Prop :=
  (∀ (s : State) (b : Nat) (a : Word) (r : List (Nat × Word)),
    s.board.tally = true → s.coreOn = true → s.tal.reqs = (b, a) :: r → s.regsWf = true →
    ∃ t, exec .feedItemSend s = .next t ∧
      t.tal = { s.tal with reqs := r, dropped := 0, wire := some (feedBytes ([0x20, BitVec.ofNat 8 (satN 8 s.tal.dropped)] ++ beBytes 2 b ++ [0, 0] ++ beBytes 4 a.toNat ++ [0, 0, 0, 0])) } ∧
      t.reg (Reg.talCnt 1) = s.reg (Reg.talCnt 1) + 1 ∧ t = { s with tal := t.tal, regs := t.regs } ∧ s.SameRegs t [Reg.talCnt 1]) ∧
  (∀ (s : State) (q : FeedItem) (r : List FeedItem),
    s.board.tally = true → s.coreOn = true → s.tal.reqs = [] → s.tal.queue = q :: r → s.regsWf = true →
    ∃ t, exec .feedItemSend s = .next t ∧
      t.tal = { s.tal with queue := r, dropped := 0, wire := some (feedBytes ([0x10, BitVec.ofNat 8 (satN 8 s.tal.dropped)] ++ beBytes 2 (q.family * 16384 + q.zone) ++ beBytes 1 q.qual ++ beBytes 1 q.rssi ++ beBytes 8 q.id)) } ∧
      t.reg (Reg.talCnt 1) = s.reg (Reg.talCnt 1) + 1 ∧ t = { s with tal := t.tal, regs := t.regs } ∧ s.SameRegs t [Reg.talCnt 1]) ∧
  (∀ (s : State) (i : List Byte) (f z q r n : Nat) (e : Dwell),
    s.takesSighting i = true → sightingOf i = (f, z, q, r, n) → r ≤ s.die.params.rssiMin →
    s.die.dwells.find? (fun x => x.family == f && x.id == n) = some e → e.state = .open_ → (s.die.inZone z q = false ∨ z = e.zone) →
    s.regsWf = true →
    ∃ t, exec (.sightingItem i) s = .next t ∧
      t.die.dwell e.idx = some { e with last := s.die.tt, silFrom := s.die.tt, count := min 65535 (e.count + 1), ccount := 0 } ∧
      s.die.SameDwells t.die e.idx ∧ s.die.Took t.die ∧ t.tal = { s.tal with wire := none } ∧ t = { s with die := t.die, tal := t.tal }) ∧
  (∀ (s : State) (i : List Byte) (f z q r n : Nat),
    s.takesSighting i = true → sightingOf i = (f, z, q, r, n) →
    (s.die.params.rssiMin < r ∨ (s.die.inZone z q = false ∧ s.die.dwells.find? (fun x => x.family == f && x.id == n) = none)) →
    s.regsWf = true →
    ∃ t, exec (.sightingItem i) s = .next t ∧
      t.die = { s.die with feedOk := s.die.feedOk + 1, lastItem := s.die.tt } ∧ t.tal = { s.tal with wire := none } ∧
      t = { s with die := t.die, tal := t.tal }) ∧
  (∀ (s : State) (i : List Byte) (f z q r n k : Nat),
    s.takesSighting i = true → sightingOf i = (f, z, q, r, n) → r ≤ s.die.params.rssiMin → s.die.inZone z q = true →
    s.die.dwells.find? (fun x => x.family == f && x.id == n) = none → (List.range 4096).find? (fun j => (s.die.dwell j).isNone) = some k →
    1 < s.die.params.entryN → s.regsWf = true →
    ∃ t, exec (.sightingItem i) s = .next t ∧
      t.die.dwell k = some { idx := k, family := f, id := n, state := .cand, zone := 0, entry := 0, last := 0, silFrom := 0, count := 0, flags := 0, czone := z, cfirst := s.die.tt, ccount := 1 } ∧
      s.die.SameDwells t.die k ∧ s.die.Took t.die ∧ t.tal = { s.tal with wire := none } ∧ t = { s with die := t.die, tal := t.tal }) ∧
  (∀ (s : State) (i : List Byte) (f z q r n : Nat) (e : Dwell),
    s.takesSighting i = true → sightingOf i = (f, z, q, r, n) → r ≤ s.die.params.rssiMin → s.die.inZone z q = true →
    s.die.dwells.find? (fun x => x.family == f && x.id == n) = some e → e.state = .cand → e.ccount ≠ 0 → z = e.czone →
    s.die.tt - e.cfirst ≤ s.die.params.entryWin → s.die.params.entryN ≤ e.ccount + 1 → s.regsWf = true →
    ∃ t, exec (.sightingItem i) s = .next t ∧
      t.die.dwell e.idx = some { e with state := .open_, zone := z, entry := e.cfirst, last := s.die.tt, silFrom := s.die.tt, count := e.ccount + 1, ccount := 0, flags := 0 } ∧
      s.die.SameDwells t.die e.idx ∧ s.die.Took t.die ∧ t.tal = { s.tal with wire := none } ∧ t = { s with die := t.die, tal := t.tal }) ∧
  (∀ (s : State) (i : List Byte) (f z q r n : Nat) (e : Dwell),
    s.takesSighting i = true → sightingOf i = (f, z, q, r, n) → r ≤ s.die.params.rssiMin → s.die.inZone z q = true →
    s.die.dwells.find? (fun x => x.family == f && x.id == n) = some e → e.state = .open_ → z ≠ e.zone → e.ccount ≠ 0 → z = e.czone →
    s.die.tt - e.cfirst ≤ s.die.params.entryWin → s.die.params.entryN ≤ e.ccount + 1 → s.regsWf = true →
    ∃ t, exec (.sightingItem i) s = .next t ∧
      TalDie.Recorded s.die t.die e (e.flags ||| 16) ∧
      t.die.dwell e.idx = some { e with zone := z, entry := e.cfirst, last := s.die.tt, silFrom := s.die.tt, count := e.ccount + 1, ccount := 0, flags := 0 } ∧
      s.die.SameDwells t.die e.idx ∧ t.tal = { s.tal with wire := none } ∧ t = { s with die := t.die, tal := t.tal }) ∧
  (∀ (s : State) (i : List Byte) (f z q r n g : Nat),
    s.coreOn = true → s.dieTicks = true → s.die.restart = false → itemKind i = some true → sightingOf i = (f, z, q, r, n) →
    s.die.params.rssiMin < r → s.die.gap = some g → s.regsWf = true →
    ∃ t, exec (.sightingItem i) s = .next t ∧
      (t.die.dwells = s.die.dwells.map (fun e => if e.state = .open_ then { e with silFrom := s.die.tt, flags := if (i.getD 1 0).toNat = 0 then e.flags else e.flags ||| 4 } else e)) ∧
      t.die.gap = none ∧ t.die.feedOk = s.die.feedOk + 1 ∧ t.die.sumDrop = s.die.sumDrop + (i.getD 1 0).toNat ∧ t.die.lastItem = s.die.tt ∧
      s.die.healthNoted t.die ∧
      t.die = { s.die with dwells := t.die.dwells, gap := none, feedOk := t.die.feedOk, sumDrop := t.die.sumDrop, lastItem := t.die.lastItem, pub := t.die.pub } ∧
      t.tal = { s.tal with wire := none } ∧ t = { s with die := t.die, tal := t.tal }) ∧
  (∀ (s : State) (i : List Byte),
    s.talUp = true → s.die.restart = false → itemKind i = none → s.regsWf = true →
    ∃ t, exec (.feedItemDiscarded i) s = .next t ∧
      t.die = { s.die with feedBad := s.die.feedBad + 1 } ∧ t.tal = { s.tal with wire := none } ∧ t = { s with die := t.die, tal := t.tal }) ∧
  (∀ (s : State) (i : List Byte),
    s.coreOn = true → s.talUp = true → s.die.gap = none → (i.getD 1 0).toNat = 0 → s.die.restart = false → itemKind i = some false →
    s.regsWf = true →
    ∃ t, exec (.windowRequest i) s = .next t ∧
      t.die.attest = (s.die.attest || (i.getD 3 0).toNat == 3) ∧
      (t.die.pub = if (i.getD 3 0).toNat = 3 then s.die.pub else s.die.pub ++ [{ seq := 0, block := some ((i.getD 3 0).toNat, beNat ((i.drop 6).take 4)), note := none, words := [], nwords := [] }]) ∧
      t.die = { s.die with attest := t.die.attest, pub := t.die.pub, feedOk := s.die.feedOk + 1, lastItem := s.die.tt } ∧
      t.tal = { s.tal with wire := none } ∧ t = { s with die := t.die, tal := t.tal }) ∧
  (∀ (s : State) (i : List Byte),
    s.die.restart = true → itemKind i = some false → s.regsWf = true →
    ∃ t, exec (.windowRequest i) s = .next t ∧
      t.tal = { s.tal with wire := none } ∧ t = { s with tal := t.tal }) ∧
  (∀ (s : State) (i : List Byte),
    s.die.restart = true → itemKind i = some true → s.regsWf = true →
    ∃ t, exec (.sightingItem i) s = .next t ∧
      t.tal = { s.tal with wire := none } ∧ t = { s with tal := t.tal }) ∧
  (∀ (s : State) (i : List Byte),
    itemKind i ≠ some true → s.regsWf = true →
    ∃ t, exec (.sightingItem i) s = .next t ∧
      t = s) ∧
  (∀ (s : State) (k : BitVec 12) (e : Dwell),
    s.dieTicks = true → s.die.dwell k.toNat = some e → e.state = .cand → s.die.params.entryWin < s.die.tt - e.cfirst → s.regsWf = true →
    ∃ t, exec (.entryWinExpiry k) s = .next t ∧
      t.die.dwell k.toNat = none ∧ s.die.SameDwells t.die k.toNat ∧ t.die = { s.die with dwells := t.die.dwells } ∧
      t = { s with die := t.die }) ∧
  (∀ (s : State) (k : BitVec 12) (e : Dwell),
    s.dieTicks = true → s.die.dwell k.toNat = some e → e.state = .open_ → s.die.gap = none → s.die.params.exitSil ≤ s.die.tt - e.silFrom →
    s.regsWf = true →
    ∃ t, exec (.exitSilExpiry k) s = .next t ∧
      TalDie.Recorded s.die t.die e e.flags ∧ t.die.dwell k.toNat = none ∧ s.die.SameDwells t.die k.toNat ∧
      t.die = { s.die with dwells := t.die.dwells, log := t.die.log, next := t.die.next, chain := t.die.chain, health := t.die.health, pub := t.die.pub } ∧
      t = { s with die := t.die }) ∧
  (∀ (s : State) (k : BitVec 12) (e : Dwell),
    s.dieTicks = true → s.die.dwell k.toNat = some e → e.state = .open_ → s.die.params.maxDwell * 10 ≤ s.die.tt - e.entry →
    s.regsWf = true →
    ∃ t, exec (.maxDwellExpiry k) s = .next t ∧
      TalDie.Recorded s.die t.die e (e.flags ||| 8) ∧ t.die.dwell k.toNat = none ∧ s.die.SameDwells t.die k.toNat ∧
      t.die = { s.die with dwells := t.die.dwells, log := t.die.log, next := t.die.next, chain := t.die.chain, health := t.die.health, pub := t.die.pub } ∧
      t = { s with die := t.die }) ∧
  (∀ (s : State),
    s.dieTicks = true → s.die.gap = none → s.die.params.feedGap ≤ s.die.tt - s.die.lastItem → s.regsWf = true →
    ∃ t, exec .feedGapExpiry s = .next t ∧
      t.die.gap = some s.die.lastItem ∧
      t.die.dwells = (s.die.dwells.filter (fun e => e.state != .cand)).map (fun e => { e with flags := e.flags ||| 2 }) ∧
      s.die.healthNoted t.die ∧ t.die = { s.die with gap := t.die.gap, dwells := t.die.dwells, pub := t.die.pub } ∧
      t = { s with die := t.die }) ∧
  (∀ (s : State) (g : Nat) (e : Dwell),
    s.dieTicks = true → s.die.gap = some g → s.die.params.gapMax * 10 ≤ s.die.tt - g → s.die.dwells = [e] → e.state = .open_ →
    s.regsWf = true →
    ∃ t, exec .gapMaxExpiry s = .next t ∧
      TalDie.Recorded s.die t.die e e.flags ∧ t.die.dwells = [] ∧
      t.die = { s.die with dwells := [], log := t.die.log, next := t.die.next, chain := t.die.chain, health := t.die.health, pub := t.die.pub } ∧
      t = { s with die := t.die }) ∧
  (∀ (s : State),
    s.dieTicks = true → s.regsWf = true →
    ∃ t, exec .ttTick s = .next t ∧
      t.die.tt = (s.die.tt + 1) % 2 ^ 40 ∧
      t.die.params = s.die.params ∧ t.die.audit = s.die.audit ∧ t.die.sealLog = s.die.sealLog ∧ t.die.air = s.die.air ∧ t.die.feedOk = s.die.feedOk ∧
      t = { s with die := t.die }) ∧
  (∀ (s : State),
    s.dieTicks = true → s.die.gap = none → s.die.tt - s.die.lastItem < s.die.params.feedGap →
    (s.die.dwells.all (fun e => if e.state = .cand then decide (s.die.tt - e.cfirst ≤ s.die.params.entryWin) else decide (s.die.tt - e.silFrom < s.die.params.exitSil) && decide (s.die.tt - e.entry < s.die.params.maxDwell * 10)) = true) →
    s.regsWf = true →
    ∃ t, exec .ttTick s = .next t ∧
      t.die = { s.die with tt := (s.die.tt + 1) % 2 ^ 40 } ∧ t = { s with die := t.die }) ∧
  (∀ (s : State),
    s.dieTicks = false → s.regsWf = true →
    ∃ t, exec .ttTick s = .next t ∧
      t = s)

/-- O58. Compensation adds or removes crystal cycles. TT is saved. A loss of VTAL stops the die: what lies in FRAM stays; at its start TT is the saved
value plus 1 s, TT_BREAKS advances, TT_BROKEN sets, candidates are freed and an open dwell closes with POWER. With the crystal stopped XTAL_FAIL sets
and an open dwell closes with CLOCK; when it runs again TT_BREAKS advances. SEAL_N low enters seal mode; an image with the magic is held; when SEAL_N
is high again an acceptable image closes the open dwell with SEAL, adds one to TAL_AUDIT, takes effect, is entered as ACCEPTED and the die restarts
until its start is done; a rejected one is entered with its reason, none as EMPTY, and nothing else changes. A signed chain head becomes the
attestation due; its signature is free. The first frame due goes on the link with the next number and its block as it is then. A frame that arrives
whole replaces its block and becomes a note with PUB_GAP when a number is missing, HEALTH and SEAL raising TAL; one with a bad CRC is counted; one
without CORE is lost. No frame for 2 s clears TALLINK. The running half asks for the status block. A request not answered in time ends with TIMEOUT. -/
def Obligations.TheTallyDieAndItsLink : Prop :=
  (∀ (s : State) (a : Int),
    s.talUp = true → s.regsWf = true →
    ∃ t, exec (.temperatureCompensation a) s = .next t ∧
      t.die = { s.die with comp := s.die.comp + a } ∧ t = { s with die := t.die }) ∧
  (∀ (s : State),
    s.talUp = true → s.regsWf = true →
    ∃ t, exec .ttSave s = .next t ∧
      t.die = { s.die with saved := s.die.tt } ∧ t = { s with die := t.die }) ∧
  (∀ (s : State),
    s.board.tally = true → s.regsWf = true →
    ∃ t, exec .vtalLoss s = .next t ∧
      t.die = { s.die with running := false, pub := [], air := [], attest := false, sealMode := false, image := none, restart := false } ∧
      t.lands = { s.lands with vtal := false } ∧ t = { s with die := t.die, lands := t.lands }) ∧
  (∀ (s : State) (e : Dwell),
    s.board.tally = true → s.die.running = false → s.die.dwells.filter (fun x => x.state == .open_) = [e] → s.regsWf = true →
    ∃ t, exec .tallyDieStart s = .next t ∧
      TalDie.Recorded s.die t.die e (e.flags ||| 32) ∧
      t.die.running = true ∧ t.die.xtal = true ∧ t.die.tt = s.die.saved + 10 ∧ t.die.breaks = s.die.breaks + 1 ∧
      t.die.gap = none ∧ t.die.lastItem = s.die.saved + 10 ∧ (wordOf t.die.health).getLsbD 4 = true ∧
      (∀ x ∈ t.die.dwells, x.state = .open_ ∧ x.idx ≠ e.idx) ∧
      t.die = { s.die with running := true, restart := false, xtal := true, tt := t.die.tt, breaks := t.die.breaks, gap := none, lastItem := t.die.lastItem, health := t.die.health, dwells := t.die.dwells, log := t.die.log, next := t.die.next, chain := t.die.chain, pub := t.die.pub } ∧
      t.lands = { s.lands with vtal := true } ∧ t = { s with die := t.die, lands := t.lands }) ∧
  (∀ (s : State),
    s.board.tally = true → s.die.running = false → s.die.dwells = [] → s.regsWf = true →
    ∃ t, exec .tallyDieStart s = .next t ∧
      t.die.running = true ∧ t.die.xtal = true ∧ t.die.tt = s.die.saved + 10 ∧ t.die.breaks = s.die.breaks + 1 ∧
      t.die.dwells = [] ∧ t.die.log = s.die.log ∧ t.die.next = s.die.next ∧ t.die.chain = s.die.chain ∧
      (wordOf t.die.health).getLsbD 4 = true ∧ (wordOf t.die.health).getLsbD 8 = false ∧ t.lands = { s.lands with vtal := true } ∧
      t = { s with die := t.die, lands := t.lands }) ∧
  (∀ (s : State),
    s.talUp = true → s.die.restart = true → s.regsWf = true →
    ∃ t, exec .tallyDieStart s = .next t ∧
      t.die = { s.die with restart := false } ∧ t = { s with die := t.die }) ∧
  (∀ (s : State) (e : Dwell),
    s.dieTicks = true → s.die.dwells = [e] → e.state = .open_ → s.regsWf = true →
    ∃ t, exec .xtalFail s = .next t ∧
      TalDie.Recorded s.die t.die e (e.flags ||| 128) ∧ t.die.dwells = [] ∧ t.die.xtal = false ∧ (wordOf t.die.health).getLsbD 8 = true ∧
      t.die = { s.die with xtal := false, health := t.die.health, dwells := [], log := t.die.log, next := t.die.next, chain := t.die.chain, pub := t.die.pub } ∧
      t = { s with die := t.die }) ∧
  (∀ (s : State),
    s.talUp = true → s.die.xtal = false → s.regsWf = true →
    ∃ t, exec .xtalRecovery s = .next t ∧
      t.die.xtal = true ∧ t.die.breaks = s.die.breaks + 1 ∧ (wordOf t.die.health).getLsbD 8 = false ∧
      t.die = { s.die with xtal := true, breaks := t.die.breaks, health := t.die.health, pub := t.die.pub } ∧ t = { s with die := t.die }) ∧
  (∀ (s : State),
    s.talUp = true → s.die.sealMode = false → s.regsWf = true →
    ∃ t, exec .sealModeEntry s = .next t ∧
      t.die = { s.die with sealMode := true, pub := t.die.pub } ∧ s.die.healthNoted t.die ∧ t.lands = { s.lands with sealN := false } ∧
      t = { s with die := t.die, lands := t.lands }) ∧
  (∀ (s : State) (i : TallyImage),
    s.talUp = true → s.regsWf = true →
    ∃ t, exec (.sealImage i) s = .next t ∧
      (t.die = if s.die.sealMode && talMagic i then { s.die with image := some i } else s.die) ∧ t = { s with die := t.die }) ∧
  (∀ (s : State) (i : TallyImage) (e : Dwell),
    s.talUp = true → s.die.sealMode = true → s.die.image = some i → i.sigOk = true → talType i = 2 →
    (talField i 5 1 = 0 ∧ talField i 8 4 = 0) → s.die.parSeq < talSeq i → paramsOk (talParams i) = true →
    paramBlock (talParams i) = (i.bytes.drop 16).take 64 → talLenOk i = true → s.die.audit < 0xFFFF → s.die.dwells = [e] →
    e.state = .open_ → s.regsWf = true →
    ∃ t, exec .sealExit s = .next t ∧
      TalDie.Recorded s.die t.die e (e.flags ||| 64) ∧
      t.die.audit = s.die.audit + 1 ∧ t.die.params = talParams i ∧ t.die.parSeq = talSeq i ∧ t.die.fwSeq = s.die.fwSeq ∧ t.die.fwVer = s.die.fwVer ∧
      t.die.sealMode = false ∧ t.die.image = none ∧ t.die.restart = true ∧ t.die.attest = false ∧ t.die.dwells = [] ∧ t.die.tt = s.die.tt ∧ (wordOf t.die.health).getLsbD 4 = false ∧
      t.die.sealLog = ({ audit := s.die.audit + 1, result := 1, reason := 0, tt := s.die.tt, ty := 2, seq := talSeq i, params := wordOf (paramId (talParams i)) } :: s.die.sealLog).take 16 ∧
      t.lands = { s.lands with sealN := true } ∧ t = { s with die := t.die, lands := t.lands }) ∧
  (∀ (s : State) (i : TallyImage),
    s.talUp = true → s.die.sealMode = true → s.die.image = some i → s.die.imageFault i ≠ 0 → s.regsWf = true →
    ∃ t, exec .sealExit s = .next t ∧
      t.die.sealLog = ({ audit := s.die.audit, result := 2, reason := s.die.imageFault i, tt := s.die.tt, ty := talType i, seq := talSeq i, params := wordOf (paramId s.die.params) } :: s.die.sealLog).take 16 ∧
      t.die = { s.die with sealMode := false, image := none, sealLog := t.die.sealLog, pub := t.die.pub } ∧
      t.lands = { s.lands with sealN := true } ∧ t = { s with die := t.die, lands := t.lands }) ∧
  (∀ (s : State),
    s.talUp = true → s.die.sealMode = true → s.die.image = none → s.regsWf = true →
    ∃ t, exec .sealExit s = .next t ∧
      t.die.sealLog = ({ audit := s.die.audit, result := 3, reason := 0, tt := s.die.tt, ty := 0, seq := 0, params := wordOf (paramId s.die.params) } :: s.die.sealLog).take 16 ∧
      t.die = { s.die with sealMode := false, sealLog := t.die.sealLog, pub := t.die.pub } ∧ t.lands = { s.lands with sealN := true } ∧
      t = { s with die := t.die, lands := t.lands }) ∧
  (∀ (s : State),
    s.talUp = true → s.die.attest = true → s.die.chain.length = 32 → s.regsWf = true →
    ∃ t, exec .attestationDone s = .next t ∧
      t.die.pub.dropLast = s.die.pub ∧ t.die.pub.getLast?.map (fun f => (f.block, f.note, f.words.length)) = some (some (3, 0), none, 32) ∧
      t.die.pub.getLast?.map (fun f => f.words.take 12) = some ([wordOf (s.die.next - 1)] ++ wordsOfBytes s.die.chain ++ [wordOf s.die.tt, wordOf (s.die.tt / 2 ^ 32 % 256), wordOf s.die.audit]) ∧
      t.die = { s.die with attest := false, pub := t.die.pub } ∧ t = { s with die := t.die, freeCtr := t.freeCtr }) ∧
  (∀ (s : State) (f : PubFrame) (r : List PubFrame),
    s.talUp = true → s.die.pub = f :: r → s.regsWf = true →
    ∃ t, exec .publish s = .next t ∧
      t.die.pub = r ∧ t.die.pubSeq = (s.die.pubSeq + 1) % 256 ∧ t.die.air.dropLast = s.die.air ∧
      t.die.air.getLast?.map (fun g => (g.seq, g.block, g.note)) = some (s.die.pubSeq, f.block, f.note) ∧
      t.die.air.getLast?.map (fun g => g.nwords) = some f.nwords ∧
      (f.block = some (0, 0) → t.die.air.getLast?.map (fun g => g.words) = some s.die.statusWords) ∧
      t.die = { s.die with pub := r, pubSeq := t.die.pubSeq, air := t.die.air } ∧ t = { s with die := t.die }) ∧
  (∀ (s : State) (f : PubFrame) (r : List PubFrame) (n : Nat),
    s.coreOn = true → s.die.air = f :: r → f.block = none → f.note = some n → s.fifo.tally.length < 8 → s.regsWf = true →
    ∃ t, exec (.publishFrame true) s = .next t ∧
      t.die = { s.die with air := r } ∧ t.tal.lastSeq = some f.seq ∧ t.tal.gap = false ∧ t.bit Reg.sysClkstat 7 = true ∧
      (t.fifo = { s.fifo with tally := s.fifo.tally ++ [{ ty := 6, flags := if s.tal.gap || s.tal.lastSeq.any (fun k => f.seq != (k + 1) % 256) then 8 else 0, len := 8 + 4 * f.nwords.length, words := wordOf (n * 2 ^ 24) :: f.nwords }] }) ∧
      t.bit Reg.sysIrqPend 9 = (s.bit Reg.sysIrqPend 9 || n != 1) ∧ t.reg (Reg.talCnt 2) = s.reg (Reg.talCnt 2) + 1 ∧
      t.tal = { s.tal with lastSeq := t.tal.lastSeq, gap := false } ∧
      t = { s with die := t.die, tal := t.tal, fifo := t.fifo, regs := t.regs } ∧
      s.SameRegs t [Reg.talCnt 2, Reg.sysClkstat, Reg.sysIrqPend]) ∧
  (∀ (s : State) (f : PubFrame) (r : List PubFrame) (c a o n : Nat) (q : Nat),
    s.coreOn = true → s.die.air = f :: r → f.block = some (c, a) → f.note = none → windowOf c = (o, n) →
    s.soleCmd q Reg.talReqRes (.talReq c (wordOf a)) = true → a < 2 ^ 32 → s.regsWf = true →
    ∃ t, exec (.publishFrame true) s = .next t ∧
      (∀ k < n, t.reg (Reg.talWindow (o + k)) = f.words.getD k 0) ∧ t.endedWith q Reg.talReqRes .ok ∧ t.die = { s.die with air := r } ∧
      t.reg (Reg.talCnt 2) = s.reg (Reg.talCnt 2) + 1 ∧
      t = { s with die := t.die, tal := t.tal, cmds := t.cmds, acc := t.acc, regs := t.regs } ∧
      s.SameRegs t ([Reg.talReqRes, Reg.sysCmdStat, Reg.talCnt 2, Reg.sysClkstat] ++ (List.range n).map (fun k => Reg.talWindow (o + k)))) ∧
  (∀ (s : State) (f : PubFrame) (r : List PubFrame) (ok : Bool),
    s.die.air = f :: r → (s.coreOn = false ∨ ok = false) → s.regsWf = true →
    ∃ t, exec (.publishFrame ok) s = .next t ∧
      t.die = { s.die with air := r } ∧ (t.reg (Reg.talCnt 3) = s.reg (Reg.talCnt 3) + if s.coreOn then 1 else 0) ∧
      t = { s with die := t.die, regs := t.regs } ∧ s.SameRegs t [Reg.talCnt 3]) ∧
  (∀ (s : State),
    s.regsWf = true →
    ∃ t, exec .tallinkTimeout s = .next t ∧
      t.bit Reg.sysClkstat 7 = false ∧ t = { s with regs := t.regs } ∧ s.SameRegs t [Reg.sysClkstat]) ∧
  (∀ (s : State),
    s.ready rdTal = true → s.halfRuns = true → s.tal.reqs.length < 4 → s.regsWf = true →
    ∃ t, exec .statusRequestTimer s = .next t ∧
      t.tal = { s.tal with reqs := s.tal.reqs ++ [(0, 0)] } ∧ t = { s with tal := t.tal }) ∧
  (∀ (s : State) (n b : Nat) (a : Word),
    s.soleCmd n Reg.talReqRes (.talReq b a) = true → s.regsWf = true →
    ∃ t, exec .talReqTimeout s = .next t ∧
      t.endedWith n Reg.talReqRes .timeout ∧ t = { s with cmds := t.cmds, acc := t.acc, regs := t.regs } ∧
      s.SameRegs t [Reg.talReqRes, Reg.sysCmdStat])

/-- O59. With the bus free, no program in the device and nothing of the port's own to do the entry that is due starts and is counted; with the bus in use,
a suspend under way, the queue frozen, its lands unpowered or nothing that may start nothing starts; an entry that needs a flash which programs has
the program suspended, and once the device reports it the entry runs and the suspend is counted; where none is left the program resumes and RGAP runs,
which ends by itself. A code fetch that ends delivers its line; the last part of a bucket has put its entry into the population store; a program goes
on in the device; when it ends its page is read back, an erase of the log is done; with the read-back of a page of the event log its entries are
persisted; a mirror's other flash is then written; the last page of a resilver completes the copy. A code fetch inside the 6 MiB of its slot is queued
as one entry of 32 bytes, at level 1 for the running half, and counted; one beyond delivers all ones and is logged with its flash address. A time-out
ends the device's entry, with its count and the event log (code 1), a write whose read-back fails with its count (code 2) and, for the event log,
PERSIST_FAIL; without one nothing happens. When a resilver is complete its bit clears and the RETURN of the device that waits ends with OK. -/
def Obligations.TheMemoryPortServesItsQueue : Prop :=
  (∀ (s : State) (e : MemEntry) (forced : Bool),
    s.memp.cur = none → s.memp.suspending = false → s.memp.prog = none → s.nextEntry = some (e, forced) → s.portServes = true →
    s.memOos e.dev = false → s.regsWf = true →
    ∃ t, exec .queueEntryStart s = .next t ∧
      t.memp = { s.memp with queue := s.memp.queue.erase e, cur := some e, since := sinceAfter s.memp.queue s.memp.since e.level } ∧
      t.reg (Reg.mempCnt 0) = s.reg (Reg.mempCnt 0) + 1 ∧ t.reg (Reg.mempCnt 5) = s.reg (Reg.mempCnt 5) + (if forced then 1 else 0) ∧
      t = { s with memp := t.memp, regs := t.regs } ∧ s.SameRegs t [Reg.mempCnt 0, Reg.mempCnt 5]) ∧
  (∀ (s : State),
    (s.memp.cur ≠ none ∨ s.memp.suspending = true ∨ s.memStopped = true ∨ (s.portServes = true ∧ s.nextEntry = none)) → s.regsWf = true →
    ∃ t, exec .queueEntryStart s = .next t ∧
      t = s) ∧
  (∀ (s : State) (e p : MemEntry) (forced : Bool),
    s.memp.cur = none → s.memp.suspending = false → s.memp.suspended = false → s.memp.prog = some p → s.nextEntry = some (e, forced) →
    e.dev = p.dev → s.portServes = true → s.memOos e.dev = false → s.regsWf = true →
    ∃ t, exec .queueEntryStart s = .next t ∧
      t.memp = { s.memp with suspending := true } ∧ s.memp.rgap = false ∧ e.prog = false ∧ t = { s with memp := t.memp }) ∧
  (∀ (s : State) (e : MemEntry) (forced : Bool),
    s.memp.suspending = true → s.whileSuspended.nextEntry = some (e, forced) → s.portServes = true → s.memOos e.dev = false →
    s.regsWf = true →
    ∃ t, exec .suspended s = .next t ∧
      t.memp = { s.memp with suspending := false, suspended := true, queue := s.memp.queue.erase e, cur := some e, since := sinceAfter s.memp.queue s.memp.since e.level } ∧
      t.reg (Reg.mempCnt 2) = s.reg (Reg.mempCnt 2) + 1 ∧ t.reg (Reg.mempCnt 0) = s.reg (Reg.mempCnt 0) + 1 ∧
      t = { s with memp := t.memp, regs := t.regs } ∧ s.SameRegs t [Reg.mempCnt 0, Reg.mempCnt 2, Reg.mempCnt 5]) ∧
  (∀ (s : State),
    s.memp.suspending = true → s.whileSuspended.nextEntry = none → s.memStopped = false → s.regsWf = true →
    ∃ t, exec .suspended s = .next t ∧
      t.memp = { s.memp with suspending := false, suspended := false, rgap := true } ∧ t.reg (Reg.mempCnt 2) = s.reg (Reg.mempCnt 2) + 1 ∧
      t = { s with memp := t.memp, regs := t.regs } ∧ s.SameRegs t [Reg.mempCnt 2]) ∧
  (∀ (s : State),
    s.regsWf = true →
    ∃ t, exec .rgapExpiry s = .next t ∧
      t.memp = { s.memp with rgap := false } ∧ t = { s with memp := t.memp }) ∧
  (∀ (s : State) (e : MemEntry) (h : Bool) (off : Nat),
    s.memp.cur = some e → e.job = .xip h off → e.prog = false → e.cont = false → s.memStopped = false → s.cmds = [] → s.regsWf = true →
    ∃ t, exec .queueEntryEnd s = .next t ∧
      t.memp = { s.memp with cur := none, line := some (h, off, false), suspended := false, rgap := s.memp.rgap || s.memp.suspended } ∧
      t = { s with memp := t.memp }) ∧
  (∀ (s : State) (e : MemEntry),
    s.memp.cur = some e → e.prog = true → e.cont = false → s.memStopped = false → s.cmds = [] → s.regsWf = true →
    ∃ t, exec .queueEntryEnd s = .next t ∧
      t.memp = { s.memp with cur := none, prog := some e, suspended := false, rgap := s.memp.rgap || s.memp.suspended } ∧
      t = { s with memp := t.memp }) ∧
  (∀ (s : State) (e : MemEntry) (family id : Nat) (x : Seen) (p : Nat),
    s.memp.cur = some e → e.job = .popWrite family id true → e.prog = false → e.cont = false → s.memp.suspended = false →
    s.seenWb.find? (fun y => y.family == family && y.id == id) = some x → s.popPlace x = (p, false) → s.memStopped = false → s.cmds = [] →
    s.regsWf = true →
    ∃ t, exec .queueEntryEnd s = .next t ∧
      t.pop = sput (fun _ => none) s.pop p (some x) ∧ t.seenWb = s.seenWb.erase x ∧ t.memp = { s.memp with cur := none } ∧
      t = { s with memp := t.memp, pop := t.pop, seenWb := t.seenWb }) ∧
  (∀ (s : State) (e : MemEntry) (family id : Nat),
    s.memp.cur = some e → e.job = .popWrite family id false → e.prog = false → e.cont = false → s.memStopped = false → s.cmds = [] →
    s.regsWf = true →
    ∃ t, exec .queueEntryEnd s = .next t ∧
      t.memp = { s.memp with cur := none, suspended := false, rgap := s.memp.rgap || s.memp.suspended } ∧ t = { s with memp := t.memp }) ∧
  (∀ (s : State) (e : MemEntry),
    s.memp.cur = none → s.memp.prog = some e → e.len ≠ 0 → s.memStopped = false → s.cmds = [] → s.regsWf = true →
    ∃ t, exec .queueEntryEnd s = .next t ∧
      t.memp = { s.memp with prog := none, checking := some e, owed := t.memp.owed } ∧ t.memp.owed.dropLast = s.memp.owed ∧
      t.memp.owed.getLast?.map (fun c => (c.dev, c.addr, c.len)) = some (e.dev, e.addr, e.len) ∧
      t.memp.owed.getLast?.map (fun c => (c.write, c.prog, c.level, c.job)) = some (false, false, e.level, .check) ∧
      t = { s with memp := t.memp, freeCtr := t.freeCtr }) ∧
  (∀ (s : State) (e : MemEntry),
    s.memp.cur = none → s.memp.prog = some e → e.len = 0 → e.job = .logErase → s.copyTo e.dev = false → s.memStopped = false → s.cmds = [] →
    s.regsWf = true →
    ∃ t, exec .queueEntryEnd s = .next t ∧
      t.memp = { s.memp with prog := none } ∧ t.mgmt = { s.mgmt with flashLog := s.mgmt.flashLog.take (262144 - 256) } ∧
      t = { s with memp := t.memp, mgmt := t.mgmt }) ∧
  (∀ (s : State) (c e : MemEntry) (k : Nat),
    s.memp.cur = some c → c.job = .check → c.prog = false → c.cont = false → s.memp.checking = some e → e.job = .log k →
    s.copyTo e.dev = false → s.mgmt.lostNoted = 0 → s.phase = .active → s.memStopped = false → s.cmds = [] → s.regsWf = true →
    ∃ t, exec .queueEntryEnd s = .next t ∧
      t.memp = { s.memp with cur := none, checking := none, suspended := false, rgap := s.memp.rgap || s.memp.suspended } ∧
      t.mgmt = { s.mgmt with unsaved := s.mgmt.unsaved - k, flashLog := (s.mgmt.log.take s.mgmt.unsaved).drop ((s.mgmt.log.take s.mgmt.unsaved).length - k) ++ s.mgmt.flashLog } ∧
      t.bit Reg.mgmtHealth 31 = false ∧ t = { s with memp := t.memp, mgmt := t.mgmt, regs := t.regs } ∧ s.SameRegs t [Reg.mgmtHealth]) ∧
  (∀ (s : State) (c e : MemEntry),
    s.memp.cur = some c → c.job = .check → c.prog = false → c.cont = false → s.memp.checking = some e → e.dev = s.readDev →
    s.mirrorIn = true → e.dev = false → s.resilvering = false → s.memStopped = false → s.cmds = [] → s.regsWf = true →
    ∃ t, exec .queueEntryEnd s = .next t ∧
      t.memp = { s.memp with cur := none, checking := none, owed := s.memp.owed ++ [{ e with dev := true }], suspended := false, rgap := s.memp.rgap || s.memp.suspended } ∧
      t = { s with memp := t.memp }) ∧
  (∀ (s : State) (c e : MemEntry) (off : Nat),
    s.memp.cur = some c → c.job = .check → c.prog = false → c.cont = false → s.memp.checking = some e → e.job = .copy off → e.write = true →
    e.len ≠ 0 → e.dev = !s.readDev → s.resilvering = true → flashEnd ≤ off + 256 → s.memStopped = false → s.cmds = [] → s.regsWf = true →
    ∃ t, exec .queueEntryEnd s = .next t ∧
      t.memp = { s.memp with cur := none, checking := none, copied := off + 256, suspended := false, rgap := s.memp.rgap || s.memp.suspended } ∧
      t = { s with memp := t.memp }) ∧
  (∀ (s : State) (h : Bool) (off : BitVec 24),
    s.mgmt.running = some h → s.mgmtOn = true → off.toNat < 6 * 2 ^ 20 → s.phase = .active → s.memp.frozen = false →
    s.memp.queue.length < 32 → s.regsWf = true →
    ∃ t, exec (.xipMiss h off) s = .next t ∧
      t.memp.queue.dropLast = s.memp.queue ∧
      t.memp.queue.getLast?.map (fun e => (e.dev, e.addr, e.len)) = some (s.readDev, (s.xipBase h * 2 ^ 20 + off.toNat) / 32 * 32, 32) ∧
      t.memp.queue.getLast?.map (fun e => (e.level, e.write, e.prog)) = some (1, false, false) ∧
      t.memp.queue.getLast?.map (fun e => (e.held, e.cont, e.job)) = some (true, false, .xip h off.toNat) ∧
      t.memp = { s.memp with queue := t.memp.queue } ∧ t.reg (Reg.mempCnt 1) = s.reg (Reg.mempCnt 1) + 1 ∧
      t = { s with memp := t.memp, freeCtr := t.freeCtr, regs := t.regs } ∧ s.SameRegs t [Reg.mempCnt 1]) ∧
  (∀ (s : State) (h : Bool) (off : BitVec 24),
    s.mgmt.running = some h → s.mgmtOn = true → 6 * 2 ^ 20 ≤ off.toNat → s.regsWf = true →
    ∃ t, exec (.xipMiss h off) s = .next t ∧
      t.mgmt.log.head?.map (fun e => (e.source, e.detail)) = some (9, wordOf (s.xipBase h * 2 ^ 20 + off.toNat)) ∧
      t.memp = { s.memp with line := some (h, off.toNat, true) } ∧
      t = { s with memp := t.memp, mgmt := t.mgmt, freeCtr := t.freeCtr, regs := t.regs } ∧ s.SameRegs t (logRegs)) ∧
  (∀ (s : State) (h : Bool) (off : BitVec 24),
    (s.mgmtOn = false ∨ (s.mgmt.running ≠ some h ∧ s.halfState h ≠ 1 ∧ s.halfState h ≠ 2)) → s.regsWf = true →
    ∃ t, exec (.xipMiss h off) s = .next t ∧
      t = s) ∧
  (∀ (s : State) (dev : Bool) (e : MemEntry) (h : Bool) (o : Nat),
    s.memp.onDev dev = some e → e.dev = dev → e.job = .xip h o → s.memStopped = false →
    (if dev then s.memp.fail1 else s.memp.fail0) = none → s.cmds = [] → s.regsWf = true →
    ∃ t, exec (.mempTimeout dev) s = .next t ∧
      t.memp.cur ≠ some e ∧ t.memp.prog ≠ some e ∧ t.memp.queue = s.memp.queue ∧ (if dev then t.memp.fail1 else t.memp.fail0) = some s.up ∧
      t.reg (Reg.mempCnt 4) = s.reg (Reg.mempCnt 4) + 1 ∧ t.logs 9 1 (wordOf e.addr) ∧
      t = { s with memp := t.memp, mgmt := t.mgmt, regs := t.regs } ∧ s.SameRegs t ([Reg.mempCnt 4] ++ logRegs)) ∧
  (∀ (s : State) (dev : Bool),
    (s.memp.onDev dev = none ∨ s.memStopped = true) → s.regsWf = true →
    ∃ t, exec (.mempTimeout dev) s = .next t ∧
      t = s) ∧
  (∀ (s : State) (dev : Bool) (e : MemEntry) (k : Nat),
    s.memp.checking = some e → e.dev = dev → e.job = .log k → s.memStopped = false → (if dev then s.memp.fail1 else s.memp.fail0) = none →
    s.cmds = [] → s.regsWf = true →
    ∃ t, exec (.verifyFail dev) s = .next t ∧
      t.memp.checking = none ∧ t.memp.queue = s.memp.queue ∧ (if dev then t.memp.fail1 else t.memp.fail0) = some s.up ∧
      t.reg (Reg.mempCnt 3) = s.reg (Reg.mempCnt 3) + 1 ∧ t.bit Reg.mgmtHealth 31 = true ∧ t.logs 9 2 (wordOf e.addr) ∧
      t = { s with memp := t.memp, mgmt := t.mgmt, regs := t.regs } ∧ s.SameRegs t ([Reg.mempCnt 3, Reg.mgmtHealth] ++ logRegs)) ∧
  (∀ (s : State) (dev : Bool),
    (s.memp.checking = none ∨ s.memp.checking.any (fun e => e.dev != dev) = true ∨ s.memStopped = true) → s.regsWf = true →
    ∃ t, exec (.verifyFail dev) s = .next t ∧
      t = s) ∧
  (∀ (s : State) (n : Nat) (dev : Bool),
    s.soleCmd n Reg.mempCmdRes (.mempReturn (if dev then 1 else 0)) = true → s.bit Reg.mempStat 24 = true → s.mgmtOn = true →
    flashEnd ≤ s.memp.copied → s.regsWf = true →
    ∃ t, exec .resilverEnd s = .next t ∧
      t.bit Reg.mempStat 24 = false ∧ t.bit Reg.mempStat (if dev then 23 else 22) = false ∧ t.endedWith n Reg.mempCmdRes .ok ∧
      t = { s with cmds := t.cmds, acc := t.acc, regs := t.regs } ∧ s.SameRegs t [Reg.mempStat, Reg.mempCmdRes, Reg.sysCmdStat])

/-- O60. When the watchdog of the running half expires and the other half is HOT with a checkpoint no older than WDOG + 40 ms, the running one is out of
service with reason WDOG and the other is to resume; otherwise the module resets with cause WDOG. The takeover ends with the other half RUNNING,
counted, SERVICE raised and an entry (MGMT, 1, half). The watchdog of a standby that is HOT or loading puts it out of service with reason WDOG and an
entry (MGMT, 3, half). A checkpoint notes its time; settings that have changed since the last one are saved with it. A handover passes ownership,
leaves the old half out of service with reason HOST, is counted and logged (MGMT, 2, half), and the OUT ends with OK. A loading half that is ready
waits in SYNCING for its first checkpoint; with one it is HOT, and its RETURN ends with OK and an entry (MGMT, 4, half); one that fails is out of
service with reason SELFTEST and its RETURN ends with OUT_OF_SERVICE. The running half writes a HEALTH packet of 64 words; submits the log entries not
yet submitted, up to 128 of them, to the memory port at level 4, and raises PERSIST_FAIL when the batch fails; and saves the position offsets with the
identity of the draft. A decoder whose background test fails leaves service with reason SELFTEST, SERVICE and an entry (DEC, 1, index); a RETURN whose
test passes ends with OK and an entry (DEC, 2, index), one that fails with OUT_OF_SERVICE. The severities of all but the takeover entry are free (log
entry 8). -/
def Obligations.HalvesAndTheirLogs : Prop :=
  (∀ (s : State) (h : Bool),
    s.mgmtOn = true → s.mgmt.running = some h → s.mgmt.handCkpt = false → s.halfState (!h) = 3 → s.ckptAge ≤ s.fld Reg.mgmtCfg 2 10 + 40 →
    s.cmds = [] → s.tal.reqs = [] → s.tag.job = none → s.tag.queue = [] → s.memp.cur = none → s.memp.waiting = [] → s.regsWf = true →
    ∃ t, exec .watchdogExpiry s = .next t ∧
      t.halfState h = 5 ∧ t.halfReason h = 2 ∧ t.mgmt = { s.mgmt with running := none, takeover := some (!h), handover := none } ∧
      t.memp = { s.memp with queue := s.memp.queue.filter (fun e => e.level == 2 || (match e.job with | .copy _ => true | _ => false)) } ∧
      t = { s with mgmt := t.mgmt, memp := t.memp, regs := t.regs } ∧ s.SameRegs t [Reg.mgmtStat]) ∧
  (∀ (s : State) (h : Bool),
    s.mgmtOn = true → s.mgmt.running = some h → s.mgmt.handCkpt = false → (s.halfState (!h) ≠ 3 ∨ s.fld Reg.mgmtCfg 2 10 + 40 < s.ckptAge) →
    (∀ n < 4, s.txOn n = false) → s.regsWf = true →
    ∃ t, exec .watchdogExpiry s = .next t ∧
      (t.resets = if s.resets.contains .wdog then s.resets else s.resets ++ [.wdog]) ∧ t = { s with resets := t.resets }) ∧
  (∀ (s : State) (h : Bool),
    s.mgmtOn = true → s.mgmt.running = some h → (s.halfState (!h) = 1 ∨ s.halfState (!h) = 2 ∨ s.halfState (!h) = 3) → s.cmds = [] →
    s.regsWf = true →
    ∃ t, exec .standbyWatchdogExpiry s = .next t ∧
      t.halfState (!h) = 5 ∧ t.halfReason (!h) = 2 ∧ t.halfState h = s.halfState h ∧ t.mgmt.running = some h ∧
      t.logs 0x0D 3 (if h then 0 else 1) ∧ t.bit Reg.sysIrqPend 8 = true ∧ t = { s with mgmt := t.mgmt, regs := t.regs } ∧
      s.SameRegs t ([Reg.mgmtStat] ++ logRegs)) ∧
  (∀ (s : State) (h : Bool),
    s.mgmtOn = true → s.mgmt.takeover = some h → s.updState ≠ 3 → s.upd.proof = none → s.rounds.all (fun r => r.kind != .cal) = true →
    s.cmds.all (fun c => !c.kind.byHalf) = true → s.regsWf = true →
    ∃ t, exec .takeoverComplete s = .next t ∧
      t.halfState h = 4 ∧ t.bit Reg.mgmtStat 31 = h ∧ t.halfState (!h) = s.halfState (!h) ∧
      t.mgmt.running = some h ∧ t.mgmt.takeover = none ∧ t.mgmt.takeoverDiag = true ∧ t.reg (Reg.mgmtCnt 0) = s.reg (Reg.mgmtCnt 0) + 1 ∧
      t.bit Reg.sysIrqPend 8 = true ∧ t.logs 0x0D 1 (if h then 1 else 0) ∧ t.mgmt.log.head?.map (fun e => e.sev) = some 3 ∧
      t.bit Reg.sysIrqPend 11 = true ∧ t = { s with mgmt := t.mgmt, regs := t.regs } ∧
      s.SameRegs t ([Reg.mgmtStat, Reg.mgmtCnt 0] ++ logRegs)) ∧
  (∀ (s : State) (h : Bool),
    s.mgmt.running = some h → s.mgmtOn = true → s.upd.settings = s.settingsNow → s.upd.seeds = s.seeds → s.regsWf = true →
    ∃ t, exec .checkpoint s = .next t ∧
      t.mgmt = { s.mgmt with ckptAt := s.up, fresh := true, handCkpt := s.mgmt.handCkpt || s.mgmt.handover.isSome } ∧
      t = { s with mgmt := t.mgmt }) ∧
  (∀ (s : State) (h : Bool) (n : Nat) (k : Nat),
    s.mgmtOn = true → s.mgmt.handover = some h → s.mgmt.running = some (!h) → s.soleCmd n Reg.mgmtCmdRes (.mgmtOut k) = true →
    s.upd.fallback ≠ .handover → s.regsWf = true →
    ∃ t, exec .handoverComplete s = .next t ∧
      t.halfState h = 4 ∧ t.halfState (!h) = 5 ∧ t.halfReason (!h) = 1 ∧ t.bit Reg.mgmtStat 31 = h ∧
      t.mgmt.running = some h ∧ t.mgmt.handover = none ∧ t.mgmt.ckptAt = s.up ∧ t.reg (Reg.mgmtCnt 1) = s.reg (Reg.mgmtCnt 1) + 1 ∧
      t.logs 0x0D 2 (if h then 1 else 0) ∧ t.endedWith n Reg.mgmtCmdRes .ok ∧
      t = { s with mgmt := t.mgmt, cmds := t.cmds, acc := t.acc, regs := t.regs } ∧
      s.SameRegs t ([Reg.mgmtStat, Reg.mgmtCnt 1, Reg.mgmtCmdRes, Reg.sysCmdStat] ++ logRegs)) ∧
  (∀ (s : State) (h : Bool) (n : Nat),
    s.mgmtOn = true → s.halfState h = 2 → s.mgmt.fresh = true → s.updState ≠ 3 → s.upd.fallback ≠ .waitHot →
    s.soleCmd n Reg.mgmtCmdRes (.mgmtReturn (if h then 1 else 0)) = true → s.regsWf = true →
    ∃ t, exec (.halfHot h true) s = .next t ∧
      t.halfState h = 3 ∧ t.halfReason h = 0 ∧ t.halfState (!h) = s.halfState (!h) ∧ t.logs 0x0D 4 (if h then 1 else 0) ∧
      t.endedWith n Reg.mgmtCmdRes .ok ∧ t = { s with mgmt := t.mgmt, cmds := t.cmds, acc := t.acc, regs := t.regs } ∧
      s.SameRegs t ([Reg.mgmtStat, Reg.mgmtCmdRes, Reg.sysCmdStat] ++ logRegs)) ∧
  (∀ (s : State) (h : Bool),
    s.mgmtOn = true → s.halfState h = 1 → s.regsWf = true →
    ∃ t, exec (.halfHot h true) s = .next t ∧
      t.halfState h = 2 ∧ t.halfState (!h) = s.halfState (!h) ∧ t.mgmt = { s.mgmt with fresh := false } ∧
      t = { s with mgmt := t.mgmt, regs := t.regs } ∧ s.SameRegs t [Reg.mgmtStat]) ∧
  (∀ (s : State) (h : Bool),
    s.halfState h = 2 → s.mgmt.fresh = false → s.regsWf = true →
    ∃ t, exec (.halfHot h true) s = .next t ∧
      t = s) ∧
  (∀ (s : State) (h : Bool) (n : Nat),
    s.mgmtOn = true → (s.halfState h = 1 ∨ s.halfState h = 2) → s.soleCmd n Reg.mgmtCmdRes (.mgmtReturn (if h then 1 else 0)) = true →
    s.regsWf = true →
    ∃ t, exec (.halfHot h false) s = .next t ∧
      t.halfState h = 5 ∧ t.halfReason h = 3 ∧ t.halfState (!h) = s.halfState (!h) ∧ t.logs 0x0D 3 (if h then 1 else 0) ∧
      t.endedWith n Reg.mgmtCmdRes .outOfService ∧ t = { s with mgmt := t.mgmt, cmds := t.cmds, acc := t.acc, regs := t.regs } ∧
      s.SameRegs t ([Reg.mgmtStat, Reg.mgmtCmdRes, Reg.sysCmdStat] ++ logRegs)) ∧
  (∀ (s : State) (h ok : Bool),
    s.halfState h ≠ 1 → s.halfState h ≠ 2 → s.regsWf = true →
    ∃ t, exec (.halfHot h ok) s = .next t ∧
      t = s) ∧
  (∀ (s : State),
    s.halfRuns = true → s.fifo.diag.length < 4 → s.regsWf = true →
    ∃ t, exec .healthDiag s = .next t ∧
      t.fifo = { s.fifo with diag := t.fifo.diag } ∧ t.fifo.diag.dropLast = s.fifo.diag ∧
      (t.fifo.diag.getLast?.map (fun r => (r.ty, r.flags, r.len)) = some (0x0F, if s.mgmt.takeoverDiag then 8 else 0, 64)) ∧
      t.fifo.diag.getLast?.map (fun r => r.words.take 4) = some [0x01000000, s.mgmtStatWord, s.healthWord, s.reg Reg.mgmtDecOos] ∧
      t.fifo.diag.getLast?.map (fun r => r.words.drop 4) = some ([s.portOosWord 0, s.portOosWord 1, s.readyWord] ++ (List.range 8).map s.sensWord) ∧
      t.mgmt = { s.mgmt with takeoverDiag := false } ∧ t.freeCtr = s.freeCtr + 1 ∧
      t = { s with fifo := t.fifo, mgmt := t.mgmt, freeCtr := t.freeCtr }) ∧
  (∀ (s : State),
    s.halfRuns = true → s.mgmt.unsaved ≤ s.logQueued → s.regsWf = true →
    ∃ t, exec (.logBatch true) s = .next t ∧
      t = s) ∧
  (∀ (s : State) (n : Nat),
    s.halfRuns = true → n = min 128 (s.mgmt.unsaved - s.logQueued) → 0 < n → s.memp.queue.length + 8 ≤ 32 → s.memp.frozen = false →
    s.readDev = false → s.regsWf = true →
    ∃ t, exec (.logBatch true) s = .next t ∧
      t.logQueued = s.logQueued + n ∧
      t.memp.queue.take s.memp.queue.length = s.memp.queue ∧ t.memp.queue.length = s.memp.queue.length + (n + 15) / 16 ∧
      (∀ e ∈ t.memp.queue.drop s.memp.queue.length, e.level = 4 ∧ e.write = true) ∧ t.memp = { s.memp with queue := t.memp.queue } ∧
      t = { s with memp := t.memp, freeCtr := t.freeCtr }) ∧
  (∀ (s : State),
    s.halfRuns = true → s.regsWf = true →
    ∃ t, exec (.logBatch false) s = .next t ∧
      t.bit Reg.mgmtHealth 31 = true ∧ t = { s with regs := t.regs } ∧ s.SameRegs t [Reg.mgmtHealth]) ∧
  (∀ (s : State) (ok : Bool),
    s.halfRuns = false → s.regsWf = true →
    ∃ t, exec (.logBatch ok) s = .next t ∧
      t = s) ∧
  (∀ (s : State) (d : BitVec 4),
    d.toNat ≤ 12 → s.decOos d.toNat = false → s.mgmt.decBusy.contains d.toNat = false → s.cmds = [] → s.coreOn = true → s.regsWf = true →
    ∃ t, exec (.decoderSelftest d false) s = .next t ∧
      t.decOos d.toNat = true ∧ t.bit Reg.mgmtDecOos (16 + d.toNat) = true ∧ (∀ k < 13, k = d.toNat ∨ t.decOos k = s.decOos k) ∧
      t.ready (poolOf d.toNat).1 = (s.ready (poolOf d.toNat).1 && !(((poolOf d.toNat).2.filter (fun k => s.draft.any (fun x => x.struct_.decoders.contains k))).all t.decOos)) ∧
      (∀ k < 32, k = (poolOf d.toNat).1 ∨ t.ready k = s.ready k) ∧ t.bit Reg.sysIrqPend 8 = true ∧ t.logs 0x0B 1 (wordOf d.toNat) ∧
      t = { s with mgmt := t.mgmt, regs := t.regs } ∧ s.SameRegs t ([Reg.mgmtDecOos, Reg.sysReady] ++ logRegs)) ∧
  (∀ (s : State) (d : BitVec 4),
    s.cmds = [] → s.regsWf = true →
    ∃ t, exec (.decoderSelftest d true) s = .next t ∧
      t = s) ∧
  (∀ (s : State) (d : BitVec 4) (n : Nat),
    d.toNat ≤ 12 → s.soleCmd n Reg.mgmtDecRes (.decReturn d.toNat) = true → s.coreOn = true → s.regsWf = true →
    ∃ t, exec (.decoderSelftest d true) s = .next t ∧
      t.decOos d.toNat = false ∧ t.bit Reg.mgmtDecOos (16 + d.toNat) = false ∧ (∀ k < 13, k = d.toNat ∨ t.decOos k = s.decOos k) ∧
      t.logs 0x0B 2 (wordOf d.toNat) ∧
      t.ready (poolOf d.toNat).1 = (s.ready (poolOf d.toNat).1 || (s.ready rdDraft && s.expected (poolOf d.toNat).1)) ∧
      (∀ k < 32, k = (poolOf d.toNat).1 ∨ t.ready k = s.ready k) ∧ t.endedWith n Reg.mgmtDecRes .ok ∧
      t = { s with mgmt := t.mgmt, cmds := t.cmds, acc := t.acc, regs := t.regs } ∧
      s.SameRegs t ([Reg.mgmtDecOos, Reg.sysReady, Reg.mgmtDecRes, Reg.sysCmdStat] ++ logRegs)) ∧
  (∀ (s : State) (d : BitVec 4) (n : Nat),
    d.toNat ≤ 12 → s.soleCmd n Reg.mgmtDecRes (.decReturn d.toNat) = true → s.coreOn = true → s.regsWf = true →
    ∃ t, exec (.decoderSelftest d false) s = .next t ∧
      t.decOos d.toNat = true ∧ t.bit Reg.mgmtDecOos (16 + d.toNat) = true ∧ (∀ k < 13, k = d.toNat ∨ t.decOos k = s.decOos k) ∧
      t.ready (poolOf d.toNat).1 = (s.ready (poolOf d.toNat).1 && !(((poolOf d.toNat).2.filter (fun k => s.draft.any (fun x => x.struct_.decoders.contains k))).all t.decOos)) ∧
      (∀ k < 32, k = (poolOf d.toNat).1 ∨ t.ready k = s.ready k) ∧ t.endedWith n Reg.mgmtDecRes .outOfService ∧
      t = { s with cmds := t.cmds, acc := t.acc, regs := t.regs } ∧
      s.SameRegs t [Reg.mgmtDecOos, Reg.sysReady, Reg.mgmtDecRes, Reg.sysCmdStat]) ∧
  (∀ (s : State) (x : Draft),
    s.draft = some x → s.halfRuns = true → s.regsWf = true →
    ∃ t, exec .positionOffsetSave s = .next t ∧
      t.phiFlash = some (x.id, s.phi) ∧ s.taskAdded t (.offsets s.phiFlash) 0x1E00000 ∧
      t = { s with phiFlash := t.phiFlash, memp := t.memp, freeCtr := t.freeCtr })

end Slice0
end

