-- ==== Sys2Proof/Laws/Sparse.lean ====
section
/-! SUPPORT. Sparse maps: what a read gives after a write, and that a write, a filter and a fold keep the canonical form. -/
namespace Sys2Proof.Machine

variable {β : Type} {d : Nat → β}

/-- A write leaves every other key alone, whatever the list. -/
theorem sget_sput_other [DecidableEq β] (m : List (Nat × β)) {k j : Nat} (v : β) (h : j ≠ k) :
    sget d (sput d m k v) j = sget d m j := by
  induction m with
  | nil => by_cases hv : v = d k <;> simp [sput, sget, hv, Ne.symm h]
  | cons e r ih =>
    obtain ⟨a, w⟩ := e
    simp only [sput]
    split
    · split <;> simp [sget, Ne.symm h]
    · split
      · subst_vars
        split <;> simp [sget, Ne.symm h]
      · simp [sget, ih]

/-- Keys above every key bound read as unlisted. -/
theorem sget_of_swfFrom [DecidableEq β] (m : List (Nat × β)) {l k : Nat} (h : swfFrom d (some l) m = true) (hk : k ≤ l) :
    sget d m k = d k := by
  induction m generalizing l with
  | nil => rfl
  | cons e r ih =>
    obtain ⟨a, w⟩ := e
    simp only [swfFrom, Bool.and_eq_true, decide_eq_true_eq] at h
    have hak : a ≠ k := by omega
    simp only [sget, if_neg hak]
    exact ih h.2 (by omega)

/-- A write gives the value written, on a canonical list. -/
theorem sget_sput_from [DecidableEq β] (m : List (Nat × β)) {lo : Option Nat} (k : Nat) (v : β) (h : swfFrom d lo m = true) :
    sget d (sput d m k v) k = v := by
  induction m generalizing lo with
  | nil => by_cases hv : v = d k <;> simp [sput, sget, hv]
  | cons e r ih =>
    obtain ⟨a, w⟩ := e
    simp only [swfFrom, Bool.and_eq_true] at h
    simp only [sput]
    split
    · rename_i hka
      split
      · rename_i hv
        have hak : a ≠ k := by omega
        simp only [sget, if_neg hak]
        rw [sget_of_swfFrom r h.2 (by omega), hv]
      · simp [sget]
    · split
      · rename_i hka
        subst hka
        split
        · rename_i hv
          rw [sget_of_swfFrom r h.2 (Nat.le_refl _), hv]
        · simp [sget]
      · rename_i h1 h2
        have hak : a ≠ k := by omega
        simp only [sget, if_neg hak]
        exact ih h.2

/-- A write gives the value written (canonical lists). -/
theorem sget_sput_same [DecidableEq β] {m : List (Nat × β)} (h : swf d m = true) (k : Nat) (v : β) :
    sget d (sput d m k v) k = v := sget_sput_from m k v h

/-- The bound of a canonical list may be lowered. -/
theorem swfFrom_mono [DecidableEq β] {m : List (Nat × β)} {l l' : Nat} (h : swfFrom d (some l) m = true) (hl : l' ≤ l) :
    swfFrom d (some l') m = true := by
  cases m with
  | nil => rfl
  | cons e r =>
    obtain ⟨a, w⟩ := e
    simp only [swfFrom, Bool.and_eq_true, decide_eq_true_eq] at h ⊢
    exact ⟨⟨by omega, h.1.2⟩, h.2⟩

/-- The bound of a canonical list may be dropped. -/
theorem swfFrom_none [DecidableEq β] {m : List (Nat × β)} {lo : Option Nat} (h : swfFrom d lo m = true) : swfFrom d none m = true := by
  cases m with
  | nil => rfl
  | cons e r =>
    obtain ⟨a, w⟩ := e
    simp only [swfFrom, Bool.and_eq_true] at h ⊢
    exact ⟨⟨trivial, h.1.2⟩, h.2⟩

/-- A key is above a bound that may be absent. -/
def aboveLo (lo : Option Nat) (k : Nat) : Bool := match lo with | none => true | some l => decide (l < k)

/-- A write keeps the canonical form. -/
theorem swfFrom_sput [DecidableEq β] (m : List (Nat × β)) {lo : Option Nat} (k : Nat) (v : β) (hk : aboveLo lo k = true)
    (h : swfFrom d lo m = true) : swfFrom d lo (sput d m k v) = true := by
  induction m generalizing lo with
  | nil =>
    by_cases hv : v = d k
    · simp [sput, hv, swfFrom]
    · cases lo <;> simp_all [sput, swfFrom, aboveLo]
  | cons e r ih =>
    obtain ⟨a, w⟩ := e
    simp only [swfFrom, Bool.and_eq_true] at h
    obtain ⟨⟨h1, h2⟩, h3⟩ := h
    simp only [sput]
    split
    · split
      · simp only [swfFrom, Bool.and_eq_true]
        exact ⟨⟨h1, h2⟩, h3⟩
      · rename_i hka hv
        simp only [swfFrom, Bool.and_eq_true, decide_eq_true_eq]
        exact ⟨⟨hk, by simpa using hv⟩, ⟨by omega, h2⟩, h3⟩
    · split
      · rename_i hka
        subst hka
        split
        · cases lo with
          | none => exact swfFrom_none h3
          | some l =>
            simp only [aboveLo, decide_eq_true_eq] at hk
            exact swfFrom_mono h3 (by omega)
        · rename_i hv
          simp only [swfFrom, Bool.and_eq_true]
          exact ⟨⟨h1, by simpa using hv⟩, h3⟩
      · rename_i hk1 hk2
        simp only [swfFrom, Bool.and_eq_true]
        exact ⟨⟨h1, h2⟩, ih (by simp only [aboveLo, decide_eq_true_eq]; omega) h3⟩

/-- A write keeps the canonical form. -/
theorem swf_sput [DecidableEq β] {m : List (Nat × β)} (h : swf d m = true) (k : Nat) (v : β) : swf d (sput d m k v) = true :=
  swfFrom_sput m k v rfl h

/-- A list without some of its entries is canonical if the list is. -/
theorem swfFrom_filter [DecidableEq β] (p : Nat × β → Bool) (m : List (Nat × β)) {lo : Option Nat} (h : swfFrom d lo m = true) :
    swfFrom d lo (m.filter p) = true := by
  induction m generalizing lo with
  | nil => rfl
  | cons e r ih =>
    obtain ⟨a, w⟩ := e
    simp only [swfFrom, Bool.and_eq_true] at h
    obtain ⟨⟨h1, h2⟩, h3⟩ := h
    by_cases hp : p (a, w) = true
    · rw [List.filter_cons_of_pos hp]
      simp only [swfFrom, Bool.and_eq_true]
      exact ⟨⟨h1, h2⟩, ih h3⟩
    · rw [List.filter_cons_of_neg hp]
      cases lo with
      | none => exact swfFrom_none (ih h3)
      | some l =>
        simp only [decide_eq_true_eq] at h1
        exact swfFrom_mono (ih h3) (by omega)

/-- A list without some of its entries is canonical if the list is. -/
theorem swf_filter [DecidableEq β] (p : Nat × β → Bool) {m : List (Nat × β)} (h : swf d m = true) : swf d (m.filter p) = true :=
  swfFrom_filter p m h

/-- Erasing keys keeps the canonical form. -/
theorem swf_serase [DecidableEq β] (p : Nat → Bool) {m : List (Nat × β)} (h : swf d m = true) : swf d (serase p m) = true :=
  swf_filter _ h

/-- Values replaced by values that are not the default keep the canonical form. -/
theorem swfFrom_map [DecidableEq β] (f : β → β) (hf : ∀ k v, v ≠ d k → f v ≠ d k) (m : List (Nat × β)) {lo : Option Nat}
    (h : swfFrom d lo m = true) : swfFrom d lo (m.map (fun e => (e.1, f e.2))) = true := by
  induction m generalizing lo with
  | nil => rfl
  | cons e r ih =>
    obtain ⟨a, w⟩ := e
    simp only [swfFrom, Bool.and_eq_true, Bool.not_eq_true', decide_eq_false_iff_not] at h
    obtain ⟨⟨h1, h2⟩, h3⟩ := h
    simp only [List.map_cons, swfFrom, Bool.and_eq_true, Bool.not_eq_true', decide_eq_false_iff_not]
    exact ⟨⟨h1, hf a w h2⟩, ih h3⟩

/-- Values replaced, and those dropped that became the default, keep the canonical form. -/
theorem swfFrom_mapFilter [DecidableEq β] (f : β → β) (p : Nat × β → Bool) (hp : ∀ k v, p (k, v) = true → v ≠ d k) (m : List (Nat × β))
    {lo : Option Nat} (h : swfFrom d lo m = true) : swfFrom d lo ((m.map (fun e => (e.1, f e.2))).filter p) = true := by
  induction m generalizing lo with
  | nil => rfl
  | cons e r ih =>
    obtain ⟨a, w⟩ := e
    simp only [swfFrom, Bool.and_eq_true] at h
    obtain ⟨⟨h1, h2⟩, h3⟩ := h
    by_cases hq : p (a, f w) = true
    · rw [List.map_cons, List.filter_cons_of_pos hq]
      simp only [swfFrom, Bool.and_eq_true, Bool.not_eq_true', decide_eq_false_iff_not]
      exact ⟨⟨h1, hp _ _ hq⟩, ih h3⟩
    · rw [List.map_cons, List.filter_cons_of_neg hq]
      cases lo with
      | none => exact swfFrom_none (ih h3)
      | some l =>
        simp only [decide_eq_true_eq] at h1
        exact swfFrom_mono (ih h3) (by omega)

/-- A fold of writes keeps the canonical form. -/
theorem swf_foldl [DecidableEq β] {α : Type} (f : List (Nat × β) → α → List (Nat × β))
    (hf : ∀ m e, swf d m = true → swf d (f m e) = true) (l : List α) {m : List (Nat × β)} (h : swf d m = true) :
    swf d (l.foldl f m) = true := by
  induction l generalizing m with
  | nil => exact h
  | cons e r ih => exact ih (hf m e h)

end Sys2Proof.Machine
end

