-- ==== Sys2Proof/Laws/State.lean ====
section
/-! SUPPORT. The named updates of the state, field by field: what a register write, or a change of an illuminator, chain, beam or round,
leaves as it was. Each is true by unfolding the update once; no later proof unfolds a record update. -/
namespace Sys2Proof.Machine

/-! ## setReg -/

@[simp] theorem State.setReg_phase (s : State) (a : Nat) (w : Word) : (s.setReg a w).phase = s.phase := rfl
@[simp] theorem State.setReg_resets (s : State) (a : Nat) (w : Word) : (s.setReg a w).resets = s.resets := rfl
@[simp] theorem State.setReg_thermHold (s : State) (a : Nat) (w : Word) : (s.setReg a w).thermHold = s.thermHold := rfl
@[simp] theorem State.setReg_freeCtr (s : State) (a : Nat) (w : Word) : (s.setReg a w).freeCtr = s.freeCtr := rfl
@[simp] theorem State.setReg_timeBase (s : State) (a : Nat) (w : Word) : (s.setReg a w).timeBase = s.timeBase := rfl
@[simp] theorem State.setReg_up (s : State) (a : Nat) (w : Word) : (s.setReg a w).up = s.up := rfl
@[simp] theorem State.setReg_aoFrac (s : State) (a : Nat) (w : Word) : (s.setReg a w).aoFrac = s.aoFrac := rfl
@[simp] theorem State.setReg_board (s : State) (a : Nat) (w : Word) : (s.setReg a w).board = s.board := rfl
@[simp] theorem State.setReg_lands (s : State) (a : Nat) (w : Word) : (s.setReg a w).lands = s.lands := rfl
@[simp] theorem State.setReg_bscan (s : State) (a : Nat) (w : Word) : (s.setReg a w).bscan = s.bscan := rfl
@[simp] theorem State.setReg_tap (s : State) (a : Nat) (w : Word) : (s.setReg a w).tap = s.tap := rfl
@[simp] theorem State.setReg_latches (s : State) (a : Nat) (w : Word) : (s.setReg a w).latches = s.latches := rfl
@[simp] theorem State.setReg_staging (s : State) (a : Nat) (w : Word) : (s.setReg a w).staging = s.staging := rfl
@[simp] theorem State.setReg_hp (s : State) (a : Nat) (w : Word) : (s.setReg a w).hp = s.hp := rfl
@[simp] theorem State.setReg_cmds (s : State) (a : Nat) (w : Word) : (s.setReg a w).cmds = s.cmds := rfl
@[simp] theorem State.setReg_hostNext (s : State) (a : Nat) (w : Word) : (s.setReg a w).hostNext = s.hostNext := rfl
@[simp] theorem State.setReg_hostWrap (s : State) (a : Nat) (w : Word) : (s.setReg a w).hostWrap = s.hostWrap := rfl
@[simp] theorem State.setReg_schedNext (s : State) (a : Nat) (w : Word) : (s.setReg a w).schedNext = s.schedNext := rfl
@[simp] theorem State.setReg_schedWrap (s : State) (a : Nat) (w : Word) : (s.setReg a w).schedWrap = s.schedWrap := rfl
@[simp] theorem State.setReg_abortedEnded (s : State) (a : Nat) (w : Word) : (s.setReg a w).abortedEnded = s.abortedEnded := rfl
@[simp] theorem State.setReg_acc (s : State) (a : Nat) (w : Word) : (s.setReg a w).acc = s.acc := rfl
@[simp] theorem State.setReg_fifo (s : State) (a : Nat) (w : Word) : (s.setReg a w).fifo = s.fifo := rfl
@[simp] theorem State.setReg_txc (s : State) (a : Nat) (w : Word) : (s.setReg a w).txc = s.txc := rfl
@[simp] theorem State.setReg_chains (s : State) (a : Nat) (w : Word) : (s.setReg a w).chains = s.chains := rfl
@[simp] theorem State.setReg_beams (s : State) (a : Nat) (w : Word) : (s.setReg a w).beams = s.beams := rfl
@[simp] theorem State.setReg_crcQ (s : State) (a : Nat) (w : Word) : (s.setReg a w).crcQ = s.crcQ := rfl
@[simp] theorem State.setReg_phi (s : State) (a : Nat) (w : Word) : (s.setReg a w).phi = s.phi := rfl
@[simp] theorem State.setReg_refAt (s : State) (a : Nat) (w : Word) : (s.setReg a w).refAt = s.refAt := rfl
@[simp] theorem State.setReg_phiFlash (s : State) (a : Nat) (w : Word) : (s.setReg a w).phiFlash = s.phiFlash := rfl
@[simp] theorem State.setReg_seeds (s : State) (a : Nat) (w : Word) : (s.setReg a w).seeds = s.seeds := rfl
@[simp] theorem State.setReg_seedWt (s : State) (a : Nat) (w : Word) : (s.setReg a w).seedWt = s.seedWt := rfl
@[simp] theorem State.setReg_unusable (s : State) (a : Nat) (w : Word) : (s.setReg a w).unusable = s.unusable := rfl
@[simp] theorem State.setReg_wts (s : State) (a : Nat) (w : Word) : (s.setReg a w).wts = s.wts := rfl
@[simp] theorem State.setReg_divAt (s : State) (a : Nat) (w : Word) : (s.setReg a w).divAt = s.divAt := rfl
@[simp] theorem State.setReg_calNext (s : State) (a : Nat) (w : Word) : (s.setReg a w).calNext = s.calNext := rfl
@[simp] theorem State.setReg_chanOff (s : State) (a : Nat) (w : Word) : (s.setReg a w).chanOff = s.chanOff := rfl
@[simp] theorem State.setReg_airLog (s : State) (a : Nat) (w : Word) : (s.setReg a w).airLog = s.airLog := rfl
@[simp] theorem State.setReg_hopPos (s : State) (a : Nat) (w : Word) : (s.setReg a w).hopPos = s.hopPos := rfl
@[simp] theorem State.setReg_rounds (s : State) (a : Nat) (w : Word) : (s.setReg a w).rounds = s.rounds := rfl
@[simp] theorem State.setReg_dueAt (s : State) (a : Nat) (w : Word) : (s.setReg a w).dueAt = s.dueAt := rfl
@[simp] theorem State.setReg_cands (s : State) (a : Nat) (w : Word) : (s.setReg a w).cands = s.cands := rfl
@[simp] theorem State.setReg_shed (s : State) (a : Nat) (w : Word) : (s.setReg a w).shed = s.shed := rfl
@[simp] theorem State.setReg_coal (s : State) (a : Nat) (w : Word) : (s.setReg a w).coal = s.coal := rfl
@[simp] theorem State.setReg_seen (s : State) (a : Nat) (w : Word) : (s.setReg a w).seen = s.seen := rfl
@[simp] theorem State.setReg_seenWb (s : State) (a : Nat) (w : Word) : (s.setReg a w).seenWb = s.seenWb := rfl
@[simp] theorem State.setReg_pop (s : State) (a : Nat) (w : Word) : (s.setReg a w).pop = s.pop := rfl
@[simp] theorem State.setReg_fetches (s : State) (a : Nat) (w : Word) : (s.setReg a w).fetches = s.fetches := rfl
@[simp] theorem State.setReg_umTags (s : State) (a : Nat) (w : Word) : (s.setReg a w).umTags = s.umTags := rfl
@[simp] theorem State.setReg_umDiag (s : State) (a : Nat) (w : Word) : (s.setReg a w).umDiag = s.umDiag := rfl
@[simp] theorem State.setReg_quar (s : State) (a : Nat) (w : Word) : (s.setReg a w).quar = s.quar := rfl
@[simp] theorem State.setReg_peer (s : State) (a : Nat) (w : Word) : (s.setReg a w).peer = s.peer := rfl
@[simp] theorem State.setReg_crcHost (s : State) (a : Nat) (w : Word) : (s.setReg a w).crcHost = s.crcHost := rfl
@[simp] theorem State.setReg_tag (s : State) (a : Nat) (w : Word) : (s.setReg a w).tag = s.tag := rfl
@[simp] theorem State.setReg_ping (s : State) (a : Nat) (w : Word) : (s.setReg a w).ping = s.ping := rfl
@[simp] theorem State.setReg_tal (s : State) (a : Nat) (w : Word) : (s.setReg a w).tal = s.tal := rfl
@[simp] theorem State.setReg_die (s : State) (a : Nat) (w : Word) : (s.setReg a w).die = s.die := rfl
@[simp] theorem State.setReg_memp (s : State) (a : Nat) (w : Word) : (s.setReg a w).memp = s.memp := rfl
@[simp] theorem State.setReg_mgmt (s : State) (a : Nat) (w : Word) : (s.setReg a w).mgmt = s.mgmt := rfl
@[simp] theorem State.setReg_upd (s : State) (a : Nat) (w : Word) : (s.setReg a w).upd = s.upd := rfl
@[simp] theorem State.setReg_wakes (s : State) (a : Nat) (w : Word) : (s.setReg a w).wakes = s.wakes := rfl
@[simp] theorem State.setReg_wakeAt (s : State) (a : Nat) (w : Word) : (s.setReg a w).wakeAt = s.wakeAt := rfl
@[simp] theorem State.setReg_hot (s : State) (a : Nat) (w : Word) : (s.setReg a w).hot = s.hot := rfl
@[simp] theorem State.setReg_hotOut (s : State) (a : Nat) (w : Word) : (s.setReg a w).hotOut = s.hotOut := rfl
@[simp] theorem State.setReg_hotRead (s : State) (a : Nat) (w : Word) : (s.setReg a w).hotRead = s.hotRead := rfl
@[simp] theorem State.setReg_broughtUp (s : State) (a : Nat) (w : Word) : (s.setReg a w).broughtUp = s.broughtUp := rfl
@[simp] theorem State.setReg_tdo (s : State) (a : Nat) (w : Word) : (s.setReg a w).tdo = s.tdo := rfl
@[simp] theorem State.setReg_pending (s : State) (a : Nat) (w : Word) : (s.setReg a w).pending = s.pending := rfl

/-! ## setFld -/

@[simp] theorem State.setFld_phase (s : State) (a lo n v : Nat) : (s.setFld a lo n v).phase = s.phase := rfl
@[simp] theorem State.setFld_resets (s : State) (a lo n v : Nat) : (s.setFld a lo n v).resets = s.resets := rfl
@[simp] theorem State.setFld_thermHold (s : State) (a lo n v : Nat) : (s.setFld a lo n v).thermHold = s.thermHold := rfl
@[simp] theorem State.setFld_freeCtr (s : State) (a lo n v : Nat) : (s.setFld a lo n v).freeCtr = s.freeCtr := rfl
@[simp] theorem State.setFld_timeBase (s : State) (a lo n v : Nat) : (s.setFld a lo n v).timeBase = s.timeBase := rfl
@[simp] theorem State.setFld_up (s : State) (a lo n v : Nat) : (s.setFld a lo n v).up = s.up := rfl
@[simp] theorem State.setFld_aoFrac (s : State) (a lo n v : Nat) : (s.setFld a lo n v).aoFrac = s.aoFrac := rfl
@[simp] theorem State.setFld_board (s : State) (a lo n v : Nat) : (s.setFld a lo n v).board = s.board := rfl
@[simp] theorem State.setFld_lands (s : State) (a lo n v : Nat) : (s.setFld a lo n v).lands = s.lands := rfl
@[simp] theorem State.setFld_bscan (s : State) (a lo n v : Nat) : (s.setFld a lo n v).bscan = s.bscan := rfl
@[simp] theorem State.setFld_tap (s : State) (a lo n v : Nat) : (s.setFld a lo n v).tap = s.tap := rfl
@[simp] theorem State.setFld_latches (s : State) (a lo n v : Nat) : (s.setFld a lo n v).latches = s.latches := rfl
@[simp] theorem State.setFld_staging (s : State) (a lo n v : Nat) : (s.setFld a lo n v).staging = s.staging := rfl
@[simp] theorem State.setFld_hp (s : State) (a lo n v : Nat) : (s.setFld a lo n v).hp = s.hp := rfl
@[simp] theorem State.setFld_cmds (s : State) (a lo n v : Nat) : (s.setFld a lo n v).cmds = s.cmds := rfl
@[simp] theorem State.setFld_hostNext (s : State) (a lo n v : Nat) : (s.setFld a lo n v).hostNext = s.hostNext := rfl
@[simp] theorem State.setFld_hostWrap (s : State) (a lo n v : Nat) : (s.setFld a lo n v).hostWrap = s.hostWrap := rfl
@[simp] theorem State.setFld_schedNext (s : State) (a lo n v : Nat) : (s.setFld a lo n v).schedNext = s.schedNext := rfl
@[simp] theorem State.setFld_schedWrap (s : State) (a lo n v : Nat) : (s.setFld a lo n v).schedWrap = s.schedWrap := rfl
@[simp] theorem State.setFld_abortedEnded (s : State) (a lo n v : Nat) : (s.setFld a lo n v).abortedEnded = s.abortedEnded := rfl
@[simp] theorem State.setFld_acc (s : State) (a lo n v : Nat) : (s.setFld a lo n v).acc = s.acc := rfl
@[simp] theorem State.setFld_fifo (s : State) (a lo n v : Nat) : (s.setFld a lo n v).fifo = s.fifo := rfl
@[simp] theorem State.setFld_txc (s : State) (a lo n v : Nat) : (s.setFld a lo n v).txc = s.txc := rfl
@[simp] theorem State.setFld_chains (s : State) (a lo n v : Nat) : (s.setFld a lo n v).chains = s.chains := rfl
@[simp] theorem State.setFld_beams (s : State) (a lo n v : Nat) : (s.setFld a lo n v).beams = s.beams := rfl
@[simp] theorem State.setFld_crcQ (s : State) (a lo n v : Nat) : (s.setFld a lo n v).crcQ = s.crcQ := rfl
@[simp] theorem State.setFld_phi (s : State) (a lo n v : Nat) : (s.setFld a lo n v).phi = s.phi := rfl
@[simp] theorem State.setFld_refAt (s : State) (a lo n v : Nat) : (s.setFld a lo n v).refAt = s.refAt := rfl
@[simp] theorem State.setFld_phiFlash (s : State) (a lo n v : Nat) : (s.setFld a lo n v).phiFlash = s.phiFlash := rfl
@[simp] theorem State.setFld_seeds (s : State) (a lo n v : Nat) : (s.setFld a lo n v).seeds = s.seeds := rfl
@[simp] theorem State.setFld_seedWt (s : State) (a lo n v : Nat) : (s.setFld a lo n v).seedWt = s.seedWt := rfl
@[simp] theorem State.setFld_unusable (s : State) (a lo n v : Nat) : (s.setFld a lo n v).unusable = s.unusable := rfl
@[simp] theorem State.setFld_wts (s : State) (a lo n v : Nat) : (s.setFld a lo n v).wts = s.wts := rfl
@[simp] theorem State.setFld_divAt (s : State) (a lo n v : Nat) : (s.setFld a lo n v).divAt = s.divAt := rfl
@[simp] theorem State.setFld_calNext (s : State) (a lo n v : Nat) : (s.setFld a lo n v).calNext = s.calNext := rfl
@[simp] theorem State.setFld_chanOff (s : State) (a lo n v : Nat) : (s.setFld a lo n v).chanOff = s.chanOff := rfl
@[simp] theorem State.setFld_airLog (s : State) (a lo n v : Nat) : (s.setFld a lo n v).airLog = s.airLog := rfl
@[simp] theorem State.setFld_hopPos (s : State) (a lo n v : Nat) : (s.setFld a lo n v).hopPos = s.hopPos := rfl
@[simp] theorem State.setFld_rounds (s : State) (a lo n v : Nat) : (s.setFld a lo n v).rounds = s.rounds := rfl
@[simp] theorem State.setFld_dueAt (s : State) (a lo n v : Nat) : (s.setFld a lo n v).dueAt = s.dueAt := rfl
@[simp] theorem State.setFld_cands (s : State) (a lo n v : Nat) : (s.setFld a lo n v).cands = s.cands := rfl
@[simp] theorem State.setFld_shed (s : State) (a lo n v : Nat) : (s.setFld a lo n v).shed = s.shed := rfl
@[simp] theorem State.setFld_coal (s : State) (a lo n v : Nat) : (s.setFld a lo n v).coal = s.coal := rfl
@[simp] theorem State.setFld_seen (s : State) (a lo n v : Nat) : (s.setFld a lo n v).seen = s.seen := rfl
@[simp] theorem State.setFld_seenWb (s : State) (a lo n v : Nat) : (s.setFld a lo n v).seenWb = s.seenWb := rfl
@[simp] theorem State.setFld_pop (s : State) (a lo n v : Nat) : (s.setFld a lo n v).pop = s.pop := rfl
@[simp] theorem State.setFld_fetches (s : State) (a lo n v : Nat) : (s.setFld a lo n v).fetches = s.fetches := rfl
@[simp] theorem State.setFld_umTags (s : State) (a lo n v : Nat) : (s.setFld a lo n v).umTags = s.umTags := rfl
@[simp] theorem State.setFld_umDiag (s : State) (a lo n v : Nat) : (s.setFld a lo n v).umDiag = s.umDiag := rfl
@[simp] theorem State.setFld_quar (s : State) (a lo n v : Nat) : (s.setFld a lo n v).quar = s.quar := rfl
@[simp] theorem State.setFld_peer (s : State) (a lo n v : Nat) : (s.setFld a lo n v).peer = s.peer := rfl
@[simp] theorem State.setFld_crcHost (s : State) (a lo n v : Nat) : (s.setFld a lo n v).crcHost = s.crcHost := rfl
@[simp] theorem State.setFld_tag (s : State) (a lo n v : Nat) : (s.setFld a lo n v).tag = s.tag := rfl
@[simp] theorem State.setFld_ping (s : State) (a lo n v : Nat) : (s.setFld a lo n v).ping = s.ping := rfl
@[simp] theorem State.setFld_tal (s : State) (a lo n v : Nat) : (s.setFld a lo n v).tal = s.tal := rfl
@[simp] theorem State.setFld_die (s : State) (a lo n v : Nat) : (s.setFld a lo n v).die = s.die := rfl
@[simp] theorem State.setFld_memp (s : State) (a lo n v : Nat) : (s.setFld a lo n v).memp = s.memp := rfl
@[simp] theorem State.setFld_mgmt (s : State) (a lo n v : Nat) : (s.setFld a lo n v).mgmt = s.mgmt := rfl
@[simp] theorem State.setFld_upd (s : State) (a lo n v : Nat) : (s.setFld a lo n v).upd = s.upd := rfl
@[simp] theorem State.setFld_wakes (s : State) (a lo n v : Nat) : (s.setFld a lo n v).wakes = s.wakes := rfl
@[simp] theorem State.setFld_wakeAt (s : State) (a lo n v : Nat) : (s.setFld a lo n v).wakeAt = s.wakeAt := rfl
@[simp] theorem State.setFld_hot (s : State) (a lo n v : Nat) : (s.setFld a lo n v).hot = s.hot := rfl
@[simp] theorem State.setFld_hotOut (s : State) (a lo n v : Nat) : (s.setFld a lo n v).hotOut = s.hotOut := rfl
@[simp] theorem State.setFld_hotRead (s : State) (a lo n v : Nat) : (s.setFld a lo n v).hotRead = s.hotRead := rfl
@[simp] theorem State.setFld_broughtUp (s : State) (a lo n v : Nat) : (s.setFld a lo n v).broughtUp = s.broughtUp := rfl
@[simp] theorem State.setFld_tdo (s : State) (a lo n v : Nat) : (s.setFld a lo n v).tdo = s.tdo := rfl
@[simp] theorem State.setFld_pending (s : State) (a lo n v : Nat) : (s.setFld a lo n v).pending = s.pending := rfl

/-! ## setBit -/

@[simp] theorem State.setBit_phase (s : State) (a b : Nat) (v : Bool) : (s.setBit a b v).phase = s.phase := rfl
@[simp] theorem State.setBit_resets (s : State) (a b : Nat) (v : Bool) : (s.setBit a b v).resets = s.resets := rfl
@[simp] theorem State.setBit_thermHold (s : State) (a b : Nat) (v : Bool) : (s.setBit a b v).thermHold = s.thermHold := rfl
@[simp] theorem State.setBit_freeCtr (s : State) (a b : Nat) (v : Bool) : (s.setBit a b v).freeCtr = s.freeCtr := rfl
@[simp] theorem State.setBit_timeBase (s : State) (a b : Nat) (v : Bool) : (s.setBit a b v).timeBase = s.timeBase := rfl
@[simp] theorem State.setBit_up (s : State) (a b : Nat) (v : Bool) : (s.setBit a b v).up = s.up := rfl
@[simp] theorem State.setBit_aoFrac (s : State) (a b : Nat) (v : Bool) : (s.setBit a b v).aoFrac = s.aoFrac := rfl
@[simp] theorem State.setBit_board (s : State) (a b : Nat) (v : Bool) : (s.setBit a b v).board = s.board := rfl
@[simp] theorem State.setBit_lands (s : State) (a b : Nat) (v : Bool) : (s.setBit a b v).lands = s.lands := rfl
@[simp] theorem State.setBit_bscan (s : State) (a b : Nat) (v : Bool) : (s.setBit a b v).bscan = s.bscan := rfl
@[simp] theorem State.setBit_tap (s : State) (a b : Nat) (v : Bool) : (s.setBit a b v).tap = s.tap := rfl
@[simp] theorem State.setBit_latches (s : State) (a b : Nat) (v : Bool) : (s.setBit a b v).latches = s.latches := rfl
@[simp] theorem State.setBit_staging (s : State) (a b : Nat) (v : Bool) : (s.setBit a b v).staging = s.staging := rfl
@[simp] theorem State.setBit_hp (s : State) (a b : Nat) (v : Bool) : (s.setBit a b v).hp = s.hp := rfl
@[simp] theorem State.setBit_cmds (s : State) (a b : Nat) (v : Bool) : (s.setBit a b v).cmds = s.cmds := rfl
@[simp] theorem State.setBit_hostNext (s : State) (a b : Nat) (v : Bool) : (s.setBit a b v).hostNext = s.hostNext := rfl
@[simp] theorem State.setBit_hostWrap (s : State) (a b : Nat) (v : Bool) : (s.setBit a b v).hostWrap = s.hostWrap := rfl
@[simp] theorem State.setBit_schedNext (s : State) (a b : Nat) (v : Bool) : (s.setBit a b v).schedNext = s.schedNext := rfl
@[simp] theorem State.setBit_schedWrap (s : State) (a b : Nat) (v : Bool) : (s.setBit a b v).schedWrap = s.schedWrap := rfl
@[simp] theorem State.setBit_abortedEnded (s : State) (a b : Nat) (v : Bool) : (s.setBit a b v).abortedEnded = s.abortedEnded := rfl
@[simp] theorem State.setBit_acc (s : State) (a b : Nat) (v : Bool) : (s.setBit a b v).acc = s.acc := rfl
@[simp] theorem State.setBit_fifo (s : State) (a b : Nat) (v : Bool) : (s.setBit a b v).fifo = s.fifo := rfl
@[simp] theorem State.setBit_txc (s : State) (a b : Nat) (v : Bool) : (s.setBit a b v).txc = s.txc := rfl
@[simp] theorem State.setBit_chains (s : State) (a b : Nat) (v : Bool) : (s.setBit a b v).chains = s.chains := rfl
@[simp] theorem State.setBit_beams (s : State) (a b : Nat) (v : Bool) : (s.setBit a b v).beams = s.beams := rfl
@[simp] theorem State.setBit_crcQ (s : State) (a b : Nat) (v : Bool) : (s.setBit a b v).crcQ = s.crcQ := rfl
@[simp] theorem State.setBit_phi (s : State) (a b : Nat) (v : Bool) : (s.setBit a b v).phi = s.phi := rfl
@[simp] theorem State.setBit_refAt (s : State) (a b : Nat) (v : Bool) : (s.setBit a b v).refAt = s.refAt := rfl
@[simp] theorem State.setBit_phiFlash (s : State) (a b : Nat) (v : Bool) : (s.setBit a b v).phiFlash = s.phiFlash := rfl
@[simp] theorem State.setBit_seeds (s : State) (a b : Nat) (v : Bool) : (s.setBit a b v).seeds = s.seeds := rfl
@[simp] theorem State.setBit_seedWt (s : State) (a b : Nat) (v : Bool) : (s.setBit a b v).seedWt = s.seedWt := rfl
@[simp] theorem State.setBit_unusable (s : State) (a b : Nat) (v : Bool) : (s.setBit a b v).unusable = s.unusable := rfl
@[simp] theorem State.setBit_wts (s : State) (a b : Nat) (v : Bool) : (s.setBit a b v).wts = s.wts := rfl
@[simp] theorem State.setBit_divAt (s : State) (a b : Nat) (v : Bool) : (s.setBit a b v).divAt = s.divAt := rfl
@[simp] theorem State.setBit_calNext (s : State) (a b : Nat) (v : Bool) : (s.setBit a b v).calNext = s.calNext := rfl
@[simp] theorem State.setBit_chanOff (s : State) (a b : Nat) (v : Bool) : (s.setBit a b v).chanOff = s.chanOff := rfl
@[simp] theorem State.setBit_airLog (s : State) (a b : Nat) (v : Bool) : (s.setBit a b v).airLog = s.airLog := rfl
@[simp] theorem State.setBit_hopPos (s : State) (a b : Nat) (v : Bool) : (s.setBit a b v).hopPos = s.hopPos := rfl
@[simp] theorem State.setBit_rounds (s : State) (a b : Nat) (v : Bool) : (s.setBit a b v).rounds = s.rounds := rfl
@[simp] theorem State.setBit_dueAt (s : State) (a b : Nat) (v : Bool) : (s.setBit a b v).dueAt = s.dueAt := rfl
@[simp] theorem State.setBit_cands (s : State) (a b : Nat) (v : Bool) : (s.setBit a b v).cands = s.cands := rfl
@[simp] theorem State.setBit_shed (s : State) (a b : Nat) (v : Bool) : (s.setBit a b v).shed = s.shed := rfl
@[simp] theorem State.setBit_coal (s : State) (a b : Nat) (v : Bool) : (s.setBit a b v).coal = s.coal := rfl
@[simp] theorem State.setBit_seen (s : State) (a b : Nat) (v : Bool) : (s.setBit a b v).seen = s.seen := rfl
@[simp] theorem State.setBit_seenWb (s : State) (a b : Nat) (v : Bool) : (s.setBit a b v).seenWb = s.seenWb := rfl
@[simp] theorem State.setBit_pop (s : State) (a b : Nat) (v : Bool) : (s.setBit a b v).pop = s.pop := rfl
@[simp] theorem State.setBit_fetches (s : State) (a b : Nat) (v : Bool) : (s.setBit a b v).fetches = s.fetches := rfl
@[simp] theorem State.setBit_umTags (s : State) (a b : Nat) (v : Bool) : (s.setBit a b v).umTags = s.umTags := rfl
@[simp] theorem State.setBit_umDiag (s : State) (a b : Nat) (v : Bool) : (s.setBit a b v).umDiag = s.umDiag := rfl
@[simp] theorem State.setBit_quar (s : State) (a b : Nat) (v : Bool) : (s.setBit a b v).quar = s.quar := rfl
@[simp] theorem State.setBit_peer (s : State) (a b : Nat) (v : Bool) : (s.setBit a b v).peer = s.peer := rfl
@[simp] theorem State.setBit_crcHost (s : State) (a b : Nat) (v : Bool) : (s.setBit a b v).crcHost = s.crcHost := rfl
@[simp] theorem State.setBit_tag (s : State) (a b : Nat) (v : Bool) : (s.setBit a b v).tag = s.tag := rfl
@[simp] theorem State.setBit_ping (s : State) (a b : Nat) (v : Bool) : (s.setBit a b v).ping = s.ping := rfl
@[simp] theorem State.setBit_tal (s : State) (a b : Nat) (v : Bool) : (s.setBit a b v).tal = s.tal := rfl
@[simp] theorem State.setBit_die (s : State) (a b : Nat) (v : Bool) : (s.setBit a b v).die = s.die := rfl
@[simp] theorem State.setBit_memp (s : State) (a b : Nat) (v : Bool) : (s.setBit a b v).memp = s.memp := rfl
@[simp] theorem State.setBit_mgmt (s : State) (a b : Nat) (v : Bool) : (s.setBit a b v).mgmt = s.mgmt := rfl
@[simp] theorem State.setBit_upd (s : State) (a b : Nat) (v : Bool) : (s.setBit a b v).upd = s.upd := rfl
@[simp] theorem State.setBit_wakes (s : State) (a b : Nat) (v : Bool) : (s.setBit a b v).wakes = s.wakes := rfl
@[simp] theorem State.setBit_wakeAt (s : State) (a b : Nat) (v : Bool) : (s.setBit a b v).wakeAt = s.wakeAt := rfl
@[simp] theorem State.setBit_hot (s : State) (a b : Nat) (v : Bool) : (s.setBit a b v).hot = s.hot := rfl
@[simp] theorem State.setBit_hotOut (s : State) (a b : Nat) (v : Bool) : (s.setBit a b v).hotOut = s.hotOut := rfl
@[simp] theorem State.setBit_hotRead (s : State) (a b : Nat) (v : Bool) : (s.setBit a b v).hotRead = s.hotRead := rfl
@[simp] theorem State.setBit_broughtUp (s : State) (a b : Nat) (v : Bool) : (s.setBit a b v).broughtUp = s.broughtUp := rfl
@[simp] theorem State.setBit_tdo (s : State) (a b : Nat) (v : Bool) : (s.setBit a b v).tdo = s.tdo := rfl
@[simp] theorem State.setBit_pending (s : State) (a b : Nat) (v : Bool) : (s.setBit a b v).pending = s.pending := rfl

/-! ## addCnt -/

@[simp] theorem State.addCnt_phase (s : State) (a k : Nat) : (s.addCnt a k).phase = s.phase := rfl
@[simp] theorem State.addCnt_resets (s : State) (a k : Nat) : (s.addCnt a k).resets = s.resets := rfl
@[simp] theorem State.addCnt_thermHold (s : State) (a k : Nat) : (s.addCnt a k).thermHold = s.thermHold := rfl
@[simp] theorem State.addCnt_freeCtr (s : State) (a k : Nat) : (s.addCnt a k).freeCtr = s.freeCtr := rfl
@[simp] theorem State.addCnt_timeBase (s : State) (a k : Nat) : (s.addCnt a k).timeBase = s.timeBase := rfl
@[simp] theorem State.addCnt_up (s : State) (a k : Nat) : (s.addCnt a k).up = s.up := rfl
@[simp] theorem State.addCnt_aoFrac (s : State) (a k : Nat) : (s.addCnt a k).aoFrac = s.aoFrac := rfl
@[simp] theorem State.addCnt_board (s : State) (a k : Nat) : (s.addCnt a k).board = s.board := rfl
@[simp] theorem State.addCnt_lands (s : State) (a k : Nat) : (s.addCnt a k).lands = s.lands := rfl
@[simp] theorem State.addCnt_bscan (s : State) (a k : Nat) : (s.addCnt a k).bscan = s.bscan := rfl
@[simp] theorem State.addCnt_tap (s : State) (a k : Nat) : (s.addCnt a k).tap = s.tap := rfl
@[simp] theorem State.addCnt_latches (s : State) (a k : Nat) : (s.addCnt a k).latches = s.latches := rfl
@[simp] theorem State.addCnt_staging (s : State) (a k : Nat) : (s.addCnt a k).staging = s.staging := rfl
@[simp] theorem State.addCnt_hp (s : State) (a k : Nat) : (s.addCnt a k).hp = s.hp := rfl
@[simp] theorem State.addCnt_cmds (s : State) (a k : Nat) : (s.addCnt a k).cmds = s.cmds := rfl
@[simp] theorem State.addCnt_hostNext (s : State) (a k : Nat) : (s.addCnt a k).hostNext = s.hostNext := rfl
@[simp] theorem State.addCnt_hostWrap (s : State) (a k : Nat) : (s.addCnt a k).hostWrap = s.hostWrap := rfl
@[simp] theorem State.addCnt_schedNext (s : State) (a k : Nat) : (s.addCnt a k).schedNext = s.schedNext := rfl
@[simp] theorem State.addCnt_schedWrap (s : State) (a k : Nat) : (s.addCnt a k).schedWrap = s.schedWrap := rfl
@[simp] theorem State.addCnt_abortedEnded (s : State) (a k : Nat) : (s.addCnt a k).abortedEnded = s.abortedEnded := rfl
@[simp] theorem State.addCnt_acc (s : State) (a k : Nat) : (s.addCnt a k).acc = s.acc := rfl
@[simp] theorem State.addCnt_fifo (s : State) (a k : Nat) : (s.addCnt a k).fifo = s.fifo := rfl
@[simp] theorem State.addCnt_txc (s : State) (a k : Nat) : (s.addCnt a k).txc = s.txc := rfl
@[simp] theorem State.addCnt_chains (s : State) (a k : Nat) : (s.addCnt a k).chains = s.chains := rfl
@[simp] theorem State.addCnt_beams (s : State) (a k : Nat) : (s.addCnt a k).beams = s.beams := rfl
@[simp] theorem State.addCnt_crcQ (s : State) (a k : Nat) : (s.addCnt a k).crcQ = s.crcQ := rfl
@[simp] theorem State.addCnt_phi (s : State) (a k : Nat) : (s.addCnt a k).phi = s.phi := rfl
@[simp] theorem State.addCnt_refAt (s : State) (a k : Nat) : (s.addCnt a k).refAt = s.refAt := rfl
@[simp] theorem State.addCnt_phiFlash (s : State) (a k : Nat) : (s.addCnt a k).phiFlash = s.phiFlash := rfl
@[simp] theorem State.addCnt_seeds (s : State) (a k : Nat) : (s.addCnt a k).seeds = s.seeds := rfl
@[simp] theorem State.addCnt_seedWt (s : State) (a k : Nat) : (s.addCnt a k).seedWt = s.seedWt := rfl
@[simp] theorem State.addCnt_unusable (s : State) (a k : Nat) : (s.addCnt a k).unusable = s.unusable := rfl
@[simp] theorem State.addCnt_wts (s : State) (a k : Nat) : (s.addCnt a k).wts = s.wts := rfl
@[simp] theorem State.addCnt_divAt (s : State) (a k : Nat) : (s.addCnt a k).divAt = s.divAt := rfl
@[simp] theorem State.addCnt_calNext (s : State) (a k : Nat) : (s.addCnt a k).calNext = s.calNext := rfl
@[simp] theorem State.addCnt_chanOff (s : State) (a k : Nat) : (s.addCnt a k).chanOff = s.chanOff := rfl
@[simp] theorem State.addCnt_airLog (s : State) (a k : Nat) : (s.addCnt a k).airLog = s.airLog := rfl
@[simp] theorem State.addCnt_hopPos (s : State) (a k : Nat) : (s.addCnt a k).hopPos = s.hopPos := rfl
@[simp] theorem State.addCnt_rounds (s : State) (a k : Nat) : (s.addCnt a k).rounds = s.rounds := rfl
@[simp] theorem State.addCnt_dueAt (s : State) (a k : Nat) : (s.addCnt a k).dueAt = s.dueAt := rfl
@[simp] theorem State.addCnt_cands (s : State) (a k : Nat) : (s.addCnt a k).cands = s.cands := rfl
@[simp] theorem State.addCnt_shed (s : State) (a k : Nat) : (s.addCnt a k).shed = s.shed := rfl
@[simp] theorem State.addCnt_coal (s : State) (a k : Nat) : (s.addCnt a k).coal = s.coal := rfl
@[simp] theorem State.addCnt_seen (s : State) (a k : Nat) : (s.addCnt a k).seen = s.seen := rfl
@[simp] theorem State.addCnt_seenWb (s : State) (a k : Nat) : (s.addCnt a k).seenWb = s.seenWb := rfl
@[simp] theorem State.addCnt_pop (s : State) (a k : Nat) : (s.addCnt a k).pop = s.pop := rfl
@[simp] theorem State.addCnt_fetches (s : State) (a k : Nat) : (s.addCnt a k).fetches = s.fetches := rfl
@[simp] theorem State.addCnt_umTags (s : State) (a k : Nat) : (s.addCnt a k).umTags = s.umTags := rfl
@[simp] theorem State.addCnt_umDiag (s : State) (a k : Nat) : (s.addCnt a k).umDiag = s.umDiag := rfl
@[simp] theorem State.addCnt_quar (s : State) (a k : Nat) : (s.addCnt a k).quar = s.quar := rfl
@[simp] theorem State.addCnt_peer (s : State) (a k : Nat) : (s.addCnt a k).peer = s.peer := rfl
@[simp] theorem State.addCnt_crcHost (s : State) (a k : Nat) : (s.addCnt a k).crcHost = s.crcHost := rfl
@[simp] theorem State.addCnt_tag (s : State) (a k : Nat) : (s.addCnt a k).tag = s.tag := rfl
@[simp] theorem State.addCnt_ping (s : State) (a k : Nat) : (s.addCnt a k).ping = s.ping := rfl
@[simp] theorem State.addCnt_tal (s : State) (a k : Nat) : (s.addCnt a k).tal = s.tal := rfl
@[simp] theorem State.addCnt_die (s : State) (a k : Nat) : (s.addCnt a k).die = s.die := rfl
@[simp] theorem State.addCnt_memp (s : State) (a k : Nat) : (s.addCnt a k).memp = s.memp := rfl
@[simp] theorem State.addCnt_mgmt (s : State) (a k : Nat) : (s.addCnt a k).mgmt = s.mgmt := rfl
@[simp] theorem State.addCnt_upd (s : State) (a k : Nat) : (s.addCnt a k).upd = s.upd := rfl
@[simp] theorem State.addCnt_wakes (s : State) (a k : Nat) : (s.addCnt a k).wakes = s.wakes := rfl
@[simp] theorem State.addCnt_wakeAt (s : State) (a k : Nat) : (s.addCnt a k).wakeAt = s.wakeAt := rfl
@[simp] theorem State.addCnt_hot (s : State) (a k : Nat) : (s.addCnt a k).hot = s.hot := rfl
@[simp] theorem State.addCnt_hotOut (s : State) (a k : Nat) : (s.addCnt a k).hotOut = s.hotOut := rfl
@[simp] theorem State.addCnt_hotRead (s : State) (a k : Nat) : (s.addCnt a k).hotRead = s.hotRead := rfl
@[simp] theorem State.addCnt_broughtUp (s : State) (a k : Nat) : (s.addCnt a k).broughtUp = s.broughtUp := rfl
@[simp] theorem State.addCnt_tdo (s : State) (a k : Nat) : (s.addCnt a k).tdo = s.tdo := rfl
@[simp] theorem State.addCnt_pending (s : State) (a k : Nat) : (s.addCnt a k).pending = s.pending := rfl

/-! ## cnt -/

@[simp] theorem State.cnt_phase (s : State) (a : Nat) : (s.cnt a).phase = s.phase := rfl
@[simp] theorem State.cnt_resets (s : State) (a : Nat) : (s.cnt a).resets = s.resets := rfl
@[simp] theorem State.cnt_thermHold (s : State) (a : Nat) : (s.cnt a).thermHold = s.thermHold := rfl
@[simp] theorem State.cnt_freeCtr (s : State) (a : Nat) : (s.cnt a).freeCtr = s.freeCtr := rfl
@[simp] theorem State.cnt_timeBase (s : State) (a : Nat) : (s.cnt a).timeBase = s.timeBase := rfl
@[simp] theorem State.cnt_up (s : State) (a : Nat) : (s.cnt a).up = s.up := rfl
@[simp] theorem State.cnt_aoFrac (s : State) (a : Nat) : (s.cnt a).aoFrac = s.aoFrac := rfl
@[simp] theorem State.cnt_board (s : State) (a : Nat) : (s.cnt a).board = s.board := rfl
@[simp] theorem State.cnt_lands (s : State) (a : Nat) : (s.cnt a).lands = s.lands := rfl
@[simp] theorem State.cnt_bscan (s : State) (a : Nat) : (s.cnt a).bscan = s.bscan := rfl
@[simp] theorem State.cnt_tap (s : State) (a : Nat) : (s.cnt a).tap = s.tap := rfl
@[simp] theorem State.cnt_latches (s : State) (a : Nat) : (s.cnt a).latches = s.latches := rfl
@[simp] theorem State.cnt_staging (s : State) (a : Nat) : (s.cnt a).staging = s.staging := rfl
@[simp] theorem State.cnt_hp (s : State) (a : Nat) : (s.cnt a).hp = s.hp := rfl
@[simp] theorem State.cnt_cmds (s : State) (a : Nat) : (s.cnt a).cmds = s.cmds := rfl
@[simp] theorem State.cnt_hostNext (s : State) (a : Nat) : (s.cnt a).hostNext = s.hostNext := rfl
@[simp] theorem State.cnt_hostWrap (s : State) (a : Nat) : (s.cnt a).hostWrap = s.hostWrap := rfl
@[simp] theorem State.cnt_schedNext (s : State) (a : Nat) : (s.cnt a).schedNext = s.schedNext := rfl
@[simp] theorem State.cnt_schedWrap (s : State) (a : Nat) : (s.cnt a).schedWrap = s.schedWrap := rfl
@[simp] theorem State.cnt_abortedEnded (s : State) (a : Nat) : (s.cnt a).abortedEnded = s.abortedEnded := rfl
@[simp] theorem State.cnt_acc (s : State) (a : Nat) : (s.cnt a).acc = s.acc := rfl
@[simp] theorem State.cnt_fifo (s : State) (a : Nat) : (s.cnt a).fifo = s.fifo := rfl
@[simp] theorem State.cnt_txc (s : State) (a : Nat) : (s.cnt a).txc = s.txc := rfl
@[simp] theorem State.cnt_chains (s : State) (a : Nat) : (s.cnt a).chains = s.chains := rfl
@[simp] theorem State.cnt_beams (s : State) (a : Nat) : (s.cnt a).beams = s.beams := rfl
@[simp] theorem State.cnt_crcQ (s : State) (a : Nat) : (s.cnt a).crcQ = s.crcQ := rfl
@[simp] theorem State.cnt_phi (s : State) (a : Nat) : (s.cnt a).phi = s.phi := rfl
@[simp] theorem State.cnt_refAt (s : State) (a : Nat) : (s.cnt a).refAt = s.refAt := rfl
@[simp] theorem State.cnt_phiFlash (s : State) (a : Nat) : (s.cnt a).phiFlash = s.phiFlash := rfl
@[simp] theorem State.cnt_seeds (s : State) (a : Nat) : (s.cnt a).seeds = s.seeds := rfl
@[simp] theorem State.cnt_seedWt (s : State) (a : Nat) : (s.cnt a).seedWt = s.seedWt := rfl
@[simp] theorem State.cnt_unusable (s : State) (a : Nat) : (s.cnt a).unusable = s.unusable := rfl
@[simp] theorem State.cnt_wts (s : State) (a : Nat) : (s.cnt a).wts = s.wts := rfl
@[simp] theorem State.cnt_divAt (s : State) (a : Nat) : (s.cnt a).divAt = s.divAt := rfl
@[simp] theorem State.cnt_calNext (s : State) (a : Nat) : (s.cnt a).calNext = s.calNext := rfl
@[simp] theorem State.cnt_chanOff (s : State) (a : Nat) : (s.cnt a).chanOff = s.chanOff := rfl
@[simp] theorem State.cnt_airLog (s : State) (a : Nat) : (s.cnt a).airLog = s.airLog := rfl
@[simp] theorem State.cnt_hopPos (s : State) (a : Nat) : (s.cnt a).hopPos = s.hopPos := rfl
@[simp] theorem State.cnt_rounds (s : State) (a : Nat) : (s.cnt a).rounds = s.rounds := rfl
@[simp] theorem State.cnt_dueAt (s : State) (a : Nat) : (s.cnt a).dueAt = s.dueAt := rfl
@[simp] theorem State.cnt_cands (s : State) (a : Nat) : (s.cnt a).cands = s.cands := rfl
@[simp] theorem State.cnt_shed (s : State) (a : Nat) : (s.cnt a).shed = s.shed := rfl
@[simp] theorem State.cnt_coal (s : State) (a : Nat) : (s.cnt a).coal = s.coal := rfl
@[simp] theorem State.cnt_seen (s : State) (a : Nat) : (s.cnt a).seen = s.seen := rfl
@[simp] theorem State.cnt_seenWb (s : State) (a : Nat) : (s.cnt a).seenWb = s.seenWb := rfl
@[simp] theorem State.cnt_pop (s : State) (a : Nat) : (s.cnt a).pop = s.pop := rfl
@[simp] theorem State.cnt_fetches (s : State) (a : Nat) : (s.cnt a).fetches = s.fetches := rfl
@[simp] theorem State.cnt_umTags (s : State) (a : Nat) : (s.cnt a).umTags = s.umTags := rfl
@[simp] theorem State.cnt_umDiag (s : State) (a : Nat) : (s.cnt a).umDiag = s.umDiag := rfl
@[simp] theorem State.cnt_quar (s : State) (a : Nat) : (s.cnt a).quar = s.quar := rfl
@[simp] theorem State.cnt_peer (s : State) (a : Nat) : (s.cnt a).peer = s.peer := rfl
@[simp] theorem State.cnt_crcHost (s : State) (a : Nat) : (s.cnt a).crcHost = s.crcHost := rfl
@[simp] theorem State.cnt_tag (s : State) (a : Nat) : (s.cnt a).tag = s.tag := rfl
@[simp] theorem State.cnt_ping (s : State) (a : Nat) : (s.cnt a).ping = s.ping := rfl
@[simp] theorem State.cnt_tal (s : State) (a : Nat) : (s.cnt a).tal = s.tal := rfl
@[simp] theorem State.cnt_die (s : State) (a : Nat) : (s.cnt a).die = s.die := rfl
@[simp] theorem State.cnt_memp (s : State) (a : Nat) : (s.cnt a).memp = s.memp := rfl
@[simp] theorem State.cnt_mgmt (s : State) (a : Nat) : (s.cnt a).mgmt = s.mgmt := rfl
@[simp] theorem State.cnt_upd (s : State) (a : Nat) : (s.cnt a).upd = s.upd := rfl
@[simp] theorem State.cnt_wakes (s : State) (a : Nat) : (s.cnt a).wakes = s.wakes := rfl
@[simp] theorem State.cnt_wakeAt (s : State) (a : Nat) : (s.cnt a).wakeAt = s.wakeAt := rfl
@[simp] theorem State.cnt_hot (s : State) (a : Nat) : (s.cnt a).hot = s.hot := rfl
@[simp] theorem State.cnt_hotOut (s : State) (a : Nat) : (s.cnt a).hotOut = s.hotOut := rfl
@[simp] theorem State.cnt_hotRead (s : State) (a : Nat) : (s.cnt a).hotRead = s.hotRead := rfl
@[simp] theorem State.cnt_broughtUp (s : State) (a : Nat) : (s.cnt a).broughtUp = s.broughtUp := rfl
@[simp] theorem State.cnt_tdo (s : State) (a : Nat) : (s.cnt a).tdo = s.tdo := rfl
@[simp] theorem State.cnt_pending (s : State) (a : Nat) : (s.cnt a).pending = s.pending := rfl

/-! ## cntSat -/

@[simp] theorem State.cntSat_phase (s : State) (a lo n : Nat) : (s.cntSat a lo n).phase = s.phase := rfl
@[simp] theorem State.cntSat_resets (s : State) (a lo n : Nat) : (s.cntSat a lo n).resets = s.resets := rfl
@[simp] theorem State.cntSat_thermHold (s : State) (a lo n : Nat) : (s.cntSat a lo n).thermHold = s.thermHold := rfl
@[simp] theorem State.cntSat_freeCtr (s : State) (a lo n : Nat) : (s.cntSat a lo n).freeCtr = s.freeCtr := rfl
@[simp] theorem State.cntSat_timeBase (s : State) (a lo n : Nat) : (s.cntSat a lo n).timeBase = s.timeBase := rfl
@[simp] theorem State.cntSat_up (s : State) (a lo n : Nat) : (s.cntSat a lo n).up = s.up := rfl
@[simp] theorem State.cntSat_aoFrac (s : State) (a lo n : Nat) : (s.cntSat a lo n).aoFrac = s.aoFrac := rfl
@[simp] theorem State.cntSat_board (s : State) (a lo n : Nat) : (s.cntSat a lo n).board = s.board := rfl
@[simp] theorem State.cntSat_lands (s : State) (a lo n : Nat) : (s.cntSat a lo n).lands = s.lands := rfl
@[simp] theorem State.cntSat_bscan (s : State) (a lo n : Nat) : (s.cntSat a lo n).bscan = s.bscan := rfl
@[simp] theorem State.cntSat_tap (s : State) (a lo n : Nat) : (s.cntSat a lo n).tap = s.tap := rfl
@[simp] theorem State.cntSat_latches (s : State) (a lo n : Nat) : (s.cntSat a lo n).latches = s.latches := rfl
@[simp] theorem State.cntSat_staging (s : State) (a lo n : Nat) : (s.cntSat a lo n).staging = s.staging := rfl
@[simp] theorem State.cntSat_hp (s : State) (a lo n : Nat) : (s.cntSat a lo n).hp = s.hp := rfl
@[simp] theorem State.cntSat_cmds (s : State) (a lo n : Nat) : (s.cntSat a lo n).cmds = s.cmds := rfl
@[simp] theorem State.cntSat_hostNext (s : State) (a lo n : Nat) : (s.cntSat a lo n).hostNext = s.hostNext := rfl
@[simp] theorem State.cntSat_hostWrap (s : State) (a lo n : Nat) : (s.cntSat a lo n).hostWrap = s.hostWrap := rfl
@[simp] theorem State.cntSat_schedNext (s : State) (a lo n : Nat) : (s.cntSat a lo n).schedNext = s.schedNext := rfl
@[simp] theorem State.cntSat_schedWrap (s : State) (a lo n : Nat) : (s.cntSat a lo n).schedWrap = s.schedWrap := rfl
@[simp] theorem State.cntSat_abortedEnded (s : State) (a lo n : Nat) : (s.cntSat a lo n).abortedEnded = s.abortedEnded := rfl
@[simp] theorem State.cntSat_acc (s : State) (a lo n : Nat) : (s.cntSat a lo n).acc = s.acc := rfl
@[simp] theorem State.cntSat_fifo (s : State) (a lo n : Nat) : (s.cntSat a lo n).fifo = s.fifo := rfl
@[simp] theorem State.cntSat_txc (s : State) (a lo n : Nat) : (s.cntSat a lo n).txc = s.txc := rfl
@[simp] theorem State.cntSat_chains (s : State) (a lo n : Nat) : (s.cntSat a lo n).chains = s.chains := rfl
@[simp] theorem State.cntSat_beams (s : State) (a lo n : Nat) : (s.cntSat a lo n).beams = s.beams := rfl
@[simp] theorem State.cntSat_crcQ (s : State) (a lo n : Nat) : (s.cntSat a lo n).crcQ = s.crcQ := rfl
@[simp] theorem State.cntSat_phi (s : State) (a lo n : Nat) : (s.cntSat a lo n).phi = s.phi := rfl
@[simp] theorem State.cntSat_refAt (s : State) (a lo n : Nat) : (s.cntSat a lo n).refAt = s.refAt := rfl
@[simp] theorem State.cntSat_phiFlash (s : State) (a lo n : Nat) : (s.cntSat a lo n).phiFlash = s.phiFlash := rfl
@[simp] theorem State.cntSat_seeds (s : State) (a lo n : Nat) : (s.cntSat a lo n).seeds = s.seeds := rfl
@[simp] theorem State.cntSat_seedWt (s : State) (a lo n : Nat) : (s.cntSat a lo n).seedWt = s.seedWt := rfl
@[simp] theorem State.cntSat_unusable (s : State) (a lo n : Nat) : (s.cntSat a lo n).unusable = s.unusable := rfl
@[simp] theorem State.cntSat_wts (s : State) (a lo n : Nat) : (s.cntSat a lo n).wts = s.wts := rfl
@[simp] theorem State.cntSat_divAt (s : State) (a lo n : Nat) : (s.cntSat a lo n).divAt = s.divAt := rfl
@[simp] theorem State.cntSat_calNext (s : State) (a lo n : Nat) : (s.cntSat a lo n).calNext = s.calNext := rfl
@[simp] theorem State.cntSat_chanOff (s : State) (a lo n : Nat) : (s.cntSat a lo n).chanOff = s.chanOff := rfl
@[simp] theorem State.cntSat_airLog (s : State) (a lo n : Nat) : (s.cntSat a lo n).airLog = s.airLog := rfl
@[simp] theorem State.cntSat_hopPos (s : State) (a lo n : Nat) : (s.cntSat a lo n).hopPos = s.hopPos := rfl
@[simp] theorem State.cntSat_rounds (s : State) (a lo n : Nat) : (s.cntSat a lo n).rounds = s.rounds := rfl
@[simp] theorem State.cntSat_dueAt (s : State) (a lo n : Nat) : (s.cntSat a lo n).dueAt = s.dueAt := rfl
@[simp] theorem State.cntSat_cands (s : State) (a lo n : Nat) : (s.cntSat a lo n).cands = s.cands := rfl
@[simp] theorem State.cntSat_shed (s : State) (a lo n : Nat) : (s.cntSat a lo n).shed = s.shed := rfl
@[simp] theorem State.cntSat_coal (s : State) (a lo n : Nat) : (s.cntSat a lo n).coal = s.coal := rfl
@[simp] theorem State.cntSat_seen (s : State) (a lo n : Nat) : (s.cntSat a lo n).seen = s.seen := rfl
@[simp] theorem State.cntSat_seenWb (s : State) (a lo n : Nat) : (s.cntSat a lo n).seenWb = s.seenWb := rfl
@[simp] theorem State.cntSat_pop (s : State) (a lo n : Nat) : (s.cntSat a lo n).pop = s.pop := rfl
@[simp] theorem State.cntSat_fetches (s : State) (a lo n : Nat) : (s.cntSat a lo n).fetches = s.fetches := rfl
@[simp] theorem State.cntSat_umTags (s : State) (a lo n : Nat) : (s.cntSat a lo n).umTags = s.umTags := rfl
@[simp] theorem State.cntSat_umDiag (s : State) (a lo n : Nat) : (s.cntSat a lo n).umDiag = s.umDiag := rfl
@[simp] theorem State.cntSat_quar (s : State) (a lo n : Nat) : (s.cntSat a lo n).quar = s.quar := rfl
@[simp] theorem State.cntSat_peer (s : State) (a lo n : Nat) : (s.cntSat a lo n).peer = s.peer := rfl
@[simp] theorem State.cntSat_crcHost (s : State) (a lo n : Nat) : (s.cntSat a lo n).crcHost = s.crcHost := rfl
@[simp] theorem State.cntSat_tag (s : State) (a lo n : Nat) : (s.cntSat a lo n).tag = s.tag := rfl
@[simp] theorem State.cntSat_ping (s : State) (a lo n : Nat) : (s.cntSat a lo n).ping = s.ping := rfl
@[simp] theorem State.cntSat_tal (s : State) (a lo n : Nat) : (s.cntSat a lo n).tal = s.tal := rfl
@[simp] theorem State.cntSat_die (s : State) (a lo n : Nat) : (s.cntSat a lo n).die = s.die := rfl
@[simp] theorem State.cntSat_memp (s : State) (a lo n : Nat) : (s.cntSat a lo n).memp = s.memp := rfl
@[simp] theorem State.cntSat_mgmt (s : State) (a lo n : Nat) : (s.cntSat a lo n).mgmt = s.mgmt := rfl
@[simp] theorem State.cntSat_upd (s : State) (a lo n : Nat) : (s.cntSat a lo n).upd = s.upd := rfl
@[simp] theorem State.cntSat_wakes (s : State) (a lo n : Nat) : (s.cntSat a lo n).wakes = s.wakes := rfl
@[simp] theorem State.cntSat_wakeAt (s : State) (a lo n : Nat) : (s.cntSat a lo n).wakeAt = s.wakeAt := rfl
@[simp] theorem State.cntSat_hot (s : State) (a lo n : Nat) : (s.cntSat a lo n).hot = s.hot := rfl
@[simp] theorem State.cntSat_hotOut (s : State) (a lo n : Nat) : (s.cntSat a lo n).hotOut = s.hotOut := rfl
@[simp] theorem State.cntSat_hotRead (s : State) (a lo n : Nat) : (s.cntSat a lo n).hotRead = s.hotRead := rfl
@[simp] theorem State.cntSat_broughtUp (s : State) (a lo n : Nat) : (s.cntSat a lo n).broughtUp = s.broughtUp := rfl
@[simp] theorem State.cntSat_tdo (s : State) (a lo n : Nat) : (s.cntSat a lo n).tdo = s.tdo := rfl
@[simp] theorem State.cntSat_pending (s : State) (a lo n : Nat) : (s.cntSat a lo n).pending = s.pending := rfl

/-! ## raise -/

@[simp] theorem State.raise_phase (s : State) (c : Nat) : (s.raise c).phase = s.phase := rfl
@[simp] theorem State.raise_resets (s : State) (c : Nat) : (s.raise c).resets = s.resets := rfl
@[simp] theorem State.raise_thermHold (s : State) (c : Nat) : (s.raise c).thermHold = s.thermHold := rfl
@[simp] theorem State.raise_freeCtr (s : State) (c : Nat) : (s.raise c).freeCtr = s.freeCtr := rfl
@[simp] theorem State.raise_timeBase (s : State) (c : Nat) : (s.raise c).timeBase = s.timeBase := rfl
@[simp] theorem State.raise_up (s : State) (c : Nat) : (s.raise c).up = s.up := rfl
@[simp] theorem State.raise_aoFrac (s : State) (c : Nat) : (s.raise c).aoFrac = s.aoFrac := rfl
@[simp] theorem State.raise_board (s : State) (c : Nat) : (s.raise c).board = s.board := rfl
@[simp] theorem State.raise_lands (s : State) (c : Nat) : (s.raise c).lands = s.lands := rfl
@[simp] theorem State.raise_bscan (s : State) (c : Nat) : (s.raise c).bscan = s.bscan := rfl
@[simp] theorem State.raise_tap (s : State) (c : Nat) : (s.raise c).tap = s.tap := rfl
@[simp] theorem State.raise_latches (s : State) (c : Nat) : (s.raise c).latches = s.latches := rfl
@[simp] theorem State.raise_staging (s : State) (c : Nat) : (s.raise c).staging = s.staging := rfl
@[simp] theorem State.raise_hp (s : State) (c : Nat) : (s.raise c).hp = s.hp := rfl
@[simp] theorem State.raise_cmds (s : State) (c : Nat) : (s.raise c).cmds = s.cmds := rfl
@[simp] theorem State.raise_hostNext (s : State) (c : Nat) : (s.raise c).hostNext = s.hostNext := rfl
@[simp] theorem State.raise_hostWrap (s : State) (c : Nat) : (s.raise c).hostWrap = s.hostWrap := rfl
@[simp] theorem State.raise_schedNext (s : State) (c : Nat) : (s.raise c).schedNext = s.schedNext := rfl
@[simp] theorem State.raise_schedWrap (s : State) (c : Nat) : (s.raise c).schedWrap = s.schedWrap := rfl
@[simp] theorem State.raise_abortedEnded (s : State) (c : Nat) : (s.raise c).abortedEnded = s.abortedEnded := rfl
@[simp] theorem State.raise_acc (s : State) (c : Nat) : (s.raise c).acc = s.acc := rfl
@[simp] theorem State.raise_fifo (s : State) (c : Nat) : (s.raise c).fifo = s.fifo := rfl
@[simp] theorem State.raise_txc (s : State) (c : Nat) : (s.raise c).txc = s.txc := rfl
@[simp] theorem State.raise_chains (s : State) (c : Nat) : (s.raise c).chains = s.chains := rfl
@[simp] theorem State.raise_beams (s : State) (c : Nat) : (s.raise c).beams = s.beams := rfl
@[simp] theorem State.raise_crcQ (s : State) (c : Nat) : (s.raise c).crcQ = s.crcQ := rfl
@[simp] theorem State.raise_phi (s : State) (c : Nat) : (s.raise c).phi = s.phi := rfl
@[simp] theorem State.raise_refAt (s : State) (c : Nat) : (s.raise c).refAt = s.refAt := rfl
@[simp] theorem State.raise_phiFlash (s : State) (c : Nat) : (s.raise c).phiFlash = s.phiFlash := rfl
@[simp] theorem State.raise_seeds (s : State) (c : Nat) : (s.raise c).seeds = s.seeds := rfl
@[simp] theorem State.raise_seedWt (s : State) (c : Nat) : (s.raise c).seedWt = s.seedWt := rfl
@[simp] theorem State.raise_unusable (s : State) (c : Nat) : (s.raise c).unusable = s.unusable := rfl
@[simp] theorem State.raise_wts (s : State) (c : Nat) : (s.raise c).wts = s.wts := rfl
@[simp] theorem State.raise_divAt (s : State) (c : Nat) : (s.raise c).divAt = s.divAt := rfl
@[simp] theorem State.raise_calNext (s : State) (c : Nat) : (s.raise c).calNext = s.calNext := rfl
@[simp] theorem State.raise_chanOff (s : State) (c : Nat) : (s.raise c).chanOff = s.chanOff := rfl
@[simp] theorem State.raise_airLog (s : State) (c : Nat) : (s.raise c).airLog = s.airLog := rfl
@[simp] theorem State.raise_hopPos (s : State) (c : Nat) : (s.raise c).hopPos = s.hopPos := rfl
@[simp] theorem State.raise_rounds (s : State) (c : Nat) : (s.raise c).rounds = s.rounds := rfl
@[simp] theorem State.raise_dueAt (s : State) (c : Nat) : (s.raise c).dueAt = s.dueAt := rfl
@[simp] theorem State.raise_cands (s : State) (c : Nat) : (s.raise c).cands = s.cands := rfl
@[simp] theorem State.raise_shed (s : State) (c : Nat) : (s.raise c).shed = s.shed := rfl
@[simp] theorem State.raise_coal (s : State) (c : Nat) : (s.raise c).coal = s.coal := rfl
@[simp] theorem State.raise_seen (s : State) (c : Nat) : (s.raise c).seen = s.seen := rfl
@[simp] theorem State.raise_seenWb (s : State) (c : Nat) : (s.raise c).seenWb = s.seenWb := rfl
@[simp] theorem State.raise_pop (s : State) (c : Nat) : (s.raise c).pop = s.pop := rfl
@[simp] theorem State.raise_fetches (s : State) (c : Nat) : (s.raise c).fetches = s.fetches := rfl
@[simp] theorem State.raise_umTags (s : State) (c : Nat) : (s.raise c).umTags = s.umTags := rfl
@[simp] theorem State.raise_umDiag (s : State) (c : Nat) : (s.raise c).umDiag = s.umDiag := rfl
@[simp] theorem State.raise_quar (s : State) (c : Nat) : (s.raise c).quar = s.quar := rfl
@[simp] theorem State.raise_peer (s : State) (c : Nat) : (s.raise c).peer = s.peer := rfl
@[simp] theorem State.raise_crcHost (s : State) (c : Nat) : (s.raise c).crcHost = s.crcHost := rfl
@[simp] theorem State.raise_tag (s : State) (c : Nat) : (s.raise c).tag = s.tag := rfl
@[simp] theorem State.raise_ping (s : State) (c : Nat) : (s.raise c).ping = s.ping := rfl
@[simp] theorem State.raise_tal (s : State) (c : Nat) : (s.raise c).tal = s.tal := rfl
@[simp] theorem State.raise_die (s : State) (c : Nat) : (s.raise c).die = s.die := rfl
@[simp] theorem State.raise_memp (s : State) (c : Nat) : (s.raise c).memp = s.memp := rfl
@[simp] theorem State.raise_mgmt (s : State) (c : Nat) : (s.raise c).mgmt = s.mgmt := rfl
@[simp] theorem State.raise_upd (s : State) (c : Nat) : (s.raise c).upd = s.upd := rfl
@[simp] theorem State.raise_wakes (s : State) (c : Nat) : (s.raise c).wakes = s.wakes := rfl
@[simp] theorem State.raise_wakeAt (s : State) (c : Nat) : (s.raise c).wakeAt = s.wakeAt := rfl
@[simp] theorem State.raise_hot (s : State) (c : Nat) : (s.raise c).hot = s.hot := rfl
@[simp] theorem State.raise_hotOut (s : State) (c : Nat) : (s.raise c).hotOut = s.hotOut := rfl
@[simp] theorem State.raise_hotRead (s : State) (c : Nat) : (s.raise c).hotRead = s.hotRead := rfl
@[simp] theorem State.raise_broughtUp (s : State) (c : Nat) : (s.raise c).broughtUp = s.broughtUp := rfl
@[simp] theorem State.raise_tdo (s : State) (c : Nat) : (s.raise c).tdo = s.tdo := rfl
@[simp] theorem State.raise_pending (s : State) (c : Nat) : (s.raise c).pending = s.pending := rfl

/-! ## updTx -/

@[simp] theorem State.updTx_phase (s : State) (n : Nat) (f : Txc → Txc) : (s.updTx n f).phase = s.phase := rfl
@[simp] theorem State.updTx_resets (s : State) (n : Nat) (f : Txc → Txc) : (s.updTx n f).resets = s.resets := rfl
@[simp] theorem State.updTx_thermHold (s : State) (n : Nat) (f : Txc → Txc) : (s.updTx n f).thermHold = s.thermHold := rfl
@[simp] theorem State.updTx_freeCtr (s : State) (n : Nat) (f : Txc → Txc) : (s.updTx n f).freeCtr = s.freeCtr := rfl
@[simp] theorem State.updTx_timeBase (s : State) (n : Nat) (f : Txc → Txc) : (s.updTx n f).timeBase = s.timeBase := rfl
@[simp] theorem State.updTx_up (s : State) (n : Nat) (f : Txc → Txc) : (s.updTx n f).up = s.up := rfl
@[simp] theorem State.updTx_aoFrac (s : State) (n : Nat) (f : Txc → Txc) : (s.updTx n f).aoFrac = s.aoFrac := rfl
@[simp] theorem State.updTx_board (s : State) (n : Nat) (f : Txc → Txc) : (s.updTx n f).board = s.board := rfl
@[simp] theorem State.updTx_lands (s : State) (n : Nat) (f : Txc → Txc) : (s.updTx n f).lands = s.lands := rfl
@[simp] theorem State.updTx_bscan (s : State) (n : Nat) (f : Txc → Txc) : (s.updTx n f).bscan = s.bscan := rfl
@[simp] theorem State.updTx_tap (s : State) (n : Nat) (f : Txc → Txc) : (s.updTx n f).tap = s.tap := rfl
@[simp] theorem State.updTx_regs (s : State) (n : Nat) (f : Txc → Txc) : (s.updTx n f).regs = s.regs := rfl
@[simp] theorem State.updTx_latches (s : State) (n : Nat) (f : Txc → Txc) : (s.updTx n f).latches = s.latches := rfl
@[simp] theorem State.updTx_staging (s : State) (n : Nat) (f : Txc → Txc) : (s.updTx n f).staging = s.staging := rfl
@[simp] theorem State.updTx_hp (s : State) (n : Nat) (f : Txc → Txc) : (s.updTx n f).hp = s.hp := rfl
@[simp] theorem State.updTx_cmds (s : State) (n : Nat) (f : Txc → Txc) : (s.updTx n f).cmds = s.cmds := rfl
@[simp] theorem State.updTx_hostNext (s : State) (n : Nat) (f : Txc → Txc) : (s.updTx n f).hostNext = s.hostNext := rfl
@[simp] theorem State.updTx_hostWrap (s : State) (n : Nat) (f : Txc → Txc) : (s.updTx n f).hostWrap = s.hostWrap := rfl
@[simp] theorem State.updTx_schedNext (s : State) (n : Nat) (f : Txc → Txc) : (s.updTx n f).schedNext = s.schedNext := rfl
@[simp] theorem State.updTx_schedWrap (s : State) (n : Nat) (f : Txc → Txc) : (s.updTx n f).schedWrap = s.schedWrap := rfl
@[simp] theorem State.updTx_abortedEnded (s : State) (n : Nat) (f : Txc → Txc) : (s.updTx n f).abortedEnded = s.abortedEnded := rfl
@[simp] theorem State.updTx_acc (s : State) (n : Nat) (f : Txc → Txc) : (s.updTx n f).acc = s.acc := rfl
@[simp] theorem State.updTx_fifo (s : State) (n : Nat) (f : Txc → Txc) : (s.updTx n f).fifo = s.fifo := rfl
@[simp] theorem State.updTx_chains (s : State) (n : Nat) (f : Txc → Txc) : (s.updTx n f).chains = s.chains := rfl
@[simp] theorem State.updTx_beams (s : State) (n : Nat) (f : Txc → Txc) : (s.updTx n f).beams = s.beams := rfl
@[simp] theorem State.updTx_crcQ (s : State) (n : Nat) (f : Txc → Txc) : (s.updTx n f).crcQ = s.crcQ := rfl
@[simp] theorem State.updTx_phi (s : State) (n : Nat) (f : Txc → Txc) : (s.updTx n f).phi = s.phi := rfl
@[simp] theorem State.updTx_refAt (s : State) (n : Nat) (f : Txc → Txc) : (s.updTx n f).refAt = s.refAt := rfl
@[simp] theorem State.updTx_phiFlash (s : State) (n : Nat) (f : Txc → Txc) : (s.updTx n f).phiFlash = s.phiFlash := rfl
@[simp] theorem State.updTx_seeds (s : State) (n : Nat) (f : Txc → Txc) : (s.updTx n f).seeds = s.seeds := rfl
@[simp] theorem State.updTx_seedWt (s : State) (n : Nat) (f : Txc → Txc) : (s.updTx n f).seedWt = s.seedWt := rfl
@[simp] theorem State.updTx_unusable (s : State) (n : Nat) (f : Txc → Txc) : (s.updTx n f).unusable = s.unusable := rfl
@[simp] theorem State.updTx_wts (s : State) (n : Nat) (f : Txc → Txc) : (s.updTx n f).wts = s.wts := rfl
@[simp] theorem State.updTx_divAt (s : State) (n : Nat) (f : Txc → Txc) : (s.updTx n f).divAt = s.divAt := rfl
@[simp] theorem State.updTx_calNext (s : State) (n : Nat) (f : Txc → Txc) : (s.updTx n f).calNext = s.calNext := rfl
@[simp] theorem State.updTx_chanOff (s : State) (n : Nat) (f : Txc → Txc) : (s.updTx n f).chanOff = s.chanOff := rfl
@[simp] theorem State.updTx_airLog (s : State) (n : Nat) (f : Txc → Txc) : (s.updTx n f).airLog = s.airLog := rfl
@[simp] theorem State.updTx_hopPos (s : State) (n : Nat) (f : Txc → Txc) : (s.updTx n f).hopPos = s.hopPos := rfl
@[simp] theorem State.updTx_rounds (s : State) (n : Nat) (f : Txc → Txc) : (s.updTx n f).rounds = s.rounds := rfl
@[simp] theorem State.updTx_dueAt (s : State) (n : Nat) (f : Txc → Txc) : (s.updTx n f).dueAt = s.dueAt := rfl
@[simp] theorem State.updTx_cands (s : State) (n : Nat) (f : Txc → Txc) : (s.updTx n f).cands = s.cands := rfl
@[simp] theorem State.updTx_shed (s : State) (n : Nat) (f : Txc → Txc) : (s.updTx n f).shed = s.shed := rfl
@[simp] theorem State.updTx_coal (s : State) (n : Nat) (f : Txc → Txc) : (s.updTx n f).coal = s.coal := rfl
@[simp] theorem State.updTx_seen (s : State) (n : Nat) (f : Txc → Txc) : (s.updTx n f).seen = s.seen := rfl
@[simp] theorem State.updTx_seenWb (s : State) (n : Nat) (f : Txc → Txc) : (s.updTx n f).seenWb = s.seenWb := rfl
@[simp] theorem State.updTx_pop (s : State) (n : Nat) (f : Txc → Txc) : (s.updTx n f).pop = s.pop := rfl
@[simp] theorem State.updTx_fetches (s : State) (n : Nat) (f : Txc → Txc) : (s.updTx n f).fetches = s.fetches := rfl
@[simp] theorem State.updTx_umTags (s : State) (n : Nat) (f : Txc → Txc) : (s.updTx n f).umTags = s.umTags := rfl
@[simp] theorem State.updTx_umDiag (s : State) (n : Nat) (f : Txc → Txc) : (s.updTx n f).umDiag = s.umDiag := rfl
@[simp] theorem State.updTx_quar (s : State) (n : Nat) (f : Txc → Txc) : (s.updTx n f).quar = s.quar := rfl
@[simp] theorem State.updTx_peer (s : State) (n : Nat) (f : Txc → Txc) : (s.updTx n f).peer = s.peer := rfl
@[simp] theorem State.updTx_crcHost (s : State) (n : Nat) (f : Txc → Txc) : (s.updTx n f).crcHost = s.crcHost := rfl
@[simp] theorem State.updTx_tag (s : State) (n : Nat) (f : Txc → Txc) : (s.updTx n f).tag = s.tag := rfl
@[simp] theorem State.updTx_ping (s : State) (n : Nat) (f : Txc → Txc) : (s.updTx n f).ping = s.ping := rfl
@[simp] theorem State.updTx_tal (s : State) (n : Nat) (f : Txc → Txc) : (s.updTx n f).tal = s.tal := rfl
@[simp] theorem State.updTx_die (s : State) (n : Nat) (f : Txc → Txc) : (s.updTx n f).die = s.die := rfl
@[simp] theorem State.updTx_memp (s : State) (n : Nat) (f : Txc → Txc) : (s.updTx n f).memp = s.memp := rfl
@[simp] theorem State.updTx_mgmt (s : State) (n : Nat) (f : Txc → Txc) : (s.updTx n f).mgmt = s.mgmt := rfl
@[simp] theorem State.updTx_upd (s : State) (n : Nat) (f : Txc → Txc) : (s.updTx n f).upd = s.upd := rfl
@[simp] theorem State.updTx_wakes (s : State) (n : Nat) (f : Txc → Txc) : (s.updTx n f).wakes = s.wakes := rfl
@[simp] theorem State.updTx_wakeAt (s : State) (n : Nat) (f : Txc → Txc) : (s.updTx n f).wakeAt = s.wakeAt := rfl
@[simp] theorem State.updTx_hot (s : State) (n : Nat) (f : Txc → Txc) : (s.updTx n f).hot = s.hot := rfl
@[simp] theorem State.updTx_hotOut (s : State) (n : Nat) (f : Txc → Txc) : (s.updTx n f).hotOut = s.hotOut := rfl
@[simp] theorem State.updTx_hotRead (s : State) (n : Nat) (f : Txc → Txc) : (s.updTx n f).hotRead = s.hotRead := rfl
@[simp] theorem State.updTx_broughtUp (s : State) (n : Nat) (f : Txc → Txc) : (s.updTx n f).broughtUp = s.broughtUp := rfl
@[simp] theorem State.updTx_tdo (s : State) (n : Nat) (f : Txc → Txc) : (s.updTx n f).tdo = s.tdo := rfl
@[simp] theorem State.updTx_pending (s : State) (n : Nat) (f : Txc → Txc) : (s.updTx n f).pending = s.pending := rfl

/-! ## updChain -/

@[simp] theorem State.updChain_phase (s : State) (n : Nat) (f : Chain → Chain) : (s.updChain n f).phase = s.phase := rfl
@[simp] theorem State.updChain_resets (s : State) (n : Nat) (f : Chain → Chain) : (s.updChain n f).resets = s.resets := rfl
@[simp] theorem State.updChain_thermHold (s : State) (n : Nat) (f : Chain → Chain) : (s.updChain n f).thermHold = s.thermHold := rfl
@[simp] theorem State.updChain_freeCtr (s : State) (n : Nat) (f : Chain → Chain) : (s.updChain n f).freeCtr = s.freeCtr := rfl
@[simp] theorem State.updChain_timeBase (s : State) (n : Nat) (f : Chain → Chain) : (s.updChain n f).timeBase = s.timeBase := rfl
@[simp] theorem State.updChain_up (s : State) (n : Nat) (f : Chain → Chain) : (s.updChain n f).up = s.up := rfl
@[simp] theorem State.updChain_aoFrac (s : State) (n : Nat) (f : Chain → Chain) : (s.updChain n f).aoFrac = s.aoFrac := rfl
@[simp] theorem State.updChain_board (s : State) (n : Nat) (f : Chain → Chain) : (s.updChain n f).board = s.board := rfl
@[simp] theorem State.updChain_lands (s : State) (n : Nat) (f : Chain → Chain) : (s.updChain n f).lands = s.lands := rfl
@[simp] theorem State.updChain_bscan (s : State) (n : Nat) (f : Chain → Chain) : (s.updChain n f).bscan = s.bscan := rfl
@[simp] theorem State.updChain_tap (s : State) (n : Nat) (f : Chain → Chain) : (s.updChain n f).tap = s.tap := rfl
@[simp] theorem State.updChain_regs (s : State) (n : Nat) (f : Chain → Chain) : (s.updChain n f).regs = s.regs := rfl
@[simp] theorem State.updChain_latches (s : State) (n : Nat) (f : Chain → Chain) : (s.updChain n f).latches = s.latches := rfl
@[simp] theorem State.updChain_staging (s : State) (n : Nat) (f : Chain → Chain) : (s.updChain n f).staging = s.staging := rfl
@[simp] theorem State.updChain_hp (s : State) (n : Nat) (f : Chain → Chain) : (s.updChain n f).hp = s.hp := rfl
@[simp] theorem State.updChain_cmds (s : State) (n : Nat) (f : Chain → Chain) : (s.updChain n f).cmds = s.cmds := rfl
@[simp] theorem State.updChain_hostNext (s : State) (n : Nat) (f : Chain → Chain) : (s.updChain n f).hostNext = s.hostNext := rfl
@[simp] theorem State.updChain_hostWrap (s : State) (n : Nat) (f : Chain → Chain) : (s.updChain n f).hostWrap = s.hostWrap := rfl
@[simp] theorem State.updChain_schedNext (s : State) (n : Nat) (f : Chain → Chain) : (s.updChain n f).schedNext = s.schedNext := rfl
@[simp] theorem State.updChain_schedWrap (s : State) (n : Nat) (f : Chain → Chain) : (s.updChain n f).schedWrap = s.schedWrap := rfl
@[simp] theorem State.updChain_abortedEnded (s : State) (n : Nat) (f : Chain → Chain) : (s.updChain n f).abortedEnded = s.abortedEnded := rfl
@[simp] theorem State.updChain_acc (s : State) (n : Nat) (f : Chain → Chain) : (s.updChain n f).acc = s.acc := rfl
@[simp] theorem State.updChain_fifo (s : State) (n : Nat) (f : Chain → Chain) : (s.updChain n f).fifo = s.fifo := rfl
@[simp] theorem State.updChain_txc (s : State) (n : Nat) (f : Chain → Chain) : (s.updChain n f).txc = s.txc := rfl
@[simp] theorem State.updChain_beams (s : State) (n : Nat) (f : Chain → Chain) : (s.updChain n f).beams = s.beams := rfl
@[simp] theorem State.updChain_crcQ (s : State) (n : Nat) (f : Chain → Chain) : (s.updChain n f).crcQ = s.crcQ := rfl
@[simp] theorem State.updChain_phi (s : State) (n : Nat) (f : Chain → Chain) : (s.updChain n f).phi = s.phi := rfl
@[simp] theorem State.updChain_refAt (s : State) (n : Nat) (f : Chain → Chain) : (s.updChain n f).refAt = s.refAt := rfl
@[simp] theorem State.updChain_phiFlash (s : State) (n : Nat) (f : Chain → Chain) : (s.updChain n f).phiFlash = s.phiFlash := rfl
@[simp] theorem State.updChain_seeds (s : State) (n : Nat) (f : Chain → Chain) : (s.updChain n f).seeds = s.seeds := rfl
@[simp] theorem State.updChain_seedWt (s : State) (n : Nat) (f : Chain → Chain) : (s.updChain n f).seedWt = s.seedWt := rfl
@[simp] theorem State.updChain_unusable (s : State) (n : Nat) (f : Chain → Chain) : (s.updChain n f).unusable = s.unusable := rfl
@[simp] theorem State.updChain_wts (s : State) (n : Nat) (f : Chain → Chain) : (s.updChain n f).wts = s.wts := rfl
@[simp] theorem State.updChain_divAt (s : State) (n : Nat) (f : Chain → Chain) : (s.updChain n f).divAt = s.divAt := rfl
@[simp] theorem State.updChain_calNext (s : State) (n : Nat) (f : Chain → Chain) : (s.updChain n f).calNext = s.calNext := rfl
@[simp] theorem State.updChain_chanOff (s : State) (n : Nat) (f : Chain → Chain) : (s.updChain n f).chanOff = s.chanOff := rfl
@[simp] theorem State.updChain_airLog (s : State) (n : Nat) (f : Chain → Chain) : (s.updChain n f).airLog = s.airLog := rfl
@[simp] theorem State.updChain_hopPos (s : State) (n : Nat) (f : Chain → Chain) : (s.updChain n f).hopPos = s.hopPos := rfl
@[simp] theorem State.updChain_rounds (s : State) (n : Nat) (f : Chain → Chain) : (s.updChain n f).rounds = s.rounds := rfl
@[simp] theorem State.updChain_dueAt (s : State) (n : Nat) (f : Chain → Chain) : (s.updChain n f).dueAt = s.dueAt := rfl
@[simp] theorem State.updChain_cands (s : State) (n : Nat) (f : Chain → Chain) : (s.updChain n f).cands = s.cands := rfl
@[simp] theorem State.updChain_shed (s : State) (n : Nat) (f : Chain → Chain) : (s.updChain n f).shed = s.shed := rfl
@[simp] theorem State.updChain_coal (s : State) (n : Nat) (f : Chain → Chain) : (s.updChain n f).coal = s.coal := rfl
@[simp] theorem State.updChain_seen (s : State) (n : Nat) (f : Chain → Chain) : (s.updChain n f).seen = s.seen := rfl
@[simp] theorem State.updChain_seenWb (s : State) (n : Nat) (f : Chain → Chain) : (s.updChain n f).seenWb = s.seenWb := rfl
@[simp] theorem State.updChain_pop (s : State) (n : Nat) (f : Chain → Chain) : (s.updChain n f).pop = s.pop := rfl
@[simp] theorem State.updChain_fetches (s : State) (n : Nat) (f : Chain → Chain) : (s.updChain n f).fetches = s.fetches := rfl
@[simp] theorem State.updChain_umTags (s : State) (n : Nat) (f : Chain → Chain) : (s.updChain n f).umTags = s.umTags := rfl
@[simp] theorem State.updChain_umDiag (s : State) (n : Nat) (f : Chain → Chain) : (s.updChain n f).umDiag = s.umDiag := rfl
@[simp] theorem State.updChain_quar (s : State) (n : Nat) (f : Chain → Chain) : (s.updChain n f).quar = s.quar := rfl
@[simp] theorem State.updChain_peer (s : State) (n : Nat) (f : Chain → Chain) : (s.updChain n f).peer = s.peer := rfl
@[simp] theorem State.updChain_crcHost (s : State) (n : Nat) (f : Chain → Chain) : (s.updChain n f).crcHost = s.crcHost := rfl
@[simp] theorem State.updChain_tag (s : State) (n : Nat) (f : Chain → Chain) : (s.updChain n f).tag = s.tag := rfl
@[simp] theorem State.updChain_ping (s : State) (n : Nat) (f : Chain → Chain) : (s.updChain n f).ping = s.ping := rfl
@[simp] theorem State.updChain_tal (s : State) (n : Nat) (f : Chain → Chain) : (s.updChain n f).tal = s.tal := rfl
@[simp] theorem State.updChain_die (s : State) (n : Nat) (f : Chain → Chain) : (s.updChain n f).die = s.die := rfl
@[simp] theorem State.updChain_memp (s : State) (n : Nat) (f : Chain → Chain) : (s.updChain n f).memp = s.memp := rfl
@[simp] theorem State.updChain_mgmt (s : State) (n : Nat) (f : Chain → Chain) : (s.updChain n f).mgmt = s.mgmt := rfl
@[simp] theorem State.updChain_upd (s : State) (n : Nat) (f : Chain → Chain) : (s.updChain n f).upd = s.upd := rfl
@[simp] theorem State.updChain_wakes (s : State) (n : Nat) (f : Chain → Chain) : (s.updChain n f).wakes = s.wakes := rfl
@[simp] theorem State.updChain_wakeAt (s : State) (n : Nat) (f : Chain → Chain) : (s.updChain n f).wakeAt = s.wakeAt := rfl
@[simp] theorem State.updChain_hot (s : State) (n : Nat) (f : Chain → Chain) : (s.updChain n f).hot = s.hot := rfl
@[simp] theorem State.updChain_hotOut (s : State) (n : Nat) (f : Chain → Chain) : (s.updChain n f).hotOut = s.hotOut := rfl
@[simp] theorem State.updChain_hotRead (s : State) (n : Nat) (f : Chain → Chain) : (s.updChain n f).hotRead = s.hotRead := rfl
@[simp] theorem State.updChain_broughtUp (s : State) (n : Nat) (f : Chain → Chain) : (s.updChain n f).broughtUp = s.broughtUp := rfl
@[simp] theorem State.updChain_tdo (s : State) (n : Nat) (f : Chain → Chain) : (s.updChain n f).tdo = s.tdo := rfl
@[simp] theorem State.updChain_pending (s : State) (n : Nat) (f : Chain → Chain) : (s.updChain n f).pending = s.pending := rfl

/-! ## updBeam -/

@[simp] theorem State.updBeam_phase (s : State) (m : Nat) (f : Beam → Beam) : (s.updBeam m f).phase = s.phase := rfl
@[simp] theorem State.updBeam_resets (s : State) (m : Nat) (f : Beam → Beam) : (s.updBeam m f).resets = s.resets := rfl
@[simp] theorem State.updBeam_thermHold (s : State) (m : Nat) (f : Beam → Beam) : (s.updBeam m f).thermHold = s.thermHold := rfl
@[simp] theorem State.updBeam_freeCtr (s : State) (m : Nat) (f : Beam → Beam) : (s.updBeam m f).freeCtr = s.freeCtr := rfl
@[simp] theorem State.updBeam_timeBase (s : State) (m : Nat) (f : Beam → Beam) : (s.updBeam m f).timeBase = s.timeBase := rfl
@[simp] theorem State.updBeam_up (s : State) (m : Nat) (f : Beam → Beam) : (s.updBeam m f).up = s.up := rfl
@[simp] theorem State.updBeam_aoFrac (s : State) (m : Nat) (f : Beam → Beam) : (s.updBeam m f).aoFrac = s.aoFrac := rfl
@[simp] theorem State.updBeam_board (s : State) (m : Nat) (f : Beam → Beam) : (s.updBeam m f).board = s.board := rfl
@[simp] theorem State.updBeam_lands (s : State) (m : Nat) (f : Beam → Beam) : (s.updBeam m f).lands = s.lands := rfl
@[simp] theorem State.updBeam_bscan (s : State) (m : Nat) (f : Beam → Beam) : (s.updBeam m f).bscan = s.bscan := rfl
@[simp] theorem State.updBeam_tap (s : State) (m : Nat) (f : Beam → Beam) : (s.updBeam m f).tap = s.tap := rfl
@[simp] theorem State.updBeam_regs (s : State) (m : Nat) (f : Beam → Beam) : (s.updBeam m f).regs = s.regs := rfl
@[simp] theorem State.updBeam_latches (s : State) (m : Nat) (f : Beam → Beam) : (s.updBeam m f).latches = s.latches := rfl
@[simp] theorem State.updBeam_staging (s : State) (m : Nat) (f : Beam → Beam) : (s.updBeam m f).staging = s.staging := rfl
@[simp] theorem State.updBeam_hp (s : State) (m : Nat) (f : Beam → Beam) : (s.updBeam m f).hp = s.hp := rfl
@[simp] theorem State.updBeam_cmds (s : State) (m : Nat) (f : Beam → Beam) : (s.updBeam m f).cmds = s.cmds := rfl
@[simp] theorem State.updBeam_hostNext (s : State) (m : Nat) (f : Beam → Beam) : (s.updBeam m f).hostNext = s.hostNext := rfl
@[simp] theorem State.updBeam_hostWrap (s : State) (m : Nat) (f : Beam → Beam) : (s.updBeam m f).hostWrap = s.hostWrap := rfl
@[simp] theorem State.updBeam_schedNext (s : State) (m : Nat) (f : Beam → Beam) : (s.updBeam m f).schedNext = s.schedNext := rfl
@[simp] theorem State.updBeam_schedWrap (s : State) (m : Nat) (f : Beam → Beam) : (s.updBeam m f).schedWrap = s.schedWrap := rfl
@[simp] theorem State.updBeam_abortedEnded (s : State) (m : Nat) (f : Beam → Beam) : (s.updBeam m f).abortedEnded = s.abortedEnded := rfl
@[simp] theorem State.updBeam_acc (s : State) (m : Nat) (f : Beam → Beam) : (s.updBeam m f).acc = s.acc := rfl
@[simp] theorem State.updBeam_fifo (s : State) (m : Nat) (f : Beam → Beam) : (s.updBeam m f).fifo = s.fifo := rfl
@[simp] theorem State.updBeam_txc (s : State) (m : Nat) (f : Beam → Beam) : (s.updBeam m f).txc = s.txc := rfl
@[simp] theorem State.updBeam_chains (s : State) (m : Nat) (f : Beam → Beam) : (s.updBeam m f).chains = s.chains := rfl
@[simp] theorem State.updBeam_crcQ (s : State) (m : Nat) (f : Beam → Beam) : (s.updBeam m f).crcQ = s.crcQ := rfl
@[simp] theorem State.updBeam_phi (s : State) (m : Nat) (f : Beam → Beam) : (s.updBeam m f).phi = s.phi := rfl
@[simp] theorem State.updBeam_refAt (s : State) (m : Nat) (f : Beam → Beam) : (s.updBeam m f).refAt = s.refAt := rfl
@[simp] theorem State.updBeam_phiFlash (s : State) (m : Nat) (f : Beam → Beam) : (s.updBeam m f).phiFlash = s.phiFlash := rfl
@[simp] theorem State.updBeam_seeds (s : State) (m : Nat) (f : Beam → Beam) : (s.updBeam m f).seeds = s.seeds := rfl
@[simp] theorem State.updBeam_seedWt (s : State) (m : Nat) (f : Beam → Beam) : (s.updBeam m f).seedWt = s.seedWt := rfl
@[simp] theorem State.updBeam_unusable (s : State) (m : Nat) (f : Beam → Beam) : (s.updBeam m f).unusable = s.unusable := rfl
@[simp] theorem State.updBeam_wts (s : State) (m : Nat) (f : Beam → Beam) : (s.updBeam m f).wts = s.wts := rfl
@[simp] theorem State.updBeam_divAt (s : State) (m : Nat) (f : Beam → Beam) : (s.updBeam m f).divAt = s.divAt := rfl
@[simp] theorem State.updBeam_calNext (s : State) (m : Nat) (f : Beam → Beam) : (s.updBeam m f).calNext = s.calNext := rfl
@[simp] theorem State.updBeam_chanOff (s : State) (m : Nat) (f : Beam → Beam) : (s.updBeam m f).chanOff = s.chanOff := rfl
@[simp] theorem State.updBeam_airLog (s : State) (m : Nat) (f : Beam → Beam) : (s.updBeam m f).airLog = s.airLog := rfl
@[simp] theorem State.updBeam_hopPos (s : State) (m : Nat) (f : Beam → Beam) : (s.updBeam m f).hopPos = s.hopPos := rfl
@[simp] theorem State.updBeam_rounds (s : State) (m : Nat) (f : Beam → Beam) : (s.updBeam m f).rounds = s.rounds := rfl
@[simp] theorem State.updBeam_dueAt (s : State) (m : Nat) (f : Beam → Beam) : (s.updBeam m f).dueAt = s.dueAt := rfl
@[simp] theorem State.updBeam_cands (s : State) (m : Nat) (f : Beam → Beam) : (s.updBeam m f).cands = s.cands := rfl
@[simp] theorem State.updBeam_shed (s : State) (m : Nat) (f : Beam → Beam) : (s.updBeam m f).shed = s.shed := rfl
@[simp] theorem State.updBeam_coal (s : State) (m : Nat) (f : Beam → Beam) : (s.updBeam m f).coal = s.coal := rfl
@[simp] theorem State.updBeam_seen (s : State) (m : Nat) (f : Beam → Beam) : (s.updBeam m f).seen = s.seen := rfl
@[simp] theorem State.updBeam_seenWb (s : State) (m : Nat) (f : Beam → Beam) : (s.updBeam m f).seenWb = s.seenWb := rfl
@[simp] theorem State.updBeam_pop (s : State) (m : Nat) (f : Beam → Beam) : (s.updBeam m f).pop = s.pop := rfl
@[simp] theorem State.updBeam_fetches (s : State) (m : Nat) (f : Beam → Beam) : (s.updBeam m f).fetches = s.fetches := rfl
@[simp] theorem State.updBeam_umTags (s : State) (m : Nat) (f : Beam → Beam) : (s.updBeam m f).umTags = s.umTags := rfl
@[simp] theorem State.updBeam_umDiag (s : State) (m : Nat) (f : Beam → Beam) : (s.updBeam m f).umDiag = s.umDiag := rfl
@[simp] theorem State.updBeam_quar (s : State) (m : Nat) (f : Beam → Beam) : (s.updBeam m f).quar = s.quar := rfl
@[simp] theorem State.updBeam_peer (s : State) (m : Nat) (f : Beam → Beam) : (s.updBeam m f).peer = s.peer := rfl
@[simp] theorem State.updBeam_crcHost (s : State) (m : Nat) (f : Beam → Beam) : (s.updBeam m f).crcHost = s.crcHost := rfl
@[simp] theorem State.updBeam_tag (s : State) (m : Nat) (f : Beam → Beam) : (s.updBeam m f).tag = s.tag := rfl
@[simp] theorem State.updBeam_ping (s : State) (m : Nat) (f : Beam → Beam) : (s.updBeam m f).ping = s.ping := rfl
@[simp] theorem State.updBeam_tal (s : State) (m : Nat) (f : Beam → Beam) : (s.updBeam m f).tal = s.tal := rfl
@[simp] theorem State.updBeam_die (s : State) (m : Nat) (f : Beam → Beam) : (s.updBeam m f).die = s.die := rfl
@[simp] theorem State.updBeam_memp (s : State) (m : Nat) (f : Beam → Beam) : (s.updBeam m f).memp = s.memp := rfl
@[simp] theorem State.updBeam_mgmt (s : State) (m : Nat) (f : Beam → Beam) : (s.updBeam m f).mgmt = s.mgmt := rfl
@[simp] theorem State.updBeam_upd (s : State) (m : Nat) (f : Beam → Beam) : (s.updBeam m f).upd = s.upd := rfl
@[simp] theorem State.updBeam_wakes (s : State) (m : Nat) (f : Beam → Beam) : (s.updBeam m f).wakes = s.wakes := rfl
@[simp] theorem State.updBeam_wakeAt (s : State) (m : Nat) (f : Beam → Beam) : (s.updBeam m f).wakeAt = s.wakeAt := rfl
@[simp] theorem State.updBeam_hot (s : State) (m : Nat) (f : Beam → Beam) : (s.updBeam m f).hot = s.hot := rfl
@[simp] theorem State.updBeam_hotOut (s : State) (m : Nat) (f : Beam → Beam) : (s.updBeam m f).hotOut = s.hotOut := rfl
@[simp] theorem State.updBeam_hotRead (s : State) (m : Nat) (f : Beam → Beam) : (s.updBeam m f).hotRead = s.hotRead := rfl
@[simp] theorem State.updBeam_broughtUp (s : State) (m : Nat) (f : Beam → Beam) : (s.updBeam m f).broughtUp = s.broughtUp := rfl
@[simp] theorem State.updBeam_tdo (s : State) (m : Nat) (f : Beam → Beam) : (s.updBeam m f).tdo = s.tdo := rfl
@[simp] theorem State.updBeam_pending (s : State) (m : Nat) (f : Beam → Beam) : (s.updBeam m f).pending = s.pending := rfl

/-! ## updRound -/

@[simp] theorem State.updRound_phase (s : State) (w : Nat) (f : Round → Round) : (s.updRound w f).phase = s.phase := rfl
@[simp] theorem State.updRound_resets (s : State) (w : Nat) (f : Round → Round) : (s.updRound w f).resets = s.resets := rfl
@[simp] theorem State.updRound_thermHold (s : State) (w : Nat) (f : Round → Round) : (s.updRound w f).thermHold = s.thermHold := rfl
@[simp] theorem State.updRound_freeCtr (s : State) (w : Nat) (f : Round → Round) : (s.updRound w f).freeCtr = s.freeCtr := rfl
@[simp] theorem State.updRound_timeBase (s : State) (w : Nat) (f : Round → Round) : (s.updRound w f).timeBase = s.timeBase := rfl
@[simp] theorem State.updRound_up (s : State) (w : Nat) (f : Round → Round) : (s.updRound w f).up = s.up := rfl
@[simp] theorem State.updRound_aoFrac (s : State) (w : Nat) (f : Round → Round) : (s.updRound w f).aoFrac = s.aoFrac := rfl
@[simp] theorem State.updRound_board (s : State) (w : Nat) (f : Round → Round) : (s.updRound w f).board = s.board := rfl
@[simp] theorem State.updRound_lands (s : State) (w : Nat) (f : Round → Round) : (s.updRound w f).lands = s.lands := rfl
@[simp] theorem State.updRound_bscan (s : State) (w : Nat) (f : Round → Round) : (s.updRound w f).bscan = s.bscan := rfl
@[simp] theorem State.updRound_tap (s : State) (w : Nat) (f : Round → Round) : (s.updRound w f).tap = s.tap := rfl
@[simp] theorem State.updRound_regs (s : State) (w : Nat) (f : Round → Round) : (s.updRound w f).regs = s.regs := rfl
@[simp] theorem State.updRound_latches (s : State) (w : Nat) (f : Round → Round) : (s.updRound w f).latches = s.latches := rfl
@[simp] theorem State.updRound_staging (s : State) (w : Nat) (f : Round → Round) : (s.updRound w f).staging = s.staging := rfl
@[simp] theorem State.updRound_hp (s : State) (w : Nat) (f : Round → Round) : (s.updRound w f).hp = s.hp := rfl
@[simp] theorem State.updRound_cmds (s : State) (w : Nat) (f : Round → Round) : (s.updRound w f).cmds = s.cmds := rfl
@[simp] theorem State.updRound_hostNext (s : State) (w : Nat) (f : Round → Round) : (s.updRound w f).hostNext = s.hostNext := rfl
@[simp] theorem State.updRound_hostWrap (s : State) (w : Nat) (f : Round → Round) : (s.updRound w f).hostWrap = s.hostWrap := rfl
@[simp] theorem State.updRound_schedNext (s : State) (w : Nat) (f : Round → Round) : (s.updRound w f).schedNext = s.schedNext := rfl
@[simp] theorem State.updRound_schedWrap (s : State) (w : Nat) (f : Round → Round) : (s.updRound w f).schedWrap = s.schedWrap := rfl
@[simp] theorem State.updRound_abortedEnded (s : State) (w : Nat) (f : Round → Round) : (s.updRound w f).abortedEnded = s.abortedEnded := rfl
@[simp] theorem State.updRound_acc (s : State) (w : Nat) (f : Round → Round) : (s.updRound w f).acc = s.acc := rfl
@[simp] theorem State.updRound_fifo (s : State) (w : Nat) (f : Round → Round) : (s.updRound w f).fifo = s.fifo := rfl
@[simp] theorem State.updRound_txc (s : State) (w : Nat) (f : Round → Round) : (s.updRound w f).txc = s.txc := rfl
@[simp] theorem State.updRound_chains (s : State) (w : Nat) (f : Round → Round) : (s.updRound w f).chains = s.chains := rfl
@[simp] theorem State.updRound_beams (s : State) (w : Nat) (f : Round → Round) : (s.updRound w f).beams = s.beams := rfl
@[simp] theorem State.updRound_crcQ (s : State) (w : Nat) (f : Round → Round) : (s.updRound w f).crcQ = s.crcQ := rfl
@[simp] theorem State.updRound_phi (s : State) (w : Nat) (f : Round → Round) : (s.updRound w f).phi = s.phi := rfl
@[simp] theorem State.updRound_refAt (s : State) (w : Nat) (f : Round → Round) : (s.updRound w f).refAt = s.refAt := rfl
@[simp] theorem State.updRound_phiFlash (s : State) (w : Nat) (f : Round → Round) : (s.updRound w f).phiFlash = s.phiFlash := rfl
@[simp] theorem State.updRound_seeds (s : State) (w : Nat) (f : Round → Round) : (s.updRound w f).seeds = s.seeds := rfl
@[simp] theorem State.updRound_seedWt (s : State) (w : Nat) (f : Round → Round) : (s.updRound w f).seedWt = s.seedWt := rfl
@[simp] theorem State.updRound_unusable (s : State) (w : Nat) (f : Round → Round) : (s.updRound w f).unusable = s.unusable := rfl
@[simp] theorem State.updRound_wts (s : State) (w : Nat) (f : Round → Round) : (s.updRound w f).wts = s.wts := rfl
@[simp] theorem State.updRound_divAt (s : State) (w : Nat) (f : Round → Round) : (s.updRound w f).divAt = s.divAt := rfl
@[simp] theorem State.updRound_calNext (s : State) (w : Nat) (f : Round → Round) : (s.updRound w f).calNext = s.calNext := rfl
@[simp] theorem State.updRound_chanOff (s : State) (w : Nat) (f : Round → Round) : (s.updRound w f).chanOff = s.chanOff := rfl
@[simp] theorem State.updRound_airLog (s : State) (w : Nat) (f : Round → Round) : (s.updRound w f).airLog = s.airLog := rfl
@[simp] theorem State.updRound_hopPos (s : State) (w : Nat) (f : Round → Round) : (s.updRound w f).hopPos = s.hopPos := rfl
@[simp] theorem State.updRound_dueAt (s : State) (w : Nat) (f : Round → Round) : (s.updRound w f).dueAt = s.dueAt := rfl
@[simp] theorem State.updRound_cands (s : State) (w : Nat) (f : Round → Round) : (s.updRound w f).cands = s.cands := rfl
@[simp] theorem State.updRound_shed (s : State) (w : Nat) (f : Round → Round) : (s.updRound w f).shed = s.shed := rfl
@[simp] theorem State.updRound_coal (s : State) (w : Nat) (f : Round → Round) : (s.updRound w f).coal = s.coal := rfl
@[simp] theorem State.updRound_seen (s : State) (w : Nat) (f : Round → Round) : (s.updRound w f).seen = s.seen := rfl
@[simp] theorem State.updRound_seenWb (s : State) (w : Nat) (f : Round → Round) : (s.updRound w f).seenWb = s.seenWb := rfl
@[simp] theorem State.updRound_pop (s : State) (w : Nat) (f : Round → Round) : (s.updRound w f).pop = s.pop := rfl
@[simp] theorem State.updRound_fetches (s : State) (w : Nat) (f : Round → Round) : (s.updRound w f).fetches = s.fetches := rfl
@[simp] theorem State.updRound_umTags (s : State) (w : Nat) (f : Round → Round) : (s.updRound w f).umTags = s.umTags := rfl
@[simp] theorem State.updRound_umDiag (s : State) (w : Nat) (f : Round → Round) : (s.updRound w f).umDiag = s.umDiag := rfl
@[simp] theorem State.updRound_quar (s : State) (w : Nat) (f : Round → Round) : (s.updRound w f).quar = s.quar := rfl
@[simp] theorem State.updRound_peer (s : State) (w : Nat) (f : Round → Round) : (s.updRound w f).peer = s.peer := rfl
@[simp] theorem State.updRound_crcHost (s : State) (w : Nat) (f : Round → Round) : (s.updRound w f).crcHost = s.crcHost := rfl
@[simp] theorem State.updRound_tag (s : State) (w : Nat) (f : Round → Round) : (s.updRound w f).tag = s.tag := rfl
@[simp] theorem State.updRound_ping (s : State) (w : Nat) (f : Round → Round) : (s.updRound w f).ping = s.ping := rfl
@[simp] theorem State.updRound_tal (s : State) (w : Nat) (f : Round → Round) : (s.updRound w f).tal = s.tal := rfl
@[simp] theorem State.updRound_die (s : State) (w : Nat) (f : Round → Round) : (s.updRound w f).die = s.die := rfl
@[simp] theorem State.updRound_memp (s : State) (w : Nat) (f : Round → Round) : (s.updRound w f).memp = s.memp := rfl
@[simp] theorem State.updRound_mgmt (s : State) (w : Nat) (f : Round → Round) : (s.updRound w f).mgmt = s.mgmt := rfl
@[simp] theorem State.updRound_upd (s : State) (w : Nat) (f : Round → Round) : (s.updRound w f).upd = s.upd := rfl
@[simp] theorem State.updRound_wakes (s : State) (w : Nat) (f : Round → Round) : (s.updRound w f).wakes = s.wakes := rfl
@[simp] theorem State.updRound_wakeAt (s : State) (w : Nat) (f : Round → Round) : (s.updRound w f).wakeAt = s.wakeAt := rfl
@[simp] theorem State.updRound_hot (s : State) (w : Nat) (f : Round → Round) : (s.updRound w f).hot = s.hot := rfl
@[simp] theorem State.updRound_hotOut (s : State) (w : Nat) (f : Round → Round) : (s.updRound w f).hotOut = s.hotOut := rfl
@[simp] theorem State.updRound_hotRead (s : State) (w : Nat) (f : Round → Round) : (s.updRound w f).hotRead = s.hotRead := rfl
@[simp] theorem State.updRound_broughtUp (s : State) (w : Nat) (f : Round → Round) : (s.updRound w f).broughtUp = s.broughtUp := rfl
@[simp] theorem State.updRound_tdo (s : State) (w : Nat) (f : Round → Round) : (s.updRound w f).tdo = s.tdo := rfl
@[simp] theorem State.updRound_pending (s : State) (w : Nat) (f : Round → Round) : (s.updRound w f).pending = s.pending := rfl

end Sys2Proof.Machine
end

