-- ==== Sys2Proof/Laws/Registers.lean ====
section
/-! SUPPORT. Registers and their fields: what a read gives after a write, of the same register or field and of another. -/
namespace Sys2Proof.Machine

/-! ## Registers -/

/-- A write to one register leaves every other. -/
theorem State.reg_setReg_other (s : State) {a b : Nat} (w : Word) (h : b ≠ a) : (s.setReg a w).reg b = s.reg b :=
  sget_sput_other _ _ h

/-- A write gives the word written. -/
theorem State.reg_setReg_same {s : State} (h : s.regsWf = true) (a : Nat) (w : Word) : (s.setReg a w).reg a = w :=
  sget_sput_same h a w

/-- A write keeps the canonical form. -/
theorem State.regsWf_setReg {s : State} (h : s.regsWf = true) (a : Nat) (w : Word) : (s.setReg a w).regsWf = true := swf_sput h a w

/-- What reading a register gives after a write, both cases. -/
theorem State.reg_setReg {s : State} (h : s.regsWf = true) (a b : Nat) (w : Word) :
    (s.setReg a w).reg b = if b = a then w else s.reg b := by
  split
  · subst_vars; exact State.reg_setReg_same h _ _
  · exact s.reg_setReg_other w ‹_›

/-- A state with other fields changed reads its registers alike. -/
theorem State.reg_congr {s t : State} (h : t.regs = s.regs) (a : Nat) : t.reg a = s.reg a := by simp only [State.reg, h]

/-! ## Fields of a word -/

/-- The numbers below a power of two that a field write leaves below it. -/
theorem setFieldN_toNat (w : Word) (lo n v : Nat) (h : lo + n ≤ 32) :
    (setFieldN w lo n v).toNat = w.toNat % 2 ^ lo + (v % 2 ^ n) * 2 ^ lo + w.toNat / 2 ^ (lo + n) * 2 ^ (lo + n) := by
  have hw := w.isLt
  have h1 : w.toNat % 2 ^ lo < 2 ^ lo := Nat.mod_lt _ (Nat.two_pow_pos _)
  have h2 : v % 2 ^ n < 2 ^ n := Nat.mod_lt _ (Nat.two_pow_pos _)
  have h3 : (v % 2 ^ n) * 2 ^ lo ≤ (2 ^ n - 1) * 2 ^ lo := Nat.mul_le_mul_right _ (by omega)
  have h4 : 2 ^ (lo + n) = 2 ^ n * 2 ^ lo := by rw [Nat.pow_add, Nat.mul_comm]
  have h5 : (2 ^ n - 1) * 2 ^ lo = 2 ^ n * 2 ^ lo - 2 ^ lo := by rw [Nat.sub_mul, Nat.one_mul]
  have h6 : 2 ^ lo ≤ 2 ^ n * 2 ^ lo := Nat.le_mul_of_pos_left _ (Nat.two_pow_pos _)
  have h7 : (2 : Nat) ^ 32 = 2 ^ (32 - (lo + n)) * 2 ^ (lo + n) := by rw [← Nat.pow_add]; congr 1; omega
  have h8 : w.toNat / 2 ^ (lo + n) < 2 ^ (32 - (lo + n)) := by
    rw [Nat.div_lt_iff_lt_mul (Nat.two_pow_pos _)]
    omega
  have h9 : w.toNat / 2 ^ (lo + n) * 2 ^ (lo + n) ≤ (2 ^ (32 - (lo + n)) - 1) * 2 ^ (lo + n) := Nat.mul_le_mul_right _ (by omega)
  have h10 : (2 ^ (32 - (lo + n)) - 1) * 2 ^ (lo + n) = 2 ^ (32 - (lo + n)) * 2 ^ (lo + n) - 2 ^ (lo + n) := by
    rw [Nat.sub_mul, Nat.one_mul]
  have h11 : 2 ^ (lo + n) ≤ 2 ^ (32 - (lo + n)) * 2 ^ (lo + n) := Nat.le_mul_of_pos_left _ (Nat.two_pow_pos _)
  unfold setFieldN
  rw [BitVec.toNat_ofNat, Nat.mod_eq_of_lt]
  omega

/-- A field reads what was written into it. -/
theorem fieldN_setFieldN_same (w : Word) (lo n v : Nat) (h : lo + n ≤ 32) : fieldN (setFieldN w lo n v) lo n = v % 2 ^ n := by
  unfold fieldN
  rw [setFieldN_toNat w lo n v h]
  have h1 : w.toNat % 2 ^ lo < 2 ^ lo := Nat.mod_lt _ (Nat.two_pow_pos _)
  have h4 : w.toNat / 2 ^ (lo + n) * 2 ^ (lo + n) = (w.toNat / 2 ^ (lo + n) * 2 ^ n) * 2 ^ lo := by
    rw [Nat.pow_add, Nat.mul_comm (2 ^ lo), Nat.mul_assoc]
  have h5 : w.toNat % 2 ^ lo + v % 2 ^ n * 2 ^ lo + w.toNat / 2 ^ (lo + n) * 2 ^ (lo + n) =
      w.toNat % 2 ^ lo + (v % 2 ^ n + w.toNat / 2 ^ (lo + n) * 2 ^ n) * 2 ^ lo := by
    rw [h4, Nat.add_mul]; omega
  rw [h5, Nat.add_mul_div_right _ _ (Nat.two_pow_pos _), Nat.div_eq_of_lt h1, Nat.zero_add, Nat.add_mul_mod_self_right,
    Nat.mod_mod]

/-- A field that lies beside the one written is unchanged. -/
theorem fieldN_setFieldN_other (w : Word) (lo n v lo' n' : Nat) (h : lo + n ≤ 32) (d : lo' + n' ≤ lo ∨ lo + n ≤ lo') :
    fieldN (setFieldN w lo n v) lo' n' = fieldN w lo' n' := by
  unfold fieldN
  rw [setFieldN_toNat w lo n v h]
  rcases d with d | d
  · have e : lo = lo' + n' + (lo - (lo' + n')) := by omega
    have p1 : (2 : Nat) ^ lo = 2 ^ (lo' + n') * 2 ^ (lo - (lo' + n')) := by rw [← Nat.pow_add, ← e]
    have p2 : (2 : Nat) ^ (lo + n) = 2 ^ (lo' + n') * (2 ^ (lo - (lo' + n')) * 2 ^ n) := by
      rw [← Nat.mul_assoc, ← p1, Nat.pow_add]
    have q : ∀ x : Nat, x / 2 ^ lo' % 2 ^ n' = x % 2 ^ (lo' + n') / 2 ^ lo' := by
      intro x
      rw [Nat.pow_add, Nat.mod_mul_right_div_self]
    rw [q, q]
    congr 1
    have r1 : w.toNat % 2 ^ lo % 2 ^ (lo' + n') = w.toNat % 2 ^ (lo' + n') := by
      rw [p1]; exact Nat.mod_mul_right_mod _ _ _
    have r2 : v % 2 ^ n * 2 ^ lo = 2 ^ (lo' + n') * (2 ^ (lo - (lo' + n')) * (v % 2 ^ n)) := by
      rw [p1, Nat.mul_comm (v % 2 ^ n), Nat.mul_assoc]
    have r3 : w.toNat / 2 ^ (lo + n) * 2 ^ (lo + n) =
        2 ^ (lo' + n') * (2 ^ (lo - (lo' + n')) * 2 ^ n * (w.toNat / 2 ^ (lo + n))) := by
      rw [Nat.mul_comm, p2, Nat.mul_assoc, ← p2]
    rw [r2, r3, Nat.add_mul_mod_self_left, Nat.add_mul_mod_self_left, r1]
  · have e : lo' = lo + n + (lo' - (lo + n)) := by omega
    have p : (2 : Nat) ^ lo' = 2 ^ (lo + n) * 2 ^ (lo' - (lo + n)) := by rw [← Nat.pow_add, ← e]
    congr 1
    rw [p, ← Nat.div_div_eq_div_mul, ← Nat.div_div_eq_div_mul]
    congr 1
    have h1 : w.toNat % 2 ^ lo < 2 ^ lo := Nat.mod_lt _ (Nat.two_pow_pos _)
    have h2 : v % 2 ^ n < 2 ^ n := Nat.mod_lt _ (Nat.two_pow_pos _)
    have h3 : v % 2 ^ n * 2 ^ lo ≤ (2 ^ n - 1) * 2 ^ lo := Nat.mul_le_mul_right _ (by omega)
    have h5 : (2 ^ n - 1) * 2 ^ lo = 2 ^ n * 2 ^ lo - 2 ^ lo := by rw [Nat.sub_mul, Nat.one_mul]
    have h6 : 2 ^ lo ≤ 2 ^ n * 2 ^ lo := Nat.le_mul_of_pos_left _ (Nat.two_pow_pos _)
    have h7 : 2 ^ (lo + n) = 2 ^ n * 2 ^ lo := by rw [Nat.pow_add, Nat.mul_comm]
    rw [Nat.add_mul_div_right _ _ (Nat.two_pow_pos _), Nat.div_eq_of_lt (by omega), Nat.zero_add]

/-- A bit reads what was written into it. -/
theorem bitN_setBitN_same (w : Word) (b : Nat) (v : Bool) (h : b < 32) : bitN (setBitN w b v) b = v := by
  unfold bitN setBitN
  rw [fieldN_setFieldN_same _ _ _ _ (by omega)]
  cases v <;> rfl

/-- Another bit is unchanged. -/
theorem bitN_setBitN_other (w : Word) {b c : Nat} (v : Bool) (h : b < 32) (d : c ≠ b) : bitN (setBitN w b v) c = bitN w c := by
  unfold bitN setBitN
  rw [fieldN_setFieldN_other _ _ _ _ _ _ (by omega) (by omega)]

/-! ## Fields of a register -/

/-- A field written reads its new value. -/
theorem State.fld_setFld_same {s : State} (h : s.regsWf = true) (a lo n v : Nat) (l : lo + n ≤ 32) :
    (s.setFld a lo n v).fld a lo n = v % 2 ^ n := by
  unfold State.fld State.setFld
  rw [State.reg_setReg_same h, fieldN_setFieldN_same _ _ _ _ l]

/-- A bit written reads its new value. -/
theorem State.bit_setBit_same {s : State} (h : s.regsWf = true) (a b : Nat) (v : Bool) (l : b < 32) :
    (s.setBit a b v).bit a b = v := by
  unfold State.bit State.setBit
  rw [State.reg_setReg_same h, bitN_setBitN_same _ _ _ l]

/-- A write to a field leaves every other register. -/
theorem State.reg_setFld_other (s : State) {a b : Nat} (lo n v : Nat) (h : b ≠ a) : (s.setFld a lo n v).reg b = s.reg b :=
  s.reg_setReg_other _ h

/-- A write to a bit leaves every other register. -/
theorem State.reg_setBit_other (s : State) {a b : Nat} (k : Nat) (v : Bool) (h : b ≠ a) : (s.setBit a k v).reg b = s.reg b :=
  s.reg_setReg_other _ h

/-- A counter that counts leaves every other register. -/
theorem State.reg_cnt_other (s : State) {a b : Nat} (h : b ≠ a) : (s.cnt a).reg b = s.reg b := s.reg_setReg_other _ h

/-- A counter that counts holds one more. -/
theorem State.reg_cnt_same {s : State} (h : s.regsWf = true) (a : Nat) : (s.cnt a).reg a = s.reg a + 1 :=
  State.reg_setReg_same h a _

/-- A cause raised is pending. -/
theorem State.bit_raise_same {s : State} (h : s.regsWf = true) (c : Nat) (l : c < 32) : (s.raise c).bit Reg.sysIrqPend c = true :=
  State.bit_setBit_same h _ _ _ l

/-- Raising a cause leaves every other register. -/
theorem State.reg_raise_other (s : State) {a : Nat} (c : Nat) (h : a ≠ Reg.sysIrqPend) : (s.raise c).reg a = s.reg a :=
  s.reg_setReg_other _ h

end Sys2Proof.Machine
end

