-- ==== Sys2Proof/Laws/Commands.lean ====
section
/-! SUPPORT. A host command from its write to the end of its frame (R146 to R150): what its acceptance leaves, and what its completion at that
instant, or its staying live, adds. -/
namespace Sys2Proof.Machine

/-! ## The parts of `hostCan` and `canIssue` -/

theorem State.wake_active {s : State} (h : s.phase = .active) (hc : s.sameCycle = false) (k : Nat) : s.wake k = s := by
  simp only [State.wake, State.sleeping, h]
  cases hw : s.wakeAt with
  | none => rfl
  | some x => simp only [hc, Bool.false_and, Bool.false_eq_true, if_false]

/-- What `hostCan` says, part by part. -/
theorem State.hostCan_iff {s : State} {a : Nat} : s.hostCan a = true ↔ s.phase = .active ∧ s.hostUp = true ∧ s.clockRuns a = true ∧
    s.regsWf = true ∧ s.hp.frame = none ∧ s.wrPend = false ∧ s.sameCycle = false := by
  simp only [State.hostCan, Bool.and_eq_true, decide_eq_true_eq, Bool.not_eq_true', Option.isNone_iff_eq_none, and_assoc]

theorem State.hostCan_wf {s : State} {a : Nat} (h : s.hostCan a = true) : s.regsWf = true := (State.hostCan_iff.mp h).2.2.2.1

/-- A write of the host that can be performed is one frame: its words lie under running clocks and in no crumb. -/
theorem State.hostWrite_can {s : State} {a : Nat} {ws : List Word} (h : s.hostCan a = true) (hr : s.burstRuns a 0 = true)
    (hc : wireCrumbs a (max 1 ws.length) = []) (f : State → State) : s.hostWrite a ws f = (s.cnt Reg.hpFrames).single f := by
  obtain ⟨hp, hu, -, -, hf, hw, hs⟩ := State.hostCan_iff.mp h
  have hh : s.holdOf (Frame.open_ 2 (some (.wr a ws ⟨0, 0⟩)) (.written 0) .response) = none := by
    simp only [State.holdOf, hw, Frame.open_, hr, State.crumbHeld, Frame.crumbs, hc, List.any_nil, Bool.false_eq_true, Bool.not_true, if_false,
      ite_self]
  simp only [State.hostWrite, hf, State.wake_active hp hs, hu, hh, Option.isSome_none, Bool.not_true, Bool.false_eq_true, if_false]

theorem State.canIssue_can {s : State} {a : Nat} (h : s.canIssue a = true) : s.hostCan a = true := by
  simp only [State.canIssue, Bool.and_eq_true, decide_eq_true_eq] at h; exact h.1.1.1.1

theorem State.canIssue_wf {s : State} {a : Nat} (h : s.canIssue a = true) : s.regsWf = true := State.hostCan_wf (State.canIssue_can h)

theorem State.canIssue_live {s : State} {a : Nat} (h : s.canIssue a = true) : s.hostLive < 64 := by
  simp only [State.canIssue, Bool.and_eq_true, decide_eq_true_eq] at h; exact h.1.1.1.2

theorem State.canIssue_next {s : State} {a : Nat} (h : s.canIssue a = true) : 1 ≤ s.hostNext ∧ s.hostNext ≤ 0x7FFFFF := by
  simp only [State.canIssue, Bool.and_eq_true, decide_eq_true_eq] at h; exact ⟨h.1.1.2, h.1.2⟩

theorem State.canIssue_free {s : State} {a : Nat} (h : s.canIssue a = true) : ∀ c ∈ s.cmds, c.seq ≠ s.hostNext := by
  simp only [State.canIssue, Bool.and_eq_true, decide_eq_true_eq, List.all_eq_true, bne_iff_ne] at h; exact h.2

/-- Counting the frame (R116) leaves what the acceptance of its command needs. -/
theorem State.canIssue_cnt {s : State} {a : Nat} (h : s.canIssue a = true) : (s.cnt Reg.hpFrames).canIssue a = true := by
  have e : ∀ b, b ≠ Reg.hpFrames → (s.cnt Reg.hpFrames).reg b = s.reg b := fun b hb => s.reg_cnt_other hb
  have w : (s.cnt Reg.hpFrames).regsWf = true := State.regsWf_setReg (State.canIssue_wf h) _ _
  have b : ∀ r k, r ≠ Reg.hpFrames → (s.cnt Reg.hpFrames).bit r k = s.bit r k := fun r k hr => by rw [State.bit, e r hr]; rfl
  have c : (s.cnt Reg.hpFrames).clockRuns a = s.clockRuns a := by
    simp only [State.clockRuns, State.memOn, State.mgmtOn, State.coreOn, b Reg.sysClkstat _ (by decide)]
  have u : (s.cnt Reg.hpFrames).hostUp = s.hostUp := by
    simp only [State.hostUp, State.ready, b Reg.sysReady _ (by decide)]
    rfl
  have d : (s.cnt Reg.hpFrames).sameCycle = s.sameCycle := by
    simp only [State.sameCycle, State.aoCycle, e _ (show Reg.pwrAoTime ≠ Reg.hpFrames by decide)]
    rfl
  rw [State.canIssue, State.hostCan, w, c, u, d]
  rw [State.canIssue, State.hostCan, State.canIssue_wf h] at h
  exact h

/-! ## Acceptance -/

/-- The state in which an accepted command is carried out. -/
def State.accepted (s : State) (res : Nat) (kind : CmdKind) (cell : Option Bool) : State :=
  { s with hostNext := if s.hostNext = 0x7FFFFF then 1 else s.hostNext + 1, hostWrap := s.hostWrap || (s.hostNext == 0x7FFFFF),
           abortedEnded := s.abortedEnded.filter (fun n => n != s.hostNext),
           cmds := s.cmds ++ [{ seq := s.hostNext, res := some res, kind := kind, cell := cell }],
           acc := { count := 1, first := s.hostNext, last := s.hostNext, done := none, cur := some s.hostNext },
           regs := sput (fun _ => 0) s.regs res (wordOf s.hostNext) }

/-- Accepting a command assigns the next number and makes it live. -/
theorem State.accept_eq {s : State} {a : Nat} (h : s.canIssue a = true) (res : Nat) (kind : CmdKind) (cell : Option Bool) :
    s.beginFrame.accept res kind cell = (s.hostNext, s.accepted res kind cell) := by
  have h2 : (s.cmds.any (fun k => k.seq == s.hostNext)) = false := by
    rw [List.any_eq_false]; intro c hc; simpa using State.canIssue_free h c hc
  simp only [State.accept, State.assign, State.beginFrame, skipLive, h2, FrameAcc.init, State.accepted, Nat.zero_add, Bool.false_eq_true,
    if_false, State.setReg, Bool.false_or, if_true]

/-- Issuing a command that can be accepted runs its body on the accepted state. -/
theorem State.issue_eq {s : State} {a : Nat} (h : s.canIssue a = true) (res : Nat) (kind : CmdKind) (cell : Option Bool)
    (body : Nat → State → State) :
    s.single (fun s => s.issue res kind cell body) = ((body s.hostNext (s.accepted res kind cell)).endWrite).endFrame := by
  have h1 : ¬ s.beginFrame.hostLive ≥ 64 := Nat.not_le.mpr (State.canIssue_live h)
  simp only [State.single, State.issue, State.accept_eq h, h1, if_false]

/-! ## Completion -/

/-- What the completion of a live command at the instant of its acceptance leaves. -/
def State.closed (t : State) (n res : Nat) (st : Status) : State :=
  (((({ t with cmds := t.cmds.filter (fun k => k.seq != n),
               acc := { count := 1, first := n, last := n, done := some st, cur := none } } : State).setReg res
        (wordOf (2 ^ 31 + st.code * 2 ^ 24 + n))).setReg Reg.sysCmdFirst (wordOf (2 ^ 24 + n))).setReg Reg.sysCmdLast (wordOf n)).setReg
    Reg.sysCmdStat (wordOf (st.code * 256 + 1))

theorem State.complete_closed {t : State} {n res : Nat} {kind : CmdKind} {cell : Option Bool} (st : Status)
    (hc : t.cmd? n = some { seq := n, res := some res, kind := kind, cell := cell }) (hn : cell ≠ some false)
    (ha : t.acc = { count := 1, first := n, last := n, done := none, cur := some n }) (hr : t.fld res 0 24 = n) :
    ((t.complete n st).endWrite).endFrame = t.closed n res st := by
  have hf : ∀ (l : List Cmd) (x : List Nat) (c : FrameAcc), ({ t with cmds := l, abortedEnded := x, acc := c } : State).fld res 0 24 = n :=
    fun _ _ _ => hr
  simp only [State.complete, hc, hn, if_false, ha, if_true, hf, State.endWrite, State.endFrame, State.closed, satN,
    State.setReg]
  rfl

/-- What ends a frame whose command stays live. -/
def State.stayed (t : State) (n : Nat) : State :=
  ((({ t with acc := { count := 1, first := n, last := n, done := none, cur := none } } : State).setReg Reg.sysCmdFirst
      (wordOf (2 ^ 24 + n))).setReg Reg.sysCmdLast (wordOf n)).setReg Reg.sysCmdStat 0

theorem State.end_stayed {t : State} {n : Nat} (ha : t.acc = { count := 1, first := n, last := n, done := none, cur := some n }) :
    (t.endWrite).endFrame = t.stayed n := by
  simp only [State.endWrite, State.endFrame, ha, State.setReg, State.stayed, satN]
  rfl

/-! ## What `Completed` and `Accepted` need -/

theorem State.closed_reg (t : State) (n res : Nat) (st : Status) {a : Nat} (h : a ∉ issueRegs res) : (t.closed n res st).reg a = t.reg a := by
  simp only [issueRegs, List.mem_cons, List.not_mem_nil, or_false, not_or] at h
  obtain ⟨h1, h2, h3, h4, -⟩ := h
  simp only [State.closed]
  rw [State.reg_setReg_other _ _ h4, State.reg_setReg_other _ _ h3, State.reg_setReg_other _ _ h2, State.reg_setReg_other _ _ h1]
  rfl

theorem State.stayed_reg (t : State) (n : Nat) {a : Nat} (h2 : a ≠ Reg.sysCmdFirst) (h3 : a ≠ Reg.sysCmdLast) (h4 : a ≠ Reg.sysCmdStat) :
    (t.stayed n).reg a = t.reg a := by
  simp only [State.stayed]
  rw [State.reg_setReg_other _ _ h4, State.reg_setReg_other _ _ h3, State.reg_setReg_other _ _ h2]
  rfl

/-- A result register is none of the three registers of R150. -/
def resApart (res : Nat) : Bool := res != Reg.sysCmdFirst && res != Reg.sysCmdLast && res != Reg.sysCmdStat

theorem filter_snoc_fresh {l : List Cmd} {n : Nat} (h : ∀ c ∈ l, c.seq ≠ n) (c : Cmd) (hc : c.seq = n) :
    (l ++ [c]).filter (fun k => k.seq != n) = l := by
  rw [List.filter_append, List.filter_eq_self.mpr (by simpa using h)]
  simp [hc]

theorem find_snoc_fresh {l : List Cmd} {n : Nat} (h : ∀ c ∈ l, c.seq ≠ n) (c : Cmd) (hc : c.seq = n) :
    (l ++ [c]).find? (fun k => k.seq == n) = some c := by
  rw [List.find?_append, List.find?_eq_none.mpr (by simpa using h)]
  simp [hc]

/-- A command that completes at the instant of its acceptance: the state it leaves, and that it completed. -/
theorem State.issue_completed {s : State} {a res : Nat} {kind : CmdKind} {cell : Option Bool} {body : Nat → State → State} {st : Status}
    (u : State) (h : s.canIssue a = true) (hp : resApart res = true) (hn : cell ≠ some false)
    (hb : body s.hostNext (s.accepted res kind cell) = u.complete s.hostNext st)
    (hc : u.cmds = (s.accepted res kind cell).cmds) (ha : u.acc = (s.accepted res kind cell).acc)
    (hx : u.hostNext = (s.accepted res kind cell).hostNext) (hr : u.reg res = wordOf s.hostNext) (hw : u.regsWf = true) :
    s.single (fun s => s.issue res kind cell body) = u.closed s.hostNext res st ∧ s.Completed (u.closed s.hostNext res st) res st := by
  have hf := State.canIssue_free h
  have hl := State.canIssue_next h
  simp only [resApart, Bool.and_eq_true, bne_iff_ne] at hp
  have hfld : u.fld res 0 24 = s.hostNext := by
    rw [State.fld, hr, fieldN, wordOf, BitVec.toNat_ofNat]; omega
  have hcmd : u.cmd? s.hostNext = some { seq := s.hostNext, res := some res, kind := kind, cell := cell } := by
    rw [State.cmd?, hc]; exact find_snoc_fresh hf _ rfl
  refine ⟨by rw [State.issue_eq h, hb]; exact State.complete_closed st hcmd hn ha hfld, ?_⟩
  have w0 : ({ u with cmds := u.cmds.filter (fun k => k.seq != s.hostNext),
                       acc := { count := 1, first := s.hostNext, last := s.hostNext, done := some st, cur := none } } : State).regsWf = true := hw
  have w1 := State.regsWf_setReg w0 res (wordOf (2 ^ 31 + st.code * 2 ^ 24 + s.hostNext))
  have w2 := State.regsWf_setReg w1 Reg.sysCmdFirst (wordOf (2 ^ 24 + s.hostNext))
  have w3 := State.regsWf_setReg w2 Reg.sysCmdLast (wordOf s.hostNext)
  refine ⟨?_, ?_, ?_, ?_, ?_, ?_⟩
  · rw [State.closed, State.reg_setReg_other _ _ hp.2, State.reg_setReg_other _ _ hp.1.2, State.reg_setReg_other _ _ hp.1.1,
      State.reg_setReg_same w0]
  · rw [State.closed, State.reg_setReg_other _ _ (by decide), State.reg_setReg_other _ _ (by decide), State.reg_setReg_same w1]
  · rw [State.closed, State.reg_setReg_other _ _ (by decide), State.reg_setReg_same w2]
  · rw [State.closed, State.reg_setReg_same w3]
  · show u.hostNext = _
    rw [hx]; rfl
  · show u.cmds.filter _ = _
    rw [hc]; exact filter_snoc_fresh hf _ rfl

/-- A command that is live when its frame ends: the state it leaves, and that it was accepted. -/
theorem State.issue_accepted {s : State} {a res : Nat} {kind : CmdKind} {cell : Option Bool} {body : Nat → State → State}
    (u : State) (h : s.canIssue a = true) (hp : resApart res = true) (hb : body s.hostNext (s.accepted res kind cell) = u)
    (hc : u.cmds = (s.accepted res kind cell).cmds) (ha : u.acc = (s.accepted res kind cell).acc)
    (hx : u.hostNext = (s.accepted res kind cell).hostNext) (hr : u.reg res = wordOf s.hostNext) (hw : u.regsWf = true) :
    s.single (fun s => s.issue res kind cell body) = u.stayed s.hostNext ∧ s.Accepted (u.stayed s.hostNext) res kind cell := by
  simp only [resApart, Bool.and_eq_true, bne_iff_ne] at hp
  refine ⟨by rw [State.issue_eq h, hb]; exact State.end_stayed ha, ?_⟩
  have w0 : ({ u with acc := { count := 1, first := s.hostNext, last := s.hostNext, done := none, cur := none } } : State).regsWf = true := hw
  have w1 := State.regsWf_setReg w0 Reg.sysCmdFirst (wordOf (2 ^ 24 + s.hostNext))
  have w2 := State.regsWf_setReg w1 Reg.sysCmdLast (wordOf s.hostNext)
  refine ⟨?_, ?_, ?_, ?_, ?_, ?_⟩
  · rw [State.stayed_reg _ _ hp.1.1 hp.1.2 hp.2]; exact hr
  · rw [State.stayed, State.reg_setReg_other _ _ (by decide), State.reg_setReg_other _ _ (by decide), State.reg_setReg_same w0]
  · rw [State.stayed, State.reg_setReg_other _ _ (by decide), State.reg_setReg_same w1]
  · rw [State.stayed, State.reg_setReg_same w2]
  · show u.hostNext = _
    rw [hx]; rfl
  · show u.cmds = _
    rw [hc]; rfl

/-- The accepted state has the register file of `s` but for the result register. -/
theorem State.accepted_reg (s : State) (res : Nat) (kind : CmdKind) (cell : Option Bool) {a : Nat} (h : a ≠ res) :
    (s.accepted res kind cell).reg a = s.reg a := State.reg_setReg_other s _ h

theorem State.accepted_reg_res {s : State} (h : s.regsWf = true) (res : Nat) (kind : CmdKind) (cell : Option Bool) :
    (s.accepted res kind cell).reg res = wordOf s.hostNext := State.reg_setReg_same h res _

theorem State.accepted_wf {s : State} (h : s.regsWf = true) (res : Nat) (kind : CmdKind) (cell : Option Bool) :
    (s.accepted res kind cell).regsWf = true := State.regsWf_setReg h res _

end Sys2Proof.Machine
end

