-- ==== Sys2Proof/Laws/Keep.lean ====
section
/-! SUPPORT. What every operation of the machine keeps, said once: `Keep s0 s` says that `s` has what `s0` has fixed and that the invariant
passes from `s0` to `s`. The lemmas of the Keep files say it of each operation, so that a proof about a command never unfolds one. -/
namespace Sys2Proof.Machine

/-- `s` comes from `s0` by operations of the machine. -/
structure Keep (s0 s : State) : Prop where
  fixed : State.Fixed s0 s
  inv   : s0.Inv → s.Inv

/-- As `Keep`, of what a command answers. -/
structure OKeep (s0 : State) (o : Host.Outcome State Fault Refusal) : Prop where
  of : ∀ t, o = .next t → Keep s0 t

/-- As `Keep`, of a state that may be absent. -/
structure SKeep (s0 : State) (o : Option State) : Prop where
  of : ∀ t, o = some t → Keep s0 t

theorem keep_rfl (s : State) : Keep s s := ⟨⟨rfl, rfl, rfl, Nat.le_refl _⟩, id⟩

theorem Keep.trans {a b c : State} (h : Keep a b) (k : Keep b c) : Keep a c :=
  ⟨⟨k.fixed.board.trans h.fixed.board, k.fixed.prof.trans h.fixed.prof, k.fixed.pending.trans h.fixed.pending,
    Nat.le_trans h.fixed.free k.fixed.free⟩, fun i => k.inv (h.inv i)⟩

theorem okeep_next {s0 s : State} (h : Keep s0 s) : OKeep s0 (.next s) := ⟨fun t e => by cases e; exact h⟩

theorem okeep_fault {s0 : State} (f : Fault) : OKeep s0 (.fault f) := ⟨fun t e => by cases e⟩

theorem skeep_some {s0 s : State} (h : Keep s0 s) : SKeep s0 (some s) := ⟨fun t e => by cases e; exact h⟩

theorem skeep_none {s0 : State} : SKeep s0 none := ⟨fun t e => by cases e⟩

/-- The last component of a pair whose value is known. -/
theorem keep_pair {α : Type} {s0 s : State} {p : α × State} {a : α} (h : Keep s0 p.2) (e : p = (a, s)) : Keep s0 s := by
  subst e; exact h

theorem keep_pair1 {α : Type} {s0 s : State} {p : State × α} {a : α} (h : Keep s0 p.1) (e : p = (s, a)) : Keep s0 s := by
  subst e; exact h

theorem keep_pair3 {α β : Type} {s0 s : State} {p : α × β × State} {a : α} {b : β} (h : Keep s0 p.2.2) (e : p = (a, b, s)) :
    Keep s0 s := by subst e; exact h

theorem keep_some {s0 s : State} {p : Option State} (h : SKeep s0 p) (e : p = some s) : Keep s0 s := h.of s e

/-- A goal by way of a fact that is proved apart. -/
theorem keep_suff {p q : Prop} (h : p) (k : p → q) : q := k h

theorem keep_foldl {α : Type} {s0 : State} {f : State → α → State} {l : List α} {s : State} (h : Keep s0 s)
    (hf : ∀ s x, Keep s0 s → Keep s0 (f s x)) : Keep s0 (l.foldl f s) := by
  induction l generalizing s with
  | nil => exact h
  | cons x r ih => exact ih (hf s x h)

/-- A fold over a pair whose first component is the state. -/
theorem keep_foldl1 {α β : Type} {s0 : State} {f : State × β → α → State × β} {l : List α} {p : State × β} (h : Keep s0 p.1)
    (hf : ∀ p x, Keep s0 p.1 → Keep s0 (f p x).1) : Keep s0 (l.foldl f p).1 := by
  induction l generalizing p with
  | nil => exact h
  | cons x r ih => exact ih (hf p x h)

/-- A fold over a pair whose second component is the state. -/
theorem keep_foldl2 {α β : Type} {s0 : State} {f : β × State → α → β × State} {l : List α} {p : β × State} (h : Keep s0 p.2)
    (hf : ∀ p x, Keep s0 p.2 → Keep s0 (f p x).2) : Keep s0 (l.foldl f p).2 := by
  induction l generalizing p with
  | nil => exact h
  | cons x r ih => exact ih (hf p x h)

/-- A fold whose elements are those of the list. -/
theorem keep_foldl_mem {α : Type} {s0 : State} {f : State → α → State} {l : List α} {s : State} (h : Keep s0 s)
    (hf : ∀ s, ∀ x ∈ l, Keep s0 s → Keep s0 (f s x)) : Keep s0 (l.foldl f s) := by
  induction l generalizing s with
  | nil => exact h
  | cons x r ih => exact ih (hf s x (List.mem_cons_self ..) h) (fun s y hy => hf s y (List.mem_cons_of_mem _ hy))

/-- A condition takes either branch. -/
theorem keep_ite {c : Prop} [Decidable c] {s0 a b : State} (ha : Keep s0 a) (hb : Keep s0 b) : Keep s0 (if c then a else b) := by
  split <;> assumption

theorem keep_cond {c : Bool} {s0 a b : State} (ha : Keep s0 a) (hb : Keep s0 b) : Keep s0 (cond c a b) := by
  cases c <;> assumption

/-- A record update, with what it does to the invariant. -/
theorem keep_raw {s0 s : State} (h : Keep s0 s) {phase resets thermHold freeCtr timeBase up aoFrac lands bscan tap regs latches staging
    hp cmds hostNext hostWrap schedNext schedWrap abortedEnded acc fifo txc chains beams crcQ phi refAt phiFlash seeds seedWt unusable
    wts divAt calNext chanOff airLog hopPos rounds dueAt cands shed coal seen seenWb pop fetches umTags umDiag quar peer crcHost tag
    ping tal die memp mgmt upd wakes wakeAt hot hotOut hotRead broughtUp tdo}
    (e1 : lands.prof = s.lands.prof) (e2 : s.freeCtr ≤ freeCtr)
    (k : s.Inv → State.Inv ⟨phase, resets, thermHold, freeCtr, timeBase, up, aoFrac, s.board, lands, bscan, tap, regs, latches, staging, hp,
        cmds, hostNext, hostWrap, schedNext, schedWrap, abortedEnded, acc, fifo, txc, chains, beams, crcQ, phi, refAt, phiFlash, seeds,
        seedWt, unusable, wts, divAt, calNext, chanOff, airLog, hopPos, rounds, dueAt, cands, shed, coal, seen, seenWb, pop, fetches,
        umTags, umDiag, quar, peer, crcHost, tag, ping, tal, die, memp, mgmt, upd, wakes, wakeAt, hot, hotOut, hotRead, broughtUp, tdo,
        s.pending⟩) :
    Keep s0 ⟨phase, resets, thermHold, freeCtr, timeBase, up, aoFrac, s.board, lands, bscan, tap, regs, latches, staging, hp, cmds,
        hostNext, hostWrap, schedNext, schedWrap, abortedEnded, acc, fifo, txc, chains, beams, crcQ, phi, refAt, phiFlash, seeds,
        seedWt, unusable, wts, divAt, calNext, chanOff, airLog, hopPos, rounds, dueAt, cands, shed, coal, seen, seenWb, pop, fetches,
        umTags, umDiag, quar, peer, crcHost, tag, ping, tal, die, memp, mgmt, upd, wakes, wakeAt, hot, hotOut, hotRead, broughtUp, tdo,
        s.pending⟩ :=
  ⟨⟨h.fixed.board, e1.trans h.fixed.prof, h.fixed.pending, Nat.le_trans h.fixed.free e2⟩, fun i => k (h.inv i)⟩

/-- A record update that touches nothing the invariant speaks of. -/
theorem keep_upd {s0 s : State} (h : Keep s0 s) {phase resets thermHold timeBase up aoFrac lands bscan tap hp cmds hostNext hostWrap
    schedNext schedWrap abortedEnded acc fifo crcQ seeds unusable calNext chanOff airLog hopPos rounds cands coal seenWb fetches umTags
    umDiag quar peer crcHost tag ping tal die memp mgmt upd wakes wakeAt hot hotOut hotRead broughtUp tdo}
    (e1 : lands.prof = s.lands.prof) (e2 : upd.slots = s.upd.slots) (e3 : tag.bytes = s.tag.bytes) (e4 : tag.wear = s.tag.wear)
    (e5 : ping.ports = s.ping.ports) (e6 : mgmt.log = s.mgmt.log) (e7 : ping.flash = s.ping.flash) (e8 : memp.tasks = s.memp.tasks) :
    Keep s0 ⟨phase, resets, thermHold, s.freeCtr, timeBase, up, aoFrac, s.board, lands, bscan, tap, s.regs, s.latches, s.staging, hp, cmds,
        hostNext, hostWrap, schedNext, schedWrap, abortedEnded, acc, fifo, s.txc, s.chains, s.beams, crcQ, s.phi, s.refAt, s.phiFlash,
        seeds, s.seedWt, unusable, s.wts, s.divAt, calNext, chanOff, airLog, hopPos, rounds, s.dueAt, cands, s.shed, coal, s.seen,
        seenWb, s.pop, fetches, umTags, umDiag, quar, peer, crcHost, tag, ping, tal, die, memp, mgmt, upd, wakes, wakeAt, hot, hotOut,
        hotRead, broughtUp, tdo, s.pending⟩ :=
  ⟨⟨h.fixed.board, e1.trans h.fixed.prof, h.fixed.pending, h.fixed.free⟩, fun i => have j := h.inv i; ⟨j.regs, j.seen, j.pop, j.latches,
      j.staging, j.phi, j.refAt, j.wts, j.seedWt, j.dueAt, j.divAt, e3 ▸ j.tagBytes, e4 ▸ j.tagWear, e5 ▸ j.pingPorts, e7 ▸ j.pingFlash,
      j.phiFlash, j.txc, j.chains, j.beams, e2 ▸ j.slots, e6 ▸ j.log, j.shedLo, j.shedHi, e8 ▸ j.tasks⟩⟩

/-- Elements set one after another leave the length. -/
theorem foldl_set_length {α β : Type} (f : β → Nat) (g : β → α) (l : List β) (m : List α) :
    (l.foldl (fun m e => m.set (f e) (g e)) m).length = m.length := by
  induction l generalizing m with
  | nil => rfl
  | cons e r ih => exact (ih _).trans List.length_set

/-! ## Tasks on the flash -/

theorem tasks_filter (p : FlashTask → Bool) {l : List FlashTask} (h : l.all (fun t => t.kind.wf) = true) :
    (l.filter p).all (fun t => t.kind.wf) = true := by
  simp only [List.all_eq_true] at h ⊢
  exact fun t ht => h t (List.mem_filter.mp ht).1

theorem tasks_append {l : List FlashTask} {x : FlashTask} (h : l.all (fun t => t.kind.wf) = true) (k : x.kind.wf = true) :
    (l ++ [x]).all (fun t => t.kind.wf) = true := by
  simp only [List.all_append, List.all_cons, List.all_nil, h, k, Bool.and_self]

theorem tasks_map (f : FlashTask → FlashTask) {l : List FlashTask} (hf : ∀ t, t.kind.wf = true → (f t).kind.wf = true)
    (h : l.all (fun t => t.kind.wf) = true) : (l.map f).all (fun t => t.kind.wf) = true := by
  simp only [List.all_eq_true, List.mem_map, forall_exists_index, and_imp, forall_apply_eq_imp_iff₂] at h ⊢
  exact fun t ht => hf t (h t ht)

theorem tasks_mem {l : List FlashTask} {x : FlashTask} (h : l.all (fun t => t.kind.wf) = true) (k : x ∈ l) : x.kind.wf = true :=
  List.all_eq_true.mp h x k

/-- What is absent from flash leaves the invariant nothing to ask. -/
theorem none_wf {α : Type} (p : α → Prop) : ∀ m, (none : Option α) = some m → p m :=
  fun _ h => nomatch h

theorem wf_of_kind {a b : TaskKind} (h : a = b) (k : b.wf = true) : a.wf = true := h ▸ k

theorem wf_baselines {o : Option (List (Nat × PingPort))} (h : ∀ m, o = some m → swf (fun _ => PingPort.init) m = true) :
    TaskKind.wf (.baselines o) = true := by
  cases o with
  | none => rfl
  | some m => exact h m rfl

theorem baselinesOf_wf {l : List (Nat × PingPort)} (h : swf (fun _ => PingPort.init) l = true) :
    swf (fun _ => PingPort.init) (baselinesOf l) = true :=
  swfFrom_mapFilter (fun v : PingPort => { PingPort.init with valid := v.valid, bi := v.bi, bq := v.bq }) (fun e => e.2 != PingPort.init)
    (fun _ _ hp => by simpa using hp) _ h

theorem wf_offsets {o : Option (Word × List (Nat × Word))} (h : ∀ e, o = some e → swf (fun _ => (0 : Word)) e.2 = true) :
    TaskKind.wf (.offsets o) = true := by
  cases o with
  | none => rfl
  | some e => exact h e rfl

/-- The registers at reset are in canonical form. -/
theorem resetRegs_wf (tally : Bool) : swf (fun _ => (0 : Word)) (resetRegs tally) = true := by cases tally <;> decide

/-- The registers after a core reset are in canonical form. -/
theorem coreRegs_wf (s : State) : swf (fun _ => (0 : Word)) s.coreRegs = true :=
  swf_sput (swf_sput (swf_foldl _ (fun _ _ hm => swf_sput hm _ _) _ (swf_filter _ (resetRegs_wf _))) _ _) _ _

theorem tag_afterReset_bytes (t : TagFn) (wake : Bool) : (t.afterReset wake).bytes = t.bytes := by cases wake <;> rfl

theorem tag_afterReset_wear (t : TagFn) (wake : Bool) : (t.afterReset wake).wear = t.wear := by cases wake <;> rfl

end Sys2Proof.Machine
end

