-- ==== Sys2Proof/Laws/KeepBase.lean ====
section
/-! SUPPORT. What the register, FIFO, round and seen-tag operations keep (`Keep` of Laws/Keep.lean), one lemma for each. -/
namespace Sys2Proof.Machine

set_option Elab.async false

theorem State.setReg_keep {s0 s : State} (h : Keep s0 s) {v1 v2} :
    Keep s0 (State.setReg s v1 v2) := by
  exact keep_raw h rfl (Nat.le_refl _) (fun i => ⟨swf_sput i.regs _ _, i.seen, i.pop, i.latches, i.staging, i.phi, i.refAt, i.wts,
      i.seedWt, i.dueAt, i.divAt, i.tagBytes, i.tagWear, i.pingPorts, i.pingFlash, i.phiFlash, i.txc, i.chains, i.beams, i.slots, i.log,
      i.shedLo, i.shedHi, i.tasks⟩)

theorem State.setFld_keep {s0 s : State} (h : Keep s0 s) {v1 v2 v3 v4} :
    Keep s0 (State.setFld s v1 v2 v3 v4) := by
  unfold State.setFld
  repeat' (first
    | intro y
    | (extract_lets +onlyGivenNames x; first | (refine keep_suff (p := Keep s0 x) ?_ (fun hx => ?_); subst x; rotate_left; clear_value x) | subst x)
    | with_reducible assumption | with_reducible apply State.setReg_keep | split)

theorem State.setBit_keep {s0 s : State} (h : Keep s0 s) {v1 v2 v3} :
    Keep s0 (State.setBit s v1 v2 v3) := by
  unfold State.setBit
  repeat' (first
    | intro y
    | (extract_lets +onlyGivenNames x; first | (refine keep_suff (p := Keep s0 x) ?_ (fun hx => ?_); subst x; rotate_left; clear_value x) | subst x)
    | with_reducible assumption | with_reducible apply State.setReg_keep | split)

theorem State.addCnt_keep {s0 s : State} (h : Keep s0 s) {v1 v2} :
    Keep s0 (State.addCnt s v1 v2) := by
  unfold State.addCnt
  repeat' (first
    | intro y
    | (extract_lets +onlyGivenNames x; first | (refine keep_suff (p := Keep s0 x) ?_ (fun hx => ?_); subst x; rotate_left; clear_value x) | subst x)
    | with_reducible assumption | with_reducible apply State.setReg_keep | split)

theorem State.cnt_keep {s0 s : State} (h : Keep s0 s) {v1} :
    Keep s0 (State.cnt s v1) := by
  unfold State.cnt
  repeat' (first
    | intro y
    | (extract_lets +onlyGivenNames x; first | (refine keep_suff (p := Keep s0 x) ?_ (fun hx => ?_); subst x; rotate_left; clear_value x) | subst x)
    | with_reducible assumption | with_reducible apply State.addCnt_keep | split)

theorem State.cntSat_keep {s0 s : State} (h : Keep s0 s) {v1 v2 v3} :
    Keep s0 (State.cntSat s v1 v2 v3) := by
  unfold State.cntSat
  repeat' (first
    | intro y
    | (extract_lets +onlyGivenNames x; first | (refine keep_suff (p := Keep s0 x) ?_ (fun hx => ?_); subst x; rotate_left; clear_value x) | subst x)
    | with_reducible assumption | with_reducible apply State.setFld_keep | split)

theorem State.cntWrap_keep {s0 s : State} (h : Keep s0 s) {v1 v2 v3} :
    Keep s0 (State.cntWrap s v1 v2 v3) := by
  unfold State.cntWrap
  repeat' (first
    | intro y
    | (extract_lets +onlyGivenNames x; first | (refine keep_suff (p := Keep s0 x) ?_ (fun hx => ?_); subst x; rotate_left; clear_value x) | subst x)
    | with_reducible assumption | with_reducible apply State.setFld_keep | split)

theorem State.drawWord_keep {s0 s : State} (h : Keep s0 s) :
    Keep s0 (State.drawWord s).2 := by
  exact keep_raw h rfl (Nat.le_succ _) (fun i => ⟨i.regs, i.seen, i.pop, i.latches, i.staging, i.phi, i.refAt, i.wts, i.seedWt, i.dueAt,
      i.divAt, i.tagBytes, i.tagWear, i.pingPorts, i.pingFlash, i.phiFlash, i.txc, i.chains, i.beams, i.slots, i.log, i.shedLo, i.shedHi,
      i.tasks⟩)

theorem State.drawBool_keep {s0 s : State} (h : Keep s0 s) :
    Keep s0 (State.drawBool s).2 := by
  exact keep_raw h rfl (Nat.le_succ _) (fun i => ⟨i.regs, i.seen, i.pop, i.latches, i.staging, i.phi, i.refAt, i.wts, i.seedWt, i.dueAt,
      i.divAt, i.tagBytes, i.tagWear, i.pingPorts, i.pingFlash, i.phiFlash, i.txc, i.chains, i.beams, i.slots, i.log, i.shedLo, i.shedHi,
      i.tasks⟩)

theorem State.drawHalf_keep {s0 s : State} (h : Keep s0 s) :
    Keep s0 (State.drawHalf s).2 := by
  exact keep_raw h rfl (Nat.le_succ _) (fun i => ⟨i.regs, i.seen, i.pop, i.latches, i.staging, i.phi, i.refAt, i.wts, i.seedWt, i.dueAt,
      i.divAt, i.tagBytes, i.tagWear, i.pingPorts, i.pingFlash, i.phiFlash, i.txc, i.chains, i.beams, i.slots, i.log, i.shedLo, i.shedHi,
      i.tasks⟩)

theorem State.raise_keep {s0 s : State} (h : Keep s0 s) {v1} :
    Keep s0 (State.raise s v1) := by
  unfold State.raise
  repeat' (first
    | intro y
    | (extract_lets +onlyGivenNames x; first | (refine keep_suff (p := Keep s0 x) ?_ (fun hx => ?_); subst x; rotate_left; clear_value x) | subst x)
    | with_reducible assumption | with_reducible apply State.setBit_keep | split)

theorem State.setReady_keep {s0 s : State} (h : Keep s0 s) {v1 v2} :
    Keep s0 (State.setReady s v1 v2) := by
  unfold State.setReady
  repeat' (first
    | intro y
    | (extract_lets +onlyGivenNames x; first | (refine keep_suff (p := Keep s0 x) ?_ (fun hx => ?_); subst x; rotate_left; clear_value x) | subst x)
    | with_reducible assumption | with_reducible apply State.setBit_keep | split)

theorem State.setExpect_keep {s0 s : State} (h : Keep s0 s) {v1 v2} :
    Keep s0 (State.setExpect s v1 v2) := by
  unfold State.setExpect
  repeat' (first
    | intro y
    | (extract_lets +onlyGivenNames x; first | (refine keep_suff (p := Keep s0 x) ?_ (fun hx => ?_); subst x; rotate_left; clear_value x) | subst x)
    | with_reducible assumption | with_reducible apply State.setBit_keep | split)

theorem State.logEvent_keep {s0 s : State} (h : Keep s0 s) {v1 v2 v3} :
    Keep s0 (State.logEvent s v1 v2 v3) := by
  unfold State.logEvent
  repeat' (first
    | intro y
    | (extract_lets +onlyGivenNames x; first | (refine keep_suff (p := Keep s0 x) ?_ (fun hx => ?_); subst x; rotate_left; clear_value x) | subst x)
    | with_reducible assumption | with_reducible apply State.cnt_keep | with_reducible apply State.setReg_keep
    | with_reducible apply State.raise_keep | with_reducible apply keep_ite | split | refine keep_upd ?_ rfl rfl rfl rfl rfl rfl rfl rfl
    | refine keep_raw ?_ rfl (Nat.le_refl _) (fun i => ⟨i.regs, i.seen, i.pop, i.latches, i.staging, i.phi, i.refAt, i.wts, i.seedWt, i.dueAt, i.divAt, i.tagBytes, i.tagWear, i.pingPorts, i.pingFlash, i.phiFlash, i.txc, i.chains, i.beams, i.slots, List.length_take_le _ _, i.shedLo, i.shedHi, i.tasks⟩))

theorem State.dropRec_keep {s0 s : State} (h : Keep s0 s) {v1 v2 v3} :
    Keep s0 (State.dropRec s v1 v2 v3) := by
  unfold State.dropRec
  repeat' (first
    | intro y
    | (extract_lets +onlyGivenNames x; first | (refine keep_suff (p := Keep s0 x) ?_ (fun hx => ?_); subst x; rotate_left; clear_value x) | subst x)
    | with_reducible assumption | with_reducible apply State.cnt_keep | with_reducible apply State.setReg_keep
    | with_reducible apply State.raise_keep | split | refine keep_upd ?_ rfl rfl rfl rfl rfl rfl rfl rfl)

theorem State.queueRec_keep {s0 s : State} (h : Keep s0 s) {v1 v2 v3 v4} :
    Keep s0 (State.queueRec s v1 v2 v3 v4) := by
  unfold State.queueRec
  repeat' (first
    | intro y
    | (extract_lets +onlyGivenNames x; first | (refine keep_suff (p := Keep s0 x) ?_ (fun hx => ?_); subst x; rotate_left; clear_value x) | subst x)
    | with_reducible assumption | with_reducible apply State.dropRec_keep | with_reducible apply keep_ite | split
    | refine keep_upd ?_ rfl rfl rfl rfl rfl rfl rfl rfl)

theorem State.queueFaultRec_keep {s0 s : State} (h : Keep s0 s) {v1} :
    Keep s0 (State.queueFaultRec s v1) := by
  unfold State.queueFaultRec
  repeat' (first
    | intro y
    | (extract_lets +onlyGivenNames x; first | (refine keep_suff (p := Keep s0 x) ?_ (fun hx => ?_); subst x; rotate_left; clear_value x) | subst x)
    | with_reducible assumption | with_reducible apply State.queueRec_keep | split)

theorem State.queueWarp_keep {s0 s : State} (h : Keep s0 s) {v1 v2} :
    Keep s0 (State.queueWarp s v1 v2) := by
  unfold State.queueWarp
  repeat' (first
    | intro y
    | (extract_lets +onlyGivenNames x; first | (refine keep_suff (p := Keep s0 x) ?_ (fun hx => ?_); subst x; rotate_left; clear_value x) | subst x)
    | with_reducible assumption | with_reducible apply State.queueRec_keep | split)

theorem State.queuePeer_keep {s0 s : State} (h : Keep s0 s) {v1} :
    Keep s0 (State.queuePeer s v1) := by
  unfold State.queuePeer
  repeat' (first
    | intro y
    | (extract_lets +onlyGivenNames x; first | (refine keep_suff (p := Keep s0 x) ?_ (fun hx => ?_); subst x; rotate_left; clear_value x) | subst x)
    | with_reducible assumption | with_reducible apply State.queueRec_keep | split)

theorem State.queueTally_keep {s0 s : State} (h : Keep s0 s) {v1} :
    Keep s0 (State.queueTally s v1) := by
  unfold State.queueTally
  repeat' (first
    | intro y
    | (extract_lets +onlyGivenNames x; first | (refine keep_suff (p := Keep s0 x) ?_ (fun hx => ?_); subst x; rotate_left; clear_value x) | subst x)
    | with_reducible assumption | with_reducible apply State.queueRec_keep | split)

theorem State.queueDiag_keep {s0 s : State} (h : Keep s0 s) {v1} :
    Keep s0 (State.queueDiag s v1) := by
  unfold State.queueDiag
  repeat' (first
    | intro y
    | (extract_lets +onlyGivenNames x; first | (refine keep_suff (p := Keep s0 x) ?_ (fun hx => ?_); subst x; rotate_left; clear_value x) | subst x)
    | with_reducible assumption | with_reducible apply State.queueRec_keep | split)

theorem State.faultPacket_keep {s0 s : State} (h : Keep s0 s) {v1 v2 v3 v4} :
    Keep s0 (State.faultPacket s v1 v2 v3 v4) := by
  unfold State.faultPacket
  repeat' (first
    | intro y
    | (extract_lets +onlyGivenNames x; first | (refine keep_suff (p := Keep s0 x) ?_ (fun hx => ?_); subst x; rotate_left; clear_value x) | subst x)
    | with_reducible assumption | with_reducible apply State.queueFaultRec_keep | split)

theorem State.faultEvent_keep {s0 s : State} (h : Keep s0 s) {v1 v2 v3 v4} :
    Keep s0 (State.faultEvent s v1 v2 v3 v4) := by
  unfold State.faultEvent
  repeat' (first
    | intro y
    | (extract_lets +onlyGivenNames x; first | (refine keep_suff (p := Keep s0 x) ?_ (fun hx => ?_); subst x; rotate_left; clear_value x) | subst x)
    | with_reducible assumption | with_reducible apply State.faultPacket_keep | with_reducible apply State.logEvent_keep | split)

theorem State.assign_keep {s0 s : State} (h : Keep s0 s) {v1} :
    Keep s0 (State.assign s v1).2 := by
  unfold State.assign
  repeat' (first
    | intro y
    | (extract_lets +onlyGivenNames x; first | (refine keep_suff (p := Keep s0 x) ?_ (fun hx => ?_); subst x; rotate_left; clear_value x) | subst x)
    | with_reducible assumption | with_reducible apply keep_ite | split | refine keep_upd ?_ rfl rfl rfl rfl rfl rfl rfl rfl)

theorem State.complete_keep {s0 s : State} (h : Keep s0 s) {v1 v2} :
    Keep s0 (State.complete s v1 v2) := by
  unfold State.complete
  repeat' (first
    | intro y
    | (extract_lets +onlyGivenNames x; first | (refine keep_suff (p := Keep s0 x) ?_ (fun hx => ?_); subst x; rotate_left; clear_value x) | subst x)
    | with_reducible assumption | with_reducible apply State.setReg_keep | with_reducible apply keep_ite | split
    | refine keep_upd ?_ rfl rfl rfl rfl rfl rfl rfl rfl)

theorem State.completeAll_keep {s0 s : State} (h : Keep s0 s) {v1 v2} :
    Keep s0 (State.completeAll s v1 v2) := by
  unfold State.completeAll
  repeat' (first
    | intro y
    | (extract_lets +onlyGivenNames x; first | (refine keep_suff (p := Keep s0 x) ?_ (fun hx => ?_); subst x; rotate_left; clear_value x) | subst x)
    | with_reducible assumption | with_reducible apply State.complete_keep | with_reducible apply keep_foldl
    | with_reducible apply keep_foldl1 | with_reducible apply keep_foldl2 | refine keep_pair ?_ (by with_reducible assumption)
    | refine keep_pair1 ?_ (by with_reducible assumption) | split)

theorem State.accept_keep {s0 s : State} (h : Keep s0 s) {v1 v2 v3} :
    Keep s0 (State.accept s v1 v2 v3).2 := by
  unfold State.accept
  repeat' (first
    | intro y
    | (extract_lets +onlyGivenNames x; first | (refine keep_suff (p := Keep s0 x) ?_ (fun hx => ?_); subst x; rotate_left; clear_value x) | subst x)
    | with_reducible assumption | with_reducible apply State.assign_keep | with_reducible apply State.setReg_keep
    | with_reducible apply keep_ite | refine keep_pair ?_ (by with_reducible assumption) | split
    | refine keep_upd ?_ rfl rfl rfl rfl rfl rfl rfl rfl)

theorem State.issue_keep {s0 s : State} (h : Keep s0 s) {v1 v2 v3 v4} (hv4 : ∀ x s, Keep s0 s → Keep s0 (v4 x s)) :
    Keep s0 (State.issue s v1 v2 v3 v4) := by
  unfold State.issue
  repeat' (first
    | intro y
    | (extract_lets +onlyGivenNames x; first | (refine keep_suff (p := Keep s0 x) ?_ (fun hx => ?_); subst x; rotate_left; clear_value x) | subst x)
    | with_reducible assumption | with_reducible apply hv4 | with_reducible apply State.accept_keep
    | with_reducible apply State.complete_keep | with_reducible apply keep_ite | refine keep_pair ?_ (by with_reducible assumption)
    | split)

theorem State.beginFrame_keep {s0 s : State} (h : Keep s0 s) :
    Keep s0 (State.beginFrame s) := by
  unfold State.beginFrame
  repeat' (first
    | intro y
    | (extract_lets +onlyGivenNames x; first | (refine keep_suff (p := Keep s0 x) ?_ (fun hx => ?_); subst x; rotate_left; clear_value x) | subst x)
    | with_reducible assumption | split | refine keep_upd ?_ rfl rfl rfl rfl rfl rfl rfl rfl)

theorem State.endWrite_keep {s0 s : State} (h : Keep s0 s) :
    Keep s0 (State.endWrite s) := by
  unfold State.endWrite
  repeat' (first
    | intro y
    | (extract_lets +onlyGivenNames x; first | (refine keep_suff (p := Keep s0 x) ?_ (fun hx => ?_); subst x; rotate_left; clear_value x) | subst x)
    | with_reducible assumption | split | refine keep_upd ?_ rfl rfl rfl rfl rfl rfl rfl rfl)

theorem State.endFrame_keep {s0 s : State} (h : Keep s0 s) :
    Keep s0 (State.endFrame s) := by
  unfold State.endFrame
  repeat' (first
    | intro y
    | (extract_lets +onlyGivenNames x; first | (refine keep_suff (p := Keep s0 x) ?_ (fun hx => ?_); subst x; rotate_left; clear_value x) | subst x)
    | with_reducible assumption | with_reducible apply State.setReg_keep | with_reducible apply keep_ite | split)

theorem State.single_keep {s0 s : State} (h : Keep s0 s) {v1} (hv1 : ∀ s, Keep s0 s → Keep s0 (v1 s)) :
    Keep s0 (State.single s v1) := by
  unfold State.single
  repeat' (first
    | intro y
    | (extract_lets +onlyGivenNames x; first | (refine keep_suff (p := Keep s0 x) ?_ (fun hx => ?_); subst x; rotate_left; clear_value x) | subst x)
    | with_reducible assumption | with_reducible apply hv1 | with_reducible apply State.endFrame_keep
    | with_reducible apply State.endWrite_keep | with_reducible apply State.beginFrame_keep | split)

theorem State.updTx_keep {s0 s : State} (h : Keep s0 s) {v1 v2} :
    Keep s0 (State.updTx s v1 v2) := by
  exact keep_raw h rfl (Nat.le_refl _) (fun i => ⟨i.regs, i.seen, i.pop, i.latches, i.staging, i.phi, i.refAt, i.wts, i.seedWt, i.dueAt,
      i.divAt, i.tagBytes, i.tagWear, i.pingPorts, i.pingFlash, i.phiFlash, (List.length_modify _ _ _).trans i.txc, i.chains, i.beams,
      i.slots, i.log, i.shedLo, i.shedHi, i.tasks⟩)

theorem State.updChain_keep {s0 s : State} (h : Keep s0 s) {v1 v2} :
    Keep s0 (State.updChain s v1 v2) := by
  exact keep_raw h rfl (Nat.le_refl _) (fun i => ⟨i.regs, i.seen, i.pop, i.latches, i.staging, i.phi, i.refAt, i.wts, i.seedWt, i.dueAt,
      i.divAt, i.tagBytes, i.tagWear, i.pingPorts, i.pingFlash, i.phiFlash, i.txc, (List.length_modify _ _ _).trans i.chains, i.beams,
      i.slots, i.log, i.shedLo, i.shedHi, i.tasks⟩)

theorem State.updBeam_keep {s0 s : State} (h : Keep s0 s) {v1 v2} :
    Keep s0 (State.updBeam s v1 v2) := by
  exact keep_raw h rfl (Nat.le_refl _) (fun i => ⟨i.regs, i.seen, i.pop, i.latches, i.staging, i.phi, i.refAt, i.wts, i.seedWt, i.dueAt,
      i.divAt, i.tagBytes, i.tagWear, i.pingPorts, i.pingFlash, i.phiFlash, i.txc, i.chains, (List.length_modify _ _ _).trans i.beams,
      i.slots, i.log, i.shedLo, i.shedHi, i.tasks⟩)

theorem State.updRound_keep {s0 s : State} (h : Keep s0 s) {v1 v2} :
    Keep s0 (State.updRound s v1 v2) := by
  unfold State.updRound
  repeat' (first
    | intro y
    | (extract_lets +onlyGivenNames x; first | (refine keep_suff (p := Keep s0 x) ?_ (fun hx => ?_); subst x; rotate_left; clear_value x) | subst x)
    | with_reducible assumption | with_reducible apply keep_ite | split | refine keep_upd ?_ rfl rfl rfl rfl rfl rfl rfl rfl)

theorem State.setTagByte_keep {s0 s : State} (h : Keep s0 s) {v1 v2} :
    Keep s0 (State.setTagByte s v1 v2) := by
  exact keep_raw h rfl (Nat.le_refl _) (fun i => ⟨i.regs, i.seen, i.pop, i.latches, i.staging, i.phi, i.refAt, i.wts, i.seedWt, i.dueAt,
      i.divAt, swf_sput i.tagBytes _ _, i.tagWear, i.pingPorts, i.pingFlash, i.phiFlash, i.txc, i.chains, i.beams, i.slots, i.log,
      i.shedLo, i.shedHi, i.tasks⟩)

theorem State.restoreCrc_keep {s0 s : State} (h : Keep s0 s) :
    Keep s0 (State.restoreCrc s) := by
  unfold State.restoreCrc
  repeat' (first
    | intro y
    | (extract_lets +onlyGivenNames x; first | (refine keep_suff (p := Keep s0 x) ?_ (fun hx => ?_); subst x; rotate_left; clear_value x) | subst x)
    | with_reducible assumption | with_reducible apply State.setTagByte_keep | with_reducible apply State.drawHalf_keep
    | with_reducible apply keep_ite | refine keep_pair ?_ (by with_reducible assumption) | split)

theorem State.addWear_keep {s0 s : State} (h : Keep s0 s) {v1} :
    Keep s0 (State.addWear s v1) := by
  exact keep_raw h rfl (Nat.le_refl _) (fun i => ⟨i.regs, i.seen, i.pop, i.latches, i.staging, i.phi, i.refAt, i.wts, i.seedWt, i.dueAt,
      i.divAt, i.tagBytes, swf_sput i.tagWear _ _, i.pingPorts, i.pingFlash, i.phiFlash, i.txc, i.chains, i.beams, i.slots, i.log,
      i.shedLo, i.shedHi, i.tasks⟩)

theorem State.tagCount_keep {s0 s : State} (h : Keep s0 s) {v1} :
    Keep s0 (State.tagCount s v1) := by
  unfold State.tagCount
  repeat' (first
    | intro y
    | (extract_lets +onlyGivenNames x; first | (refine keep_suff (p := Keep s0 x) ?_ (fun hx => ?_); subst x; rotate_left; clear_value x) | subst x)
    | with_reducible assumption | with_reducible apply State.cnt_keep | with_reducible apply keep_ite | split)

theorem State.tagLog_keep {s0 s : State} (h : Keep s0 s) {v1 v2} :
    Keep s0 (State.tagLog s v1 v2) := by
  unfold State.tagLog
  repeat' (first
    | intro y
    | (extract_lets +onlyGivenNames x; first | (refine keep_suff (p := Keep s0 x) ?_ (fun hx => ?_); subst x; rotate_left; clear_value x) | subst x)
    | with_reducible assumption | with_reducible apply State.logEvent_keep | with_reducible apply keep_ite | split)

theorem State.moveCrumb_keep {s0 s : State} (h : Keep s0 s) {v1 v2} :
    Keep s0 (State.moveCrumb s v1 v2) := by
  unfold State.moveCrumb
  repeat' (first
    | intro y
    | (extract_lets +onlyGivenNames x; first | (refine keep_suff (p := Keep s0 x) ?_ (fun hx => ?_); subst x; rotate_left; clear_value x) | subst x)
    | with_reducible assumption | with_reducible apply State.tagLog_keep | with_reducible apply State.tagCount_keep
    | with_reducible apply keep_ite | split | refine keep_upd ?_ rfl rfl rfl rfl rfl rfl rfl rfl)

theorem State.commitCrumb_keep {s0 s : State} (h : Keep s0 s) {v1} :
    Keep s0 (State.commitCrumb s v1) := by
  unfold State.commitCrumb
  repeat' (first
    | intro y
    | (extract_lets +onlyGivenNames x; first | (refine keep_suff (p := Keep s0 x) ?_ (fun hx => ?_); subst x; rotate_left; clear_value x) | subst x)
    | with_reducible assumption | with_reducible apply State.setTagByte_keep | with_reducible apply State.restoreCrc_keep
    | with_reducible apply keep_foldl | with_reducible apply keep_foldl1 | with_reducible apply keep_foldl2
    | with_reducible apply keep_ite | refine keep_pair ?_ (by with_reducible assumption)
    | refine keep_pair1 ?_ (by with_reducible assumption) | split | refine keep_upd ?_ rfl rfl rfl rfl rfl rfl rfl rfl)

theorem State.tagSticky_keep {s0 s : State} (h : Keep s0 s) {v1} :
    Keep s0 (State.tagSticky s v1) := by
  unfold State.tagSticky
  repeat' (first
    | intro y
    | (extract_lets +onlyGivenNames x; first | (refine keep_suff (p := Keep s0 x) ?_ (fun hx => ?_); subst x; rotate_left; clear_value x) | subst x)
    | with_reducible assumption | split | refine keep_upd ?_ rfl rfl rfl rfl rfl rfl rfl rfl)

theorem State.tagSay_keep {s0 s : State} (h : Keep s0 s) {v1} :
    Keep s0 (State.tagSay s v1) := by
  unfold State.tagSay
  repeat' (first
    | intro y
    | (extract_lets +onlyGivenNames x; first | (refine keep_suff (p := Keep s0 x) ?_ (fun hx => ?_); subst x; rotate_left; clear_value x) | subst x)
    | with_reducible assumption | split | refine keep_upd ?_ rfl rfl rfl rfl rfl rfl rfl rfl)

theorem State.crumbAnswer_keep {s0 s : State} (h : Keep s0 s) {v1 v2} :
    Keep s0 (State.crumbAnswer s v1 v2) := by
  unfold State.crumbAnswer
  repeat' (first
    | intro y
    | (extract_lets +onlyGivenNames x; first | (refine keep_suff (p := Keep s0 x) ?_ (fun hx => ?_); subst x; rotate_left; clear_value x) | subst x)
    | with_reducible assumption | with_reducible apply State.tagSay_keep | with_reducible apply State.tagSticky_keep
    | with_reducible apply State.complete_keep | with_reducible apply keep_ite | split
    | refine keep_upd ?_ rfl rfl rfl rfl rfl rfl rfl rfl)

theorem State.eccFail_keep {s0 s : State} (h : Keep s0 s) {v1} :
    Keep s0 (State.eccFail s v1) := by
  unfold State.eccFail
  repeat' (first
    | intro y
    | (extract_lets +onlyGivenNames x; first | (refine keep_suff (p := Keep s0 x) ?_ (fun hx => ?_); subst x; rotate_left; clear_value x) | subst x)
    | with_reducible assumption | with_reducible apply State.tagLog_keep | with_reducible apply State.tagCount_keep
    | with_reducible apply keep_ite | split | refine keep_upd ?_ rfl rfl rfl rfl rfl rfl rfl rfl)

theorem State.eccFix_keep {s0 s : State} (h : Keep s0 s) {v1} :
    Keep s0 (State.eccFix s v1) := by
  unfold State.eccFix
  repeat' (first
    | intro y
    | (extract_lets +onlyGivenNames x; first | (refine keep_suff (p := Keep s0 x) ?_ (fun hx => ?_); subst x; rotate_left; clear_value x) | subst x)
    | with_reducible assumption | with_reducible apply State.tagCount_keep | with_reducible apply keep_ite | split
    | refine keep_upd ?_ rfl rfl rfl rfl rfl rfl rfl rfl)

theorem State.plainJob_keep {s0 s : State} (h : Keep s0 s) {v1} :
    SKeep s0 (State.plainJob s v1) := by
  unfold State.plainJob
  repeat' (first
    | intro y
    | (extract_lets +onlyGivenNames x; first | (refine keep_suff (p := Keep s0 x) ?_ (fun hx => ?_); subst x; rotate_left; clear_value x) | subst x)
    | with_reducible assumption | with_reducible apply State.complete_keep | with_reducible apply skeep_some
    | with_reducible apply skeep_none | with_reducible apply keep_ite | split | refine keep_upd ?_ rfl rfl rfl rfl rfl rfl rfl rfl)

theorem State.startCrumbs_keep {s0 s : State} (h : Keep s0 s) {v0 v1 v2} :
    Keep s0 (State.startCrumbs v0 v1 v2 s) := by
  induction v2 generalizing s v0 v1 with
  | nil =>
    unfold State.startCrumbs
    repeat' (first
      | intro y
      | (extract_lets +onlyGivenNames x; first | (refine keep_suff (p := Keep s0 x) ?_ (fun hx => ?_); subst x; rotate_left; clear_value x) | subst x)
      | with_reducible assumption | with_reducible apply State.crumbAnswer_keep | with_reducible apply State.plainJob_keep
      | with_reducible apply keep_ite | refine keep_some ?_ (by with_reducible assumption) | split
      | refine keep_upd ?_ rfl rfl rfl rfl rfl rfl rfl rfl)
  | cons e r ih =>
    unfold State.startCrumbs
    repeat' (first
      | intro y
      | (extract_lets +onlyGivenNames x; first | (refine keep_suff (p := Keep s0 x) ?_ (fun hx => ?_); subst x; rotate_left; clear_value x) | subst x)
      | with_reducible assumption | with_reducible apply ih | with_reducible apply State.crumbAnswer_keep
      | with_reducible apply State.plainJob_keep | with_reducible apply keep_ite | refine keep_some ?_ (by with_reducible assumption)
      | split | refine keep_upd ?_ rfl rfl rfl rfl rfl rfl rfl rfl)

theorem State.nextCrumb_keep {s0 s : State} (h : Keep s0 s) :
    Keep s0 (State.nextCrumb s) := by
  unfold State.nextCrumb
  repeat' (first
    | intro y
    | (extract_lets +onlyGivenNames x; first | (refine keep_suff (p := Keep s0 x) ?_ (fun hx => ?_); subst x; rotate_left; clear_value x) | subst x)
    | with_reducible assumption | with_reducible apply State.startCrumbs_keep | with_reducible apply keep_ite | split)

theorem State.freeCrumbs_keep {s0 s : State} (h : Keep s0 s) :
    Keep s0 (State.freeCrumbs s) := by
  unfold State.freeCrumbs
  repeat' (first
    | intro y
    | (extract_lets +onlyGivenNames x; first | (refine keep_suff (p := Keep s0 x) ?_ (fun hx => ?_); subst x; rotate_left; clear_value x) | subst x)
    | with_reducible assumption | with_reducible apply State.nextCrumb_keep | split | refine keep_upd ?_ rfl rfl rfl rfl rfl rfl rfl rfl)

theorem State.requestCrumb_keep {s0 s : State} (h : Keep s0 s) {v1} :
    Keep s0 (State.requestCrumb s v1) := by
  unfold State.requestCrumb
  repeat' (first
    | intro y
    | (extract_lets +onlyGivenNames x; first | (refine keep_suff (p := Keep s0 x) ?_ (fun hx => ?_); subst x; rotate_left; clear_value x) | subst x)
    | with_reducible assumption | with_reducible apply State.nextCrumb_keep | split | refine keep_upd ?_ rfl rfl rfl rfl rfl rfl rfl rfl)

theorem State.fieldWritten_keep {s0 s : State} (h : Keep s0 s) {v1} :
    Keep s0 (State.fieldWritten s v1) := by
  unfold State.fieldWritten
  repeat' (first
    | intro y
    | (extract_lets +onlyGivenNames x; first | (refine keep_suff (p := Keep s0 x) ?_ (fun hx => ?_); subst x; rotate_left; clear_value x) | subst x)
    | with_reducible assumption | with_reducible apply State.raise_keep | with_reducible apply keep_ite | split
    | refine keep_upd ?_ rfl rfl rfl rfl rfl rfl rfl rfl)

theorem State.landCrumb_keep {s0 s : State} (h : Keep s0 s) {v1} :
    Keep s0 (State.landCrumb s v1) := by
  unfold State.landCrumb
  repeat' (first
    | intro y
    | (extract_lets +onlyGivenNames x; first | (refine keep_suff (p := Keep s0 x) ?_ (fun hx => ?_); subst x; rotate_left; clear_value x) | subst x)
    | with_reducible assumption | with_reducible apply State.commitCrumb_keep | with_reducible apply State.addWear_keep
    | with_reducible apply State.moveCrumb_keep | with_reducible apply State.fieldWritten_keep | with_reducible apply keep_ite | split)

theorem State.applyLockout_keep {s0 s : State} (h : Keep s0 s) :
    Keep s0 (State.applyLockout s) := by
  unfold State.applyLockout
  repeat' (first
    | intro y
    | (extract_lets +onlyGivenNames x; first | (refine keep_suff (p := Keep s0 x) ?_ (fun hx => ?_); subst x; rotate_left; clear_value x) | subst x)
    | with_reducible assumption | with_reducible apply keep_ite | split | refine keep_upd ?_ rfl rfl rfl rfl rfl rfl rfl rfl)

theorem State.failAttempt_keep {s0 s : State} (h : Keep s0 s) :
    Keep s0 (State.failAttempt s) := by
  unfold State.failAttempt
  repeat' (first
    | intro y
    | (extract_lets +onlyGivenNames x; first | (refine keep_suff (p := Keep s0 x) ?_ (fun hx => ?_); subst x; rotate_left; clear_value x) | subst x)
    | with_reducible assumption | with_reducible apply State.tagCount_keep | with_reducible apply State.applyLockout_keep | split
    | refine keep_upd ?_ rfl rfl rfl rfl rfl rfl rfl rfl)

theorem State.endSession_keep {s0 s : State} (h : Keep s0 s) :
    Keep s0 (State.endSession s) := by
  unfold State.endSession
  repeat' (first
    | intro y
    | (extract_lets +onlyGivenNames x; first | (refine keep_suff (p := Keep s0 x) ?_ (fun hx => ?_); subst x; rotate_left; clear_value x) | subst x)
    | with_reducible assumption | with_reducible apply State.failAttempt_keep | with_reducible apply keep_ite | split
    | refine keep_upd ?_ rfl rfl rfl rfl rfl rfl rfl rfl)

theorem State.restartLockout_keep {s0 s : State} (h : Keep s0 s) :
    Keep s0 (State.restartLockout s) := by
  unfold State.restartLockout
  repeat' (first
    | intro y
    | (extract_lets +onlyGivenNames x; first | (refine keep_suff (p := Keep s0 x) ?_ (fun hx => ?_); subst x; rotate_left; clear_value x) | subst x)
    | with_reducible assumption | split | refine keep_upd ?_ rfl rfl rfl rfl rfl rfl rfl rfl)

theorem State.decayFlags_keep {s0 s : State} (h : Keep s0 s) :
    Keep s0 (State.decayFlags s) := by
  unfold State.decayFlags
  repeat' (first
    | intro y
    | (extract_lets +onlyGivenNames x; first | (refine keep_suff (p := Keep s0 x) ?_ (fun hx => ?_); subst x; rotate_left; clear_value x) | subst x)
    | with_reducible assumption | with_reducible apply State.drawBool_keep | refine keep_pair ?_ (by with_reducible assumption) | split
    | refine keep_upd ?_ rfl rfl rfl rfl rfl rfl rfl rfl)

theorem State.tagPowerLost_keep {s0 s : State} (h : Keep s0 s) :
    Keep s0 (State.tagPowerLost s) := by
  unfold State.tagPowerLost
  repeat' (first
    | intro y
    | (extract_lets +onlyGivenNames x; first | (refine keep_suff (p := Keep s0 x) ?_ (fun hx => ?_); subst x; rotate_left; clear_value x) | subst x)
    | with_reducible assumption | with_reducible apply State.drawBool_keep | with_reducible apply State.landCrumb_keep
    | with_reducible apply State.endSession_keep | with_reducible apply State.decayFlags_keep
    | with_reducible apply State.restartLockout_keep | with_reducible apply keep_ite | refine keep_pair ?_ (by with_reducible assumption)
    | split | refine keep_upd ?_ rfl rfl rfl rfl rfl rfl rfl rfl)

theorem State.fifoSync_keep {s0 s : State} (h : Keep s0 s) :
    Keep s0 (State.fifoSync s) := by
  unfold State.fifoSync
  repeat' (first
    | intro y
    | (extract_lets +onlyGivenNames x; first | (refine keep_suff (p := Keep s0 x) ?_ (fun hx => ?_); subst x; rotate_left; clear_value x) | subst x)
    | with_reducible assumption | with_reducible apply State.setFld_keep | with_reducible apply keep_ite | split
    | refine keep_upd ?_ rfl rfl rfl rfl rfl rfl rfl rfl)

theorem State.fifoPop_keep {s0 s : State} (h : Keep s0 s) :
    Keep s0 (State.fifoPop s).2 := by
  unfold State.fifoPop
  repeat' (first
    | intro y
    | (extract_lets +onlyGivenNames x; first | (refine keep_suff (p := Keep s0 x) ?_ (fun hx => ?_); subst x; rotate_left; clear_value x) | subst x)
    | with_reducible assumption | with_reducible apply State.fifoSync_keep | split | refine keep_upd ?_ rfl rfl rfl rfl rfl rfl rfl rfl)

theorem State.fifoDrop_keep {s0 s : State} (h : Keep s0 s) :
    Keep s0 (State.fifoDrop s).2 := by
  unfold State.fifoDrop
  repeat' (first
    | intro y
    | (extract_lets +onlyGivenNames x; first | (refine keep_suff (p := Keep s0 x) ?_ (fun hx => ?_); subst x; rotate_left; clear_value x) | subst x)
    | with_reducible assumption | with_reducible apply State.fifoSync_keep | split | refine keep_upd ?_ rfl rfl rfl rfl rfl rfl rfl rfl)

theorem State.fifoFlush_keep {s0 s : State} (h : Keep s0 s) :
    Keep s0 (State.fifoFlush s) := by
  unfold State.fifoFlush
  repeat' (first
    | intro y
    | (extract_lets +onlyGivenNames x; first | (refine keep_suff (p := Keep s0 x) ?_ (fun hx => ?_); subst x; rotate_left; clear_value x) | subst x)
    | with_reducible assumption | with_reducible apply State.fifoSync_keep | split | refine keep_upd ?_ rfl rfl rfl rfl rfl rfl rfl rfl)

theorem State.beginPacket_keep {s0 s : State} (h : Keep s0 s) {v1} :
    Keep s0 (State.beginPacket s v1) := by
  unfold State.beginPacket
  repeat' (first
    | intro y
    | (extract_lets +onlyGivenNames x; first | (refine keep_suff (p := Keep s0 x) ?_ (fun hx => ?_); subst x; rotate_left; clear_value x) | subst x)
    | with_reducible assumption | with_reducible apply State.fifoSync_keep | with_reducible apply State.setBit_keep | split
    | refine keep_upd ?_ rfl rfl rfl rfl rfl rfl rfl rfl)

theorem completePacket_keep {s0 s : State} (h : Keep s0 s) :
    Keep s0 (completePacket s) := by
  unfold completePacket
  repeat' (first
    | intro y
    | (extract_lets +onlyGivenNames x; first | (refine keep_suff (p := Keep s0 x) ?_ (fun hx => ?_); subst x; rotate_left; clear_value x) | subst x)
    | with_reducible assumption | with_reducible apply State.fifoSync_keep | with_reducible apply State.cnt_keep
    | with_reducible apply State.setBit_keep | split | refine keep_upd ?_ rfl rfl rfl rfl rfl rfl rfl rfl)

theorem State.writeWhole_keep {s0 s : State} (h : Keep s0 s) {v1} :
    Keep s0 (State.writeWhole s v1) := by
  unfold State.writeWhole
  repeat' (first
    | intro y
    | (extract_lets +onlyGivenNames x; first | (refine keep_suff (p := Keep s0 x) ?_ (fun hx => ?_); subst x; rotate_left; clear_value x) | subst x)
    | with_reducible assumption | with_reducible apply completePacket_keep | with_reducible apply State.beginPacket_keep
    | with_reducible apply State.dropRec_keep | with_reducible apply keep_ite | split
    | refine keep_upd ?_ rfl rfl rfl rfl rfl rfl rfl rfl)

theorem State.setPortClass_keep {s0 s : State} (h : Keep s0 s) {v1 v2} :
    Keep s0 (State.setPortClass s v1 v2) := by
  unfold State.setPortClass
  repeat' (first
    | intro y
    | (extract_lets +onlyGivenNames x; first | (refine keep_suff (p := Keep s0 x) ?_ (fun hx => ?_); subst x; rotate_left; clear_value x) | subst x)
    | with_reducible assumption | with_reducible apply State.setFld_keep | split)

theorem State.setPortOos_keep {s0 s : State} (h : Keep s0 s) {v1 v2} :
    Keep s0 (State.setPortOos s v1 v2) := by
  unfold State.setPortOos
  repeat' (first
    | intro y
    | (extract_lets +onlyGivenNames x; first | (refine keep_suff (p := Keep s0 x) ?_ (fun hx => ?_); subst x; rotate_left; clear_value x) | subst x)
    | with_reducible assumption | with_reducible apply State.setBit_keep | split)

theorem State.setRamp_keep {s0 s : State} (h : Keep s0 s) {v1 v2} :
    Keep s0 (State.setRamp s v1 v2) := by
  unfold State.setRamp
  repeat' (first
    | intro y
    | (extract_lets +onlyGivenNames x; first | (refine keep_suff (p := Keep s0 x) ?_ (fun hx => ?_); subst x; rotate_left; clear_value x) | subst x)
    | with_reducible assumption | with_reducible apply State.setFld_keep | split)

theorem State.loseAnt_keep {s0 s : State} (h : Keep s0 s) :
    Keep s0 (State.loseAnt s) := by
  unfold State.loseAnt
  repeat' (first
    | intro y
    | (extract_lets +onlyGivenNames x; first | (refine keep_suff (p := Keep s0 x) ?_ (fun hx => ?_); subst x; rotate_left; clear_value x) | subst x)
    | with_reducible assumption | with_reducible apply State.endSession_keep | with_reducible apply keep_ite | split)

theorem State.setMode_keep {s0 s : State} (h : Keep s0 s) {v1 v2} :
    Keep s0 (State.setMode s v1 v2) := by
  unfold State.setMode
  repeat' (first
    | intro y
    | (extract_lets +onlyGivenNames x; first | (refine keep_suff (p := Keep s0 x) ?_ (fun hx => ?_); subst x; rotate_left; clear_value x) | subst x)
    | with_reducible assumption | with_reducible apply State.setFld_keep | split)

theorem State.rampDown_keep {s0 s : State} (h : Keep s0 s) {v1 v2 v3} :
    Keep s0 (State.rampDown s v1 v2 v3) := by
  unfold State.rampDown
  repeat' (first
    | intro y
    | (extract_lets +onlyGivenNames x; first | (refine keep_suff (p := Keep s0 x) ?_ (fun hx => ?_); subst x; rotate_left; clear_value x) | subst x)
    | with_reducible assumption | with_reducible apply State.updTx_keep | with_reducible apply State.cnt_keep
    | with_reducible apply State.setMode_keep | with_reducible apply State.setRamp_keep | with_reducible apply keep_ite | split)

theorem State.rampUp_keep {s0 s : State} (h : Keep s0 s) {v1} :
    Keep s0 (State.rampUp s v1) := by
  unfold State.rampUp
  repeat' (first
    | intro y
    | (extract_lets +onlyGivenNames x; first | (refine keep_suff (p := Keep s0 x) ?_ (fun hx => ?_); subst x; rotate_left; clear_value x) | subst x)
    | with_reducible assumption | with_reducible apply State.updTx_keep | with_reducible apply State.cnt_keep
    | with_reducible apply State.setMode_keep | with_reducible apply State.setRamp_keep | split)

theorem State.airEnds_keep {s0 s : State} (h : Keep s0 s) {v1} :
    Keep s0 (State.airEnds s v1) := by
  unfold State.airEnds
  repeat' (first
    | intro y
    | (extract_lets +onlyGivenNames x; first | (refine keep_suff (p := Keep s0 x) ?_ (fun hx => ?_); subst x; rotate_left; clear_value x) | subst x)
    | with_reducible assumption | with_reducible apply State.updTx_keep | split | refine keep_upd ?_ rfl rfl rfl rfl rfl rfl rfl rfl)

theorem State.pickChan_keep {s0 s : State} (h : Keep s0 s) {v1 v2 v3} :
    Keep s0 (State.pickChan s v1 v2 v3).2 := by
  unfold State.pickChan
  repeat' (first
    | intro y
    | (extract_lets +onlyGivenNames x; first | (refine keep_suff (p := Keep s0 x) ?_ (fun hx => ?_); subst x; rotate_left; clear_value x) | subst x)
    | with_reducible assumption | with_reducible apply State.updTx_keep | with_reducible apply keep_ite | split
    | refine keep_upd ?_ rfl rfl rfl rfl rfl rfl rfl rfl)

theorem State.leaveChan_keep {s0 s : State} (h : Keep s0 s) {v1} :
    Keep s0 (State.leaveChan s v1) := by
  unfold State.leaveChan
  repeat' (first
    | intro y
    | (extract_lets +onlyGivenNames x; first | (refine keep_suff (p := Keep s0 x) ?_ (fun hx => ?_); subst x; rotate_left; clear_value x) | subst x)
    | with_reducible assumption | with_reducible apply State.updTx_keep | with_reducible apply keep_ite | split
    | refine keep_upd ?_ rfl rfl rfl rfl rfl rfl rfl rfl)

theorem State.retune_keep {s0 s : State} (h : Keep s0 s) {v1 v2 v3} :
    Keep s0 (State.retune s v1 v2 v3) := by
  unfold State.retune
  repeat' (first
    | intro y
    | (extract_lets +onlyGivenNames x; first | (refine keep_suff (p := Keep s0 x) ?_ (fun hx => ?_); subst x; rotate_left; clear_value x) | subst x)
    | with_reducible assumption | with_reducible apply State.leaveChan_keep | with_reducible apply State.setReg_keep
    | with_reducible apply State.loseAnt_keep | with_reducible apply State.updTx_keep | with_reducible apply State.setRamp_keep
    | with_reducible apply keep_ite | split)

theorem State.upOrWait_keep {s0 s : State} (h : Keep s0 s) {v1} :
    Keep s0 (State.upOrWait s v1) := by
  unfold State.upOrWait
  repeat' (first
    | intro y
    | (extract_lets +onlyGivenNames x; first | (refine keep_suff (p := Keep s0 x) ?_ (fun hx => ?_); subst x; rotate_left; clear_value x) | subst x)
    | with_reducible assumption | with_reducible apply State.rampUp_keep | with_reducible apply State.updTx_keep
    | with_reducible apply keep_ite | split)

theorem State.showChain_keep {s0 s : State} (h : Keep s0 s) {v1 v2} :
    Keep s0 (State.showChain s v1 v2) := by
  unfold State.showChain
  repeat' (first
    | intro y
    | (extract_lets +onlyGivenNames x; first | (refine keep_suff (p := Keep s0 x) ?_ (fun hx => ?_); subst x; rotate_left; clear_value x) | subst x)
    | with_reducible assumption | with_reducible apply State.setFld_keep | with_reducible apply State.setBit_keep | split)

theorem State.hideChain_keep {s0 s : State} (h : Keep s0 s) {v1} :
    Keep s0 (State.hideChain s v1) := by
  unfold State.hideChain
  repeat' (first
    | intro y
    | (extract_lets +onlyGivenNames x; first | (refine keep_suff (p := Keep s0 x) ?_ (fun hx => ?_); subst x; rotate_left; clear_value x) | subst x)
    | with_reducible assumption | with_reducible apply State.setBit_keep | with_reducible apply State.setFld_keep | split)

theorem State.fixedGain_keep {s0 s : State} (h : Keep s0 s) {v1} :
    Keep s0 (State.fixedGain s v1) := by
  unfold State.fixedGain
  repeat' (first
    | intro y
    | (extract_lets +onlyGivenNames x; first | (refine keep_suff (p := Keep s0 x) ?_ (fun hx => ?_); subst x; rotate_left; clear_value x) | subst x)
    | with_reducible assumption | with_reducible apply State.setFld_keep | with_reducible apply keep_ite | split)

theorem State.listenCal_keep {s0 s : State} (h : Keep s0 s) {v1 v2} :
    Keep s0 (State.listenCal s v1 v2) := by
  unfold State.listenCal
  repeat' (first
    | intro y
    | (extract_lets +onlyGivenNames x; first | (refine keep_suff (p := Keep s0 x) ?_ (fun hx => ?_); subst x; rotate_left; clear_value x) | subst x)
    | with_reducible assumption | with_reducible apply State.setFld_keep | split)

theorem State.showBus_keep {s0 s : State} (h : Keep s0 s) {v1 v2} :
    Keep s0 (State.showBus s v1 v2) := by
  unfold State.showBus
  repeat' (first
    | intro y
    | (extract_lets +onlyGivenNames x; first | (refine keep_suff (p := Keep s0 x) ?_ (fun hx => ?_); subst x; rotate_left; clear_value x) | subst x)
    | with_reducible assumption | with_reducible apply State.setFld_keep | split)

theorem State.adaptTaps_keep {s0 s : State} (h : Keep s0 s) {v1} :
    Keep s0 (State.adaptTaps s v1) := by
  unfold State.adaptTaps
  repeat' (first
    | intro y
    | (extract_lets +onlyGivenNames x; first | (refine keep_suff (p := Keep s0 x) ?_ (fun hx => ?_); subst x; rotate_left; clear_value x) | subst x)
    | with_reducible assumption | with_reducible apply State.drawWord_keep | with_reducible apply State.setReg_keep
    | with_reducible apply keep_foldl | with_reducible apply keep_foldl1 | with_reducible apply keep_foldl2
    | refine keep_pair ?_ (by with_reducible assumption) | refine keep_pair1 ?_ (by with_reducible assumption) | split)

theorem State.hideBus_keep {s0 s : State} (h : Keep s0 s) {v1} :
    Keep s0 (State.hideBus s v1) := by
  unfold State.hideBus
  repeat' (first
    | intro y
    | (extract_lets +onlyGivenNames x; first | (refine keep_suff (p := Keep s0 x) ?_ (fun hx => ?_); subst x; rotate_left; clear_value x) | subst x)
    | with_reducible assumption | with_reducible apply State.setFld_keep | with_reducible apply keep_foldl
    | with_reducible apply keep_foldl1 | with_reducible apply keep_foldl2 | with_reducible apply keep_ite
    | refine keep_pair ?_ (by with_reducible assumption) | refine keep_pair1 ?_ (by with_reducible assumption) | split)

theorem State.deafPort_keep {s0 s : State} (h : Keep s0 s) {v1} :
    Keep s0 (State.deafPort s v1) := by
  unfold State.deafPort
  repeat' (first
    | intro y
    | (extract_lets +onlyGivenNames x; first | (refine keep_suff (p := Keep s0 x) ?_ (fun hx => ?_); subst x; rotate_left; clear_value x) | subst x)
    | with_reducible assumption | with_reducible apply State.hideChain_keep | with_reducible apply State.adaptTaps_keep
    | with_reducible apply State.hideBus_keep | with_reducible apply keep_foldl | with_reducible apply keep_foldl1
    | with_reducible apply keep_foldl2 | with_reducible apply keep_ite | refine keep_pair ?_ (by with_reducible assumption)
    | refine keep_pair1 ?_ (by with_reducible assumption) | split)

theorem State.closePoint_keep {s0 s : State} (h : Keep s0 s) {v1} :
    Keep s0 (State.closePoint s v1) := by
  unfold State.closePoint
  repeat' (first
    | intro y
    | (extract_lets +onlyGivenNames x; first | (refine keep_suff (p := Keep s0 x) ?_ (fun hx => ?_); subst x; rotate_left; clear_value x) | subst x)
    | with_reducible assumption | with_reducible apply State.setReg_keep | with_reducible apply State.deafPort_keep
    | with_reducible apply keep_foldl | with_reducible apply keep_foldl1 | with_reducible apply keep_foldl2
    | refine keep_pair ?_ (by with_reducible assumption) | refine keep_pair1 ?_ (by with_reducible assumption) | split)

theorem State.holdTaps_keep {s0 s : State} (h : Keep s0 s) :
    Keep s0 (State.holdTaps s) := by
  unfold State.holdTaps
  repeat' (first
    | intro y
    | (extract_lets +onlyGivenNames x; first | (refine keep_suff (p := Keep s0 x) ?_ (fun hx => ?_); subst x; rotate_left; clear_value x) | subst x)
    | with_reducible assumption | with_reducible apply State.adaptTaps_keep | with_reducible apply keep_foldl
    | with_reducible apply keep_foldl1 | with_reducible apply keep_foldl2 | refine keep_pair ?_ (by with_reducible assumption)
    | refine keep_pair1 ?_ (by with_reducible assumption) | split)

theorem State.fillEntries_keep {s0 s : State} (h : Keep s0 s) {v1} :
    Keep s0 (State.fillEntries s v1).2 := by
  unfold State.fillEntries
  repeat' (first
    | intro y
    | (extract_lets +onlyGivenNames x; first | (refine keep_suff (p := Keep s0 x) ?_ (fun hx => ?_); subst x; rotate_left; clear_value x) | subst x)
    | with_reducible assumption | with_reducible apply State.drawWord_keep | with_reducible apply keep_ite
    | refine keep_pair ?_ (by with_reducible assumption) | split)

theorem State.submit_keep {s0 s : State} (h : Keep s0 s) {v1} :
    Keep s0 (State.submit s v1) := by
  unfold State.submit
  repeat' (first
    | intro y
    | (extract_lets +onlyGivenNames x; first | (refine keep_suff (p := Keep s0 x) ?_ (fun hx => ?_); subst x; rotate_left; clear_value x) | subst x)
    | with_reducible assumption | with_reducible apply State.fillEntries_keep | with_reducible apply keep_ite
    | refine keep_pair ?_ (by with_reducible assumption) | split | refine keep_upd ?_ rfl rfl rfl rfl rfl rfl rfl rfl)

theorem State.pumpWaiting_keep {s0 s : State} (h : Keep s0 s) :
    Keep s0 (State.pumpWaiting s) := by
  unfold State.pumpWaiting
  repeat' (first
    | intro y
    | (extract_lets +onlyGivenNames x; first | (refine keep_suff (p := Keep s0 x) ?_ (fun hx => ?_); subst x; rotate_left; clear_value x) | subst x)
    | with_reducible assumption | with_reducible apply State.submit_keep | with_reducible apply keep_foldl
    | with_reducible apply keep_foldl1 | with_reducible apply keep_foldl2 | refine keep_pair ?_ (by with_reducible assumption)
    | refine keep_pair1 ?_ (by with_reducible assumption) | split | refine keep_upd ?_ rfl rfl rfl rfl rfl rfl rfl rfl)

theorem State.owe_keep {s0 s : State} (h : Keep s0 s) {v1} :
    Keep s0 (State.owe s v1) := by
  unfold State.owe
  repeat' (first
    | intro y
    | (extract_lets +onlyGivenNames x; first | (refine keep_suff (p := Keep s0 x) ?_ (fun hx => ?_); subst x; rotate_left; clear_value x) | subst x)
    | with_reducible assumption | with_reducible apply State.fillEntries_keep | refine keep_pair ?_ (by with_reducible assumption)
    | split | refine keep_upd ?_ rfl rfl rfl rfl rfl rfl rfl rfl)

theorem State.pumpTask_keep {s0 s : State} (h : Keep s0 s) :
    Keep s0 (State.pumpTask s) := by
  unfold State.pumpTask
  repeat' (first
    | intro y
    | (extract_lets +onlyGivenNames x; first | (refine keep_suff (p := Keep s0 x) ?_ (fun hx => ?_); subst x; rotate_left; clear_value x) | subst x)
    | with_reducible assumption | with_reducible apply State.submit_keep | with_reducible apply keep_ite | split)

theorem State.addTask_keep {s0 s : State} (h : Keep s0 s) {v1 v2 v3 v4} (hk : s0.Inv → TaskKind.wf v1 = true) :
    Keep s0 (State.addTask s v1 v2 v3 v4) := by
  unfold State.addTask
  extract_lets
  refine State.pumpTask_keep ⟨⟨h.fixed.board, h.fixed.prof, h.fixed.pending, h.fixed.free⟩, fun i0 => ?_⟩
  have i := h.inv i0
  exact ⟨i.regs, i.seen, i.pop, i.latches, i.staging, i.phi, i.refAt, i.wts, i.seedWt, i.dueAt, i.divAt, i.tagBytes, i.tagWear,
      i.pingPorts, i.pingFlash, i.phiFlash, i.txc, i.chains, i.beams, i.slots, i.log, i.shedLo, i.shedHi, tasks_append i.tasks (hk i0)⟩

theorem State.readCopy_keep {s0 s : State} (h : Keep s0 s) {v1} :
    Keep s0 (State.readCopy s v1) := by
  unfold State.readCopy
  repeat' (first
    | intro y
    | (extract_lets +onlyGivenNames x; first | (refine keep_suff (p := Keep s0 x) ?_ (fun hx => ?_); subst x; rotate_left; clear_value x) | subst x)
    | with_reducible assumption | with_reducible apply State.submit_keep | split)

theorem State.pumpCopy_keep {s0 s : State} (h : Keep s0 s) :
    Keep s0 (State.pumpCopy s) := by
  unfold State.pumpCopy
  repeat' (first
    | intro y
    | (extract_lets +onlyGivenNames x; first | (refine keep_suff (p := Keep s0 x) ?_ (fun hx => ?_); subst x; rotate_left; clear_value x) | subst x)
    | with_reducible assumption | with_reducible apply State.readCopy_keep | with_reducible apply keep_ite | split)

theorem State.submitLog_keep {s0 s : State} (h : Keep s0 s) :
    Keep s0 (State.submitLog s) := by
  unfold State.submitLog
  repeat' (first
    | intro y
    | (extract_lets +onlyGivenNames x; first | (refine keep_suff (p := Keep s0 x) ?_ (fun hx => ?_); subst x; rotate_left; clear_value x) | subst x)
    | with_reducible assumption | with_reducible apply State.submit_keep | with_reducible apply keep_ite | split)

theorem State.persistLog_keep {s0 s : State} (h : Keep s0 s) {v1} :
    Keep s0 (State.persistLog s v1) := by
  unfold State.persistLog
  repeat' (first
    | intro y
    | (extract_lets +onlyGivenNames x; first | (refine keep_suff (p := Keep s0 x) ?_ (fun hx => ?_); subst x; rotate_left; clear_value x) | subst x)
    | with_reducible assumption | with_reducible apply State.setBit_keep | with_reducible apply State.logEvent_keep
    | with_reducible apply State.submitLog_keep | with_reducible apply keep_ite | split
    | refine keep_upd ?_ rfl rfl rfl rfl rfl rfl rfl rfl)

theorem State.readProof_keep {s0 s : State} (h : Keep s0 s) {v1 v2 v3} :
    Keep s0 (State.readProof s v1 v2 v3) := by
  unfold State.readProof
  repeat' (first
    | intro y
    | (extract_lets +onlyGivenNames x; first | (refine keep_suff (p := Keep s0 x) ?_ (fun hx => ?_); subst x; rotate_left; clear_value x) | subst x)
    | with_reducible assumption | with_reducible apply State.submit_keep | with_reducible apply keep_ite | split)

theorem State.startProof_keep {s0 s : State} (h : Keep s0 s) {v1 v2} :
    Keep s0 (State.startProof s v1 v2) := by
  unfold State.startProof
  repeat' (first
    | intro y
    | (extract_lets +onlyGivenNames x; first | (refine keep_suff (p := Keep s0 x) ?_ (fun hx => ?_); subst x; rotate_left; clear_value x) | subst x)
    | with_reducible assumption | with_reducible apply State.setReg_keep | with_reducible apply State.readProof_keep | split
    | refine keep_upd ?_ rfl rfl rfl rfl rfl rfl rfl rfl)

theorem State.loadFields_keep {s0 s : State} (h : Keep s0 s) {v1} :
    Keep s0 (State.loadFields s v1) := by
  unfold State.loadFields
  repeat' (first
    | intro y
    | (extract_lets +onlyGivenNames x; first | (refine keep_suff (p := Keep s0 x) ?_ (fun hx => ?_); subst x; rotate_left; clear_value x) | subst x)
    | with_reducible assumption | with_reducible apply State.setReg_keep | with_reducible apply State.setBit_keep
    | with_reducible apply State.fixedGain_keep | with_reducible apply State.setFld_keep | with_reducible apply keep_foldl
    | with_reducible apply keep_foldl1 | with_reducible apply keep_foldl2 | refine keep_pair ?_ (by with_reducible assumption)
    | refine keep_pair1 ?_ (by with_reducible assumption) | split)

theorem State.loadSchedule_keep {s0 s : State} (h : Keep s0 s) {v1} :
    Keep s0 (State.loadSchedule s v1) := by
  unfold State.loadSchedule
  repeat' (first
    | intro y
    | (extract_lets +onlyGivenNames x; first | (refine keep_suff (p := Keep s0 x) ?_ (fun hx => ?_); subst x; rotate_left; clear_value x) | subst x)
    | with_reducible assumption | with_reducible apply State.setReg_keep | with_reducible apply keep_foldl
    | with_reducible apply keep_foldl1 | with_reducible apply keep_foldl2 | refine keep_pair ?_ (by with_reducible assumption)
    | refine keep_pair1 ?_ (by with_reducible assumption) | split | refine keep_upd ?_ rfl rfl rfl rfl rfl rfl rfl rfl
    | refine keep_raw ?_ rfl (Nat.le_refl _) (fun i => ⟨swf_serase _ i.regs, i.seen, i.pop, i.latches, i.staging, i.phi, i.refAt, i.wts, i.seedWt, i.dueAt, i.divAt, i.tagBytes, i.tagWear, i.pingPorts, i.pingFlash, i.phiFlash, i.txc, i.chains, i.beams, i.slots, i.log, i.shedLo, i.shedHi, i.tasks⟩))

theorem State.expectDraft_keep {s0 s : State} (h : Keep s0 s) {v1} :
    Keep s0 (State.expectDraft s v1) := by
  unfold State.expectDraft
  repeat' (first
    | intro y
    | (extract_lets +onlyGivenNames x; first | (refine keep_suff (p := Keep s0 x) ?_ (fun hx => ?_); subst x; rotate_left; clear_value x) | subst x)
    | with_reducible assumption | with_reducible apply State.setExpect_keep | with_reducible apply State.setReady_keep
    | with_reducible apply keep_foldl | with_reducible apply keep_foldl1 | with_reducible apply keep_foldl2
    | with_reducible apply keep_ite | refine keep_pair ?_ (by with_reducible assumption)
    | refine keep_pair1 ?_ (by with_reducible assumption) | split)

theorem State.copyPing_keep {s0 s : State} (h : Keep s0 s) {v1} :
    Keep s0 (State.copyPing s v1) := by
  unfold State.copyPing
  repeat' (first
    | intro y
    | (extract_lets +onlyGivenNames x; first | (refine keep_suff (p := Keep s0 x) ?_ (fun hx => ?_); subst x; rotate_left; clear_value x) | subst x)
    | with_reducible assumption | with_reducible apply State.setReg_keep | with_reducible apply keep_ite | split
    | refine keep_upd ?_ rfl rfl rfl rfl rfl rfl rfl rfl
    | refine keep_raw ?_ rfl (Nat.le_refl _) (fun i => ⟨i.regs, i.seen, i.pop, i.latches, i.staging, i.phi, i.refAt, i.wts, i.seedWt, i.dueAt, i.divAt, i.tagBytes, i.tagWear, swfFrom_mapFilter (fun v : PingPort => { v with valid := false }) (fun e => e.2 != PingPort.init) (fun _ _ hp => by simpa using hp) _ i.pingPorts, i.pingFlash, i.phiFlash, i.txc, i.chains, i.beams, i.slots, i.log, i.shedLo, i.shedHi, i.tasks⟩))

theorem State.readHot_keep {s0 s : State} (h : Keep s0 s) {v1} :
    Keep s0 (State.readHot s v1) := by
  unfold State.readHot
  repeat' (first
    | intro y
    | (extract_lets +onlyGivenNames x; first | (refine keep_suff (p := Keep s0 x) ?_ (fun hx => ?_); subst x; rotate_left; clear_value x) | subst x)
    | with_reducible assumption | with_reducible apply State.drawBool_keep | with_reducible apply keep_foldl
    | with_reducible apply keep_foldl1 | with_reducible apply keep_foldl2 | with_reducible apply keep_ite
    | refine keep_pair ?_ (by with_reducible assumption) | refine keep_pair1 ?_ (by with_reducible assumption) | split
    | refine keep_upd ?_ rfl rfl rfl rfl rfl rfl rfl rfl)

theorem State.putRecord_keep {s0 s : State} (h : Keep s0 s) {v1} :
    Keep s0 (State.putRecord s v1) := by
  unfold State.putRecord
  repeat' (first
    | intro y
    | (extract_lets +onlyGivenNames x; first | (refine keep_suff (p := Keep s0 x) ?_ (fun hx => ?_); subst x; rotate_left; clear_value x) | subst x)
    | with_reducible assumption | with_reducible apply State.addTask_keep | with_reducible apply keep_ite | exact rfl | split
    | refine keep_upd ?_ rfl rfl rfl rfl rfl rfl rfl rfl)

theorem State.writeRecord_keep {s0 s : State} (h : Keep s0 s) :
    Keep s0 (State.writeRecord s) := by
  unfold State.writeRecord
  repeat' (first
    | intro y
    | (extract_lets +onlyGivenNames x; first | (refine keep_suff (p := Keep s0 x) ?_ (fun hx => ?_); subst x; rotate_left; clear_value x) | subst x)
    | with_reducible assumption | with_reducible apply State.putRecord_keep | split)

theorem State.toUpdState_keep {s0 s : State} (h : Keep s0 s) {v1} :
    Keep s0 (State.toUpdState s v1) := by
  unfold State.toUpdState
  repeat' (first
    | intro y
    | (extract_lets +onlyGivenNames x; first | (refine keep_suff (p := Keep s0 x) ?_ (fun hx => ?_); subst x; rotate_left; clear_value x) | subst x)
    | with_reducible assumption | with_reducible apply State.writeRecord_keep | with_reducible apply State.setFld_keep | split)

theorem State.updLog_keep {s0 s : State} (h : Keep s0 s) {v1} :
    Keep s0 (State.updLog s v1) := by
  unfold State.updLog
  repeat' (first
    | intro y
    | (extract_lets +onlyGivenNames x; first | (refine keep_suff (p := Keep s0 x) ?_ (fun hx => ?_); subst x; rotate_left; clear_value x) | subst x)
    | with_reducible assumption | with_reducible apply State.logEvent_keep | split)

theorem State.applyWarp_keep {s0 s : State} (h : Keep s0 s) {v1} :
    Keep s0 (State.applyWarp s v1) := by
  unfold State.applyWarp
  repeat' (first
    | intro y
    | (extract_lets +onlyGivenNames x; first | (refine keep_suff (p := Keep s0 x) ?_ (fun hx => ?_); subst x; rotate_left; clear_value x) | subst x)
    | with_reducible assumption | with_reducible apply State.setReg_keep | with_reducible apply keep_foldl
    | with_reducible apply keep_foldl1 | with_reducible apply keep_foldl2 | with_reducible apply keep_ite
    | refine keep_pair ?_ (by with_reducible assumption) | refine keep_pair1 ?_ (by with_reducible assumption) | split)

theorem State.finishFallback_keep {s0 s : State} (h : Keep s0 s) :
    Keep s0 (State.finishFallback s) := by
  unfold State.finishFallback
  repeat' (first
    | intro y
    | (extract_lets +onlyGivenNames x; first | (refine keep_suff (p := Keep s0 x) ?_ (fun hx => ?_); subst x; rotate_left; clear_value x) | subst x)
    | with_reducible assumption | with_reducible apply State.copyPing_keep | with_reducible apply State.loadFields_keep
    | with_reducible apply State.updLog_keep | with_reducible apply State.raise_keep | with_reducible apply State.toUpdState_keep
    | with_reducible apply State.completeAll_keep | with_reducible apply keep_ite | split
    | refine keep_upd ?_ rfl rfl rfl rfl rfl rfl rfl rfl)

theorem State.passBoundary_keep {s0 s : State} (h : Keep s0 s) {v1} :
    Keep s0 (State.passBoundary s v1) := by
  unfold State.passBoundary
  repeat' (first
    | intro y
    | (extract_lets +onlyGivenNames x; first | (refine keep_suff (p := Keep s0 x) ?_ (fun hx => ?_); subst x; rotate_left; clear_value x) | subst x)
    | with_reducible assumption | with_reducible apply State.applyWarp_keep | with_reducible apply State.finishFallback_keep
    | with_reducible apply keep_foldl | with_reducible apply keep_foldl1 | with_reducible apply keep_foldl2
    | refine keep_pair ?_ (by with_reducible assumption) | refine keep_pair1 ?_ (by with_reducible assumption) | split
    | refine keep_upd ?_ rfl rfl rfl rfl rfl rfl rfl rfl)

theorem State.askCal_keep {s0 s : State} (h : Keep s0 s) {v1 v2} :
    Keep s0 (State.askCal s v1 v2) := by
  unfold State.askCal
  repeat' (first
    | intro y
    | (extract_lets +onlyGivenNames x; first | (refine keep_suff (p := Keep s0 x) ?_ (fun hx => ?_); subst x; rotate_left; clear_value x) | subst x)
    | with_reducible assumption | with_reducible apply keep_ite | split | refine keep_upd ?_ rfl rfl rfl rfl rfl rfl rfl rfl)

theorem State.recalibrate_keep {s0 s : State} (h : Keep s0 s) {v1} :
    Keep s0 (State.recalibrate s v1) := by
  unfold State.recalibrate
  repeat' (first
    | intro y
    | (extract_lets +onlyGivenNames x; first | (refine keep_suff (p := Keep s0 x) ?_ (fun hx => ?_); subst x; rotate_left; clear_value x) | subst x)
    | with_reducible assumption | with_reducible apply State.askCal_keep | with_reducible apply keep_foldl
    | with_reducible apply keep_foldl1 | with_reducible apply keep_foldl2 | refine keep_pair ?_ (by with_reducible assumption)
    | refine keep_pair1 ?_ (by with_reducible assumption) | split)

theorem State.calTxc_keep {s0 s : State} (h : Keep s0 s) {v1} :
    Keep s0 (State.calTxc s v1) := by
  unfold State.calTxc
  repeat' (first
    | intro y
    | (extract_lets +onlyGivenNames x; first | (refine keep_suff (p := Keep s0 x) ?_ (fun hx => ?_); subst x; rotate_left; clear_value x) | subst x)
    | with_reducible assumption | with_reducible apply State.loseAnt_keep | with_reducible apply State.updTx_keep
    | with_reducible apply State.setRamp_keep | with_reducible apply keep_ite | split)

theorem State.startChainCal_keep {s0 s : State} (h : Keep s0 s) {v1} :
    Keep s0 (State.startChainCal s v1) := by
  unfold State.startChainCal
  repeat' (first
    | intro y
    | (extract_lets +onlyGivenNames x; first | (refine keep_suff (p := Keep s0 x) ?_ (fun hx => ?_); subst x; rotate_left; clear_value x) | subst x)
    | with_reducible assumption | with_reducible apply State.updChain_keep | with_reducible apply State.setBit_keep | split)

theorem State.forgetPoints_keep {s0 s : State} (h : Keep s0 s) {v1} :
    Keep s0 (State.forgetPoints s v1) := by
  unfold State.forgetPoints
  repeat' (first
    | intro y
    | (extract_lets +onlyGivenNames x; first | (refine keep_suff (p := Keep s0 x) ?_ (fun hx => ?_); subst x; rotate_left; clear_value x) | subst x)
    | with_reducible assumption | with_reducible apply keep_ite | split | refine keep_upd ?_ rfl rfl rfl rfl rfl rfl rfl rfl)

theorem State.startReturns_keep {s0 s : State} (h : Keep s0 s) :
    Keep s0 (State.startReturns s) := by
  unfold State.startReturns
  repeat' (first
    | intro y
    | (extract_lets +onlyGivenNames x; first | (refine keep_suff (p := Keep s0 x) ?_ (fun hx => ?_); subst x; rotate_left; clear_value x) | subst x)
    | with_reducible assumption | with_reducible apply State.calTxc_keep | with_reducible apply State.startChainCal_keep
    | with_reducible apply keep_foldl | with_reducible apply keep_foldl1 | with_reducible apply keep_foldl2
    | with_reducible apply keep_ite | refine keep_pair ?_ (by with_reducible assumption)
    | refine keep_pair1 ?_ (by with_reducible assumption) | split)

theorem State.settleOuts_keep {s0 s : State} (h : Keep s0 s) :
    Keep s0 (State.settleOuts s) := by
  unfold State.settleOuts
  repeat' (first
    | intro y
    | (extract_lets +onlyGivenNames x; first | (refine keep_suff (p := Keep s0 x) ?_ (fun hx => ?_); subst x; rotate_left; clear_value x) | subst x)
    | with_reducible assumption | with_reducible apply State.completeAll_keep | with_reducible apply State.recalibrate_keep
    | with_reducible apply State.startReturns_keep | with_reducible apply keep_foldl | with_reducible apply keep_foldl1
    | with_reducible apply keep_foldl2 | with_reducible apply keep_ite | refine keep_pair ?_ (by with_reducible assumption)
    | refine keep_pair1 ?_ (by with_reducible assumption) | split)

theorem State.dropWts_keep {s0 s : State} (h : Keep s0 s) {v1} :
    Keep s0 (State.dropWts s v1) := by
  exact keep_raw h rfl (Nat.le_refl _) (fun i => ⟨i.regs, i.seen, i.pop, i.latches, i.staging, i.phi, i.refAt, swf_serase (fun x => x /
      128 == v1) i.wts, i.seedWt, i.dueAt, i.divAt, i.tagBytes, i.tagWear, i.pingPorts, i.pingFlash, i.phiFlash, i.txc, i.chains, i.beams,
      i.slots, i.log, i.shedLo, i.shedHi, i.tasks⟩)

theorem State.joinChain_keep {s0 s : State} (h : Keep s0 s) {v1} :
    Keep s0 (State.joinChain s v1) := by
  unfold State.joinChain
  repeat' (first
    | intro y
    | (extract_lets +onlyGivenNames x; first | (refine keep_suff (p := Keep s0 x) ?_ (fun hx => ?_); subst x; rotate_left; clear_value x) | subst x)
    | with_reducible assumption | with_reducible apply State.setFld_keep | with_reducible apply State.dropWts_keep
    | with_reducible apply State.setReg_keep | with_reducible apply State.updChain_keep | with_reducible apply State.setBit_keep
    | with_reducible apply keep_foldl | with_reducible apply keep_foldl1 | with_reducible apply keep_foldl2
    | with_reducible apply keep_ite | refine keep_pair ?_ (by with_reducible assumption)
    | refine keep_pair1 ?_ (by with_reducible assumption) | split)

theorem State.settleReturns_keep {s0 s : State} (h : Keep s0 s) :
    Keep s0 (State.settleReturns s) := by
  unfold State.settleReturns
  repeat' (first
    | intro y
    | (extract_lets +onlyGivenNames x; first | (refine keep_suff (p := Keep s0 x) ?_ (fun hx => ?_); subst x; rotate_left; clear_value x) | subst x)
    | with_reducible assumption | with_reducible apply State.joinChain_keep | with_reducible apply State.setPortOos_keep
    | with_reducible apply State.setFld_keep | with_reducible apply State.completeAll_keep | with_reducible apply keep_foldl
    | with_reducible apply keep_foldl1 | with_reducible apply keep_foldl2 | with_reducible apply keep_ite
    | refine keep_pair ?_ (by with_reducible assumption) | refine keep_pair1 ?_ (by with_reducible assumption) | split)

theorem State.cutBlockWrite_keep {s0 s : State} (h : Keep s0 s) {v1} :
    Keep s0 (State.cutBlockWrite s v1) := by
  unfold State.cutBlockWrite
  repeat' (first
    | intro y
    | (extract_lets +onlyGivenNames x; first | (refine keep_suff (p := Keep s0 x) ?_ (fun hx => ?_); subst x; rotate_left; clear_value x) | subst x)
    | with_reducible assumption | with_reducible apply State.cnt_keep | with_reducible apply State.queueWarp_keep
    | with_reducible apply keep_ite | split)

theorem State.freeBeam_keep {s0 s : State} (h : Keep s0 s) {v1} :
    Keep s0 (State.freeBeam s v1) := by
  unfold State.freeBeam
  repeat' (first
    | intro y
    | (extract_lets +onlyGivenNames x; first | (refine keep_suff (p := Keep s0 x) ?_ (fun hx => ?_); subst x; rotate_left; clear_value x) | subst x)
    | with_reducible assumption | with_reducible apply State.setReg_keep | with_reducible apply State.updChain_keep
    | with_reducible apply State.deafPort_keep | with_reducible apply keep_foldl | with_reducible apply keep_foldl1
    | with_reducible apply keep_foldl2 | with_reducible apply keep_ite | refine keep_pair ?_ (by with_reducible assumption)
    | refine keep_pair1 ?_ (by with_reducible assumption) | split | refine keep_upd ?_ rfl rfl rfl rfl rfl rfl rfl rfl
    | refine keep_raw ?_ rfl (Nat.le_refl _) (fun i => ⟨i.regs, i.seen, i.pop, i.latches, i.staging, i.phi, i.refAt, i.wts, i.seedWt, i.dueAt, i.divAt, i.tagBytes, i.tagWear, i.pingPorts, i.pingFlash, i.phiFlash, i.txc, i.chains, List.length_set.trans i.beams, i.slots, i.log, i.shedLo, i.shedHi, i.tasks⟩))

theorem State.freeDec_keep {s0 s : State} (h : Keep s0 s) {v1} :
    Keep s0 (State.freeDec s v1) := by
  unfold State.freeDec
  repeat' (first
    | intro y
    | (extract_lets +onlyGivenNames x; first | (refine keep_suff (p := Keep s0 x) ?_ (fun hx => ?_); subst x; rotate_left; clear_value x) | subst x)
    | with_reducible assumption | with_reducible apply State.setBit_keep | with_reducible apply State.setFld_keep
    | with_reducible apply keep_ite | split | refine keep_upd ?_ rfl rfl rfl rfl rfl rfl rfl rfl)

theorem State.releaseRound_keep {s0 s : State} (h : Keep s0 s) {v1} :
    Keep s0 (State.releaseRound s v1) := by
  unfold State.releaseRound
  repeat' (first
    | intro y
    | (extract_lets +onlyGivenNames x; first | (refine keep_suff (p := Keep s0 x) ?_ (fun hx => ?_); subst x; rotate_left; clear_value x) | subst x)
    | with_reducible assumption | with_reducible apply State.freeBeam_keep | with_reducible apply State.freeDec_keep
    | with_reducible apply State.closePoint_keep | with_reducible apply State.leaveChan_keep | with_reducible apply State.setMode_keep
    | with_reducible apply State.setRamp_keep | with_reducible apply State.setBit_keep | with_reducible apply State.setReg_keep
    | with_reducible apply keep_foldl | with_reducible apply keep_foldl1 | with_reducible apply keep_foldl2
    | with_reducible apply keep_ite | refine keep_pair ?_ (by with_reducible assumption)
    | refine keep_pair1 ?_ (by with_reducible assumption) | split | refine keep_upd ?_ rfl rfl rfl rfl rfl rfl rfl rfl)

theorem State.roundEnd_keep {s0 s : State} (h : Keep s0 s) {v1} :
    Keep s0 (State.roundEnd s v1) := by
  unfold State.roundEnd
  repeat' (first
    | intro y
    | (extract_lets +onlyGivenNames x; first | (refine keep_suff (p := Keep s0 x) ?_ (fun hx => ?_); subst x; rotate_left; clear_value x) | subst x)
    | with_reducible assumption | with_reducible apply State.cutBlockWrite_keep | with_reducible apply State.queueWarp_keep
    | with_reducible apply State.cnt_keep | with_reducible apply State.releaseRound_keep | with_reducible apply State.complete_keep
    | with_reducible apply State.settleReturns_keep | with_reducible apply State.settleOuts_keep
    | with_reducible apply State.passBoundary_keep | with_reducible apply keep_ite | split
    | refine keep_upd ?_ rfl rfl rfl rfl rfl rfl rfl rfl)

theorem State.roundAtOnce_keep {s0 s : State} (h : Keep s0 s) {v1 v2 v3 v4} :
    Keep s0 (State.roundAtOnce s v1 v2 v3 v4) := by
  unfold State.roundAtOnce
  repeat' (first
    | intro y
    | (extract_lets +onlyGivenNames x; first | (refine keep_suff (p := Keep s0 x) ?_ (fun hx => ?_); subst x; rotate_left; clear_value x) | subst x)
    | with_reducible assumption | with_reducible apply State.queueWarp_keep | with_reducible apply State.complete_keep
    | with_reducible apply keep_ite | split)

theorem State.quietBeams_keep {s0 s : State} (h : Keep s0 s) {v1} :
    Keep s0 (State.quietBeams s v1) := by
  unfold State.quietBeams
  repeat' (first
    | intro y
    | (extract_lets +onlyGivenNames x; first | (refine keep_suff (p := Keep s0 x) ?_ (fun hx => ?_); subst x; rotate_left; clear_value x) | subst x)
    | with_reducible assumption | with_reducible apply State.updBeam_keep | with_reducible apply keep_foldl
    | with_reducible apply keep_foldl1 | with_reducible apply keep_foldl2 | refine keep_pair ?_ (by with_reducible assumption)
    | refine keep_pair1 ?_ (by with_reducible assumption) | split | refine keep_upd ?_ rfl rfl rfl rfl rfl rfl rfl rfl)

theorem State.downRound_keep {s0 s : State} (h : Keep s0 s) {v1 v2} :
    Keep s0 (State.downRound s v1 v2) := by
  unfold State.downRound
  repeat' (first
    | intro y
    | (extract_lets +onlyGivenNames x; first | (refine keep_suff (p := Keep s0 x) ?_ (fun hx => ?_); subst x; rotate_left; clear_value x) | subst x)
    | with_reducible assumption | with_reducible apply State.quietBeams_keep | with_reducible apply State.updRound_keep
    | with_reducible apply State.rampDown_keep | with_reducible apply State.roundEnd_keep | with_reducible apply keep_ite | split)

theorem State.expireRound_keep {s0 s : State} (h : Keep s0 s) {v1} :
    Keep s0 (State.expireRound s v1) := by
  unfold State.expireRound
  repeat' (first
    | intro y
    | (extract_lets +onlyGivenNames x; first | (refine keep_suff (p := Keep s0 x) ?_ (fun hx => ?_); subst x; rotate_left; clear_value x) | subst x)
    | with_reducible assumption | with_reducible apply State.updRound_keep | with_reducible apply State.downRound_keep
    | with_reducible apply keep_ite | split)

theorem State.keepResult_keep {s0 s : State} (h : Keep s0 s) {v1} :
    Keep s0 (State.keepResult s v1) := by
  unfold State.keepResult
  repeat' (first
    | intro y
    | (extract_lets +onlyGivenNames x; first | (refine keep_suff (p := Keep s0 x) ?_ (fun hx => ?_); subst x; rotate_left; clear_value x) | subst x)
    | with_reducible assumption | with_reducible apply State.queueWarp_keep | with_reducible apply State.cnt_keep
    | with_reducible apply State.updRound_keep | with_reducible apply keep_ite | split)

theorem State.stopRound_keep {s0 s : State} (h : Keep s0 s) {v1 v2 v3 v4} :
    Keep s0 (State.stopRound s v1 v2 v3 v4) := by
  unfold State.stopRound
  repeat' (first
    | intro y
    | (extract_lets +onlyGivenNames x; first | (refine keep_suff (p := Keep s0 x) ?_ (fun hx => ?_); subst x; rotate_left; clear_value x) | subst x)
    | with_reducible assumption | with_reducible apply State.rampDown_keep | with_reducible apply State.downRound_keep
    | with_reducible apply State.keepResult_keep | with_reducible apply State.updRound_keep | with_reducible apply keep_ite | split)

theorem State.txnOver_keep {s0 s : State} (h : Keep s0 s) {v1 v2} (hv2 : ∀ s, Keep s0 s → Keep s0 (v2 s)) :
    Keep s0 (State.txnOver s v1 v2) := by
  unfold State.txnOver
  repeat' (first
    | intro y
    | (extract_lets +onlyGivenNames x; first | (refine keep_suff (p := Keep s0 x) ?_ (fun hx => ?_); subst x; rotate_left; clear_value x) | subst x)
    | with_reducible assumption | with_reducible apply hv2 | with_reducible apply State.updRound_keep
    | with_reducible apply State.downRound_keep | with_reducible apply keep_ite | split)

theorem State.checkBringup_keep {s0 s : State} (h : Keep s0 s) :
    Keep s0 (State.checkBringup s) := by
  unfold State.checkBringup
  repeat' (first
    | intro y
    | (extract_lets +onlyGivenNames x; first | (refine keep_suff (p := Keep s0 x) ?_ (fun hx => ?_); subst x; rotate_left; clear_value x) | subst x)
    | with_reducible assumption | with_reducible apply State.raise_keep | with_reducible apply keep_ite | split
    | refine keep_upd ?_ rfl rfl rfl rfl rfl rfl rfl rfl)

theorem State.becomeReady_keep {s0 s : State} (h : Keep s0 s) {v1} :
    Keep s0 (State.becomeReady s v1) := by
  unfold State.becomeReady
  repeat' (first
    | intro y
    | (extract_lets +onlyGivenNames x; first | (refine keep_suff (p := Keep s0 x) ?_ (fun hx => ?_); subst x; rotate_left; clear_value x) | subst x)
    | with_reducible assumption | with_reducible apply State.checkBringup_keep | with_reducible apply State.setReady_keep | split)

theorem State.txcDrop_keep {s0 s : State} (h : Keep s0 s) {v1 v2} :
    Keep s0 (State.txcDrop s v1 v2) := by
  unfold State.txcDrop
  repeat' (first
    | intro y
    | (extract_lets +onlyGivenNames x; first | (refine keep_suff (p := Keep s0 x) ?_ (fun hx => ?_); subst x; rotate_left; clear_value x) | subst x)
    | with_reducible assumption | with_reducible apply State.rampDown_keep | with_reducible apply State.stopRound_keep
    | with_reducible apply keep_ite | split)

theorem State.txcFail_keep {s0 s : State} (h : Keep s0 s) {v1 v2 v3} :
    Keep s0 (State.txcFail s v1 v2 v3) := by
  unfold State.txcFail
  repeat' (first
    | intro y
    | (extract_lets +onlyGivenNames x; first | (refine keep_suff (p := Keep s0 x) ?_ (fun hx => ?_); subst x; rotate_left; clear_value x) | subst x)
    | with_reducible assumption | with_reducible apply State.setReady_keep | with_reducible apply State.setFld_keep
    | with_reducible apply State.setRamp_keep | with_reducible apply State.forgetPoints_keep | with_reducible apply State.updTx_keep
    | with_reducible apply State.faultEvent_keep | with_reducible apply State.raise_keep | with_reducible apply State.txcDrop_keep
    | with_reducible apply State.checkBringup_keep | with_reducible apply State.settleOuts_keep
    | with_reducible apply State.completeAll_keep | with_reducible apply keep_ite | split)

theorem State.standInFor_keep {s0 s : State} (h : Keep s0 s) {v1} :
    Keep s0 (State.standInFor s v1) := by
  unfold State.standInFor
  repeat' (first
    | intro y
    | (extract_lets +onlyGivenNames x; first | (refine keep_suff (p := Keep s0 x) ?_ (fun hx => ?_); subst x; rotate_left; clear_value x) | subst x)
    | with_reducible assumption | with_reducible apply State.setFld_keep | with_reducible apply State.setBit_keep
    | with_reducible apply State.updChain_keep | with_reducible apply State.setReg_keep | with_reducible apply State.dropWts_keep
    | with_reducible apply State.recalibrate_keep | with_reducible apply keep_ite | split)

theorem State.standIns_keep {s0 s : State} (h : Keep s0 s) {v1} :
    Keep s0 (State.standIns s v1) := by
  unfold State.standIns
  repeat' (first
    | intro y
    | (extract_lets +onlyGivenNames x; first | (refine keep_suff (p := Keep s0 x) ?_ (fun hx => ?_); subst x; rotate_left; clear_value x) | subst x)
    | with_reducible assumption | with_reducible apply State.standInFor_keep | with_reducible apply keep_foldl
    | with_reducible apply keep_foldl1 | with_reducible apply keep_foldl2 | with_reducible apply keep_ite
    | refine keep_pair ?_ (by with_reducible assumption) | refine keep_pair1 ?_ (by with_reducible assumption) | split)

theorem State.dropPairs_keep {s0 s : State} (h : Keep s0 s) {v1 v2} :
    Keep s0 (State.dropPairs s v1 v2) := by
  unfold State.dropPairs
  repeat' (first
    | intro y
    | (extract_lets +onlyGivenNames x; first | (refine keep_suff (p := Keep s0 x) ?_ (fun hx => ?_); subst x; rotate_left; clear_value x) | subst x)
    | with_reducible assumption | with_reducible apply State.deafPort_keep | with_reducible apply State.setFld_keep
    | with_reducible apply State.updBeam_keep | with_reducible apply keep_foldl | with_reducible apply keep_foldl1
    | with_reducible apply keep_foldl2 | with_reducible apply keep_ite | refine keep_pair ?_ (by with_reducible assumption)
    | refine keep_pair1 ?_ (by with_reducible assumption) | split)

theorem State.dropLeavers_keep {s0 s : State} (h : Keep s0 s) {v1} :
    Keep s0 (State.dropLeavers s v1) := by
  unfold State.dropLeavers
  repeat' (first
    | intro y
    | (extract_lets +onlyGivenNames x; first | (refine keep_suff (p := Keep s0 x) ?_ (fun hx => ?_); subst x; rotate_left; clear_value x) | subst x)
    | with_reducible assumption | with_reducible apply State.dropPairs_keep | with_reducible apply State.updChain_keep
    | with_reducible apply State.setReg_keep | with_reducible apply keep_foldl | with_reducible apply keep_foldl1
    | with_reducible apply keep_foldl2 | refine keep_pair ?_ (by with_reducible assumption)
    | refine keep_pair1 ?_ (by with_reducible assumption) | split)

theorem State.chainOut_keep {s0 s : State} (h : Keep s0 s) {v1 v2} :
    Keep s0 (State.chainOut s v1 v2) := by
  unfold State.chainOut
  repeat' (first
    | intro y
    | (extract_lets +onlyGivenNames x; first | (refine keep_suff (p := Keep s0 x) ?_ (fun hx => ?_); subst x; rotate_left; clear_value x) | subst x)
    | with_reducible assumption | with_reducible apply State.setFld_keep | with_reducible apply State.setReady_keep
    | with_reducible apply State.setBit_keep | with_reducible apply State.updChain_keep | with_reducible apply State.standInFor_keep
    | with_reducible apply State.updRound_keep | with_reducible apply keep_foldl | with_reducible apply keep_foldl1
    | with_reducible apply keep_foldl2 | with_reducible apply keep_ite | refine keep_pair ?_ (by with_reducible assumption)
    | refine keep_pair1 ?_ (by with_reducible assumption) | split)

theorem State.chainFail_keep {s0 s : State} (h : Keep s0 s) {v1 v2} :
    Keep s0 (State.chainFail s v1 v2) := by
  unfold State.chainFail
  repeat' (first
    | intro y
    | (extract_lets +onlyGivenNames x; first | (refine keep_suff (p := Keep s0 x) ?_ (fun hx => ?_); subst x; rotate_left; clear_value x) | subst x)
    | with_reducible assumption | with_reducible apply State.chainOut_keep | with_reducible apply State.raise_keep
    | with_reducible apply State.faultEvent_keep | with_reducible apply State.checkBringup_keep
    | with_reducible apply State.completeAll_keep | with_reducible apply keep_ite | split)

theorem State.submitBucket_keep {s0 s : State} (h : Keep s0 s) {v1 v2 v3} :
    Keep s0 (State.submitBucket s v1 v2 v3) := by
  unfold State.submitBucket
  repeat' (first
    | intro y
    | (extract_lets +onlyGivenNames x; first | (refine keep_suff (p := Keep s0 x) ?_ (fun hx => ?_); subst x; rotate_left; clear_value x) | subst x)
    | with_reducible assumption | with_reducible apply State.submit_keep | split)

theorem State.dropJobs_keep {s0 s : State} (h : Keep s0 s) {v1} :
    Keep s0 (State.dropJobs s v1) := by
  unfold State.dropJobs
  repeat' (first
    | intro y
    | (extract_lets +onlyGivenNames x; first | (refine keep_suff (p := Keep s0 x) ?_ (fun hx => ?_); subst x; rotate_left; clear_value x) | subst x)
    | with_reducible assumption | split | refine keep_upd ?_ rfl rfl rfl rfl rfl rfl rfl rfl)

theorem State.endPop_keep {s0 s : State} (h : Keep s0 s) :
    Keep s0 (State.endPop s) := by
  unfold State.endPop
  repeat' (first
    | intro y
    | (extract_lets +onlyGivenNames x; first | (refine keep_suff (p := Keep s0 x) ?_ (fun hx => ?_); subst x; rotate_left; clear_value x) | subst x)
    | with_reducible assumption | with_reducible apply State.setBit_keep | with_reducible apply State.cnt_keep
    | with_reducible apply State.addCnt_keep | with_reducible apply State.dropJobs_keep | with_reducible apply keep_foldl
    | with_reducible apply keep_foldl1 | with_reducible apply keep_foldl2 | refine keep_pair ?_ (by with_reducible assumption)
    | refine keep_pair1 ?_ (by with_reducible assumption) | split | refine keep_upd ?_ rfl rfl rfl rfl rfl rfl rfl rfl
    | refine keep_raw ?_ rfl (Nat.le_refl _) (fun i => ⟨i.regs, swf_sput i.seen _ _, i.pop, i.latches, i.staging, i.phi, i.refAt, i.wts, i.seedWt, i.dueAt, i.divAt, i.tagBytes, i.tagWear, i.pingPorts, i.pingFlash, i.phiFlash, i.txc, i.chains, i.beams, i.slots, i.log, i.shedLo, i.shedHi, i.tasks⟩))

theorem State.memOut_keep {s0 s : State} (h : Keep s0 s) {v1} :
    Keep s0 (State.memOut s v1) := by
  unfold State.memOut
  repeat' (first
    | intro y
    | (extract_lets +onlyGivenNames x; first | (refine keep_suff (p := Keep s0 x) ?_ (fun hx => ?_); subst x; rotate_left; clear_value x) | subst x)
    | with_reducible assumption | with_reducible apply State.setBit_keep | with_reducible apply State.endPop_keep
    | with_reducible apply keep_ite | split | refine keep_upd ?_ rfl rfl rfl rfl rfl rfl rfl rfl)

theorem State.startMemReturn_keep {s0 s : State} (h : Keep s0 s) {v1 v2} :
    Keep s0 (State.startMemReturn s v1 v2) := by
  unfold State.startMemReturn
  repeat' (first
    | intro y
    | (extract_lets +onlyGivenNames x; first | (refine keep_suff (p := Keep s0 x) ?_ (fun hx => ?_); subst x; rotate_left; clear_value x) | subst x)
    | with_reducible assumption | with_reducible apply State.complete_keep | with_reducible apply State.setBit_keep
    | with_reducible apply State.readCopy_keep | with_reducible apply keep_ite | split
    | refine keep_upd ?_ rfl rfl rfl rfl rfl rfl rfl rfl
    | refine keep_raw ?_ rfl (Nat.le_refl _) (fun i => ⟨i.regs, i.seen, rfl, i.latches, i.staging, i.phi, i.refAt, i.wts, i.seedWt, i.dueAt, i.divAt, i.tagBytes, i.tagWear, i.pingPorts, i.pingFlash, i.phiFlash, i.txc, i.chains, i.beams, i.slots, i.log, i.shedLo, i.shedHi, i.tasks⟩))

theorem State.settleMemOut_keep {s0 s : State} (h : Keep s0 s) {v1} :
    Keep s0 (State.settleMemOut s v1) := by
  unfold State.settleMemOut
  repeat' (first
    | intro y
    | (extract_lets +onlyGivenNames x; first | (refine keep_suff (p := Keep s0 x) ?_ (fun hx => ?_); subst x; rotate_left; clear_value x) | subst x)
    | with_reducible assumption | with_reducible apply State.completeAll_keep | with_reducible apply State.setBit_keep
    | with_reducible apply State.memOut_keep | with_reducible apply State.startMemReturn_keep | with_reducible apply State.complete_keep
    | with_reducible apply keep_ite | split)

theorem State.settleMemOuts_keep {s0 s : State} (h : Keep s0 s) :
    Keep s0 (State.settleMemOuts s) := by
  unfold State.settleMemOuts
  repeat' (first
    | intro y
    | (extract_lets +onlyGivenNames x; first | (refine keep_suff (p := Keep s0 x) ?_ (fun hx => ?_); subst x; rotate_left; clear_value x) | subst x)
    | with_reducible assumption | with_reducible apply State.settleMemOut_keep | split)

theorem State.setSeen_keep {s0 s : State} (h : Keep s0 s) {v1 v2} :
    Keep s0 (State.setSeen s v1 v2) := by
  exact keep_raw h rfl (Nat.le_refl _) (fun i => ⟨i.regs, swf_sput i.seen _ _, i.pop, i.latches, i.staging, i.phi, i.refAt, i.wts,
      i.seedWt, i.dueAt, i.divAt, i.tagBytes, i.tagWear, i.pingPorts, i.pingFlash, i.phiFlash, i.txc, i.chains, i.beams, i.slots, i.log,
      i.shedLo, i.shedHi, i.tasks⟩)

theorem State.updSeen_keep {s0 s : State} (h : Keep s0 s) {v1 v2} :
    Keep s0 (State.updSeen s v1 v2) := by
  unfold State.updSeen
  repeat' (first
    | intro y
    | (extract_lets +onlyGivenNames x; first | (refine keep_suff (p := Keep s0 x) ?_ (fun hx => ?_); subst x; rotate_left; clear_value x) | subst x)
    | with_reducible assumption | with_reducible apply State.setSeen_keep | split)

theorem State.evictOne_keep {s0 s : State} (h : Keep s0 s) :
    Keep s0 (State.evictOne s) := by
  unfold State.evictOne
  repeat' (first
    | intro y
    | (extract_lets +onlyGivenNames x; first | (refine keep_suff (p := Keep s0 x) ?_ (fun hx => ?_); subst x; rotate_left; clear_value x) | subst x)
    | with_reducible assumption | with_reducible apply State.cnt_keep | with_reducible apply State.setSeen_keep
    | with_reducible apply State.submitBucket_keep | with_reducible apply keep_ite | split
    | refine keep_upd ?_ rfl rfl rfl rfl rfl rfl rfl rfl)

theorem State.writeBack_keep {s0 s : State} (h : Keep s0 s) {v1 v2} :
    Keep s0 (State.writeBack s v1 v2) := by
  unfold State.writeBack
  repeat' (first
    | intro y
    | (extract_lets +onlyGivenNames x; first | (refine keep_suff (p := Keep s0 x) ?_ (fun hx => ?_); subst x; rotate_left; clear_value x) | subst x)
    | with_reducible assumption | with_reducible apply State.cnt_keep | with_reducible apply keep_ite | split
    | refine keep_upd ?_ rfl rfl rfl rfl rfl rfl rfl rfl
    | refine keep_raw ?_ rfl (Nat.le_refl _) (fun i => ⟨i.regs, i.seen, swf_sput i.pop _ _, i.latches, i.staging, i.phi, i.refAt, i.wts, i.seedWt, i.dueAt, i.divAt, i.tagBytes, i.tagWear, i.pingPorts, i.pingFlash, i.phiFlash, i.txc, i.chains, i.beams, i.slots, i.log, i.shedLo, i.shedHi, i.tasks⟩))

theorem State.endFetch_keep {s0 s : State} (h : Keep s0 s) {v1} :
    Keep s0 (State.endFetch s v1) := by
  unfold State.endFetch
  repeat' (first
    | intro y
    | (extract_lets +onlyGivenNames x; first | (refine keep_suff (p := Keep s0 x) ?_ (fun hx => ?_); subst x; rotate_left; clear_value x) | subst x)
    | with_reducible assumption | with_reducible apply State.dropJobs_keep | split | refine keep_upd ?_ rfl rfl rfl rfl rfl rfl rfl rfl)

theorem State.countClass_keep {s0 s : State} (h : Keep s0 s) {v1} :
    Keep s0 (State.countClass s v1) := by
  unfold State.countClass
  repeat' (first
    | intro y
    | (extract_lets +onlyGivenNames x; first | (refine keep_suff (p := Keep s0 x) ?_ (fun hx => ?_); subst x; rotate_left; clear_value x) | subst x)
    | with_reducible assumption | with_reducible apply State.cnt_keep | with_reducible apply keep_ite | split)

theorem State.allocSeen_keep {s0 s : State} (h : Keep s0 s) {v1} :
    Keep s0 (State.allocSeen s v1).2 := by
  unfold State.allocSeen
  repeat' (first
    | intro y
    | (extract_lets +onlyGivenNames x; first | (refine keep_suff (p := Keep s0 x) ?_ (fun hx => ?_); subst x; rotate_left; clear_value x) | subst x)
    | with_reducible assumption | with_reducible apply State.evictOne_keep | with_reducible apply State.setSeen_keep
    | with_reducible apply State.submitBucket_keep | with_reducible apply State.cnt_keep | with_reducible apply keep_ite | split
    | refine keep_upd ?_ rfl rfl rfl rfl rfl rfl rfl rfl)

theorem State.feedTally_keep {s0 s : State} (h : Keep s0 s) {v1} :
    Keep s0 (State.feedTally s v1) := by
  unfold State.feedTally
  repeat' (first
    | intro y
    | (extract_lets +onlyGivenNames x; first | (refine keep_suff (p := Keep s0 x) ?_ (fun hx => ?_); subst x; rotate_left; clear_value x) | subst x)
    | with_reducible assumption | with_reducible apply State.cnt_keep | with_reducible apply keep_ite | split
    | refine keep_upd ?_ rfl rfl rfl rfl rfl rfl rfl rfl)

theorem State.sighting_keep {s0 s : State} (h : Keep s0 s) {v1 v2 v3 v4} :
    Keep s0 (State.sighting s v1 v2 v3 v4).2 := by
  unfold State.sighting
  repeat' (first
    | intro y
    | (extract_lets +onlyGivenNames x; first | (refine keep_suff (p := Keep s0 x) ?_ (fun hx => ?_); subst x; rotate_left; clear_value x) | subst x)
    | with_reducible assumption | with_reducible apply State.cnt_keep | with_reducible apply State.allocSeen_keep
    | with_reducible apply State.setSeen_keep | with_reducible apply State.feedTally_keep | with_reducible apply State.updRound_keep
    | with_reducible apply State.queueWarp_keep | with_reducible apply State.updSeen_keep | with_reducible apply keep_ite
    | refine keep_pair ?_ (by with_reducible assumption) | split)

theorem State.posWord_keep {s0 s : State} (h : Keep s0 s) {v1 v2} :
    Keep s0 (State.posWord s v1 v2).2 := by
  unfold State.posWord
  repeat' (first
    | intro y
    | (extract_lets +onlyGivenNames x; first | (refine keep_suff (p := Keep s0 x) ?_ (fun hx => ?_); subst x; rotate_left; clear_value x) | subst x)
    | with_reducible assumption | with_reducible apply State.drawWord_keep | with_reducible apply keep_ite
    | refine keep_pair ?_ (by with_reducible assumption) | split)

theorem State.setHalf_keep {s0 s : State} (h : Keep s0 s) {v1 v2 v3} :
    Keep s0 (State.setHalf s v1 v2 v3) := by
  unfold State.setHalf
  repeat' (first
    | intro y
    | (extract_lets +onlyGivenNames x; first | (refine keep_suff (p := Keep s0 x) ?_ (fun hx => ?_); subst x; rotate_left; clear_value x) | subst x)
    | with_reducible assumption | with_reducible apply State.setFld_keep | with_reducible apply keep_ite | split)

end Sys2Proof.Machine
end

