-- ==== Sys2Proof/Laws/KeepServices.lean ====
section
/-! SUPPORT. What the tag function, resets, the update path, the half and the host frames keep (`Keep` of Laws/Keep.lean), one lemma for each. -/
namespace Sys2Proof.Machine

set_option Elab.async false

theorem State.resample_keep {s0 s : State} (h : Keep s0 s) :
    Keep s0 (State.resample s) := by
  exact keep_raw h rfl (Nat.le_succ _) (fun i => ⟨i.regs, i.seen, i.pop, i.latches, i.staging, i.phi, i.refAt, i.wts, i.seedWt, i.dueAt,
      i.divAt, i.tagBytes, i.tagWear, i.pingPorts, i.pingFlash, i.phiFlash, i.txc, i.chains, i.beams, i.slots, i.log, i.shedLo, i.shedHi,
      i.tasks⟩)

theorem State.wireEcc_keep {s0 s : State} (h : Keep s0 s) {v1} :
    Keep s0 (State.wireEcc s v1) := by
  unfold State.wireEcc
  repeat' (first
    | intro y
    | (extract_lets +onlyGivenNames x; first | (refine keep_suff (p := Keep s0 x) ?_ (fun hx => ?_); subst x; rotate_left; clear_value x) | subst x)
    | with_reducible assumption | with_reducible apply State.drawBool_keep | with_reducible apply State.eccFail_keep
    | with_reducible apply State.eccFix_keep | with_reducible apply keep_ite | refine keep_pair ?_ (by with_reducible assumption) | split)

theorem State.readEffect_keep {s0 s : State} (h : Keep s0 s) {v1} :
    Keep s0 (State.readEffect s v1) := by
  unfold State.readEffect
  repeat' (first
    | intro y
    | (extract_lets +onlyGivenNames x; first | (refine keep_suff (p := Keep s0 x) ?_ (fun hx => ?_); subst x; rotate_left; clear_value x) | subst x)
    | with_reducible assumption | with_reducible apply State.setReg_keep | with_reducible apply State.resample_keep
    | with_reducible apply State.setFld_keep | with_reducible apply State.wireEcc_keep | with_reducible apply keep_ite | split
    | refine keep_upd ?_ rfl rfl rfl rfl rfl rfl rfl rfl)

theorem State.readWord_keep {s0 s : State} (h : Keep s0 s) {v1} :
    Keep s0 (State.readWord s v1).2.2 := by
  unfold State.readWord
  repeat' (first
    | intro y
    | (extract_lets +onlyGivenNames x; first | (refine keep_suff (p := Keep s0 x) ?_ (fun hx => ?_); subst x; rotate_left; clear_value x) | subst x)
    | with_reducible assumption | with_reducible apply State.readEffect_keep | with_reducible apply keep_foldl
    | with_reducible apply keep_foldl1 | with_reducible apply keep_foldl2 | with_reducible apply keep_ite
    | refine keep_pair ?_ (by with_reducible assumption) | refine keep_pair1 ?_ (by with_reducible assumption) | split
    | refine keep_upd ?_ rfl rfl rfl rfl rfl rfl rfl rfl
    | refine keep_raw ?_ rfl (Nat.le_refl _) (fun i => ⟨i.regs, i.seen, i.pop, swf_foldl _ (fun m e hm => by split; exact hm; exact swf_sput hm _ _) _ i.latches, i.staging, i.phi, i.refAt, i.wts, i.seedWt, i.dueAt, i.divAt, i.tagBytes, i.tagWear, i.pingPorts, i.pingFlash, i.phiFlash, i.txc, i.chains, i.beams, i.slots, i.log, i.shedLo, i.shedHi, i.tasks⟩))

theorem State.hpFlag_keep {s0 s : State} (h : Keep s0 s) {v1} :
    Keep s0 (State.hpFlag s v1) := by
  unfold State.hpFlag
  repeat' (first
    | intro y
    | (extract_lets +onlyGivenNames x; first | (refine keep_suff (p := Keep s0 x) ?_ (fun hx => ?_); subst x; rotate_left; clear_value x) | subst x)
    | with_reducible assumption | with_reducible apply State.setBit_keep | split | refine keep_upd ?_ rfl rfl rfl rfl rfl rfl rfl rfl)

theorem State.sendTrailer_keep {s0 s : State} (h : Keep s0 s) :
    Keep s0 (State.sendTrailer s) := by
  unfold State.sendTrailer
  repeat' (first
    | intro y
    | (extract_lets +onlyGivenNames x; first | (refine keep_suff (p := Keep s0 x) ?_ (fun hx => ?_); subst x; rotate_left; clear_value x) | subst x)
    | with_reducible assumption | split | refine keep_upd ?_ rfl rfl rfl rfl rfl rfl rfl rfl)

theorem State.serveWord_keep {s0 s : State} (h : Keep s0 s) {v1 v2} :
    Keep s0 (State.serveWord s v1 v2).2 := by
  unfold State.serveWord
  repeat' (first
    | intro y
    | (extract_lets +onlyGivenNames x; first | (refine keep_suff (p := Keep s0 x) ?_ (fun hx => ?_); subst x; rotate_left; clear_value x) | subst x)
    | with_reducible assumption | with_reducible apply State.hpFlag_keep | with_reducible apply State.readWord_keep
    | with_reducible apply State.fifoPop_keep | with_reducible apply State.fifoDrop_keep | with_reducible apply keep_ite
    | refine keep_pair ?_ (by with_reducible assumption) | refine keep_pair3 ?_ (by with_reducible assumption) | split)

theorem State.serveWords_keep {s0 s : State} (h : Keep s0 s) {v1 v2 v3} :
    Keep s0 (State.serveWords s v1 v2 v3).2 := by
  induction v2 generalizing s v3 with
  | zero =>
    unfold State.serveWords
    repeat' (first
      | intro y
      | (extract_lets +onlyGivenNames x; first | (refine keep_suff (p := Keep s0 x) ?_ (fun hx => ?_); subst x; rotate_left; clear_value x) | subst x)
      | with_reducible assumption | with_reducible apply State.serveWord_keep | with_reducible apply keep_ite
      | refine keep_pair ?_ (by with_reducible assumption) | split)
  | succ n ih =>
    unfold State.serveWords
    repeat' (first
      | intro y
      | (extract_lets +onlyGivenNames x; first | (refine keep_suff (p := Keep s0 x) ?_ (fun hx => ?_); subst x; rotate_left; clear_value x) | subst x)
      | with_reducible assumption | with_reducible apply ih | with_reducible apply State.serveWord_keep | with_reducible apply keep_ite
      | refine keep_pair ?_ (by with_reducible assumption) | split)

theorem State.startData_keep {s0 s : State} (h : Keep s0 s) :
    Keep s0 (State.startData s) := by
  unfold State.startData
  repeat' (first
    | intro y
    | (extract_lets +onlyGivenNames x; first | (refine keep_suff (p := Keep s0 x) ?_ (fun hx => ?_); subst x; rotate_left; clear_value x) | subst x)
    | with_reducible assumption | with_reducible apply State.hpFlag_keep | with_reducible apply State.sendTrailer_keep
    | with_reducible apply State.serveWords_keep | with_reducible apply keep_ite | refine keep_pair ?_ (by with_reducible assumption)
    | split | refine keep_upd ?_ rfl rfl rfl rfl rfl rfl rfl rfl)

theorem State.cutBurst_keep {s0 s : State} (h : Keep s0 s) :
    Keep s0 (State.cutBurst s) := by
  unfold State.cutBurst
  repeat' (first
    | intro y
    | (extract_lets +onlyGivenNames x; first | (refine keep_suff (p := Keep s0 x) ?_ (fun hx => ?_); subst x; rotate_left; clear_value x) | subst x)
    | with_reducible assumption | with_reducible apply State.drawWord_keep | with_reducible apply State.hpFlag_keep
    | with_reducible apply State.setBit_keep | with_reducible apply keep_ite | refine keep_pair ?_ (by with_reducible assumption) | split
    | refine keep_upd ?_ rfl rfl rfl rfl rfl rfl rfl rfl)

theorem State.waitCrumb_keep {s0 s : State} (h : Keep s0 s) {v1} :
    Keep s0 (State.waitCrumb s v1) := by
  unfold State.waitCrumb
  repeat' (first
    | intro y
    | (extract_lets +onlyGivenNames x; first | (refine keep_suff (p := Keep s0 x) ?_ (fun hx => ?_); subst x; rotate_left; clear_value x) | subst x)
    | with_reducible assumption | with_reducible apply State.cnt_keep | with_reducible apply keep_ite | split
    | refine keep_upd ?_ rfl rfl rfl rfl rfl rfl rfl rfl)

theorem State.serveFrame_keep {s0 s : State} (h : Keep s0 s) :
    Keep s0 (State.serveFrame s) := by
  unfold State.serveFrame
  repeat' (first
    | intro y
    | (extract_lets +onlyGivenNames x; first | (refine keep_suff (p := Keep s0 x) ?_ (fun hx => ?_); subst x; rotate_left; clear_value x) | subst x)
    | with_reducible assumption | with_reducible apply State.waitCrumb_keep | with_reducible apply State.startData_keep
    | with_reducible apply keep_ite | split | refine keep_upd ?_ rfl rfl rfl rfl rfl rfl rfl rfl)

theorem State.resumeFrame_keep {s0 s : State} (h : Keep s0 s) :
    Keep s0 (State.resumeFrame s) := by
  unfold State.resumeFrame
  repeat' (first
    | intro y
    | (extract_lets +onlyGivenNames x; first | (refine keep_suff (p := Keep s0 x) ?_ (fun hx => ?_); subst x; rotate_left; clear_value x) | subst x)
    | with_reducible assumption | with_reducible apply State.serveFrame_keep | split)

theorem State.answerWait_keep {s0 s : State} (h : Keep s0 s) {v1} :
    Keep s0 (State.answerWait s v1) := by
  unfold State.answerWait
  repeat' (first
    | intro y
    | (extract_lets +onlyGivenNames x; first | (refine keep_suff (p := Keep s0 x) ?_ (fun hx => ?_); subst x; rotate_left; clear_value x) | subst x)
    | with_reducible assumption | with_reducible apply State.serveFrame_keep | with_reducible apply keep_ite | split
    | refine keep_upd ?_ rfl rfl rfl rfl rfl rfl rfl rfl)

theorem State.feedDumps_keep {s0 s : State} (h : Keep s0 s) {v0} :
    Keep s0 (State.feedDumps v0 s) := by
  induction v0 generalizing s  with
  | zero =>
    unfold State.feedDumps
    repeat' (first
      | intro y
      | (extract_lets +onlyGivenNames x; first | (refine keep_suff (p := Keep s0 x) ?_ (fun hx => ?_); subst x; rotate_left; clear_value x) | subst x)
      | with_reducible assumption | with_reducible apply State.complete_keep | with_reducible apply State.queueDiag_keep
      | with_reducible apply keep_ite | split | refine keep_upd ?_ rfl rfl rfl rfl rfl rfl rfl rfl)
  | succ n ih =>
    unfold State.feedDumps
    repeat' (first
      | intro y
      | (extract_lets +onlyGivenNames x; first | (refine keep_suff (p := Keep s0 x) ?_ (fun hx => ?_); subst x; rotate_left; clear_value x) | subst x)
      | with_reducible assumption | with_reducible apply ih | with_reducible apply State.complete_keep
      | with_reducible apply State.queueDiag_keep | with_reducible apply keep_ite | split
      | refine keep_upd ?_ rfl rfl rfl rfl rfl rfl rfl rfl)

theorem State.dumpOn_keep {s0 s : State} (h : Keep s0 s) :
    Keep s0 (State.dumpOn s) := by
  unfold State.dumpOn
  repeat' (first
    | intro y
    | (extract_lets +onlyGivenNames x; first | (refine keep_suff (p := Keep s0 x) ?_ (fun hx => ?_); subst x; rotate_left; clear_value x) | subst x)
    | with_reducible assumption | with_reducible apply State.feedDumps_keep | split)

theorem State.triggerReset_keep {s0 s : State} (h : Keep s0 s) {v1} :
    Keep s0 (State.triggerReset s v1) := by
  unfold State.triggerReset
  repeat' (first
    | intro y
    | (extract_lets +onlyGivenNames x; first | (refine keep_suff (p := Keep s0 x) ?_ (fun hx => ?_); subst x; rotate_left; clear_value x) | subst x)
    | with_reducible assumption | with_reducible apply State.rampDown_keep | with_reducible apply keep_foldl
    | with_reducible apply keep_foldl1 | with_reducible apply keep_foldl2 | with_reducible apply keep_ite
    | refine keep_pair ?_ (by with_reducible assumption) | refine keep_pair1 ?_ (by with_reducible assumption) | split
    | refine keep_upd ?_ rfl rfl rfl rfl rfl rfl rfl rfl)

theorem State.tearDraft_keep {s0 s : State} (h : Keep s0 s) {v1} :
    Keep s0 (State.tearDraft s v1).2 := by
  unfold State.tearDraft
  repeat' (first
    | intro y
    | (extract_lets +onlyGivenNames x; first | (refine keep_suff (p := Keep s0 x) ?_ (fun hx => ?_); subst x; rotate_left; clear_value x) | subst x)
    | with_reducible assumption | with_reducible apply State.drawWord_keep | refine keep_pair ?_ (by with_reducible assumption) | split)

theorem State.tear_keep {α : Type} {s0 s : State} (h : Keep s0 s) {v2 : FlashTask} {v3 v4 v5 : α} :
    Keep s0 (State.tear s v2 v3 v4 v5).2 :=
  State.drawBool_keep h

/-- What a torn write leaves is one of the three. -/
theorem State.tear_of {α : Type} {s : State} {v2 : FlashTask} {v3 v4 v5 : α} {p : α → Prop} (h3 : p v3) (h4 : p v4) (h5 : p v5) :
    p (State.tear s v2 v3 v4 v5).1 := by
  show p (if _ then _ else if _ then _ else _)
  split
  · exact h3
  · split <;> assumption

theorem State.tearTask_keep {s0 s : State} (h : Keep s0 s) {v1} (hk : s0.Inv → TaskKind.wf v1.kind = true) :
    Keep s0 (State.tearTask s v1) := by
  unfold State.tearTask
  split
  case h_5 old e =>
    have k := State.tear_keep h (v2 := v1) (v3 := old) (v4 := s.phiFlash) (v5 := none)
    refine ⟨⟨k.fixed.board, k.fixed.prof, k.fixed.pending, k.fixed.free⟩, fun i0 => ?_⟩
    have i := k.inv i0
    have w : ∀ e, (s.tear v1 old s.phiFlash none).1 = some e → swf (fun _ => (0 : Word)) e.2 = true :=
      State.tear_of (p := fun (o : Option (Word × List (Nat × Word))) => ∀ e, o = some e → swf (fun _ => (0 : Word)) e.2 = true)
        (fun x hx => by have := hk i0; rw [e, hx] at this; exact this) (h.inv i0).phiFlash (fun _ hx => nomatch hx)
    exact ⟨i.regs, i.seen, i.pop, i.latches, i.staging, i.phi, i.refAt, i.wts, i.seedWt, i.dueAt, i.divAt, i.tagBytes, i.tagWear,
        i.pingPorts, i.pingFlash, w, i.txc, i.chains, i.beams, i.slots, i.log, i.shedLo, i.shedHi, i.tasks⟩
  case h_6 old e =>
    have k := State.tear_keep h (v2 := v1) (v3 := old) (v4 := s.ping.flash) (v5 := none)
    refine ⟨⟨k.fixed.board, k.fixed.prof, k.fixed.pending, k.fixed.free⟩, fun i0 => ?_⟩
    have i := k.inv i0
    have w : ∀ m, (s.tear v1 old s.ping.flash none).1 = some m → swf (fun _ => PingPort.init) m = true :=
      State.tear_of (p := fun (o : Option (List (Nat × PingPort))) => ∀ m, o = some m → swf (fun _ => PingPort.init) m = true)
        (fun x hx => by have := hk i0; rw [e, hx] at this; exact this) (h.inv i0).pingFlash (fun _ hx => nomatch hx)
    exact ⟨i.regs, i.seen, i.pop, i.latches, i.staging, i.phi, i.refAt, i.wts, i.seedWt, i.dueAt, i.divAt, i.tagBytes, i.tagWear,
        i.pingPorts, w, i.phiFlash, i.txc, i.chains, i.beams, i.slots, i.log, i.shedLo, i.shedHi, i.tasks⟩
  repeat' (first
    | intro y
    | (extract_lets +onlyGivenNames x; first | (refine keep_suff (p := Keep s0 x) ?_ (fun hx => ?_); subst x; rotate_left; clear_value x) | subst x)
    | with_reducible assumption | with_reducible apply State.tear_keep | with_reducible apply State.tearDraft_keep
    | with_reducible apply keep_ite | refine keep_pair ?_ (by with_reducible assumption) | split
    | refine keep_upd ?_ rfl rfl rfl rfl rfl rfl rfl rfl
    | refine keep_raw ?_ rfl (Nat.le_refl _) (fun i => ⟨i.regs, i.seen, i.pop, i.latches, i.staging, i.phi, i.refAt, i.wts, i.seedWt, i.dueAt, i.divAt, i.tagBytes, i.tagWear, i.pingPorts, i.pingFlash, i.phiFlash, i.txc, i.chains, i.beams, List.length_set.trans i.slots, i.log, i.shedLo, i.shedHi, i.tasks⟩))

theorem State.tearFlash_keep {s0 s : State} (h : Keep s0 s) :
    Keep s0 (State.tearFlash s) := by
  have k : Keep s0 (s.memp.tasks.reverse.foldl State.tearTask s) := keep_foldl_mem h (fun _ x hx ht => State.tearTask_keep ht (fun i0 =>
      tasks_mem (h.inv i0).tasks (List.mem_reverse.mp hx)))
  unfold State.tearFlash
  repeat' (first
    | intro y
    | (extract_lets +onlyGivenNames x; first | (refine keep_suff (p := Keep s0 x) ?_ (fun hx => ?_); subst x; rotate_left; clear_value x) | subst x)
    | with_reducible assumption | with_reducible apply State.tearTask_keep | with_reducible apply State.drawWord_keep
    | with_reducible apply keep_foldl | with_reducible apply keep_foldl1 | with_reducible apply keep_foldl2
    | with_reducible apply keep_ite | refine keep_pair ?_ (by with_reducible assumption)
    | refine keep_pair1 ?_ (by with_reducible assumption) | split | refine keep_upd ?_ rfl rfl rfl rfl rfl rfl rfl rfl)

theorem State.clearCore_keep {s0 s : State} (h : Keep s0 s) {v1} :
    Keep s0 (State.clearCore s v1) := by
  unfold State.clearCore
  repeat' (first
    | intro y
    | (extract_lets +onlyGivenNames x; first | (refine keep_suff (p := Keep s0 x) ?_ (fun hx => ?_); subst x; rotate_left; clear_value x) | subst x)
    | with_reducible assumption | with_reducible apply State.landCrumb_keep | with_reducible apply State.decayFlags_keep
    | with_reducible apply State.endSession_keep | with_reducible apply State.tearFlash_keep | with_reducible apply keep_ite | split
    | refine keep_upd ?_ rfl rfl rfl rfl rfl rfl rfl rfl
    | refine keep_raw ?_ rfl (Nat.le_refl _) (fun i => ⟨coreRegs_wf _, rfl, rfl, rfl, swf_filter _ i.staging, rfl, rfl, rfl, rfl, rfl, rfl, (congrArg (swf _) (tag_afterReset_bytes _ _)).trans i.tagBytes, (congrArg (swf _) (tag_afterReset_wear _ _)).trans i.tagWear, i.pingPorts, i.pingFlash, i.phiFlash, rfl, rfl, rfl, i.slots, Nat.zero_le _, Nat.succ_le_succ (Nat.zero_le _), Nat.le_refl _, rfl⟩))

theorem State.coreReset_keep {s0 s : State} (h : Keep s0 s) {v1} :
    Keep s0 (State.coreReset s v1) := by
  unfold State.coreReset
  repeat' (first
    | intro y
    | (extract_lets +onlyGivenNames x; first | (refine keep_suff (p := Keep s0 x) ?_ (fun hx => ?_); subst x; rotate_left; clear_value x) | subst x)
    | with_reducible assumption | with_reducible apply State.clearCore_keep | with_reducible apply State.setReg_keep
    | with_reducible apply State.setBit_keep | with_reducible apply State.setFld_keep | with_reducible apply keep_ite | split)

theorem State.fullReset_keep {s0 s : State} (h : Keep s0 s) {v1} :
    Keep s0 (State.fullReset s v1) := by
  unfold State.fullReset
  repeat' (first
    | intro y
    | (extract_lets +onlyGivenNames x; first | (refine keep_suff (p := Keep s0 x) ?_ (fun hx => ?_); subst x; rotate_left; clear_value x) | subst x)
    | with_reducible assumption | with_reducible apply State.clearCore_keep | with_reducible apply State.setReg_keep
    | with_reducible apply keep_ite | split | refine keep_upd ?_ rfl rfl rfl rfl rfl rfl rfl rfl
    | refine keep_raw ?_ rfl (Nat.le_refl _) (fun i => ⟨resetRegs_wf _, i.seen, i.pop, i.latches, rfl, i.phi, i.refAt, i.wts, i.seedWt, i.dueAt, i.divAt, i.tagBytes, i.tagWear, rfl, i.pingFlash, i.phiFlash, i.txc, i.chains, i.beams, i.slots, i.log, i.shedLo, i.shedHi, i.tasks⟩))

theorem State.takeReset_keep {s0 s : State} (h : Keep s0 s) {v1} :
    Keep s0 (State.takeReset s v1) := by
  unfold State.takeReset
  repeat' (first
    | intro y
    | (extract_lets +onlyGivenNames x; first | (refine keep_suff (p := Keep s0 x) ?_ (fun hx => ?_); subst x; rotate_left; clear_value x) | subst x)
    | with_reducible assumption | with_reducible apply State.fullReset_keep | with_reducible apply State.coreReset_keep
    | with_reducible apply keep_ite | split)

theorem State.startTxcCal_keep {s0 s : State} (h : Keep s0 s) {v1} :
    Keep s0 (State.startTxcCal s v1) := by
  unfold State.startTxcCal
  repeat' (first
    | intro y
    | (extract_lets +onlyGivenNames x; first | (refine keep_suff (p := Keep s0 x) ?_ (fun hx => ?_); subst x; rotate_left; clear_value x) | subst x)
    | with_reducible assumption | with_reducible apply State.readHot_keep | with_reducible apply State.txcFail_keep
    | with_reducible apply State.calTxc_keep | with_reducible apply keep_ite | split)

theorem State.goLive_keep {s0 s : State} (h : Keep s0 s) {v1} :
    Keep s0 (State.goLive s v1) := by
  unfold State.goLive
  repeat' (first
    | intro y
    | (extract_lets +onlyGivenNames x; first | (refine keep_suff (p := Keep s0 x) ?_ (fun hx => ?_); subst x; rotate_left; clear_value x) | subst x)
    | with_reducible assumption | with_reducible apply State.copyPing_keep | with_reducible apply State.loadSchedule_keep
    | with_reducible apply State.loadFields_keep | with_reducible apply State.expectDraft_keep
    | with_reducible apply State.startTxcCal_keep | with_reducible apply State.startChainCal_keep | with_reducible apply keep_foldl
    | with_reducible apply keep_foldl1 | with_reducible apply keep_foldl2 | with_reducible apply keep_ite
    | refine keep_pair ?_ (by with_reducible assumption) | refine keep_pair1 ?_ (by with_reducible assumption) | split
    | refine keep_upd ?_ rfl rfl rfl rfl rfl rfl rfl rfl
    | refine keep_raw ?_ rfl (Nat.le_refl _) (fun i => ⟨i.regs, i.seen, i.pop, i.latches, i.staging, i.phiFlash (_, _) (by assumption), i.refAt, i.wts, i.seedWt, i.dueAt, i.divAt, i.tagBytes, i.tagWear, i.pingPorts, i.pingFlash, i.phiFlash, i.txc, i.chains, i.beams, i.slots, i.log, i.shedLo, i.shedHi, i.tasks⟩)
    | refine keep_raw ?_ rfl (Nat.le_refl _) (fun i => ⟨i.regs, i.seen, i.pop, i.latches, i.staging, rfl, i.refAt, i.wts, i.seedWt, i.dueAt, i.divAt, i.tagBytes, i.tagWear, i.pingPorts, i.pingFlash, i.phiFlash, i.txc, i.chains, i.beams, i.slots, i.log, i.shedLo, i.shedHi, i.tasks⟩))

theorem State.showFw_keep {s0 s : State} (h : Keep s0 s) :
    Keep s0 (State.showFw s) := by
  unfold State.showFw
  repeat' (first
    | intro y
    | (extract_lets +onlyGivenNames x; first | (refine keep_suff (p := Keep s0 x) ?_ (fun hx => ?_); subst x; rotate_left; clear_value x) | subst x)
    | with_reducible assumption | with_reducible apply State.setReg_keep | split)

theorem State.setBase_keep {s0 s : State} (h : Keep s0 s) {v1 v2} :
    Keep s0 (State.setBase s v1 v2) := by
  unfold State.setBase
  repeat' (first
    | intro y
    | (extract_lets +onlyGivenNames x; first | (refine keep_suff (p := Keep s0 x) ?_ (fun hx => ?_); subst x; rotate_left; clear_value x) | subst x)
    | with_reducible assumption | with_reducible apply State.setFld_keep | with_reducible apply keep_ite | split)

theorem State.loadHalf_keep {s0 s : State} (h : Keep s0 s) {v1 v2} :
    Keep s0 (State.loadHalf s v1 v2) := by
  unfold State.loadHalf
  repeat' (first
    | intro y
    | (extract_lets +onlyGivenNames x; first | (refine keep_suff (p := Keep s0 x) ?_ (fun hx => ?_); subst x; rotate_left; clear_value x) | subst x)
    | with_reducible assumption | with_reducible apply State.setBase_keep | with_reducible apply State.setHalf_keep | split)

theorem State.dropHandover_keep {s0 s : State} (h : Keep s0 s) :
    Keep s0 (State.dropHandover s) := by
  unfold State.dropHandover
  repeat' (first
    | intro y
    | (extract_lets +onlyGivenNames x; first | (refine keep_suff (p := Keep s0 x) ?_ (fun hx => ?_); subst x; rotate_left; clear_value x) | subst x)
    | with_reducible assumption | with_reducible apply State.completeAll_keep | with_reducible apply keep_ite | split
    | refine keep_upd ?_ rfl rfl rfl rfl rfl rfl rfl rfl)

theorem State.syncStandby_keep {s0 s : State} (h : Keep s0 s) :
    Keep s0 (State.syncStandby s) := by
  unfold State.syncStandby
  repeat' (first
    | intro y
    | (extract_lets +onlyGivenNames x; first | (refine keep_suff (p := Keep s0 x) ?_ (fun hx => ?_); subst x; rotate_left; clear_value x) | subst x)
    | with_reducible assumption | with_reducible apply State.loadHalf_keep | with_reducible apply State.dropHandover_keep
    | with_reducible apply State.setHalf_keep | with_reducible apply keep_ite | split)

theorem State.showCompat_keep {s0 s : State} (h : Keep s0 s) :
    Keep s0 (State.showCompat s) := by
  unfold State.showCompat
  repeat' (first
    | intro y
    | (extract_lets +onlyGivenNames x; first | (refine keep_suff (p := Keep s0 x) ?_ (fun hx => ?_); subst x; rotate_left; clear_value x) | subst x)
    | with_reducible assumption | with_reducible apply State.setBit_keep | with_reducible apply keep_ite | split)

theorem State.selectDraft_keep {s0 s : State} (h : Keep s0 s) :
    Keep s0 (State.selectDraft s) := by
  unfold State.selectDraft
  repeat' (first
    | intro y
    | (extract_lets +onlyGivenNames x; first | (refine keep_suff (p := Keep s0 x) ?_ (fun hx => ?_); subst x; rotate_left; clear_value x) | subst x)
    | with_reducible assumption | with_reducible apply State.eccFail_keep | with_reducible apply State.setReg_keep
    | with_reducible apply State.setBit_keep | with_reducible apply State.startProof_keep | with_reducible apply keep_ite | split
    | refine keep_upd ?_ rfl rfl rfl rfl rfl rfl rfl rfl)

theorem State.eraseOther_keep {s0 s : State} (h : Keep s0 s) :
    Keep s0 (State.eraseOther s) := by
  unfold State.eraseOther
  repeat' (first
    | intro y
    | (extract_lets +onlyGivenNames x; first | (refine keep_suff (p := Keep s0 x) ?_ (fun hx => ?_); subst x; rotate_left; clear_value x) | subst x)
    | with_reducible assumption | with_reducible apply State.addTask_keep | exact rfl | split)

theorem State.reverted_keep {s0 s : State} (h : Keep s0 s) :
    Keep s0 (State.reverted s) := by
  unfold State.reverted
  repeat' (first
    | intro y
    | (extract_lets +onlyGivenNames x; first | (refine keep_suff (p := Keep s0 x) ?_ (fun hx => ?_); subst x; rotate_left; clear_value x) | subst x)
    | with_reducible assumption | with_reducible apply State.eraseOther_keep | with_reducible apply State.toUpdState_keep
    | with_reducible apply State.setFld_keep | with_reducible apply State.updLog_keep | split
    | refine keep_upd ?_ rfl rfl rfl rfl rfl rfl rfl rfl)

theorem State.bootUpdate_keep {s0 s : State} (h : Keep s0 s) :
    Keep s0 (State.bootUpdate s) := by
  unfold State.bootUpdate
  repeat' (first
    | intro y
    | (extract_lets +onlyGivenNames x; first | (refine keep_suff (p := Keep s0 x) ?_ (fun hx => ?_); subst x; rotate_left; clear_value x) | subst x)
    | with_reducible assumption | with_reducible apply State.setReg_keep | with_reducible apply State.showFw_keep
    | with_reducible apply State.reverted_keep | with_reducible apply State.writeRecord_keep | with_reducible apply keep_ite | split)

theorem State.clearSeen_keep {s0 s : State} (h : Keep s0 s) :
    Keep s0 (State.clearSeen s) := by
  unfold State.clearSeen
  repeat' (first
    | intro y
    | (extract_lets +onlyGivenNames x; first | (refine keep_suff (p := Keep s0 x) ?_ (fun hx => ?_); subst x; rotate_left; clear_value x) | subst x)
    | with_reducible assumption | with_reducible apply State.dropJobs_keep | split | refine keep_upd ?_ rfl rfl rfl rfl rfl rfl rfl rfl
    | refine keep_raw ?_ rfl (Nat.le_refl _) (fun i => ⟨i.regs, rfl, rfl, i.latches, i.staging, i.phi, i.refAt, i.wts, i.seedWt, i.dueAt, i.divAt, i.tagBytes, i.tagWear, i.pingPorts, i.pingFlash, i.phiFlash, i.txc, i.chains, i.beams, i.slots, i.log, i.shedLo, i.shedHi, i.tasks⟩))

theorem State.switchDraft_keep {s0 s : State} (h : Keep s0 s) {v1} :
    Keep s0 (State.switchDraft s v1) := by
  unfold State.switchDraft
  repeat' (first
    | intro y
    | (extract_lets +onlyGivenNames x; first | (refine keep_suff (p := Keep s0 x) ?_ (fun hx => ?_); subst x; rotate_left; clear_value x) | subst x)
    | with_reducible assumption | with_reducible apply State.copyPing_keep | with_reducible apply State.loadSchedule_keep
    | with_reducible apply State.loadFields_keep | with_reducible apply State.expectDraft_keep
    | with_reducible apply State.clearSeen_keep | with_reducible apply State.askCal_keep | with_reducible apply State.loseAnt_keep
    | with_reducible apply State.updChain_keep | with_reducible apply State.setBit_keep | with_reducible apply State.startTxcCal_keep
    | with_reducible apply State.startChainCal_keep | with_reducible apply keep_foldl | with_reducible apply keep_foldl1
    | with_reducible apply keep_foldl2 | with_reducible apply keep_ite | refine keep_pair ?_ (by with_reducible assumption)
    | refine keep_pair1 ?_ (by with_reducible assumption) | split | refine keep_upd ?_ rfl rfl rfl rfl rfl rfl rfl rfl
    | refine keep_raw ?_ rfl (Nat.le_refl _) (fun i => ⟨i.regs, i.seen, i.pop, i.latches, i.staging, swf_filter _ i.phi, i.refAt, i.wts, i.seedWt, i.dueAt, i.divAt, i.tagBytes, i.tagWear, i.pingPorts, i.pingFlash, i.phiFlash, i.txc, i.chains, i.beams, i.slots, i.log, i.shedLo, i.shedHi, i.tasks⟩))

theorem State.dropBlock_keep {s0 s : State} (h : Keep s0 s) {v1 v2} :
    Keep s0 (State.dropBlock s v1 v2) := by
  unfold State.dropBlock
  repeat' (first
    | intro y
    | (extract_lets +onlyGivenNames x; first | (refine keep_suff (p := Keep s0 x) ?_ (fun hx => ?_); subst x; rotate_left; clear_value x) | subst x)
    | with_reducible assumption | with_reducible apply State.dropJobs_keep | with_reducible apply keep_ite | split
    | refine keep_upd ?_ rfl rfl rfl rfl rfl rfl rfl rfl)

theorem State.dropUpdate_keep {s0 s : State} (h : Keep s0 s) :
    Keep s0 (State.dropUpdate s) := by
  have k : Keep s0 ((s.memp.tasks.filter FlashTask.mustEnd).foldl State.tearTask s) := keep_foldl_mem h (fun _ x hx ht =>
      State.tearTask_keep ht (fun i0 => tasks_mem (h.inv i0).tasks (List.mem_filter.mp hx).1))
  unfold State.dropUpdate
  repeat' (first
    | intro y
    | (extract_lets +onlyGivenNames x; first | (refine keep_suff (p := Keep s0 x) ?_ (fun hx => ?_); subst x; rotate_left; clear_value x) | subst x)
    | with_reducible assumption | with_reducible apply State.tearTask_keep | with_reducible apply State.dropJobs_keep
    | with_reducible apply State.setFld_keep | with_reducible apply keep_foldl | with_reducible apply keep_foldl1
    | with_reducible apply keep_foldl2 | with_reducible apply keep_ite | refine keep_pair ?_ (by with_reducible assumption)
    | refine keep_pair1 ?_ (by with_reducible assumption) | split | refine keep_upd ?_ rfl rfl rfl rfl rfl rfl rfl rfl
    | refine keep_raw ?_ rfl (Nat.le_refl _) (fun i => ⟨i.regs, i.seen, i.pop, i.latches, i.staging, i.phi, i.refAt, i.wts, i.seedWt, i.dueAt, i.divAt, i.tagBytes, i.tagWear, i.pingPorts, i.pingFlash, i.phiFlash, i.txc, i.chains, i.beams, i.slots, i.log, i.shedLo, i.shedHi, tasks_filter _ i.tasks⟩))

theorem State.dropServed_keep {s0 s : State} (h : Keep s0 s) {v1} :
    Keep s0 (State.dropServed s v1) := by
  unfold State.dropServed
  repeat' (first
    | intro y
    | (extract_lets +onlyGivenNames x; first | (refine keep_suff (p := Keep s0 x) ?_ (fun hx => ?_); subst x; rotate_left; clear_value x) | subst x)
    | with_reducible assumption | with_reducible apply State.setReady_keep | with_reducible apply State.updTx_keep
    | with_reducible apply State.setRamp_keep | with_reducible apply State.setBit_keep | with_reducible apply State.updChain_keep
    | with_reducible apply State.dropBlock_keep | with_reducible apply State.dropUpdate_keep | with_reducible apply State.nextCrumb_keep
    | with_reducible apply State.completeAll_keep | with_reducible apply keep_foldl | with_reducible apply keep_foldl1
    | with_reducible apply keep_foldl2 | with_reducible apply keep_ite | refine keep_pair ?_ (by with_reducible assumption)
    | refine keep_pair1 ?_ (by with_reducible assumption) | split | refine keep_upd ?_ rfl rfl rfl rfl rfl rfl rfl rfl)

theorem State.switchHalves_keep {s0 s : State} (h : Keep s0 s) {v1} :
    Keep s0 (State.switchHalves s v1) := by
  unfold State.switchHalves
  repeat' (first
    | intro y
    | (extract_lets +onlyGivenNames x; first | (refine keep_suff (p := Keep s0 x) ?_ (fun hx => ?_); subst x; rotate_left; clear_value x) | subst x)
    | with_reducible assumption | with_reducible apply State.setBit_keep | with_reducible apply State.loadHalf_keep
    | with_reducible apply State.setBase_keep | with_reducible apply State.setHalf_keep | split
    | refine keep_upd ?_ rfl rfl rfl rfl rfl rfl rfl rfl)

theorem State.drainRounds_keep {s0 s : State} (h : Keep s0 s) :
    Keep s0 (State.drainRounds s) := by
  unfold State.drainRounds
  repeat' (first
    | intro y
    | (extract_lets +onlyGivenNames x; first | (refine keep_suff (p := Keep s0 x) ?_ (fun hx => ?_); subst x; rotate_left; clear_value x) | subst x)
    | with_reducible assumption | split | refine keep_upd ?_ rfl rfl rfl rfl rfl rfl rfl rfl)

theorem State.switchAtOnce_keep {s0 s : State} (h : Keep s0 s) :
    Keep s0 (State.switchAtOnce s) := by
  unfold State.switchAtOnce
  repeat' (first
    | intro y
    | (extract_lets +onlyGivenNames x; first | (refine keep_suff (p := Keep s0 x) ?_ (fun hx => ?_); subst x; rotate_left; clear_value x) | subst x)
    | with_reducible assumption | with_reducible apply State.drainRounds_keep | split
    | refine keep_upd ?_ rfl rfl rfl rfl rfl rfl rfl rfl)

theorem State.startFallback_keep {s0 s : State} (h : Keep s0 s) :
    Keep s0 (State.startFallback s) := by
  unfold State.startFallback
  repeat' (first
    | intro y
    | (extract_lets +onlyGivenNames x; first | (refine keep_suff (p := Keep s0 x) ?_ (fun hx => ?_); subst x; rotate_left; clear_value x) | subst x)
    | with_reducible assumption | with_reducible apply State.setBit_keep | split | refine keep_upd ?_ rfl rfl rfl rfl rfl rfl rfl rfl)

theorem State.fallbackPassed_keep {s0 s : State} (h : Keep s0 s) :
    Keep s0 (State.fallbackPassed s) := by
  unfold State.fallbackPassed
  repeat' (first
    | intro y
    | (extract_lets +onlyGivenNames x; first | (refine keep_suff (p := Keep s0 x) ?_ (fun hx => ?_); subst x; rotate_left; clear_value x) | subst x)
    | with_reducible assumption | with_reducible apply State.passBoundary_keep | split
    | refine keep_upd ?_ rfl rfl rfl rfl rfl rfl rfl rfl)

theorem State.passOver_keep {s0 s : State} (h : Keep s0 s) :
    Keep s0 (State.passOver s) := by
  unfold State.passOver
  repeat' (first
    | intro y
    | (extract_lets +onlyGivenNames x; first | (refine keep_suff (p := Keep s0 x) ?_ (fun hx => ?_); subst x; rotate_left; clear_value x) | subst x)
    | with_reducible assumption | with_reducible apply State.dropHandover_keep | with_reducible apply State.setBit_keep
    | with_reducible apply State.setHalf_keep | with_reducible apply State.cnt_keep | with_reducible apply State.logEvent_keep
    | with_reducible apply State.completeAll_keep | with_reducible apply State.loadHalf_keep
    | with_reducible apply State.fallbackPassed_keep | with_reducible apply keep_ite | split
    | refine keep_upd ?_ rfl rfl rfl rfl rfl rfl rfl rfl)

theorem execHandoverComplete_keep {s0 s : State} (h : Keep s0 s) :
    OKeep s0 (execHandoverComplete s) := by
  unfold execHandoverComplete
  repeat' (first
    | intro y
    | (extract_lets +onlyGivenNames x; first | (refine keep_suff (p := Keep s0 x) ?_ (fun hx => ?_); subst x; rotate_left; clear_value x) | subst x)
    | with_reducible assumption | with_reducible apply State.passOver_keep | with_reducible apply okeep_next
    | with_reducible apply keep_ite | split)

theorem State.dropQueued_keep {s0 s : State} (h : Keep s0 s) :
    Keep s0 (State.dropQueued s) := by
  unfold State.dropQueued
  repeat' (first
    | intro y
    | (extract_lets +onlyGivenNames x; first | (refine keep_suff (p := Keep s0 x) ?_ (fun hx => ?_); subst x; rotate_left; clear_value x) | subst x)
    | with_reducible assumption | split | refine keep_upd ?_ rfl rfl rfl rfl rfl rfl rfl rfl)

theorem execWatchdogExpiry_keep {s0 s : State} (h : Keep s0 s) :
    OKeep s0 (execWatchdogExpiry s) := by
  unfold execWatchdogExpiry
  repeat' (first
    | intro y
    | (extract_lets +onlyGivenNames x; first | (refine keep_suff (p := Keep s0 x) ?_ (fun hx => ?_); subst x; rotate_left; clear_value x) | subst x)
    | with_reducible assumption | with_reducible apply State.passOver_keep | with_reducible apply State.dropServed_keep
    | with_reducible apply State.dropQueued_keep | with_reducible apply State.setHalf_keep | with_reducible apply State.triggerReset_keep
    | with_reducible apply okeep_next | with_reducible apply keep_ite | split | refine keep_upd ?_ rfl rfl rfl rfl rfl rfl rfl rfl)

theorem State.halfOut_keep {s0 s : State} (h : Keep s0 s) {v1 v2} :
    Keep s0 (State.halfOut s v1 v2) := by
  unfold State.halfOut
  repeat' (first
    | intro y
    | (extract_lets +onlyGivenNames x; first | (refine keep_suff (p := Keep s0 x) ?_ (fun hx => ?_); subst x; rotate_left; clear_value x) | subst x)
    | with_reducible assumption | with_reducible apply State.logEvent_keep | with_reducible apply State.setHalf_keep | split)

theorem execStandbyWatchdogExpiry_keep {s0 s : State} (h : Keep s0 s) :
    OKeep s0 (execStandbyWatchdogExpiry s) := by
  unfold execStandbyWatchdogExpiry
  repeat' (first
    | intro y
    | (extract_lets +onlyGivenNames x; first | (refine keep_suff (p := Keep s0 x) ?_ (fun hx => ?_); subst x; rotate_left; clear_value x) | subst x)
    | with_reducible assumption | with_reducible apply State.triggerReset_keep | with_reducible apply State.completeAll_keep
    | with_reducible apply State.raise_keep | with_reducible apply State.dropHandover_keep | with_reducible apply State.halfOut_keep
    | with_reducible apply okeep_next | with_reducible apply keep_ite | split)

theorem State.saveSettings_keep {s0 s : State} (h : Keep s0 s) :
    Keep s0 (State.saveSettings s) := by
  unfold State.saveSettings
  repeat' (first
    | intro y
    | (extract_lets +onlyGivenNames x; first | (refine keep_suff (p := Keep s0 x) ?_ (fun hx => ?_); subst x; rotate_left; clear_value x) | subst x)
    | with_reducible assumption | with_reducible apply State.addTask_keep | with_reducible apply keep_ite | exact rfl | split
    | refine keep_upd ?_ rfl rfl rfl rfl rfl rfl rfl rfl)

theorem State.saveSeeds_keep {s0 s : State} (h : Keep s0 s) :
    Keep s0 (State.saveSeeds s) := by
  unfold State.saveSeeds
  repeat' (first
    | intro y
    | (extract_lets +onlyGivenNames x; first | (refine keep_suff (p := Keep s0 x) ?_ (fun hx => ?_); subst x; rotate_left; clear_value x) | subst x)
    | with_reducible assumption | with_reducible apply State.addTask_keep | with_reducible apply keep_ite | exact rfl | split
    | refine keep_upd ?_ rfl rfl rfl rfl rfl rfl rfl rfl)

theorem execCheckpoint_keep {s0 s : State} (h : Keep s0 s) :
    OKeep s0 (execCheckpoint s) := by
  unfold execCheckpoint
  repeat' (first
    | intro y
    | (extract_lets +onlyGivenNames x; first | (refine keep_suff (p := Keep s0 x) ?_ (fun hx => ?_); subst x; rotate_left; clear_value x) | subst x)
    | with_reducible assumption | with_reducible apply State.saveSeeds_keep | with_reducible apply State.saveSettings_keep
    | with_reducible apply okeep_next | with_reducible apply keep_ite | split | refine keep_upd ?_ rfl rfl rfl rfl rfl rfl rfl rfl)

theorem execHalfHot_keep {s0 s : State} (h : Keep s0 s) {v0 v1} :
    OKeep s0 (execHalfHot v0 v1 s) := by
  unfold execHalfHot
  repeat' (first
    | intro y
    | (extract_lets +onlyGivenNames x; first | (refine keep_suff (p := Keep s0 x) ?_ (fun hx => ?_); subst x; rotate_left; clear_value x) | subst x)
    | with_reducible assumption | with_reducible apply State.completeAll_keep | with_reducible apply State.raise_keep
    | with_reducible apply State.halfOut_keep | with_reducible apply State.setHalf_keep | with_reducible apply State.startFallback_keep
    | with_reducible apply State.logEvent_keep | with_reducible apply okeep_next | with_reducible apply keep_ite | split
    | refine keep_upd ?_ rfl rfl rfl rfl rfl rfl rfl rfl)

theorem execHealthDiag_keep {s0 s : State} (h : Keep s0 s) :
    OKeep s0 (execHealthDiag s) := by
  unfold execHealthDiag
  repeat' (first
    | intro y
    | (extract_lets +onlyGivenNames x; first | (refine keep_suff (p := Keep s0 x) ?_ (fun hx => ?_); subst x; rotate_left; clear_value x) | subst x)
    | with_reducible assumption | with_reducible apply State.queueDiag_keep | with_reducible apply State.resample_keep
    | with_reducible apply okeep_next | with_reducible apply keep_ite | split | refine keep_upd ?_ rfl rfl rfl rfl rfl rfl rfl rfl)

theorem execLogBatch_keep {s0 s : State} (h : Keep s0 s) {v0} :
    OKeep s0 (execLogBatch v0 s) := by
  unfold execLogBatch
  repeat' (first
    | intro y
    | (extract_lets +onlyGivenNames x; first | (refine keep_suff (p := Keep s0 x) ?_ (fun hx => ?_); subst x; rotate_left; clear_value x) | subst x)
    | with_reducible assumption | with_reducible apply State.submitLog_keep | with_reducible apply State.setBit_keep
    | with_reducible apply okeep_next | with_reducible apply keep_ite | split)

theorem State.syncPool_keep {s0 s : State} (h : Keep s0 s) {v1} :
    Keep s0 (State.syncPool s v1) := by
  unfold State.syncPool
  repeat' (first
    | intro y
    | (extract_lets +onlyGivenNames x; first | (refine keep_suff (p := Keep s0 x) ?_ (fun hx => ?_); subst x; rotate_left; clear_value x) | subst x)
    | with_reducible assumption | with_reducible apply State.setReady_keep | with_reducible apply keep_ite | split)

theorem State.decFail_keep {s0 s : State} (h : Keep s0 s) {v1} :
    Keep s0 (State.decFail s v1) := by
  unfold State.decFail
  repeat' (first
    | intro y
    | (extract_lets +onlyGivenNames x; first | (refine keep_suff (p := Keep s0 x) ?_ (fun hx => ?_); subst x; rotate_left; clear_value x) | subst x)
    | with_reducible assumption | with_reducible apply State.syncPool_keep | with_reducible apply State.setBit_keep | split)

theorem execDecoderSelftest_keep {s0 s : State} (h : Keep s0 s) {v0 v1} :
    OKeep s0 (execDecoderSelftest v0 v1 s) := by
  unfold execDecoderSelftest
  repeat' (first
    | intro y
    | (extract_lets +onlyGivenNames x; first | (refine keep_suff (p := Keep s0 x) ?_ (fun hx => ?_); subst x; rotate_left; clear_value x) | subst x)
    | with_reducible assumption | with_reducible apply State.logEvent_keep | with_reducible apply State.setBit_keep
    | with_reducible apply State.setReady_keep | with_reducible apply State.completeAll_keep | with_reducible apply State.decFail_keep
    | with_reducible apply State.raise_keep | with_reducible apply okeep_next | with_reducible apply keep_ite | split)

theorem execPositionOffsetSave_keep {s0 s : State} (h : Keep s0 s) :
    OKeep s0 (execPositionOffsetSave s) := by
  unfold execPositionOffsetSave
  split
  · exact okeep_next h
  · refine okeep_next (keep_ite (State.addTask_keep ?_ (fun i0 => wf_offsets (h.inv i0).phiFlash)) h)
    exact keep_raw h rfl (Nat.le_refl _) (fun i => ⟨i.regs, i.seen, i.pop, i.latches, i.staging, i.phi, i.refAt, i.wts, i.seedWt, i.dueAt,
        i.divAt, i.tagBytes, i.tagWear, i.pingPorts, i.pingFlash, fun e he => Option.some.inj he ▸ i.phi, i.txc, i.chains, i.beams,
        i.slots, i.log, i.shedLo, i.shedHi, i.tasks⟩)

theorem State.noteRefusal_keep {s0 s : State} (h : Keep s0 s) {v1 v2 v3} :
    Keep s0 (State.noteRefusal s v1 v2 v3) := by
  unfold State.noteRefusal
  repeat' (first
    | intro y
    | (extract_lets +onlyGivenNames x; first | (refine keep_suff (p := Keep s0 x) ?_ (fun hx => ?_); subst x; rotate_left; clear_value x) | subst x)
    | with_reducible assumption | with_reducible apply State.cntSat_keep | with_reducible apply State.setReg_keep
    | with_reducible apply keep_ite | split)

theorem State.beginQuiesce_keep {s0 s : State} (h : Keep s0 s) {v1} :
    Keep s0 (State.beginQuiesce s v1) := by
  unfold State.beginQuiesce
  repeat' (first
    | intro y
    | (extract_lets +onlyGivenNames x; first | (refine keep_suff (p := Keep s0 x) ?_ (fun hx => ?_); subst x; rotate_left; clear_value x) | subst x)
    | with_reducible assumption | with_reducible apply State.endSession_keep | with_reducible apply State.submitLog_keep | split
    | refine keep_upd ?_ rfl rfl rfl rfl rfl rfl rfl rfl)

theorem State.waitEntry_keep {s0 s : State} (h : Keep s0 s) :
    Keep s0 (State.waitEntry s) := by
  unfold State.waitEntry
  repeat' (first
    | intro y
    | (extract_lets +onlyGivenNames x; first | (refine keep_suff (p := Keep s0 x) ?_ (fun hx => ?_); subst x; rotate_left; clear_value x) | subst x)
    | with_reducible assumption | with_reducible apply State.answerWait_keep | with_reducible apply State.drawBool_keep
    | with_reducible apply State.noteRefusal_keep | with_reducible apply State.beginQuiesce_keep | with_reducible apply keep_ite
    | refine keep_pair ?_ (by with_reducible assumption) | split)

theorem State.abortEntry_keep {s0 s : State} (h : Keep s0 s) {v1 v2} :
    Keep s0 (State.abortEntry s v1 v2) := by
  unfold State.abortEntry
  repeat' (first
    | intro y
    | (extract_lets +onlyGivenNames x; first | (refine keep_suff (p := Keep s0 x) ?_ (fun hx => ?_); subst x; rotate_left; clear_value x) | subst x)
    | with_reducible assumption | with_reducible apply State.noteRefusal_keep | with_reducible apply State.logEvent_keep
    | with_reducible apply State.answerWait_keep | split | refine keep_upd ?_ rfl rfl rfl rfl rfl rfl rfl rfl)

theorem State.recordWake_keep {s0 s : State} (h : Keep s0 s) {v1 v2} :
    Keep s0 (State.recordWake s v1 v2) := by
  unfold State.recordWake
  repeat' (first
    | intro y
    | (extract_lets +onlyGivenNames x; first | (refine keep_suff (p := Keep s0 x) ?_ (fun hx => ?_); subst x; rotate_left; clear_value x) | subst x)
    | with_reducible assumption | with_reducible apply State.setBit_keep | with_reducible apply State.setReg_keep
    | with_reducible apply State.setFld_keep | with_reducible apply keep_ite | split | refine keep_upd ?_ rfl rfl rfl rfl rfl rfl rfl rfl)

theorem State.wakeReport_keep {s0 s : State} (h : Keep s0 s) :
    Keep s0 (State.wakeReport s) := by
  unfold State.wakeReport
  repeat' (first
    | intro y
    | (extract_lets +onlyGivenNames x; first | (refine keep_suff (p := Keep s0 x) ?_ (fun hx => ?_); subst x; rotate_left; clear_value x) | subst x)
    | with_reducible assumption | with_reducible apply State.queueWarp_keep | split | refine keep_upd ?_ rfl rfl rfl rfl rfl rfl rfl rfl)

theorem State.leaveIdle_keep {s0 s : State} (h : Keep s0 s) :
    Keep s0 (State.leaveIdle s) := by
  unfold State.leaveIdle
  repeat' (first
    | intro y
    | (extract_lets +onlyGivenNames x; first | (refine keep_suff (p := Keep s0 x) ?_ (fun hx => ?_); subst x; rotate_left; clear_value x) | subst x)
    | with_reducible assumption | with_reducible apply State.setBit_keep | with_reducible apply State.setReg_keep
    | with_reducible apply State.wakeReport_keep | split | refine keep_upd ?_ rfl rfl rfl rfl rfl rfl rfl rfl)

theorem State.leaveSleep_keep {s0 s : State} (h : Keep s0 s) {v1} :
    Keep s0 (State.leaveSleep s v1) := by
  unfold State.leaveSleep
  repeat' (first
    | intro y
    | (extract_lets +onlyGivenNames x; first | (refine keep_suff (p := Keep s0 x) ?_ (fun hx => ?_); subst x; rotate_left; clear_value x) | subst x)
    | with_reducible assumption | with_reducible apply State.setBit_keep | with_reducible apply State.setReg_keep
    | with_reducible apply State.coreReset_keep | split | refine keep_upd ?_ rfl rfl rfl rfl rfl rfl rfl rfl)

theorem State.takeWake_keep {s0 s : State} (h : Keep s0 s) :
    Keep s0 (State.takeWake s) := by
  unfold State.takeWake
  repeat' (first
    | intro y
    | (extract_lets +onlyGivenNames x; first | (refine keep_suff (p := Keep s0 x) ?_ (fun hx => ?_); subst x; rotate_left; clear_value x) | subst x)
    | with_reducible assumption | with_reducible apply State.leaveIdle_keep | with_reducible apply State.leaveSleep_keep
    | with_reducible apply keep_ite | split)

theorem State.wake_keep {s0 s : State} (h : Keep s0 s) {v1} :
    Keep s0 (State.wake s v1) := by
  unfold State.wake
  repeat' (first
    | intro y
    | (extract_lets +onlyGivenNames x; first | (refine keep_suff (p := Keep s0 x) ?_ (fun hx => ?_); subst x; rotate_left; clear_value x) | subst x)
    | with_reducible assumption | with_reducible apply State.recordWake_keep | with_reducible apply State.takeWake_keep
    | with_reducible apply keep_ite | split | refine keep_upd ?_ rfl rfl rfl rfl rfl rfl rfl rfl)

theorem State.gateClocks_keep {s0 s : State} (h : Keep s0 s) :
    Keep s0 (State.gateClocks s) := by
  unfold State.gateClocks
  repeat' (first
    | intro y
    | (extract_lets +onlyGivenNames x; first | (refine keep_suff (p := Keep s0 x) ?_ (fun hx => ?_); subst x; rotate_left; clear_value x) | subst x)
    | with_reducible assumption | with_reducible apply State.setBit_keep | with_reducible apply State.takeWake_keep
    | with_reducible apply State.setFld_keep | split | refine keep_upd ?_ rfl rfl rfl rfl rfl rfl rfl rfl)

theorem State.commitEntry_keep {s0 s : State} (h : Keep s0 s) {v1} :
    Keep s0 (State.commitEntry s v1) := by
  unfold State.commitEntry
  repeat' (first
    | intro y
    | (extract_lets +onlyGivenNames x; first | (refine keep_suff (p := Keep s0 x) ?_ (fun hx => ?_); subst x; rotate_left; clear_value x) | subst x)
    | with_reducible assumption | with_reducible apply State.setReg_keep | with_reducible apply State.setFld_keep
    | with_reducible apply State.answerWait_keep | with_reducible apply State.wake_keep | with_reducible apply State.gateClocks_keep
    | with_reducible apply keep_ite | split | refine keep_upd ?_ rfl rfl rfl rfl rfl rfl rfl rfl)

theorem State.stage_keep {s0 s : State} (h : Keep s0 s) {v1 v2} :
    Keep s0 (State.stage s v1 v2) := by
  exact keep_raw h rfl (Nat.le_refl _) (fun i => ⟨i.regs, i.seen, i.pop, i.latches, swf_sput i.staging _ _, i.phi, i.refAt, i.wts,
      i.seedWt, i.dueAt, i.divAt, i.tagBytes, i.tagWear, i.pingPorts, i.pingFlash, i.phiFlash, i.txc, i.chains, i.beams, i.slots, i.log,
      i.shedLo, i.shedHi, i.tasks⟩)

theorem State.unstage_keep {s0 s : State} (h : Keep s0 s) {v1 v2} :
    Keep s0 (State.unstage s v1 v2) := by
  exact keep_raw h rfl (Nat.le_refl _) (fun i => ⟨i.regs, i.seen, i.pop, i.latches, swf_filter _ i.staging, i.phi, i.refAt, i.wts,
      i.seedWt, i.dueAt, i.divAt, i.tagBytes, i.tagWear, i.pingPorts, i.pingFlash, i.phiFlash, i.txc, i.chains, i.beams, i.slots, i.log,
      i.shedLo, i.shedHi, i.tasks⟩)

theorem State.wireStore_keep {s0 s : State} (h : Keep s0 s) {v1 v2} :
    Keep s0 (State.wireStore s v1 v2) := by
  unfold State.wireStore
  repeat' (first
    | intro y
    | (extract_lets +onlyGivenNames x; first | (refine keep_suff (p := Keep s0 x) ?_ (fun hx => ?_); subst x; rotate_left; clear_value x) | subst x)
    | with_reducible assumption | with_reducible apply State.stage_keep | with_reducible apply State.unstage_keep
    | with_reducible apply State.tagSticky_keep | with_reducible apply State.requestCrumb_keep | with_reducible apply State.cnt_keep
    | with_reducible apply keep_ite | split | refine keep_upd ?_ rfl rfl rfl rfl rfl rfl rfl rfl)

theorem State.wireWords_keep {s0 s : State} (h : Keep s0 s) {v0} :
    Keep s0 (State.wireWords v0 s) := by
  induction v0 generalizing s  with
  | nil =>
    unfold State.wireWords
    repeat' (first
      | intro y
      | (extract_lets +onlyGivenNames x; first | (refine keep_suff (p := Keep s0 x) ?_ (fun hx => ?_); subst x; rotate_left; clear_value x) | subst x)
      | with_reducible assumption | with_reducible apply State.wireStore_keep | with_reducible apply keep_ite | split
      | refine keep_upd ?_ rfl rfl rfl rfl rfl rfl rfl rfl)
  | cons e r ih =>
    unfold State.wireWords
    repeat' (first
      | intro y
      | (extract_lets +onlyGivenNames x; first | (refine keep_suff (p := Keep s0 x) ?_ (fun hx => ?_); subst x; rotate_left; clear_value x) | subst x)
      | with_reducible assumption | with_reducible apply ih | with_reducible apply State.wireStore_keep | with_reducible apply keep_ite
      | split | refine keep_upd ?_ rfl rfl rfl rfl rfl rfl rfl rfl)

theorem State.postWire_keep {s0 s : State} (h : Keep s0 s) {v1} :
    Keep s0 (State.postWire s v1) := by
  unfold State.postWire
  repeat' (first
    | intro y
    | (extract_lets +onlyGivenNames x; first | (refine keep_suff (p := Keep s0 x) ?_ (fun hx => ?_); subst x; rotate_left; clear_value x) | subst x)
    | with_reducible assumption | with_reducible apply State.wireWords_keep | with_reducible apply keep_ite | split
    | refine keep_upd ?_ rfl rfl rfl rfl rfl rfl rfl rfl)

theorem State.resumeWire_keep {s0 s : State} (h : Keep s0 s) :
    Keep s0 (State.resumeWire s) := by
  unfold State.resumeWire
  repeat' (first
    | intro y
    | (extract_lets +onlyGivenNames x; first | (refine keep_suff (p := Keep s0 x) ?_ (fun hx => ?_); subst x; rotate_left; clear_value x) | subst x)
    | with_reducible assumption | with_reducible apply State.wireWords_keep | with_reducible apply keep_ite | split)

theorem State.dropAnt_keep {s0 s : State} (h : Keep s0 s) :
    Keep s0 (State.dropAnt s) := by
  unfold State.dropAnt
  repeat' (first
    | intro y
    | (extract_lets +onlyGivenNames x; first | (refine keep_suff (p := Keep s0 x) ?_ (fun hx => ?_); subst x; rotate_left; clear_value x) | subst x)
    | with_reducible assumption | with_reducible apply State.endSession_keep | with_reducible apply keep_ite | split)

theorem State.updSession_keep {s0 s : State} (h : Keep s0 s) {v1} :
    Keep s0 (State.updSession s v1) := by
  unfold State.updSession
  repeat' (first
    | intro y
    | (extract_lets +onlyGivenNames x; first | (refine keep_suff (p := Keep s0 x) ?_ (fun hx => ?_); subst x; rotate_left; clear_value x) | subst x)
    | with_reducible assumption | split | refine keep_upd ?_ rfl rfl rfl rfl rfl rfl rfl rfl)

theorem State.tagTo_keep {s0 s : State} (h : Keep s0 s) {v1} :
    Keep s0 (State.tagTo s v1) := by
  unfold State.tagTo
  repeat' (first
    | intro y
    | (extract_lets +onlyGivenNames x; first | (refine keep_suff (p := Keep s0 x) ?_ (fun hx => ?_); subst x; rotate_left; clear_value x) | subst x)
    | with_reducible assumption | with_reducible apply State.updSession_keep | split)

theorem State.cutAccess_keep {s0 s : State} (h : Keep s0 s) {v1} :
    Keep s0 (State.cutAccess s v1) := by
  unfold State.cutAccess
  repeat' (first
    | intro y
    | (extract_lets +onlyGivenNames x; first | (refine keep_suff (p := Keep s0 x) ?_ (fun hx => ?_); subst x; rotate_left; clear_value x) | subst x)
    | with_reducible assumption | with_reducible apply State.failAttempt_keep | with_reducible apply State.tagTo_keep
    | with_reducible apply keep_ite | split)

theorem State.commWake_keep {s0 s : State} (h : Keep s0 s) {v1} :
    Keep s0 (State.commWake s v1) := by
  unfold State.commWake
  repeat' (first
    | intro y
    | (extract_lets +onlyGivenNames x; first | (refine keep_suff (p := Keep s0 x) ?_ (fun hx => ?_); subst x; rotate_left; clear_value x) | subst x)
    | with_reducible assumption | with_reducible apply State.wake_keep | split | refine keep_upd ?_ rfl rfl rfl rfl rfl rfl rfl rfl)

theorem State.fieldCmd_keep {s0 s : State} (h : Keep s0 s) {v1 v2 v3 v4} (hv4 : ∀ x s, Keep s0 s → Keep s0 (v4 x s)) :
    Keep s0 (State.fieldCmd s v1 v2 v3 v4) := by
  unfold State.fieldCmd
  repeat' (first
    | intro y
    | (extract_lets +onlyGivenNames x; first | (refine keep_suff (p := Keep s0 x) ?_ (fun hx => ?_); subst x; rotate_left; clear_value x) | subst x)
    | with_reducible assumption | with_reducible apply hv4 | with_reducible apply State.dropAnt_keep
    | with_reducible apply State.cutAccess_keep | with_reducible apply State.tagSay_keep | with_reducible apply State.tagCount_keep
    | with_reducible apply State.updSession_keep | with_reducible apply State.commWake_keep | with_reducible apply keep_ite | split
    | refine keep_upd ?_ rfl rfl rfl rfl rfl rfl rfl rfl)

theorem State.fieldIgnored_keep {s0 s : State} (h : Keep s0 s) {v1} :
    Keep s0 (State.fieldIgnored s v1) := by
  unfold State.fieldIgnored
  repeat' (first
    | intro y
    | (extract_lets +onlyGivenNames x; first | (refine keep_suff (p := Keep s0 x) ?_ (fun hx => ?_); subst x; rotate_left; clear_value x) | subst x)
    | with_reducible assumption | with_reducible apply State.dropAnt_keep | with_reducible apply State.commWake_keep
    | with_reducible apply keep_ite | split)

theorem State.setInvFlag_keep {s0 s : State} (h : Keep s0 s) {v1 v2} :
    Keep s0 (State.setInvFlag s v1 v2) := by
  unfold State.setInvFlag
  repeat' (first
    | intro y
    | (extract_lets +onlyGivenNames x; first | (refine keep_suff (p := Keep s0 x) ?_ (fun hx => ?_); subst x; rotate_left; clear_value x) | subst x)
    | with_reducible assumption | split | refine keep_upd ?_ rfl rfl rfl rfl rfl rfl rfl rfl)

theorem State.decayS1_keep {s0 s : State} (h : Keep s0 s) :
    Keep s0 (State.decayS1 s) := by
  unfold State.decayS1
  repeat' (first
    | intro y
    | (extract_lets +onlyGivenNames x; first | (refine keep_suff (p := Keep s0 x) ?_ (fun hx => ?_); subst x; rotate_left; clear_value x) | subst x)
    | with_reducible assumption | with_reducible apply State.drawBool_keep | with_reducible apply State.setInvFlag_keep
    | refine keep_pair ?_ (by with_reducible assumption) | split)

theorem State.tagSelect_keep {s0 s : State} (h : Keep s0 s) {v1} :
    Keep s0 (State.tagSelect s v1) := by
  unfold State.tagSelect
  repeat' (first
    | intro y
    | (extract_lets +onlyGivenNames x; first | (refine keep_suff (p := Keep s0 x) ?_ (fun hx => ?_); subst x; rotate_left; clear_value x) | subst x)
    | with_reducible assumption | with_reducible apply State.updSession_keep | with_reducible apply State.setInvFlag_keep
    | with_reducible apply keep_ite | split | refine keep_upd ?_ rfl rfl rfl rfl rfl rfl rfl rfl)

theorem State.sayRn_keep {s0 s : State} (h : Keep s0 s) :
    Keep s0 (State.sayRn s) := by
  unfold State.sayRn
  repeat' (first
    | intro y
    | (extract_lets +onlyGivenNames x; first | (refine keep_suff (p := Keep s0 x) ?_ (fun hx => ?_); subst x; rotate_left; clear_value x) | subst x)
    | with_reducible assumption | with_reducible apply State.drawHalf_keep | with_reducible apply State.tagSay_keep
    | with_reducible apply State.updSession_keep | refine keep_pair ?_ (by with_reducible assumption) | split)

theorem State.drawSlot_keep {s0 s : State} (h : Keep s0 s) {v1} :
    Keep s0 (State.drawSlot s v1) := by
  unfold State.drawSlot
  repeat' (first
    | intro y
    | (extract_lets +onlyGivenNames x; first | (refine keep_suff (p := Keep s0 x) ?_ (fun hx => ?_); subst x; rotate_left; clear_value x) | subst x)
    | with_reducible assumption | with_reducible apply State.drawHalf_keep | with_reducible apply State.updSession_keep
    | with_reducible apply State.sayRn_keep | with_reducible apply keep_ite | refine keep_pair ?_ (by with_reducible assumption) | split)

theorem State.tagQuery_keep {s0 s : State} (h : Keep s0 s) {v1 v2} :
    Keep s0 (State.tagQuery s v1 v2) := by
  unfold State.tagQuery
  repeat' (first
    | intro y
    | (extract_lets +onlyGivenNames x; first | (refine keep_suff (p := Keep s0 x) ?_ (fun hx => ?_); subst x; rotate_left; clear_value x) | subst x)
    | with_reducible assumption | with_reducible apply State.decayS1_keep | with_reducible apply State.setInvFlag_keep
    | with_reducible apply State.updSession_keep | with_reducible apply State.drawSlot_keep | with_reducible apply State.tagTo_keep
    | with_reducible apply keep_ite | split)

theorem State.leaveTurn_keep {s0 s : State} (h : Keep s0 s) {v1} :
    Keep s0 (State.leaveTurn s v1) := by
  unfold State.leaveTurn
  repeat' (first
    | intro y
    | (extract_lets +onlyGivenNames x; first | (refine keep_suff (p := Keep s0 x) ?_ (fun hx => ?_); subst x; rotate_left; clear_value x) | subst x)
    | with_reducible assumption | with_reducible apply State.tagTo_keep | with_reducible apply State.setInvFlag_keep | split)

theorem State.tagAdjust_keep {s0 s : State} (h : Keep s0 s) {v1 v2 v3} :
    Keep s0 (State.tagAdjust s v1 v2 v3) := by
  unfold State.tagAdjust
  repeat' (first
    | intro y
    | (extract_lets +onlyGivenNames x; first | (refine keep_suff (p := Keep s0 x) ?_ (fun hx => ?_); subst x; rotate_left; clear_value x) | subst x)
    | with_reducible assumption | with_reducible apply State.leaveTurn_keep | with_reducible apply State.drawSlot_keep
    | with_reducible apply keep_ite | split)

theorem State.tagRep_keep {s0 s : State} (h : Keep s0 s) {v1 v2} :
    Keep s0 (State.tagRep s v1 v2) := by
  unfold State.tagRep
  repeat' (first
    | intro y
    | (extract_lets +onlyGivenNames x; first | (refine keep_suff (p := Keep s0 x) ?_ (fun hx => ?_); subst x; rotate_left; clear_value x) | subst x)
    | with_reducible assumption | with_reducible apply State.leaveTurn_keep | with_reducible apply State.updSession_keep
    | with_reducible apply State.sayRn_keep | with_reducible apply keep_ite | split)

theorem State.sayIdentity_keep {s0 s : State} (h : Keep s0 s) {v1} :
    Keep s0 (State.sayIdentity s v1) := by
  unfold State.sayIdentity
  repeat' (first
    | intro y
    | (extract_lets +onlyGivenNames x; first | (refine keep_suff (p := Keep s0 x) ?_ (fun hx => ?_); subst x; rotate_left; clear_value x) | subst x)
    | with_reducible assumption | with_reducible apply State.tagSay_keep | split)

theorem State.tagAck_keep {s0 s : State} (h : Keep s0 s) {v1 v2} :
    Keep s0 (State.tagAck s v1 v2) := by
  unfold State.tagAck
  repeat' (first
    | intro y
    | (extract_lets +onlyGivenNames x; first | (refine keep_suff (p := Keep s0 x) ?_ (fun hx => ?_); subst x; rotate_left; clear_value x) | subst x)
    | with_reducible assumption | with_reducible apply State.tagTo_keep | with_reducible apply State.sayIdentity_keep
    | with_reducible apply keep_ite | split)

theorem State.tagNak_keep {s0 s : State} (h : Keep s0 s) {v1} :
    Keep s0 (State.tagNak s v1) := by
  unfold State.tagNak
  repeat' (first
    | intro y
    | (extract_lets +onlyGivenNames x; first | (refine keep_suff (p := Keep s0 x) ?_ (fun hx => ?_); subst x; rotate_left; clear_value x) | subst x)
    | with_reducible assumption | with_reducible apply State.tagTo_keep | with_reducible apply keep_ite | split)

theorem State.tagReqRn_keep {s0 s : State} (h : Keep s0 s) {v1 v2} :
    Keep s0 (State.tagReqRn s v1 v2) := by
  unfold State.tagReqRn
  repeat' (first
    | intro y
    | (extract_lets +onlyGivenNames x; first | (refine keep_suff (p := Keep s0 x) ?_ (fun hx => ?_); subst x; rotate_left; clear_value x) | subst x)
    | with_reducible assumption | with_reducible apply State.tagTo_keep | with_reducible apply State.drawHalf_keep
    | with_reducible apply State.tagSay_keep | with_reducible apply State.updSession_keep | with_reducible apply keep_ite
    | refine keep_pair ?_ (by with_reducible assumption) | split)

theorem State.accessCmd_keep {s0 s : State} (h : Keep s0 s) {v1 v2 v3} (hv3 : ∀ s, Keep s0 s → Keep s0 (v3 s)) :
    Keep s0 (State.accessCmd s v1 v2 v3) := by
  unfold State.accessCmd
  repeat' (first
    | intro y
    | (extract_lets +onlyGivenNames x; first | (refine keep_suff (p := Keep s0 x) ?_ (fun hx => ?_); subst x; rotate_left; clear_value x) | subst x)
    | with_reducible assumption | with_reducible apply hv3 | with_reducible apply State.tagTo_keep | with_reducible apply keep_ite
    | split)

theorem State.covered_keep {s0 s : State} (h : Keep s0 s) {v1 v2 v3} (hv3 : ∀ x s, Keep s0 s → Keep s0 (v3 x s)) :
    Keep s0 (State.covered s v1 v2 v3) := by
  unfold State.covered
  repeat' (first
    | intro y
    | (extract_lets +onlyGivenNames x; first | (refine keep_suff (p := Keep s0 x) ?_ (fun hx => ?_); subst x; rotate_left; clear_value x) | subst x)
    | with_reducible assumption | with_reducible apply hv3 | split)

theorem State.tagRead_keep {s0 s : State} (h : Keep s0 s) {v1 v2 v3 v4 v5} :
    Keep s0 (State.tagRead s v1 v2 v3 v4 v5) := by
  unfold State.tagRead
  repeat' (first
    | intro y
    | (extract_lets +onlyGivenNames x; first | (refine keep_suff (p := Keep s0 x) ?_ (fun hx => ?_); subst x; rotate_left; clear_value x) | subst x)
    | with_reducible assumption | with_reducible apply State.tagSay_keep | with_reducible apply State.eccFail_keep
    | with_reducible apply State.eccFix_keep | with_reducible apply keep_ite | split)

theorem State.tagWrite_keep {s0 s : State} (h : Keep s0 s) {v1 v2 v3 v4 v5} :
    Keep s0 (State.tagWrite s v1 v2 v3 v4 v5) := by
  unfold State.tagWrite
  repeat' (first
    | intro y
    | (extract_lets +onlyGivenNames x; first | (refine keep_suff (p := Keep s0 x) ?_ (fun hx => ?_); subst x; rotate_left; clear_value x) | subst x)
    | with_reducible assumption | with_reducible apply State.tagSay_keep | with_reducible apply State.requestCrumb_keep
    | with_reducible apply keep_ite | split)

theorem State.tagLock_keep {s0 s : State} (h : Keep s0 s) {v1 v2} :
    Keep s0 (State.tagLock s v1 v2) := by
  unfold State.tagLock
  repeat' (first
    | intro y
    | (extract_lets +onlyGivenNames x; first | (refine keep_suff (p := Keep s0 x) ?_ (fun hx => ?_); subst x; rotate_left; clear_value x) | subst x)
    | with_reducible assumption | with_reducible apply State.tagSay_keep | with_reducible apply keep_ite | split
    | refine keep_upd ?_ rfl rfl rfl rfl rfl rfl rfl rfl)

theorem State.tagAccess_keep {s0 s : State} (h : Keep s0 s) {v1 v2} :
    Keep s0 (State.tagAccess s v1 v2) := by
  unfold State.tagAccess
  repeat' (first
    | intro y
    | (extract_lets +onlyGivenNames x; first | (refine keep_suff (p := Keep s0 x) ?_ (fun hx => ?_); subst x; rotate_left; clear_value x) | subst x)
    | with_reducible assumption | with_reducible apply State.tagSay_keep | with_reducible apply State.tagTo_keep
    | with_reducible apply State.failAttempt_keep | with_reducible apply keep_ite | split
    | refine keep_upd ?_ rfl rfl rfl rfl rfl rfl rfl rfl)

theorem State.landMoved_keep {s0 s : State} (h : Keep s0 s) {v1 v2} :
    Keep s0 (State.landMoved s v1 v2) := by
  unfold State.landMoved
  repeat' (first
    | intro y
    | (extract_lets +onlyGivenNames x; first | (refine keep_suff (p := Keep s0 x) ?_ (fun hx => ?_); subst x; rotate_left; clear_value x) | subst x)
    | with_reducible assumption | with_reducible apply State.addWear_keep | with_reducible apply State.moveCrumb_keep
    | with_reducible apply State.commitCrumb_keep | with_reducible apply State.fieldWritten_keep | split)

theorem State.wearOut_keep {s0 s : State} (h : Keep s0 s) {v1} :
    Keep s0 (State.wearOut s v1) := by
  unfold State.wearOut
  repeat' (first
    | intro y
    | (extract_lets +onlyGivenNames x; first | (refine keep_suff (p := Keep s0 x) ?_ (fun hx => ?_); subst x; rotate_left; clear_value x) | subst x)
    | with_reducible assumption | with_reducible apply State.raise_keep | with_reducible apply State.tagLog_keep
    | with_reducible apply keep_ite | split | refine keep_upd ?_ rfl rfl rfl rfl rfl rfl rfl rfl)

theorem State.endCrumb_keep {s0 s : State} (h : Keep s0 s) {v1} :
    Keep s0 (State.endCrumb s v1) := by
  unfold State.endCrumb
  repeat' (first
    | intro y
    | (extract_lets +onlyGivenNames x; first | (refine keep_suff (p := Keep s0 x) ?_ (fun hx => ?_); subst x; rotate_left; clear_value x) | subst x)
    | with_reducible assumption | with_reducible apply State.landCrumb_keep | with_reducible apply State.tagCount_keep
    | with_reducible apply State.crumbAnswer_keep | with_reducible apply State.landMoved_keep | with_reducible apply State.wearOut_keep
    | with_reducible apply State.addWear_keep | with_reducible apply keep_ite | split
    | refine keep_upd ?_ rfl rfl rfl rfl rfl rfl rfl rfl)

end Sys2Proof.Machine
end

