-- ==== Sys2Proof/Laws/KeepRounds.lean ====
section
/-! SUPPORT. What rounds, carriers and engines keep (`Keep` of Laws/Keep.lean), one lemma for each. -/
namespace Sys2Proof.Machine

set_option Elab.async false

theorem State.linkTx_keep {s0 s : State} (h : Keep s0 s) {v1 v2} :
    Keep s0 (State.linkTx s v1 v2) := by
  unfold State.linkTx
  repeat' (first
    | intro y
    | (extract_lets +onlyGivenNames x; first | (refine keep_suff (p := Keep s0 x) ?_ (fun hx => ?_); subst x; rotate_left; clear_value x) | subst x)
    | with_reducible assumption | with_reducible apply State.setFld_keep | split)

theorem State.unlinkTx_keep {s0 s : State} (h : Keep s0 s) {v1} :
    Keep s0 (State.unlinkTx s v1) := by
  unfold State.unlinkTx
  repeat' (first
    | intro y
    | (extract_lets +onlyGivenNames x; first | (refine keep_suff (p := Keep s0 x) ?_ (fun hx => ?_); subst x; rotate_left; clear_value x) | subst x)
    | with_reducible assumption | with_reducible apply State.setFld_keep | split)

theorem State.loadSeed_keep {s0 s : State} (h : Keep s0 s) {v1 v2 v3 v4} :
    Keep s0 (State.loadSeed s v1 v2 v3 v4) := by
  unfold State.loadSeed
  repeat' (first
    | intro y
    | (extract_lets +onlyGivenNames x; first | (refine keep_suff (p := Keep s0 x) ?_ (fun hx => ?_); subst x; rotate_left; clear_value x) | subst x)
    | with_reducible assumption | with_reducible apply State.setReg_keep | split)

theorem State.setGain_keep {s0 s : State} (h : Keep s0 s) {v1 v2} :
    Keep s0 (State.setGain s v1 v2) := by
  unfold State.setGain
  repeat' (first
    | intro y
    | (extract_lets +onlyGivenNames x; first | (refine keep_suff (p := Keep s0 x) ?_ (fun hx => ?_); subst x; rotate_left; clear_value x) | subst x)
    | with_reducible assumption | with_reducible apply State.setFld_keep | with_reducible apply keep_ite | split)

theorem State.regain_keep {s0 s : State} (h : Keep s0 s) {v1} :
    Keep s0 (State.regain s v1) := by
  unfold State.regain
  repeat' (first
    | intro y
    | (extract_lets +onlyGivenNames x; first | (refine keep_suff (p := Keep s0 x) ?_ (fun hx => ?_); subst x; rotate_left; clear_value x) | subst x)
    | with_reducible assumption | with_reducible apply State.drawHalf_keep | with_reducible apply State.setGain_keep
    | refine keep_pair ?_ (by with_reducible assumption) | split)

theorem State.listenBeam_keep {s0 s : State} (h : Keep s0 s) {v1 v2 v3} :
    Keep s0 (State.listenBeam s v1 v2 v3) := by
  unfold State.listenBeam
  repeat' (first
    | intro y
    | (extract_lets +onlyGivenNames x; first | (refine keep_suff (p := Keep s0 x) ?_ (fun hx => ?_); subst x; rotate_left; clear_value x) | subst x)
    | with_reducible assumption | with_reducible apply State.setReg_keep | with_reducible apply State.showBus_keep
    | with_reducible apply State.showChain_keep | with_reducible apply State.loadSeed_keep | with_reducible apply keep_foldl
    | with_reducible apply keep_foldl1 | with_reducible apply keep_foldl2 | refine keep_pair ?_ (by with_reducible assumption)
    | refine keep_pair1 ?_ (by with_reducible assumption) | split)

theorem State.deafBeam_keep {s0 s : State} (h : Keep s0 s) {v1} :
    Keep s0 (State.deafBeam s v1) := by
  unfold State.deafBeam
  repeat' (first
    | intro y
    | (extract_lets +onlyGivenNames x; first | (refine keep_suff (p := Keep s0 x) ?_ (fun hx => ?_); subst x; rotate_left; clear_value x) | subst x)
    | with_reducible assumption | with_reducible apply State.deafPort_keep | with_reducible apply keep_foldl
    | with_reducible apply keep_foldl1 | with_reducible apply keep_foldl2 | refine keep_pair ?_ (by with_reducible assumption)
    | refine keep_pair1 ?_ (by with_reducible assumption) | split)

theorem State.formBeam_keep {s0 s : State} (h : Keep s0 s) {v1 v2 v3 v4} :
    Keep s0 (State.formBeam s v1 v2 v3 v4) := by
  unfold State.formBeam
  repeat' (first
    | intro y
    | (extract_lets +onlyGivenNames x; first | (refine keep_suff (p := Keep s0 x) ?_ (fun hx => ?_); subst x; rotate_left; clear_value x) | subst x)
    | with_reducible assumption | with_reducible apply State.updChain_keep | with_reducible apply State.setReg_keep
    | with_reducible apply State.setFld_keep | with_reducible apply State.setBit_keep | with_reducible apply keep_foldl
    | with_reducible apply keep_foldl1 | with_reducible apply keep_foldl2 | with_reducible apply keep_ite
    | refine keep_pair ?_ (by with_reducible assumption) | refine keep_pair1 ?_ (by with_reducible assumption) | split
    | refine keep_upd ?_ rfl rfl rfl rfl rfl rfl rfl rfl
    | refine keep_raw ?_ rfl (Nat.le_refl _) (fun i => ⟨i.regs, i.seen, i.pop, i.latches, i.staging, i.phi, i.refAt, i.wts, i.seedWt, i.dueAt, i.divAt, i.tagBytes, i.tagWear, i.pingPorts, i.pingFlash, i.phiFlash, i.txc, i.chains, List.length_set.trans i.beams, i.slots, i.log, i.shedLo, i.shedHi, i.tasks⟩))

theorem State.reserveBeams_keep {s0 s : State} (h : Keep s0 s) {v1 v2} :
    Keep s0 (State.reserveBeams s v1 v2).2.2 := by
  unfold State.reserveBeams
  repeat' (first
    | intro y
    | (extract_lets +onlyGivenNames x; first | (refine keep_suff (p := Keep s0 x) ?_ (fun hx => ?_); subst x; rotate_left; clear_value x) | subst x)
    | with_reducible assumption | with_reducible apply State.formBeam_keep | with_reducible apply keep_foldl
    | with_reducible apply keep_foldl1 | with_reducible apply keep_foldl2 | refine keep_pair ?_ (by with_reducible assumption)
    | refine keep_pair1 ?_ (by with_reducible assumption) | split | refine keep_upd ?_ rfl rfl rfl rfl rfl rfl rfl rfl)

theorem State.dropCand_keep {s0 s : State} (h : Keep s0 s) {v1} :
    Keep s0 (State.dropCand s v1) := by
  unfold State.dropCand
  repeat' (first
    | intro y
    | (extract_lets +onlyGivenNames x; first | (refine keep_suff (p := Keep s0 x) ?_ (fun hx => ?_); subst x; rotate_left; clear_value x) | subst x)
    | with_reducible assumption | split | refine keep_upd ?_ rfl rfl rfl rfl rfl rfl rfl rfl)

theorem State.roundSeq_keep {s0 s : State} (h : Keep s0 s) {v1} :
    Keep s0 (State.roundSeq s v1).2 := by
  unfold State.roundSeq
  repeat' (first
    | intro y
    | (extract_lets +onlyGivenNames x; first | (refine keep_suff (p := Keep s0 x) ?_ (fun hx => ?_); subst x; rotate_left; clear_value x) | subst x)
    | with_reducible assumption | with_reducible apply State.assign_keep | with_reducible apply keep_ite
    | refine keep_pair ?_ (by with_reducible assumption) | split | refine keep_upd ?_ rfl rfl rfl rfl rfl rfl rfl rfl)

theorem State.addRound_keep {s0 s : State} (h : Keep s0 s) {v1} :
    Keep s0 (State.addRound s v1) := by
  unfold State.addRound
  repeat' (first
    | intro y
    | (extract_lets +onlyGivenNames x; first | (refine keep_suff (p := Keep s0 x) ?_ (fun hx => ?_); subst x; rotate_left; clear_value x) | subst x)
    | with_reducible assumption | split | refine keep_upd ?_ rfl rfl rfl rfl rfl rfl rfl rfl)

theorem State.nextPoint_keep {s0 s : State} (h : Keep s0 s) {v1 v2} :
    Keep s0 (State.nextPoint s v1 v2) := by
  unfold State.nextPoint
  repeat' (first
    | intro y
    | (extract_lets +onlyGivenNames x; first | (refine keep_suff (p := Keep s0 x) ?_ (fun hx => ?_); subst x; rotate_left; clear_value x) | subst x)
    | with_reducible assumption | with_reducible apply State.updRound_keep | with_reducible apply State.roundEnd_keep
    | with_reducible apply State.leaveChan_keep | with_reducible apply State.linkTx_keep | with_reducible apply State.showBus_keep
    | with_reducible apply State.listenCal_keep | with_reducible apply State.retune_keep | with_reducible apply State.upOrWait_keep
    | with_reducible apply State.loseAnt_keep | with_reducible apply State.setRamp_keep | with_reducible apply keep_foldl
    | with_reducible apply keep_foldl1 | with_reducible apply keep_foldl2 | with_reducible apply keep_ite
    | refine keep_pair ?_ (by with_reducible assumption) | refine keep_pair1 ?_ (by with_reducible assumption) | split)

theorem State.startCal_keep {s0 s : State} (h : Keep s0 s) {v1 v2} :
    Keep s0 (State.startCal s v1 v2) := by
  unfold State.startCal
  repeat' (first
    | intro y
    | (extract_lets +onlyGivenNames x; first | (refine keep_suff (p := Keep s0 x) ?_ (fun hx => ?_); subst x; rotate_left; clear_value x) | subst x)
    | with_reducible assumption | with_reducible apply State.nextPoint_keep | with_reducible apply State.addRound_keep | split)

theorem State.startPing_keep {s0 s : State} (h : Keep s0 s) {v1 v2} :
    Keep s0 (State.startPing s v1 v2) := by
  unfold State.startPing
  repeat' (first
    | intro y
    | (extract_lets +onlyGivenNames x; first | (refine keep_suff (p := Keep s0 x) ?_ (fun hx => ?_); subst x; rotate_left; clear_value x) | subst x)
    | with_reducible assumption | with_reducible apply State.roundSeq_keep | with_reducible apply State.cnt_keep
    | with_reducible apply State.addRound_keep | with_reducible apply keep_ite | refine keep_pair ?_ (by with_reducible assumption)
    | split | refine keep_upd ?_ rfl rfl rfl rfl rfl rfl rfl rfl)

theorem State.startPeer_keep {s0 s : State} (h : Keep s0 s) {v1 v2} :
    Keep s0 (State.startPeer s v1 v2) := by
  unfold State.startPeer
  repeat' (first
    | intro y
    | (extract_lets +onlyGivenNames x; first | (refine keep_suff (p := Keep s0 x) ?_ (fun hx => ?_); subst x; rotate_left; clear_value x) | subst x)
    | with_reducible assumption | with_reducible apply State.reserveBeams_keep | with_reducible apply State.addRound_keep
    | with_reducible apply State.listenBeam_keep | with_reducible apply State.regain_keep | with_reducible apply State.retune_keep
    | with_reducible apply State.linkTx_keep | with_reducible apply keep_foldl | with_reducible apply keep_foldl1
    | with_reducible apply keep_foldl2 | with_reducible apply keep_ite | refine keep_pair ?_ (by with_reducible assumption)
    | refine keep_pair1 ?_ (by with_reducible assumption) | refine keep_pair3 ?_ (by with_reducible assumption) | split
    | refine keep_upd ?_ rfl rfl rfl rfl rfl rfl rfl rfl)

theorem State.startRf_keep {s0 s : State} (h : Keep s0 s) {v1 v2} :
    Keep s0 (State.startRf s v1 v2) := by
  unfold State.startRf
  repeat' (first
    | intro y
    | (extract_lets +onlyGivenNames x; first | (refine keep_suff (p := Keep s0 x) ?_ (fun hx => ?_); subst x; rotate_left; clear_value x) | subst x)
    | with_reducible assumption | with_reducible apply State.roundSeq_keep | with_reducible apply State.reserveBeams_keep
    | with_reducible apply State.pickChan_keep | with_reducible apply State.cnt_keep | with_reducible apply State.addRound_keep
    | with_reducible apply State.retune_keep | with_reducible apply State.linkTx_keep | with_reducible apply State.listenBeam_keep
    | with_reducible apply keep_foldl | with_reducible apply keep_foldl1 | with_reducible apply keep_foldl2
    | with_reducible apply keep_ite | refine keep_pair ?_ (by with_reducible assumption)
    | refine keep_pair1 ?_ (by with_reducible assumption) | refine keep_pair3 ?_ (by with_reducible assumption) | split)

theorem State.failCand_keep {s0 s : State} (h : Keep s0 s) {v1 v2 v3} :
    Keep s0 (State.failCand s v1 v2 v3) := by
  unfold State.failCand
  repeat' (first
    | intro y
    | (extract_lets +onlyGivenNames x; first | (refine keep_suff (p := Keep s0 x) ?_ (fun hx => ?_); subst x; rotate_left; clear_value x) | subst x)
    | with_reducible assumption | with_reducible apply State.dropCand_keep | with_reducible apply State.roundSeq_keep
    | with_reducible apply State.roundAtOnce_keep | refine keep_pair ?_ (by with_reducible assumption) | split)

theorem State.refuseRaw_keep {s0 s : State} (h : Keep s0 s) {v1 v2 v3} :
    Keep s0 (State.refuseRaw s v1 v2 v3) := by
  unfold State.refuseRaw
  repeat' (first
    | intro y
    | (extract_lets +onlyGivenNames x; first | (refine keep_suff (p := Keep s0 x) ?_ (fun hx => ?_); subst x; rotate_left; clear_value x) | subst x)
    | with_reducible assumption | with_reducible apply State.dropCand_keep | with_reducible apply State.roundSeq_keep
    | with_reducible apply State.setBit_keep | with_reducible apply State.queueWarp_keep | with_reducible apply State.cnt_keep
    | with_reducible apply State.roundAtOnce_keep | with_reducible apply keep_ite | refine keep_pair ?_ (by with_reducible assumption)
    | split)

theorem State.startCand_keep {s0 s : State} (h : Keep s0 s) {v1 v2} :
    Keep s0 (State.startCand s v1 v2) := by
  unfold State.startCand
  repeat' (first
    | intro y
    | (extract_lets +onlyGivenNames x; first | (refine keep_suff (p := Keep s0 x) ?_ (fun hx => ?_); subst x; rotate_left; clear_value x) | subst x)
    | with_reducible assumption | with_reducible apply State.failCand_keep | with_reducible apply State.startCal_keep
    | with_reducible apply State.dropCand_keep | with_reducible apply State.startPing_keep | with_reducible apply State.startPeer_keep
    | with_reducible apply State.cnt_keep | with_reducible apply State.refuseRaw_keep | with_reducible apply State.startRf_keep
    | with_reducible apply keep_ite | split)

theorem State.sweepCands_keep {s0 s : State} (h : Keep s0 s) :
    Keep s0 (State.sweepCands s) := by
  unfold State.sweepCands
  repeat' (first
    | intro y
    | (extract_lets +onlyGivenNames x; first | (refine keep_suff (p := Keep s0 x) ?_ (fun hx => ?_); subst x; rotate_left; clear_value x) | subst x)
    | with_reducible assumption | split | refine keep_upd ?_ rfl rfl rfl rfl rfl rfl rfl rfl)

theorem State.tryStart_keep {s0 s : State} (h : Keep s0 s) {v1} :
    Keep s0 (State.tryStart s v1) := by
  unfold State.tryStart
  repeat' (first
    | intro y
    | (extract_lets +onlyGivenNames x; first | (refine keep_suff (p := Keep s0 x) ?_ (fun hx => ?_); subst x; rotate_left; clear_value x) | subst x)
    | with_reducible assumption | with_reducible apply State.sweepCands_keep | with_reducible apply State.dropAnt_keep
    | with_reducible apply State.startCand_keep | with_reducible apply keep_ite | split)

theorem State.abortLive_keep {s0 s : State} (h : Keep s0 s) {v1} :
    Keep s0 (State.abortLive s v1) := by
  unfold State.abortLive
  repeat' (first
    | intro y
    | (extract_lets +onlyGivenNames x; first | (refine keep_suff (p := Keep s0 x) ?_ (fun hx => ?_); subst x; rotate_left; clear_value x) | subst x)
    | with_reducible assumption | with_reducible apply State.roundAtOnce_keep | with_reducible apply State.cnt_keep
    | with_reducible apply State.dropCand_keep | with_reducible apply State.stopRound_keep | with_reducible apply keep_ite | split
    | refine keep_upd ?_ rfl rfl rfl rfl rfl rfl rfl rfl)

theorem State.hostAbort_keep {s0 s : State} (h : Keep s0 s) {v1} :
    Keep s0 (State.hostAbort s v1).2 := by
  unfold State.hostAbort
  repeat' (first
    | intro y
    | (extract_lets +onlyGivenNames x; first | (refine keep_suff (p := Keep s0 x) ?_ (fun hx => ?_); subst x; rotate_left; clear_value x) | subst x)
    | with_reducible assumption | with_reducible apply State.abortLive_keep | with_reducible apply keep_ite | split)

theorem State.sendAir_keep {s0 s : State} (h : Keep s0 s) {v1 v2} :
    Keep s0 (State.sendAir s v1 v2) := by
  unfold State.sendAir
  repeat' (first
    | intro y
    | (extract_lets +onlyGivenNames x; first | (refine keep_suff (p := Keep s0 x) ?_ (fun hx => ?_); subst x; rotate_left; clear_value x) | subst x)
    | with_reducible assumption | with_reducible apply State.updBeam_keep | with_reducible apply State.setMode_keep
    | with_reducible apply State.updRound_keep | with_reducible apply keep_foldl | with_reducible apply keep_foldl1
    | with_reducible apply keep_foldl2 | with_reducible apply keep_ite | refine keep_pair ?_ (by with_reducible assumption)
    | refine keep_pair1 ?_ (by with_reducible assumption) | split)

theorem State.airOver_keep {s0 s : State} (h : Keep s0 s) {v1} :
    Keep s0 (State.airOver s v1) := by
  unfold State.airOver
  repeat' (first
    | intro y
    | (extract_lets +onlyGivenNames x; first | (refine keep_suff (p := Keep s0 x) ?_ (fun hx => ?_); subst x; rotate_left; clear_value x) | subst x)
    | with_reducible assumption | with_reducible apply State.setMode_keep | with_reducible apply keep_ite | split)

theorem State.commitCell_keep {s0 s : State} (h : Keep s0 s) {v1} :
    Keep s0 (State.commitCell s v1) := by
  unfold State.commitCell
  repeat' (first
    | intro y
    | (extract_lets +onlyGivenNames x; first | (refine keep_suff (p := Keep s0 x) ?_ (fun hx => ?_); subst x; rotate_left; clear_value x) | subst x)
    | with_reducible assumption | with_reducible apply keep_ite | split | refine keep_upd ?_ rfl rfl rfl rfl rfl rfl rfl rfl)

theorem State.commitTxn_keep {s0 s : State} (h : Keep s0 s) {v1 v2} :
    Keep s0 (State.commitTxn s v1 v2) := by
  unfold State.commitTxn
  repeat' (first
    | intro y
    | (extract_lets +onlyGivenNames x; first | (refine keep_suff (p := Keep s0 x) ?_ (fun hx => ?_); subst x; rotate_left; clear_value x) | subst x)
    | with_reducible assumption | with_reducible apply State.updRound_keep | with_reducible apply State.commitCell_keep
    | with_reducible apply keep_ite | split)

theorem State.changeGeo_keep {s0 s : State} (h : Keep s0 s) {v1} :
    Keep s0 (State.changeGeo s v1) := by
  unfold State.changeGeo
  repeat' (first
    | intro y
    | (extract_lets +onlyGivenNames x; first | (refine keep_suff (p := Keep s0 x) ?_ (fun hx => ?_); subst x; rotate_left; clear_value x) | subst x)
    | with_reducible assumption | with_reducible apply State.deafBeam_keep | with_reducible apply State.updRound_keep
    | with_reducible apply State.listenBeam_keep | with_reducible apply State.rampDown_keep | with_reducible apply keep_foldl
    | with_reducible apply keep_foldl1 | with_reducible apply keep_foldl2 | with_reducible apply keep_ite
    | refine keep_pair ?_ (by with_reducible assumption) | refine keep_pair1 ?_ (by with_reducible assumption) | split)

theorem State.hopAll_keep {s0 s : State} (h : Keep s0 s) {v1} :
    Keep s0 (State.hopAll s v1) := by
  unfold State.hopAll
  repeat' (first
    | intro y
    | (extract_lets +onlyGivenNames x; first | (refine keep_suff (p := Keep s0 x) ?_ (fun hx => ?_); subst x; rotate_left; clear_value x) | subst x)
    | with_reducible assumption | with_reducible apply State.pickChan_keep | with_reducible apply State.rampDown_keep
    | with_reducible apply keep_foldl | with_reducible apply keep_foldl1 | with_reducible apply keep_foldl2
    | with_reducible apply keep_ite | refine keep_pair ?_ (by with_reducible assumption)
    | refine keep_pair1 ?_ (by with_reducible assumption) | split | refine keep_upd ?_ rfl rfl rfl rfl rfl rfl rfl rfl)

theorem State.hopIfTogether_keep {s0 s : State} (h : Keep s0 s) {v1} :
    Keep s0 (State.hopIfTogether s v1) := by
  unfold State.hopIfTogether
  repeat' (first
    | intro y
    | (extract_lets +onlyGivenNames x; first | (refine keep_suff (p := Keep s0 x) ?_ (fun hx => ?_); subst x; rotate_left; clear_value x) | subst x)
    | with_reducible assumption | with_reducible apply State.hopAll_keep | with_reducible apply keep_ite | split)

theorem State.maybeChange_keep {s0 s : State} (h : Keep s0 s) {v1} :
    Keep s0 (State.maybeChange s v1) := by
  unfold State.maybeChange
  repeat' (first
    | intro y
    | (extract_lets +onlyGivenNames x; first | (refine keep_suff (p := Keep s0 x) ?_ (fun hx => ?_); subst x; rotate_left; clear_value x) | subst x)
    | with_reducible assumption | with_reducible apply State.drawBool_keep | with_reducible apply State.changeGeo_keep
    | with_reducible apply keep_ite | refine keep_pair ?_ (by with_reducible assumption) | split)

theorem State.regainRound_keep {s0 s : State} (h : Keep s0 s) {v1} :
    Keep s0 (State.regainRound s v1) := by
  unfold State.regainRound
  repeat' (first
    | intro y
    | (extract_lets +onlyGivenNames x; first | (refine keep_suff (p := Keep s0 x) ?_ (fun hx => ?_); subst x; rotate_left; clear_value x) | subst x)
    | with_reducible assumption | with_reducible apply State.regain_keep | with_reducible apply keep_foldl
    | with_reducible apply keep_foldl1 | with_reducible apply keep_foldl2 | refine keep_pair ?_ (by with_reducible assumption)
    | refine keep_pair1 ?_ (by with_reducible assumption) | split)

theorem State.boundary_keep {s0 s : State} (h : Keep s0 s) {v1 v2} (hv2 : ∀ s, Keep s0 s → Keep s0 (v2 s)) :
    Keep s0 (State.boundary s v1 v2) := by
  unfold State.boundary
  repeat' (first
    | intro y
    | (extract_lets +onlyGivenNames x; first | (refine keep_suff (p := Keep s0 x) ?_ (fun hx => ?_); subst x; rotate_left; clear_value x) | subst x)
    | with_reducible assumption | with_reducible apply hv2 | with_reducible apply State.updRound_keep
    | with_reducible apply State.settleOuts_keep | with_reducible apply State.dropLeavers_keep | with_reducible apply State.txnOver_keep
    | with_reducible apply State.hopIfTogether_keep | with_reducible apply State.maybeChange_keep
    | with_reducible apply State.regainRound_keep | with_reducible apply keep_ite | split)

theorem State.endByRule_keep {s0 s : State} (h : Keep s0 s) {v1} :
    Keep s0 (State.endByRule s v1) := by
  unfold State.endByRule
  repeat' (first
    | intro y
    | (extract_lets +onlyGivenNames x; first | (refine keep_suff (p := Keep s0 x) ?_ (fun hx => ?_); subst x; rotate_left; clear_value x) | subst x)
    | with_reducible assumption | with_reducible apply State.updRound_keep | with_reducible apply State.downRound_keep | split)

theorem State.legCount_keep {s0 s : State} (h : Keep s0 s) {v1 v2} :
    Keep s0 (State.legCount s v1 v2) := by
  unfold State.legCount
  repeat' (first
    | intro y
    | (extract_lets +onlyGivenNames x; first | (refine keep_suff (p := Keep s0 x) ?_ (fun hx => ?_); subst x; rotate_left; clear_value x) | subst x)
    | with_reducible assumption | with_reducible apply State.cnt_keep | split)

theorem State.legSend_keep {s0 s : State} (h : Keep s0 s) {v1 v2} :
    Keep s0 (State.legSend s v1 v2) := by
  unfold State.legSend
  repeat' (first
    | intro y
    | (extract_lets +onlyGivenNames x; first | (refine keep_suff (p := Keep s0 x) ?_ (fun hx => ?_); subst x; rotate_left; clear_value x) | subst x)
    | with_reducible assumption | with_reducible apply State.addCnt_keep | with_reducible apply State.sendAir_keep | split)

theorem State.updLeg_keep {s0 s : State} (h : Keep s0 s) {v1 v2} :
    Keep s0 (State.updLeg s v1 v2) := by
  unfold State.updLeg
  repeat' (first
    | intro y
    | (extract_lets +onlyGivenNames x; first | (refine keep_suff (p := Keep s0 x) ?_ (fun hx => ?_); subst x; rotate_left; clear_value x) | subst x)
    | with_reducible assumption | with_reducible apply State.updRound_keep | split)

theorem State.sendOp_keep {s0 s : State} (h : Keep s0 s) {v1 v2 v3} :
    Keep s0 (State.sendOp s v1 v2 v3) := by
  unfold State.sendOp
  repeat' (first
    | intro y
    | (extract_lets +onlyGivenNames x; first | (refine keep_suff (p := Keep s0 x) ?_ (fun hx => ?_); subst x; rotate_left; clear_value x) | subst x)
    | with_reducible assumption | with_reducible apply State.sendAir_keep | with_reducible apply State.updLeg_keep | split)

theorem State.sendLate_keep {s0 s : State} (h : Keep s0 s) {v1 v2} :
    Keep s0 (State.sendLate s v1 v2) := by
  unfold State.sendLate
  repeat' (first
    | intro y
    | (extract_lets +onlyGivenNames x; first | (refine keep_suff (p := Keep s0 x) ?_ (fun hx => ?_); subst x; rotate_left; clear_value x) | subst x)
    | with_reducible assumption | with_reducible apply State.updRound_keep | with_reducible apply State.updLeg_keep
    | with_reducible apply State.sendOp_keep | with_reducible apply keep_ite | split)

theorem State.sendRaw_keep {s0 s : State} (h : Keep s0 s) {v1 v2} :
    Keep s0 (State.sendRaw s v1 v2) := by
  unfold State.sendRaw
  repeat' (first
    | intro y
    | (extract_lets +onlyGivenNames x; first | (refine keep_suff (p := Keep s0 x) ?_ (fun hx => ?_); subst x; rotate_left; clear_value x) | subst x)
    | with_reducible assumption | with_reducible apply State.sendLate_keep | with_reducible apply State.sendOp_keep
    | with_reducible apply keep_ite | split)

theorem State.legBegin_keep {s0 s : State} (h : Keep s0 s) {v1} :
    Keep s0 (State.legBegin s v1) := by
  unfold State.legBegin
  repeat' (first
    | intro y
    | (extract_lets +onlyGivenNames x; first | (refine keep_suff (p := Keep s0 x) ?_ (fun hx => ?_); subst x; rotate_left; clear_value x) | subst x)
    | with_reducible assumption | with_reducible apply State.updRound_keep | with_reducible apply State.sendRaw_keep
    | with_reducible apply State.updLeg_keep | with_reducible apply State.legSend_keep | with_reducible apply keep_ite | split)

theorem State.countSlot_keep {s0 s : State} (h : Keep s0 s) {v1 v2} :
    Keep s0 (State.countSlot s v1 v2) := by
  unfold State.countSlot
  repeat' (first
    | intro y
    | (extract_lets +onlyGivenNames x; first | (refine keep_suff (p := Keep s0 x) ?_ (fun hx => ?_); subst x; rotate_left; clear_value x) | subst x)
    | with_reducible assumption | with_reducible apply State.legCount_keep | split)

theorem State.legNext_keep {s0 s : State} (h : Keep s0 s) {v1 v2 v3} :
    Keep s0 (State.legNext s v1 v2 v3) := by
  unfold State.legNext
  repeat' (first
    | intro y
    | (extract_lets +onlyGivenNames x; first | (refine keep_suff (p := Keep s0 x) ?_ (fun hx => ?_); subst x; rotate_left; clear_value x) | subst x)
    | with_reducible assumption | with_reducible apply State.updLeg_keep | with_reducible apply State.endByRule_keep
    | with_reducible apply State.boundary_keep | with_reducible apply State.legSend_keep | with_reducible apply keep_ite | split)

theorem State.afterSplit_keep {s0 s : State} (h : Keep s0 s) {v1 v2} :
    Keep s0 (State.afterSplit s v1 v2) := by
  unfold State.afterSplit
  repeat' (first
    | intro y
    | (extract_lets +onlyGivenNames x; first | (refine keep_suff (p := Keep s0 x) ?_ (fun hx => ?_); subst x; rotate_left; clear_value x) | subst x)
    | with_reducible assumption | with_reducible apply State.updLeg_keep | with_reducible apply State.boundary_keep
    | with_reducible apply State.legSend_keep | split)

theorem State.splitBranch_keep {s0 s : State} (h : Keep s0 s) {v1 v2} :
    Keep s0 (State.splitBranch s v1 v2) := by
  unfold State.splitBranch
  repeat' (first
    | intro y
    | (extract_lets +onlyGivenNames x; first | (refine keep_suff (p := Keep s0 x) ?_ (fun hx => ?_); subst x; rotate_left; clear_value x) | subst x)
    | with_reducible assumption | with_reducible apply State.updLeg_keep | with_reducible apply State.legSend_keep | split)

theorem State.branchOver_keep {s0 s : State} (h : Keep s0 s) {v1 v2} :
    Keep s0 (State.branchOver s v1 v2) := by
  unfold State.branchOver
  repeat' (first
    | intro y
    | (extract_lets +onlyGivenNames x; first | (refine keep_suff (p := Keep s0 x) ?_ (fun hx => ?_); subst x; rotate_left; clear_value x) | subst x)
    | with_reducible assumption | with_reducible apply State.sendAir_keep | with_reducible apply State.afterSplit_keep
    | with_reducible apply State.boundary_keep | with_reducible apply State.updLeg_keep | with_reducible apply State.splitBranch_keep
    | with_reducible apply keep_ite | split)

theorem State.slotOver_keep {s0 s : State} (h : Keep s0 s) {v1 v2} :
    Keep s0 (State.slotOver s v1 v2) := by
  unfold State.slotOver
  repeat' (first
    | intro y
    | (extract_lets +onlyGivenNames x; first | (refine keep_suff (p := Keep s0 x) ?_ (fun hx => ?_); subst x; rotate_left; clear_value x) | subst x)
    | with_reducible assumption | with_reducible apply State.countSlot_keep | with_reducible apply State.sendAir_keep
    | with_reducible apply State.updLeg_keep | with_reducible apply State.legNext_keep | with_reducible apply State.boundary_keep
    | with_reducible apply State.legSend_keep | with_reducible apply State.legCount_keep | with_reducible apply State.branchOver_keep
    | with_reducible apply keep_ite | split)

theorem State.identOver_keep {s0 s : State} (h : Keep s0 s) {v1} :
    Keep s0 (State.identOver s v1) := by
  unfold State.identOver
  repeat' (first
    | intro y
    | (extract_lets +onlyGivenNames x; first | (refine keep_suff (p := Keep s0 x) ?_ (fun hx => ?_); subst x; rotate_left; clear_value x) | subst x)
    | with_reducible assumption | with_reducible apply State.legNext_keep | with_reducible apply State.sendAir_keep
    | with_reducible apply State.branchOver_keep | with_reducible apply State.legCount_keep | with_reducible apply State.updLeg_keep
    | with_reducible apply State.boundary_keep | with_reducible apply State.splitBranch_keep | with_reducible apply keep_ite | split)

theorem State.accFinish_keep {s0 s : State} (h : Keep s0 s) {v1 v2 v3} :
    Keep s0 (State.accFinish s v1 v2 v3) := by
  unfold State.accFinish
  repeat' (first
    | intro y
    | (extract_lets +onlyGivenNames x; first | (refine keep_suff (p := Keep s0 x) ?_ (fun hx => ?_); subst x; rotate_left; clear_value x) | subst x)
    | with_reducible assumption | with_reducible apply State.legCount_keep | with_reducible apply State.queueWarp_keep
    | with_reducible apply State.endByRule_keep | with_reducible apply State.updLeg_keep | with_reducible apply keep_ite | split)

theorem State.accStep_keep {s0 s : State} (h : Keep s0 s) {v1 v2 v3} (hv3 : ∀ s, Keep s0 s → Keep s0 (v3 s)) :
    Keep s0 (State.accStep s v1 v2 v3) := by
  unfold State.accStep
  repeat' (first
    | intro y
    | (extract_lets +onlyGivenNames x; first | (refine keep_suff (p := Keep s0 x) ?_ (fun hx => ?_); subst x; rotate_left; clear_value x) | subst x)
    | with_reducible assumption | with_reducible apply hv3 | with_reducible apply State.updRound_keep
    | with_reducible apply State.downRound_keep | with_reducible apply keep_ite | split)

theorem State.accRetry_keep {s0 s : State} (h : Keep s0 s) {v1 v2 v3} :
    Keep s0 (State.accRetry s v1 v2 v3) := by
  unfold State.accRetry
  repeat' (first
    | intro y
    | (extract_lets +onlyGivenNames x; first | (refine keep_suff (p := Keep s0 x) ?_ (fun hx => ?_); subst x; rotate_left; clear_value x) | subst x)
    | with_reducible assumption | with_reducible apply State.updLeg_keep | with_reducible apply State.accFinish_keep
    | with_reducible apply State.sendAir_keep | with_reducible apply State.legSend_keep | with_reducible apply keep_ite | split)

theorem State.reqCover_keep {s0 s : State} (h : Keep s0 s) {v1 v2} :
    Keep s0 (State.reqCover s v1 v2) := by
  unfold State.reqCover
  repeat' (first
    | intro y
    | (extract_lets +onlyGivenNames x; first | (refine keep_suff (p := Keep s0 x) ?_ (fun hx => ?_); subst x; rotate_left; clear_value x) | subst x)
    | with_reducible assumption | with_reducible apply State.sendAir_keep | with_reducible apply State.updLeg_keep | split)

theorem State.rawDone_keep {s0 s : State} (h : Keep s0 s) {v1 v2} :
    Keep s0 (State.rawDone s v1 v2) := by
  unfold State.rawDone
  repeat' (first
    | intro y
    | (extract_lets +onlyGivenNames x; first | (refine keep_suff (p := Keep s0 x) ?_ (fun hx => ?_); subst x; rotate_left; clear_value x) | subst x)
    | with_reducible assumption | with_reducible apply State.accFinish_keep | with_reducible apply State.updLeg_keep | split)

theorem State.rawOver_keep {s0 s : State} (h : Keep s0 s) {v1 v2 v3 v4 v5} :
    Keep s0 (State.rawOver s v1 v2 v3 v4 v5) := by
  unfold State.rawOver
  repeat' (first
    | intro y
    | (extract_lets +onlyGivenNames x; first | (refine keep_suff (p := Keep s0 x) ?_ (fun hx => ?_); subst x; rotate_left; clear_value x) | subst x)
    | with_reducible assumption | with_reducible apply State.updLeg_keep | with_reducible apply State.accStep_keep
    | with_reducible apply State.legSend_keep | with_reducible apply State.rawDone_keep | with_reducible apply keep_ite | split)

theorem State.startOp_keep {s0 s : State} (h : Keep s0 s) {v1} :
    Keep s0 (State.startOp s v1) := by
  unfold State.startOp
  repeat' (first
    | intro y
    | (extract_lets +onlyGivenNames x; first | (refine keep_suff (p := Keep s0 x) ?_ (fun hx => ?_); subst x; rotate_left; clear_value x) | subst x)
    | with_reducible assumption | with_reducible apply State.sendOp_keep | with_reducible apply State.sendLate_keep
    | with_reducible apply State.rawDone_keep | with_reducible apply State.sendRaw_keep | with_reducible apply State.reqCover_keep
    | with_reducible apply keep_ite | split)

theorem State.opReply_keep {s0 s : State} (h : Keep s0 s) {v1 v2 v3 v4 v5} :
    Keep s0 (State.opReply s v1 v2 v3 v4 v5) := by
  unfold State.opReply
  repeat' (first
    | intro y
    | (extract_lets +onlyGivenNames x; first | (refine keep_suff (p := Keep s0 x) ?_ (fun hx => ?_); subst x; rotate_left; clear_value x) | subst x)
    | with_reducible assumption | with_reducible apply State.accFinish_keep | with_reducible apply State.updLeg_keep
    | with_reducible apply State.accStep_keep | with_reducible apply State.startOp_keep | with_reducible apply State.reqCover_keep
    | with_reducible apply keep_ite | split)

theorem State.rawReply_keep {s0 s : State} (h : Keep s0 s) {v1 v2 v3} :
    Keep s0 (State.rawReply s v1 v2 v3) := by
  unfold State.rawReply
  repeat' (first
    | intro y
    | (extract_lets +onlyGivenNames x; first | (refine keep_suff (p := Keep s0 x) ?_ (fun hx => ?_); subst x; rotate_left; clear_value x) | subst x)
    | with_reducible assumption | with_reducible apply State.rawOver_keep | with_reducible apply keep_foldl
    | with_reducible apply keep_foldl1 | with_reducible apply keep_foldl2 | with_reducible apply keep_ite
    | refine keep_pair ?_ (by with_reducible assumption) | refine keep_pair1 ?_ (by with_reducible assumption) | split)

theorem State.accOver_keep {s0 s : State} (h : Keep s0 s) {v1} :
    Keep s0 (State.accOver s v1) := by
  unfold State.accOver
  repeat' (first
    | intro y
    | (extract_lets +onlyGivenNames x; first | (refine keep_suff (p := Keep s0 x) ?_ (fun hx => ?_); subst x; rotate_left; clear_value x) | subst x)
    | with_reducible assumption | with_reducible apply State.accFinish_keep | with_reducible apply State.countSlot_keep
    | with_reducible apply State.accStep_keep | with_reducible apply State.sendAir_keep | with_reducible apply State.updLeg_keep
    | with_reducible apply State.accRetry_keep | with_reducible apply State.startOp_keep | with_reducible apply State.legCount_keep
    | with_reducible apply State.reqCover_keep | with_reducible apply State.sendLate_keep | with_reducible apply State.sendOp_keep
    | with_reducible apply State.opReply_keep | with_reducible apply State.rawReply_keep | with_reducible apply keep_ite | split)

theorem State.legOver_keep {s0 s : State} (h : Keep s0 s) {v1} :
    Keep s0 (State.legOver s v1) := by
  unfold State.legOver
  repeat' (first
    | intro y
    | (extract_lets +onlyGivenNames x; first | (refine keep_suff (p := Keep s0 x) ?_ (fun hx => ?_); subst x; rotate_left; clear_value x) | subst x)
    | with_reducible assumption | with_reducible apply State.slotOver_keep | with_reducible apply State.identOver_keep
    | with_reducible apply State.accOver_keep | split)

theorem State.legLastBit_keep {s0 s : State} (h : Keep s0 s) {v1} :
    Keep s0 (State.legLastBit s v1) := by
  unfold State.legLastBit
  repeat' (first
    | intro y
    | (extract_lets +onlyGivenNames x; first | (refine keep_suff (p := Keep s0 x) ?_ (fun hx => ?_); subst x; rotate_left; clear_value x) | subst x)
    | with_reducible assumption | with_reducible apply State.commitTxn_keep | with_reducible apply State.updRound_keep
    | with_reducible apply State.rawOver_keep | with_reducible apply keep_ite | split)

theorem State.setUmTag_keep {s0 s : State} (h : Keep s0 s) {v1} :
    Keep s0 (State.setUmTag s v1) := by
  unfold State.setUmTag
  repeat' (first
    | intro y
    | (extract_lets +onlyGivenNames x; first | (refine keep_suff (p := Keep s0 x) ?_ (fun hx => ?_); subst x; rotate_left; clear_value x) | subst x)
    | with_reducible assumption | with_reducible apply keep_ite | split | refine keep_upd ?_ rfl rfl rfl rfl rfl rfl rfl rfl)

theorem State.dropUmTag_keep {s0 s : State} (h : Keep s0 s) {v1} :
    Keep s0 (State.dropUmTag s v1) := by
  unfold State.dropUmTag
  repeat' (first
    | intro y
    | (extract_lets +onlyGivenNames x; first | (refine keep_suff (p := Keep s0 x) ?_ (fun hx => ?_); subst x; rotate_left; clear_value x) | subst x)
    | with_reducible assumption | split | refine keep_upd ?_ rfl rfl rfl rfl rfl rfl rfl rfl)

theorem State.issueLink_keep {s0 s : State} (h : Keep s0 s) {v1 v2} :
    Keep s0 (State.issueLink s v1 v2).2 := by
  unfold State.issueLink
  repeat' (first
    | intro y
    | (extract_lets +onlyGivenNames x; first | (refine keep_suff (p := Keep s0 x) ?_ (fun hx => ?_); subst x; rotate_left; clear_value x) | subst x)
    | with_reducible assumption | with_reducible apply State.setUmTag_keep | with_reducible apply keep_ite | split)

theorem State.loadForWeft_keep {s0 s : State} (h : Keep s0 s) {v1 v2 v3 v4} :
    Keep s0 (State.loadForWeft s v1 v2 v3 v4) := by
  unfold State.loadForWeft
  repeat' (first
    | intro y
    | (extract_lets +onlyGivenNames x; first | (refine keep_suff (p := Keep s0 x) ?_ (fun hx => ?_); subst x; rotate_left; clear_value x) | subst x)
    | with_reducible assumption | with_reducible apply State.setUmTag_keep | with_reducible apply State.cnt_keep
    | with_reducible apply keep_ite | split)

theorem State.assignWeft_keep {s0 s : State} (h : Keep s0 s) {v1 v2 v3 v4 v5} :
    Keep s0 (State.assignWeft s v1 v2 v3 v4 v5) := by
  unfold State.assignWeft
  repeat' (first
    | intro y
    | (extract_lets +onlyGivenNames x; first | (refine keep_suff (p := Keep s0 x) ?_ (fun hx => ?_); subst x; rotate_left; clear_value x) | subst x)
    | with_reducible assumption | with_reducible apply State.updSeen_keep | split)

theorem State.uassign_keep {s0 s : State} (h : Keep s0 s) {v1} :
    Keep s0 (State.uassign s v1).2 := by
  unfold State.uassign
  repeat' (first
    | intro y
    | (extract_lets +onlyGivenNames x; first | (refine keep_suff (p := Keep s0 x) ?_ (fun hx => ?_); subst x; rotate_left; clear_value x) | subst x)
    | with_reducible assumption | with_reducible apply State.issueLink_keep | with_reducible apply keep_ite
    | refine keep_pair ?_ (by with_reducible assumption) | split)

theorem State.moveTag_keep {s0 s : State} (h : Keep s0 s) {v1 v2} :
    Keep s0 (State.moveTag s v1 v2).2 := by
  unfold State.moveTag
  repeat' (first
    | intro y
    | (extract_lets +onlyGivenNames x; first | (refine keep_suff (p := Keep s0 x) ?_ (fun hx => ?_); subst x; rotate_left; clear_value x) | subst x)
    | with_reducible assumption | with_reducible apply State.uassign_keep | with_reducible apply State.loadForWeft_keep
    | with_reducible apply State.assignWeft_keep | with_reducible apply keep_ite | refine keep_pair ?_ (by with_reducible assumption)
    | split)

theorem State.releaseWeft_keep {s0 s : State} (h : Keep s0 s) {v1} :
    Keep s0 (State.releaseWeft s v1).2 := by
  unfold State.releaseWeft
  repeat' (first
    | intro y
    | (extract_lets +onlyGivenNames x; first | (refine keep_suff (p := Keep s0 x) ?_ (fun hx => ?_); subst x; rotate_left; clear_value x) | subst x)
    | with_reducible assumption | with_reducible apply State.updSeen_keep | with_reducible apply State.dropUmTag_keep | split
    | refine keep_upd ?_ rfl rfl rfl rfl rfl rfl rfl rfl)

theorem State.missTag_keep {s0 s : State} (h : Keep s0 s) {v1} :
    Keep s0 (State.missTag s v1).2 := by
  unfold State.missTag
  repeat' (first
    | intro y
    | (extract_lets +onlyGivenNames x; first | (refine keep_suff (p := Keep s0 x) ?_ (fun hx => ?_); subst x; rotate_left; clear_value x) | subst x)
    | with_reducible assumption | with_reducible apply State.updSeen_keep | with_reducible apply State.releaseWeft_keep
    | with_reducible apply State.setUmTag_keep | with_reducible apply keep_ite | refine keep_pair ?_ (by with_reducible assumption)
    | split)

theorem State.umaCount_keep {s0 s : State} (h : Keep s0 s) {v1 v2} :
    Keep s0 (State.umaCount s v1 v2) := by
  unfold State.umaCount
  repeat' (first
    | intro y
    | (extract_lets +onlyGivenNames x; first | (refine keep_suff (p := Keep s0 x) ?_ (fun hx => ?_); subst x; rotate_left; clear_value x) | subst x)
    | with_reducible assumption | with_reducible apply State.cnt_keep | split)

theorem State.nextLoading_keep {s0 s : State} (h : Keep s0 s) {v1 v2 v3 v4} :
    Keep s0 (State.nextLoading s v1 v2 v3 v4) := by
  unfold State.nextLoading
  repeat' (first
    | intro y
    | (extract_lets +onlyGivenNames x; first | (refine keep_suff (p := Keep s0 x) ?_ (fun hx => ?_); subst x; rotate_left; clear_value x) | subst x)
    | with_reducible assumption | with_reducible apply State.umaCount_keep | with_reducible apply State.setUmTag_keep
    | with_reducible apply keep_foldl | with_reducible apply keep_foldl1 | with_reducible apply keep_foldl2
    | with_reducible apply keep_ite | refine keep_pair ?_ (by with_reducible assumption)
    | refine keep_pair1 ?_ (by with_reducible assumption) | split)

theorem State.adaptWeights_keep {s0 s : State} (h : Keep s0 s) {v1 v2 v3} :
    Keep s0 (State.adaptWeights s v1 v2 v3) := by
  unfold State.adaptWeights
  repeat' (first
    | intro y
    | (extract_lets +onlyGivenNames x; first | (refine keep_suff (p := Keep s0 x) ?_ (fun hx => ?_); subst x; rotate_left; clear_value x) | subst x)
    | with_reducible assumption | with_reducible apply State.setReg_keep | with_reducible apply keep_foldl
    | with_reducible apply keep_foldl1 | with_reducible apply keep_foldl2 | refine keep_pair ?_ (by with_reducible assumption)
    | refine keep_pair1 ?_ (by with_reducible assumption) | split | refine keep_upd ?_ rfl rfl rfl rfl rfl rfl rfl rfl
    | refine keep_raw ?_ rfl (Nat.le_refl _) (fun i => ⟨i.regs, i.seen, i.pop, i.latches, i.staging, i.phi, i.refAt, swf_sput i.wts _ _, i.seedWt, i.dueAt, i.divAt, i.tagBytes, i.tagWear, i.pingPorts, i.pingFlash, i.phiFlash, i.txc, i.chains, i.beams, i.slots, i.log, i.shedLo, i.shedHi, i.tasks⟩))

theorem State.chainRx_keep {s0 s : State} (h : Keep s0 s) {v1 v2} :
    Keep s0 (State.chainRx s v1 v2) := by
  unfold State.chainRx
  repeat' (first
    | intro y
    | (extract_lets +onlyGivenNames x; first | (refine keep_suff (p := Keep s0 x) ?_ (fun hx => ?_); subst x; rotate_left; clear_value x) | subst x)
    | with_reducible assumption | with_reducible apply State.setReg_keep | with_reducible apply State.setBit_keep
    | with_reducible apply State.cnt_keep | with_reducible apply State.updChain_keep | with_reducible apply keep_ite | split)

theorem State.chainsRx_keep {s0 s : State} (h : Keep s0 s) {v1 v2} :
    Keep s0 (State.chainsRx s v1 v2) := by
  unfold State.chainsRx
  repeat' (first
    | intro y
    | (extract_lets +onlyGivenNames x; first | (refine keep_suff (p := Keep s0 x) ?_ (fun hx => ?_); subst x; rotate_left; clear_value x) | subst x)
    | with_reducible assumption | with_reducible apply State.chainRx_keep | with_reducible apply keep_foldl
    | with_reducible apply keep_foldl1 | with_reducible apply keep_foldl2 | with_reducible apply keep_ite
    | refine keep_pair ?_ (by with_reducible assumption) | refine keep_pair1 ?_ (by with_reducible assumption) | split)

theorem State.refUpdate_keep {s0 s : State} (h : Keep s0 s) {v1 v2 v3 v4} :
    Keep s0 (State.refUpdate s v1 v2 v3 v4) := by
  unfold State.refUpdate
  repeat' (first
    | intro y
    | (extract_lets +onlyGivenNames x; first | (refine keep_suff (p := Keep s0 x) ?_ (fun hx => ?_); subst x; rotate_left; clear_value x) | subst x)
    | with_reducible assumption | with_reducible apply State.cntSat_keep | with_reducible apply keep_foldl
    | with_reducible apply keep_foldl1 | with_reducible apply keep_foldl2 | refine keep_pair ?_ (by with_reducible assumption)
    | refine keep_pair1 ?_ (by with_reducible assumption) | split | refine keep_upd ?_ rfl rfl rfl rfl rfl rfl rfl rfl
    | refine keep_raw ?_ rfl (Nat.le_refl _) (fun i => ⟨i.regs, i.seen, i.pop, i.latches, i.staging, swf_sput i.phi _ _, swf_sput i.refAt _ _, i.wts, i.seedWt, i.dueAt, i.divAt, i.tagBytes, i.tagWear, i.pingPorts, i.pingFlash, i.phiFlash, i.txc, i.chains, i.beams, i.slots, i.log, i.shedLo, i.shedHi, i.tasks⟩))

theorem State.reportClass_keep {s0 s : State} (h : Keep s0 s) {v1 v2} :
    Keep s0 (State.reportClass s v1 v2) := by
  unfold State.reportClass
  repeat' (first
    | intro y
    | (extract_lets +onlyGivenNames x; first | (refine keep_suff (p := Keep s0 x) ?_ (fun hx => ?_); subst x; rotate_left; clear_value x) | subst x)
    | with_reducible assumption | with_reducible apply State.loseAnt_keep | with_reducible apply State.setPortClass_keep
    | with_reducible apply State.setReg_keep | with_reducible apply State.raise_keep | with_reducible apply State.cnt_keep
    | with_reducible apply State.faultEvent_keep | with_reducible apply keep_ite | split)

theorem State.portFaulted_keep {s0 s : State} (h : Keep s0 s) {v1 v2} :
    Keep s0 (State.portFaulted s v1 v2) := by
  unfold State.portFaulted
  repeat' (first
    | intro y
    | (extract_lets +onlyGivenNames x; first | (refine keep_suff (p := Keep s0 x) ?_ (fun hx => ?_); subst x; rotate_left; clear_value x) | subst x)
    | with_reducible assumption | with_reducible apply State.reportClass_keep | with_reducible apply State.setPortOos_keep
    | with_reducible apply State.completeAll_keep | with_reducible apply keep_ite | split)

theorem State.portOpens_keep {s0 s : State} (h : Keep s0 s) {v1} :
    Keep s0 (State.portOpens s v1) := by
  unfold State.portOpens
  repeat' (first
    | intro y
    | (extract_lets +onlyGivenNames x; first | (refine keep_suff (p := Keep s0 x) ?_ (fun hx => ?_); subst x; rotate_left; clear_value x) | subst x)
    | with_reducible assumption | with_reducible apply State.loseAnt_keep | with_reducible apply State.setPortOos_keep
    | with_reducible apply keep_ite | split)

theorem State.portRounds_keep {s0 s : State} (h : Keep s0 s) {v1} :
    Keep s0 (State.portRounds s v1) := by
  unfold State.portRounds
  repeat' (first
    | intro y
    | (extract_lets +onlyGivenNames x; first | (refine keep_suff (p := Keep s0 x) ?_ (fun hx => ?_); subst x; rotate_left; clear_value x) | subst x)
    | with_reducible assumption | with_reducible apply State.stopRound_keep | with_reducible apply State.updRound_keep
    | with_reducible apply State.dropPairs_keep | with_reducible apply State.deafPort_keep | with_reducible apply keep_foldl
    | with_reducible apply keep_foldl1 | with_reducible apply keep_foldl2 | with_reducible apply keep_ite
    | refine keep_pair ?_ (by with_reducible assumption) | refine keep_pair1 ?_ (by with_reducible assumption) | split)

theorem execHpReady_keep {s0 s : State} (h : Keep s0 s) :
    OKeep s0 (execHpReady s) := by
  unfold execHpReady
  repeat' (first
    | intro y
    | (extract_lets +onlyGivenNames x; first | (refine keep_suff (p := Keep s0 x) ?_ (fun hx => ?_); subst x; rotate_left; clear_value x) | subst x)
    | with_reducible assumption | with_reducible apply State.becomeReady_keep | with_reducible apply okeep_next
    | with_reducible apply keep_ite | split)

theorem execMempDiscovery_keep {s0 s : State} (h : Keep s0 s) :
    OKeep s0 (execMempDiscovery s) := by
  unfold execMempDiscovery
  repeat' (first
    | intro y
    | (extract_lets +onlyGivenNames x; first | (refine keep_suff (p := Keep s0 x) ?_ (fun hx => ?_); subst x; rotate_left; clear_value x) | subst x)
    | with_reducible assumption | with_reducible apply State.setBit_keep | with_reducible apply State.setReg_keep
    | with_reducible apply State.becomeReady_keep | with_reducible apply okeep_next | with_reducible apply keep_ite | split
    | refine keep_upd ?_ rfl rfl rfl rfl rfl rfl rfl rfl)

theorem execCrcEngineSelftest_keep {s0 s : State} (h : Keep s0 s) {v0} :
    OKeep s0 (execCrcEngineSelftest v0 s) := by
  unfold execCrcEngineSelftest
  repeat' (first
    | intro y
    | (extract_lets +onlyGivenNames x; first | (refine keep_suff (p := Keep s0 x) ?_ (fun hx => ?_); subst x; rotate_left; clear_value x) | subst x)
    | with_reducible assumption | with_reducible apply State.logEvent_keep | with_reducible apply State.raise_keep
    | with_reducible apply State.setBit_keep | with_reducible apply okeep_next | with_reducible apply keep_foldl
    | with_reducible apply keep_foldl1 | with_reducible apply keep_foldl2 | with_reducible apply keep_ite
    | refine keep_pair ?_ (by with_reducible assumption) | refine keep_pair1 ?_ (by with_reducible assumption) | split)

theorem execMgmtReady_keep {s0 s : State} (h : Keep s0 s) :
    OKeep s0 (execMgmtReady s) := by
  unfold execMgmtReady
  repeat' (first
    | intro y
    | (extract_lets +onlyGivenNames x; first | (refine keep_suff (p := Keep s0 x) ?_ (fun hx => ?_); subst x; rotate_left; clear_value x) | subst x)
    | with_reducible assumption | with_reducible apply State.bootUpdate_keep | with_reducible apply State.setBase_keep
    | with_reducible apply State.setBit_keep | with_reducible apply State.setHalf_keep | with_reducible apply State.loadHalf_keep
    | with_reducible apply State.logEvent_keep | with_reducible apply State.becomeReady_keep
    | with_reducible apply State.selectDraft_keep | with_reducible apply okeep_next | with_reducible apply keep_ite | split
    | refine keep_upd ?_ rfl rfl rfl rfl rfl rfl rfl rfl)

theorem execTagfReady_keep {s0 s : State} (h : Keep s0 s) :
    OKeep s0 (execTagfReady s) := by
  unfold execTagfReady
  repeat' (first
    | intro y
    | (extract_lets +onlyGivenNames x; first | (refine keep_suff (p := Keep s0 x) ?_ (fun hx => ?_); subst x; rotate_left; clear_value x) | subst x)
    | with_reducible assumption | with_reducible apply State.becomeReady_keep | with_reducible apply State.raise_keep
    | with_reducible apply okeep_next | with_reducible apply keep_ite | split | refine keep_upd ?_ rfl rfl rfl rfl rfl rfl rfl rfl)

theorem execPingReady_keep {s0 s : State} (h : Keep s0 s) :
    OKeep s0 (execPingReady s) := by
  unfold execPingReady
  repeat' (first
    | intro y
    | (extract_lets +onlyGivenNames x; first | (refine keep_suff (p := Keep s0 x) ?_ (fun hx => ?_); subst x; rotate_left; clear_value x) | subst x)
    | with_reducible assumption | with_reducible apply State.becomeReady_keep | with_reducible apply State.resumeFrame_keep
    | with_reducible apply State.writeWhole_keep | with_reducible apply okeep_next | with_reducible apply keep_ite | split
    | refine keep_upd ?_ rfl rfl rfl rfl rfl rfl rfl rfl
    | refine keep_raw ?_ rfl (Nat.le_refl _) (fun i => ⟨i.regs, i.seen, i.pop, i.latches, i.staging, i.phi, i.refAt, i.wts, i.seedWt, i.dueAt, i.divAt, i.tagBytes, i.tagWear, i.pingFlash _ (by assumption), i.pingFlash, i.phiFlash, i.txc, i.chains, i.beams, i.slots, i.log, i.shedLo, i.shedHi, i.tasks⟩))

theorem State.passProof_keep {s0 s : State} (h : Keep s0 s) {v1} :
    Keep s0 (State.passProof s v1) := by
  unfold State.passProof
  repeat' (first
    | intro y
    | (extract_lets +onlyGivenNames x; first | (refine keep_suff (p := Keep s0 x) ?_ (fun hx => ?_); subst x; rotate_left; clear_value x) | subst x)
    | with_reducible assumption | with_reducible apply State.setFld_keep | with_reducible apply State.goLive_keep
    | with_reducible apply State.becomeReady_keep | with_reducible apply State.logEvent_keep
    | with_reducible apply State.syncStandby_keep | with_reducible apply State.showCompat_keep | split
    | refine keep_upd ?_ rfl rfl rfl rfl rfl rfl rfl rfl)

theorem execProofPassed_keep {s0 s : State} (h : Keep s0 s) :
    OKeep s0 (execProofPassed s) := by
  unfold execProofPassed
  repeat' (first
    | intro y
    | (extract_lets +onlyGivenNames x; first | (refine keep_suff (p := Keep s0 x) ?_ (fun hx => ?_); subst x; rotate_left; clear_value x) | subst x)
    | with_reducible assumption | with_reducible apply State.passProof_keep | with_reducible apply okeep_next
    | with_reducible apply keep_ite | split)

theorem execProofFailed_keep {s0 s : State} (h : Keep s0 s) :
    OKeep s0 (execProofFailed s) := by
  unfold execProofFailed
  repeat' (first
    | intro y
    | (extract_lets +onlyGivenNames x; first | (refine keep_suff (p := Keep s0 x) ?_ (fun hx => ?_); subst x; rotate_left; clear_value x) | subst x)
    | with_reducible assumption | with_reducible apply State.setBase_keep | with_reducible apply State.startProof_keep
    | with_reducible apply State.reverted_keep | with_reducible apply State.setFld_keep | with_reducible apply State.logEvent_keep
    | with_reducible apply State.raise_keep | with_reducible apply okeep_next | with_reducible apply keep_ite | split
    | refine keep_upd ?_ rfl rfl rfl rfl rfl rfl rfl rfl)

theorem execPoolReady_keep {s0 s : State} (h : Keep s0 s) {v0} :
    OKeep s0 (execPoolReady v0 s) := by
  unfold execPoolReady
  repeat' (first
    | intro y
    | (extract_lets +onlyGivenNames x; first | (refine keep_suff (p := Keep s0 x) ?_ (fun hx => ?_); subst x; rotate_left; clear_value x) | subst x)
    | with_reducible assumption | with_reducible apply State.becomeReady_keep | with_reducible apply okeep_next
    | with_reducible apply keep_ite | split)

theorem execTxcCalEnd_keep {s0 s : State} (h : Keep s0 s) {v0 v1} :
    OKeep s0 (execTxcCalEnd v0 v1 s) := by
  unfold execTxcCalEnd
  repeat' (first
    | intro y
    | (extract_lets +onlyGivenNames x; first | (refine keep_suff (p := Keep s0 x) ?_ (fun hx => ?_); subst x; rotate_left; clear_value x) | subst x)
    | with_reducible assumption | with_reducible apply State.setRamp_keep | with_reducible apply State.updTx_keep
    | with_reducible apply State.txcFail_keep | with_reducible apply State.setFld_keep | with_reducible apply State.settleReturns_keep
    | with_reducible apply State.recalibrate_keep | with_reducible apply State.becomeReady_keep | with_reducible apply okeep_next
    | with_reducible apply keep_ite | split)

theorem execRxcReady_keep {s0 s : State} (h : Keep s0 s) {v0 v1} :
    OKeep s0 (execRxcReady v0 v1 s) := by
  unfold execRxcReady
  repeat' (first
    | intro y
    | (extract_lets +onlyGivenNames x; first | (refine keep_suff (p := Keep s0 x) ?_ (fun hx => ?_); subst x; rotate_left; clear_value x) | subst x)
    | with_reducible assumption | with_reducible apply State.setFld_keep | with_reducible apply State.chainFail_keep
    | with_reducible apply State.becomeReady_keep | with_reducible apply State.updChain_keep
    | with_reducible apply State.recalibrate_keep | with_reducible apply State.settleReturns_keep
    | with_reducible apply State.standIns_keep | with_reducible apply okeep_next | with_reducible apply keep_ite | split)

theorem execTalReady_keep {s0 s : State} (h : Keep s0 s) :
    OKeep s0 (execTalReady s) := by
  unfold execTalReady
  repeat' (first
    | intro y
    | (extract_lets +onlyGivenNames x; first | (refine keep_suff (p := Keep s0 x) ?_ (fun hx => ?_); subst x; rotate_left; clear_value x) | subst x)
    | with_reducible assumption | with_reducible apply State.becomeReady_keep | with_reducible apply okeep_next
    | with_reducible apply keep_ite | split)

theorem State.firstClassify_keep {s0 s : State} (h : Keep s0 s) {v1} :
    Keep s0 (State.firstClassify s v1) := by
  unfold State.firstClassify
  repeat' (first
    | intro y
    | (extract_lets +onlyGivenNames x; first | (refine keep_suff (p := Keep s0 x) ?_ (fun hx => ?_); subst x; rotate_left; clear_value x) | subst x)
    | with_reducible assumption | with_reducible apply State.setPortClass_keep | with_reducible apply State.portFaulted_keep
    | with_reducible apply keep_ite | split)

theorem execPortFirstClassification_keep {s0 s : State} (h : Keep s0 s) {v0} :
    OKeep s0 (execPortFirstClassification v0 s) := by
  unfold execPortFirstClassification
  repeat' (first
    | intro y
    | (extract_lets +onlyGivenNames x; first | (refine keep_suff (p := Keep s0 x) ?_ (fun hx => ?_); subst x; rotate_left; clear_value x) | subst x)
    | with_reducible assumption | with_reducible apply State.firstClassify_keep | with_reducible apply okeep_next
    | with_reducible apply keep_foldl | with_reducible apply keep_foldl1 | with_reducible apply keep_foldl2
    | with_reducible apply keep_ite | refine keep_pair ?_ (by with_reducible assumption)
    | refine keep_pair1 ?_ (by with_reducible assumption) | split)

theorem State.noteUp_keep {s0 s : State} (h : Keep s0 s) {v1} :
    Keep s0 (State.noteUp s v1) := by
  unfold State.noteUp
  repeat' (first
    | intro y
    | (extract_lets +onlyGivenNames x; first | (refine keep_suff (p := Keep s0 x) ?_ (fun hx => ?_); subst x; rotate_left; clear_value x) | subst x)
    | with_reducible assumption | with_reducible apply State.updRound_keep | with_reducible apply keep_ite | split)

theorem State.wakeWaiting_keep {s0 s : State} (h : Keep s0 s) :
    Keep s0 (State.wakeWaiting s) := by
  unfold State.wakeWaiting
  repeat' (first
    | intro y
    | (extract_lets +onlyGivenNames x; first | (refine keep_suff (p := Keep s0 x) ?_ (fun hx => ?_); subst x; rotate_left; clear_value x) | subst x)
    | with_reducible assumption | with_reducible apply State.noteUp_keep | with_reducible apply State.upOrWait_keep
    | with_reducible apply keep_foldl | with_reducible apply keep_foldl1 | with_reducible apply keep_foldl2
    | with_reducible apply keep_ite | refine keep_pair ?_ (by with_reducible assumption)
    | refine keep_pair1 ?_ (by with_reducible assumption) | split)

theorem State.recheckHops_keep {s0 s : State} (h : Keep s0 s) :
    Keep s0 (State.recheckHops s) := by
  unfold State.recheckHops
  repeat' (first
    | intro y
    | (extract_lets +onlyGivenNames x; first | (refine keep_suff (p := Keep s0 x) ?_ (fun hx => ?_); subst x; rotate_left; clear_value x) | subst x)
    | with_reducible assumption | with_reducible apply State.wakeWaiting_keep | with_reducible apply State.hopIfTogether_keep
    | with_reducible apply keep_foldl | with_reducible apply keep_foldl1 | with_reducible apply keep_foldl2
    | with_reducible apply keep_ite | refine keep_pair ?_ (by with_reducible assumption)
    | refine keep_pair1 ?_ (by with_reducible assumption) | split)

theorem State.pointFailed_keep {s0 s : State} (h : Keep s0 s) {v1} :
    Keep s0 (State.pointFailed s v1) := by
  unfold State.pointFailed
  repeat' (first
    | intro y
    | (extract_lets +onlyGivenNames x; first | (refine keep_suff (p := Keep s0 x) ?_ (fun hx => ?_); subst x; rotate_left; clear_value x) | subst x)
    | with_reducible assumption | with_reducible apply State.logEvent_keep | with_reducible apply State.updRound_keep
    | with_reducible apply keep_ite | split | refine keep_upd ?_ rfl rfl rfl rfl rfl rfl rfl rfl)

theorem State.cutPoint_keep {s0 s : State} (h : Keep s0 s) {v1} :
    Keep s0 (State.cutPoint s v1) := by
  unfold State.cutPoint
  repeat' (first
    | intro y
    | (extract_lets +onlyGivenNames x; first | (refine keep_suff (p := Keep s0 x) ?_ (fun hx => ?_); subst x; rotate_left; clear_value x) | subst x)
    | with_reducible assumption | with_reducible apply State.updRound_keep | split)

theorem State.pointOver_keep {s0 s : State} (h : Keep s0 s) {v1} :
    Keep s0 (State.pointOver s v1) := by
  unfold State.pointOver
  repeat' (first
    | intro y
    | (extract_lets +onlyGivenNames x; first | (refine keep_suff (p := Keep s0 x) ?_ (fun hx => ?_); subst x; rotate_left; clear_value x) | subst x)
    | with_reducible assumption | with_reducible apply State.updRound_keep | with_reducible apply State.closePoint_keep
    | with_reducible apply State.pointFailed_keep | with_reducible apply keep_ite | split
    | refine keep_upd ?_ rfl rfl rfl rfl rfl rfl rfl rfl)

theorem State.txnTimeout_keep {s0 s : State} (h : Keep s0 s) {v1} :
    Keep s0 (State.txnTimeout s v1) := by
  unfold State.txnTimeout
  repeat' (first
    | intro y
    | (extract_lets +onlyGivenNames x; first | (refine keep_suff (p := Keep s0 x) ?_ (fun hx => ?_); subst x; rotate_left; clear_value x) | subst x)
    | with_reducible assumption | with_reducible apply State.quietBeams_keep | with_reducible apply State.queueWarp_keep
    | with_reducible apply State.cnt_keep | with_reducible apply State.updRound_keep | with_reducible apply State.settleOuts_keep
    | with_reducible apply State.dropLeavers_keep | with_reducible apply keep_ite | split)

theorem State.pointNext_keep {s0 s : State} (h : Keep s0 s) {v1 v2 v3} :
    Keep s0 (State.pointNext s v1 v2 v3) := by
  unfold State.pointNext
  repeat' (first
    | intro y
    | (extract_lets +onlyGivenNames x; first | (refine keep_suff (p := Keep s0 x) ?_ (fun hx => ?_); subst x; rotate_left; clear_value x) | subst x)
    | with_reducible assumption | with_reducible apply State.pointOver_keep | with_reducible apply State.unlinkTx_keep
    | with_reducible apply State.setRamp_keep | with_reducible apply State.nextPoint_keep | split)

theorem State.linkRound_keep {s0 s : State} (h : Keep s0 s) {v1 v2} :
    Keep s0 (State.linkRound s v1 v2) := by
  unfold State.linkRound
  repeat' (first
    | intro y
    | (extract_lets +onlyGivenNames x; first | (refine keep_suff (p := Keep s0 x) ?_ (fun hx => ?_); subst x; rotate_left; clear_value x) | subst x)
    | with_reducible assumption | with_reducible apply State.linkTx_keep | with_reducible apply keep_ite | split)

theorem State.afterDown_keep {s0 s : State} (h : Keep s0 s) {v1} :
    Keep s0 (State.afterDown s v1) := by
  unfold State.afterDown
  repeat' (first
    | intro y
    | (extract_lets +onlyGivenNames x; first | (refine keep_suff (p := Keep s0 x) ?_ (fun hx => ?_); subst x; rotate_left; clear_value x) | subst x)
    | with_reducible assumption | with_reducible apply State.updTx_keep | with_reducible apply State.setMode_keep
    | with_reducible apply State.setRamp_keep | with_reducible apply State.setBit_keep | with_reducible apply State.cnt_keep
    | with_reducible apply State.leaveChan_keep | with_reducible apply State.pointNext_keep | with_reducible apply State.retune_keep
    | with_reducible apply State.linkRound_keep | with_reducible apply State.roundEnd_keep | with_reducible apply State.noteUp_keep
    | with_reducible apply State.upOrWait_keep | with_reducible apply keep_ite | split)

theorem State.thermEvent_keep {s0 s : State} (h : Keep s0 s) {v1 v2 v3} :
    Keep s0 (State.thermEvent s v1 v2 v3) := by
  unfold State.thermEvent
  repeat' (first
    | intro y
    | (extract_lets +onlyGivenNames x; first | (refine keep_suff (p := Keep s0 x) ?_ (fun hx => ?_); subst x; rotate_left; clear_value x) | subst x)
    | with_reducible assumption | with_reducible apply State.faultEvent_keep | with_reducible apply State.raise_keep | split)

theorem execThermalWarning_keep {s0 s : State} (h : Keep s0 s) {v0 v1} :
    OKeep s0 (execThermalWarning v0 v1 s) := by
  unfold execThermalWarning
  repeat' (first
    | intro y
    | (extract_lets +onlyGivenNames x; first | (refine keep_suff (p := Keep s0 x) ?_ (fun hx => ?_); subst x; rotate_left; clear_value x) | subst x)
    | with_reducible assumption | with_reducible apply State.thermEvent_keep | with_reducible apply okeep_next
    | with_reducible apply keep_ite | split | refine keep_upd ?_ rfl rfl rfl rfl rfl rfl rfl rfl)

theorem execPaOvertemp_keep {s0 s : State} (h : Keep s0 s) {v0 v1} :
    OKeep s0 (execPaOvertemp v0 v1 s) := by
  unfold execPaOvertemp
  repeat' (first
    | intro y
    | (extract_lets +onlyGivenNames x; first | (refine keep_suff (p := Keep s0 x) ?_ (fun hx => ?_); subst x; rotate_left; clear_value x) | subst x)
    | with_reducible assumption | with_reducible apply State.txcFail_keep | with_reducible apply State.thermEvent_keep
    | with_reducible apply okeep_next | with_reducible apply keep_ite | split | refine keep_upd ?_ rfl rfl rfl rfl rfl rfl rfl rfl)

theorem execDieOvertemp_keep {s0 s : State} (h : Keep s0 s) {v0 v1} :
    OKeep s0 (execDieOvertemp v0 v1 s) := by
  unfold execDieOvertemp
  repeat' (first
    | intro y
    | (extract_lets +onlyGivenNames x; first | (refine keep_suff (p := Keep s0 x) ?_ (fun hx => ?_); subst x; rotate_left; clear_value x) | subst x)
    | with_reducible assumption | with_reducible apply State.thermEvent_keep | with_reducible apply State.txcFail_keep
    | with_reducible apply okeep_next | with_reducible apply keep_foldl | with_reducible apply keep_foldl1
    | with_reducible apply keep_foldl2 | with_reducible apply keep_ite | refine keep_pair ?_ (by with_reducible assumption)
    | refine keep_pair1 ?_ (by with_reducible assumption) | split | refine keep_upd ?_ rfl rfl rfl rfl rfl rfl rfl rfl)

theorem execTherm_keep {s0 s : State} (h : Keep s0 s) {v0 v1} :
    OKeep s0 (execTherm v0 v1 s) := by
  unfold execTherm
  repeat' (first
    | intro y
    | (extract_lets +onlyGivenNames x; first | (refine keep_suff (p := Keep s0 x) ?_ (fun hx => ?_); subst x; rotate_left; clear_value x) | subst x)
    | with_reducible assumption | with_reducible apply State.triggerReset_keep | with_reducible apply State.raise_keep
    | with_reducible apply okeep_next | with_reducible apply keep_ite | split | refine keep_upd ?_ rfl rfl rfl rfl rfl rfl rfl rfl)

theorem execThermalFall_keep {s0 s : State} (h : Keep s0 s) {v0 v1} :
    OKeep s0 (execThermalFall v0 v1 s) := by
  unfold execThermalFall
  repeat' (first
    | intro y
    | (extract_lets +onlyGivenNames x; first | (refine keep_suff (p := Keep s0 x) ?_ (fun hx => ?_); subst x; rotate_left; clear_value x) | subst x)
    | with_reducible assumption | with_reducible apply State.thermEvent_keep | with_reducible apply okeep_next
    | with_reducible apply keep_ite | split | refine keep_upd ?_ rfl rfl rfl rfl rfl rfl rfl rfl)

theorem execPortFault_keep {s0 s : State} (h : Keep s0 s) {v0 v1} :
    OKeep s0 (execPortFault v0 v1 s) := by
  unfold execPortFault
  repeat' (first
    | intro y
    | (extract_lets +onlyGivenNames x; first | (refine keep_suff (p := Keep s0 x) ?_ (fun hx => ?_); subst x; rotate_left; clear_value x) | subst x)
    | with_reducible assumption | with_reducible apply State.portRounds_keep | with_reducible apply State.portFaulted_keep
    | with_reducible apply State.settleOuts_keep | with_reducible apply okeep_next | with_reducible apply keep_ite | split)

theorem execPortIntact_keep {s0 s : State} (h : Keep s0 s) {v0} :
    OKeep s0 (execPortIntact v0 s) := by
  unfold execPortIntact
  repeat' (first
    | intro y
    | (extract_lets +onlyGivenNames x; first | (refine keep_suff (p := Keep s0 x) ?_ (fun hx => ?_); subst x; rotate_left; clear_value x) | subst x)
    | with_reducible assumption | with_reducible apply State.reportClass_keep | with_reducible apply okeep_next
    | with_reducible apply keep_ite | split)

theorem execLossOfLock_keep {s0 s : State} (h : Keep s0 s) {v0} :
    OKeep s0 (execLossOfLock v0 s) := by
  unfold execLossOfLock
  repeat' (first
    | intro y
    | (extract_lets +onlyGivenNames x; first | (refine keep_suff (p := Keep s0 x) ?_ (fun hx => ?_); subst x; rotate_left; clear_value x) | subst x)
    | with_reducible assumption | with_reducible apply State.rampDown_keep | with_reducible apply State.cutPoint_keep
    | with_reducible apply okeep_next | with_reducible apply keep_ite | split)

theorem State.relocked_keep {s0 s : State} (h : Keep s0 s) {v1 v2} :
    Keep s0 (State.relocked s v1 v2) := by
  unfold State.relocked
  repeat' (first
    | intro y
    | (extract_lets +onlyGivenNames x; first | (refine keep_suff (p := Keep s0 x) ?_ (fun hx => ?_); subst x; rotate_left; clear_value x) | subst x)
    | with_reducible assumption | with_reducible apply State.updTx_keep | with_reducible apply State.afterDown_keep
    | with_reducible apply State.keepResult_keep | with_reducible apply State.txnTimeout_keep | with_reducible apply State.downRound_keep
    | with_reducible apply State.setRamp_keep | with_reducible apply State.noteUp_keep | with_reducible apply State.upOrWait_keep
    | with_reducible apply keep_ite | split)

theorem execRelockAttemptEnd_keep {s0 s : State} (h : Keep s0 s) {v0 v1} :
    OKeep s0 (execRelockAttemptEnd v0 v1 s) := by
  unfold execRelockAttemptEnd
  repeat' (first
    | intro y
    | (extract_lets +onlyGivenNames x; first | (refine keep_suff (p := Keep s0 x) ?_ (fun hx => ?_); subst x; rotate_left; clear_value x) | subst x)
    | with_reducible assumption | with_reducible apply State.recheckHops_keep | with_reducible apply State.relocked_keep
    | with_reducible apply State.txcFail_keep | with_reducible apply State.setRamp_keep | with_reducible apply State.updTx_keep
    | with_reducible apply okeep_next | with_reducible apply keep_ite | split)

theorem execPaFault_keep {s0 s : State} (h : Keep s0 s) {v0} :
    OKeep s0 (execPaFault v0 s) := by
  unfold execPaFault
  repeat' (first
    | intro y
    | (extract_lets +onlyGivenNames x; first | (refine keep_suff (p := Keep s0 x) ?_ (fun hx => ?_); subst x; rotate_left; clear_value x) | subst x)
    | with_reducible assumption | with_reducible apply State.txcFail_keep | with_reducible apply okeep_next
    | with_reducible apply keep_ite | split)

theorem execCancSat_keep {s0 s : State} (h : Keep s0 s) {v0} :
    OKeep s0 (execCancSat v0 s) := by
  unfold execCancSat
  repeat' (first
    | intro y
    | (extract_lets +onlyGivenNames x; first | (refine keep_suff (p := Keep s0 x) ?_ (fun hx => ?_); subst x; rotate_left; clear_value x) | subst x)
    | with_reducible assumption | with_reducible apply State.setBit_keep | with_reducible apply State.chainFail_keep
    | with_reducible apply okeep_next | with_reducible apply keep_ite | split)

theorem execAdcFail_keep {s0 s : State} (h : Keep s0 s) {v0} :
    OKeep s0 (execAdcFail v0 s) := by
  unfold execAdcFail
  repeat' (first
    | intro y
    | (extract_lets +onlyGivenNames x; first | (refine keep_suff (p := Keep s0 x) ?_ (fun hx => ?_); subst x; rotate_left; clear_value x) | subst x)
    | with_reducible assumption | with_reducible apply State.chainFail_keep | with_reducible apply okeep_next
    | with_reducible apply keep_ite | split)

theorem State.updUma_keep {s0 s : State} (h : Keep s0 s) {v1 v2} :
    Keep s0 (State.updUma s v1 v2) := by
  unfold State.updUma
  repeat' (first
    | intro y
    | (extract_lets +onlyGivenNames x; first | (refine keep_suff (p := Keep s0 x) ?_ (fun hx => ?_); subst x; rotate_left; clear_value x) | subst x)
    | with_reducible assumption | with_reducible apply State.updRound_keep | split)

theorem State.sendPoll_keep {s0 s : State} (h : Keep s0 s) {v1 v2 v3} :
    Keep s0 (State.sendPoll s v1 v2 v3) := by
  unfold State.sendPoll
  repeat' (first
    | intro y
    | (extract_lets +onlyGivenNames x; first | (refine keep_suff (p := Keep s0 x) ?_ (fun hx => ?_); subst x; rotate_left; clear_value x) | subst x)
    | with_reducible assumption | with_reducible apply State.updUma_keep | with_reducible apply State.sendAir_keep
    | with_reducible apply keep_ite | split | refine keep_upd ?_ rfl rfl rfl rfl rfl rfl rfl rfl)

theorem State.umaOp_keep {s0 s : State} (h : Keep s0 s) {v1 v2 v3 v4} :
    Keep s0 (State.umaOp s v1 v2 v3 v4) := by
  unfold State.umaOp
  repeat' (first
    | intro y
    | (extract_lets +onlyGivenNames x; first | (refine keep_suff (p := Keep s0 x) ?_ (fun hx => ?_); subst x; rotate_left; clear_value x) | subst x)
    | with_reducible assumption | with_reducible apply State.moveTag_keep | with_reducible apply State.issueLink_keep
    | with_reducible apply State.updUma_keep | with_reducible apply State.sendAir_keep | with_reducible apply keep_ite
    | refine keep_pair ?_ (by with_reducible assumption) | split)

theorem State.umaBegin_keep {s0 s : State} (h : Keep s0 s) {v1} :
    Keep s0 (State.umaBegin s v1) := by
  unfold State.umaBegin
  repeat' (first
    | intro y
    | (extract_lets +onlyGivenNames x; first | (refine keep_suff (p := Keep s0 x) ?_ (fun hx => ?_); subst x; rotate_left; clear_value x) | subst x)
    | with_reducible assumption | with_reducible apply State.updRound_keep | with_reducible apply State.sendPoll_keep
    | with_reducible apply State.umaOp_keep | with_reducible apply State.updUma_keep | with_reducible apply State.sendAir_keep
    | with_reducible apply keep_ite | split | refine keep_upd ?_ rfl rfl rfl rfl rfl rfl rfl rfl)

theorem State.weftResult_keep {s0 s : State} (h : Keep s0 s) {v1 v2 v3 v4} :
    Keep s0 (State.weftResult s v1 v2 v3 v4).2 := by
  unfold State.weftResult
  repeat' (first
    | intro y
    | (extract_lets +onlyGivenNames x; first | (refine keep_suff (p := Keep s0 x) ?_ (fun hx => ?_); subst x; rotate_left; clear_value x) | subst x)
    | with_reducible assumption | with_reducible apply State.umaCount_keep | with_reducible apply keep_ite | split)

theorem State.slotResults_keep {s0 s : State} (h : Keep s0 s) {v1 v2} :
    Keep s0 (State.slotResults s v1 v2).2 := by
  unfold State.slotResults
  repeat' (first
    | intro y
    | (extract_lets +onlyGivenNames x; first | (refine keep_suff (p := Keep s0 x) ?_ (fun hx => ?_); subst x; rotate_left; clear_value x) | subst x)
    | with_reducible assumption | with_reducible apply State.cnt_keep | with_reducible apply State.weftResult_keep
    | with_reducible apply keep_foldl | with_reducible apply keep_foldl1 | with_reducible apply keep_foldl2
    | refine keep_pair ?_ (by with_reducible assumption) | refine keep_pair1 ?_ (by with_reducible assumption) | split)

theorem State.uassigns_keep {s0 s : State} (h : Keep s0 s) {v1 v2} :
    Keep s0 (State.uassigns s v1 v2).2 := by
  unfold State.uassigns
  repeat' (first
    | intro y
    | (extract_lets +onlyGivenNames x; first | (refine keep_suff (p := Keep s0 x) ?_ (fun hx => ?_); subst x; rotate_left; clear_value x) | subst x)
    | with_reducible assumption | with_reducible apply State.moveTag_keep | with_reducible apply State.uassign_keep
    | with_reducible apply keep_foldl | with_reducible apply keep_foldl1 | with_reducible apply keep_foldl2
    | with_reducible apply keep_ite | refine keep_pair ?_ (by with_reducible assumption)
    | refine keep_pair1 ?_ (by with_reducible assumption) | split)

theorem State.invOver_keep {s0 s : State} (h : Keep s0 s) {v1 v2 v3} :
    Keep s0 (State.invOver s v1 v2 v3) := by
  unfold State.invOver
  repeat' (first
    | intro y
    | (extract_lets +onlyGivenNames x; first | (refine keep_suff (p := Keep s0 x) ?_ (fun hx => ?_); subst x; rotate_left; clear_value x) | subst x)
    | with_reducible assumption | with_reducible apply State.slotResults_keep | with_reducible apply State.uassigns_keep
    | with_reducible apply State.updUma_keep | with_reducible apply State.endByRule_keep | with_reducible apply State.sendAir_keep
    | with_reducible apply State.boundary_keep | with_reducible apply keep_ite | refine keep_pair ?_ (by with_reducible assumption)
    | split)

theorem State.pollWeft_keep {s0 : State} {s} (h : Keep s0 s.2) {v1 v2} :
    Keep s0 (State.pollWeft s v1 v2).2 := by
  unfold State.pollWeft
  repeat' (first
    | intro y
    | (extract_lets +onlyGivenNames x; first | (refine keep_suff (p := Keep s0 x) ?_ (fun hx => ?_); subst x; rotate_left; clear_value x) | subst x)
    | with_reducible assumption | with_reducible apply State.missTag_keep | with_reducible apply keep_ite
    | refine keep_pair ?_ (by with_reducible assumption) | split | refine keep_upd ?_ rfl rfl rfl rfl rfl rfl rfl rfl)

theorem State.pollQuar_keep {s0 s : State} (h : Keep s0 s) {v1} :
    Keep s0 (State.pollQuar s v1) := by
  unfold State.pollQuar
  repeat' (first
    | intro y
    | (extract_lets +onlyGivenNames x; first | (refine keep_suff (p := Keep s0 x) ?_ (fun hx => ?_); subst x; rotate_left; clear_value x) | subst x)
    | with_reducible assumption | with_reducible apply keep_ite | split | refine keep_upd ?_ rfl rfl rfl rfl rfl rfl rfl rfl)

theorem State.ulinks_keep {s0 s : State} (h : Keep s0 s) {v1 v2} :
    Keep s0 (State.ulinks s v1 v2).2 := by
  induction v2 generalizing s v1 with
  | zero =>
    unfold State.ulinks
    repeat' (first
      | intro y
      | (extract_lets +onlyGivenNames x; first | (refine keep_suff (p := Keep s0 x) ?_ (fun hx => ?_); subst x; rotate_left; clear_value x) | subst x)
      | with_reducible assumption | with_reducible apply State.issueLink_keep | refine keep_pair ?_ (by with_reducible assumption)
      | split)
  | succ n ih =>
    unfold State.ulinks
    repeat' (first
      | intro y
      | (extract_lets +onlyGivenNames x; first | (refine keep_suff (p := Keep s0 x) ?_ (fun hx => ?_); subst x; rotate_left; clear_value x) | subst x)
      | with_reducible assumption | with_reducible apply ih | with_reducible apply State.issueLink_keep
      | refine keep_pair ?_ (by with_reducible assumption) | split)

theorem State.pollOver_keep {s0 s : State} (h : Keep s0 s) {v1 v2 v3} :
    Keep s0 (State.pollOver s v1 v2 v3) := by
  unfold State.pollOver
  repeat' (first
    | intro y
    | (extract_lets +onlyGivenNames x; first | (refine keep_suff (p := Keep s0 x) ?_ (fun hx => ?_); subst x; rotate_left; clear_value x) | subst x)
    | with_reducible assumption | with_reducible apply State.slotResults_keep | with_reducible apply State.pollWeft_keep
    | with_reducible apply State.updUma_keep | with_reducible apply State.updRound_keep | with_reducible apply State.updBeam_keep
    | with_reducible apply State.pollQuar_keep | with_reducible apply State.moveTag_keep | with_reducible apply State.ulinks_keep
    | with_reducible apply State.sendAir_keep | with_reducible apply State.boundary_keep | with_reducible apply State.sendPoll_keep
    | with_reducible apply keep_foldl | with_reducible apply keep_foldl1 | with_reducible apply keep_foldl2
    | with_reducible apply keep_ite | refine keep_pair ?_ (by with_reducible assumption)
    | refine keep_pair1 ?_ (by with_reducible assumption) | split)

theorem State.umaFinish_keep {s0 s : State} (h : Keep s0 s) {v1 v2 v3 v4} :
    Keep s0 (State.umaFinish s v1 v2 v3 v4) := by
  unfold State.umaFinish
  repeat' (first
    | intro y
    | (extract_lets +onlyGivenNames x; first | (refine keep_suff (p := Keep s0 x) ?_ (fun hx => ?_); subst x; rotate_left; clear_value x) | subst x)
    | with_reducible assumption | with_reducible apply State.queueWarp_keep | with_reducible apply State.sendAir_keep
    | with_reducible apply State.endByRule_keep | with_reducible apply State.updUma_keep | with_reducible apply keep_ite | split)

theorem State.umaStep_keep {s0 s : State} (h : Keep s0 s) {v1 v2} (hv2 : ∀ s, Keep s0 s → Keep s0 (v2 s)) :
    Keep s0 (State.umaStep s v1 v2) := by
  unfold State.umaStep
  repeat' (first
    | intro y
    | (extract_lets +onlyGivenNames x; first | (refine keep_suff (p := Keep s0 x) ?_ (fun hx => ?_); subst x; rotate_left; clear_value x) | subst x)
    | with_reducible assumption | with_reducible apply hv2 | with_reducible apply State.downRound_keep | with_reducible apply keep_ite
    | split)

theorem State.locateOver_keep {s0 s : State} (h : Keep s0 s) {v1 v2 v3} :
    Keep s0 (State.locateOver s v1 v2 v3) := by
  unfold State.locateOver
  repeat' (first
    | intro y
    | (extract_lets +onlyGivenNames x; first | (refine keep_suff (p := Keep s0 x) ?_ (fun hx => ?_); subst x; rotate_left; clear_value x) | subst x)
    | with_reducible assumption | with_reducible apply State.slotResults_keep | with_reducible apply State.uassigns_keep
    | with_reducible apply State.updUma_keep | with_reducible apply State.umaStep_keep | with_reducible apply State.umaOp_keep
    | with_reducible apply State.umaFinish_keep | with_reducible apply State.sendAir_keep | with_reducible apply keep_ite
    | refine keep_pair ?_ (by with_reducible assumption) | split)

theorem State.readOver_keep {s0 s : State} (h : Keep s0 s) {v1 v2 v3} :
    Keep s0 (State.readOver s v1 v2 v3) := by
  unfold State.readOver
  repeat' (first
    | intro y
    | (extract_lets +onlyGivenNames x; first | (refine keep_suff (p := Keep s0 x) ?_ (fun hx => ?_); subst x; rotate_left; clear_value x) | subst x)
    | with_reducible assumption | with_reducible apply State.slotResults_keep | with_reducible apply State.umaFinish_keep
    | with_reducible apply State.updUma_keep | with_reducible apply State.missTag_keep | with_reducible apply State.umaStep_keep
    | with_reducible apply State.umaOp_keep | with_reducible apply keep_ite | refine keep_pair ?_ (by with_reducible assumption) | split)

theorem State.umaOver_keep {s0 s : State} (h : Keep s0 s) {v1} :
    Keep s0 (State.umaOver s v1) := by
  unfold State.umaOver
  repeat' (first
    | intro y
    | (extract_lets +onlyGivenNames x; first | (refine keep_suff (p := Keep s0 x) ?_ (fun hx => ?_); subst x; rotate_left; clear_value x) | subst x)
    | with_reducible assumption | with_reducible apply State.invOver_keep | with_reducible apply State.pollOver_keep
    | with_reducible apply State.locateOver_keep | with_reducible apply State.readOver_keep | split)

theorem State.emptyTrain_keep {s0 s : State} (h : Keep s0 s) {v1 v2} :
    Keep s0 (State.emptyTrain s v1 v2) := by
  induction v2 generalizing s  with
  | zero =>
    unfold State.emptyTrain
    repeat' (first
      | intro y
      | (extract_lets +onlyGivenNames x; first | (refine keep_suff (p := Keep s0 x) ?_ (fun hx => ?_); subst x; rotate_left; clear_value x) | subst x)
      | with_reducible assumption | with_reducible apply State.umaOver_keep | split)
  | succ n ih =>
    unfold State.emptyTrain
    repeat' (first
      | intro y
      | (extract_lets +onlyGivenNames x; first | (refine keep_suff (p := Keep s0 x) ?_ (fun hx => ?_); subst x; rotate_left; clear_value x) | subst x)
      | with_reducible assumption | with_reducible apply ih | with_reducible apply State.umaOver_keep | split)

theorem State.umaEmpty_keep {s0 s : State} (h : Keep s0 s) {v1} :
    Keep s0 (State.umaEmpty s v1) := by
  unfold State.umaEmpty
  repeat' (first
    | intro y
    | (extract_lets +onlyGivenNames x; first | (refine keep_suff (p := Keep s0 x) ?_ (fun hx => ?_); subst x; rotate_left; clear_value x) | subst x)
    | with_reducible assumption | with_reducible apply State.emptyTrain_keep | with_reducible apply State.umaOver_keep
    | with_reducible apply keep_ite | split)

theorem State.guardPeer_keep {s0 s : State} (h : Keep s0 s) {v1} :
    Keep s0 (State.guardPeer s v1) := by
  unfold State.guardPeer
  repeat' (first
    | intro y
    | (extract_lets +onlyGivenNames x; first | (refine keep_suff (p := Keep s0 x) ?_ (fun hx => ?_); subst x; rotate_left; clear_value x) | subst x)
    | with_reducible assumption | with_reducible apply keep_ite | split | refine keep_upd ?_ rfl rfl rfl rfl rfl rfl rfl rfl)

theorem State.guardOn_keep {s0 s : State} (h : Keep s0 s) {v1 v2} :
    Keep s0 (State.guardOn s v1 v2) := by
  unfold State.guardOn
  repeat' (first
    | intro y
    | (extract_lets +onlyGivenNames x; first | (refine keep_suff (p := Keep s0 x) ?_ (fun hx => ?_); subst x; rotate_left; clear_value x) | subst x)
    | with_reducible assumption | with_reducible apply State.cnt_keep | with_reducible apply State.rampDown_keep
    | with_reducible apply State.downRound_keep | with_reducible apply State.keepResult_keep | with_reducible apply State.cutPoint_keep
    | with_reducible apply State.updLeg_keep | with_reducible apply State.legCount_keep | with_reducible apply State.txnTimeout_keep
    | with_reducible apply State.guardPeer_keep | with_reducible apply State.updRound_keep | with_reducible apply keep_ite | split)

theorem State.guardOne_keep {s0 s : State} (h : Keep s0 s) {v1 v2} :
    Keep s0 (State.guardOne s v1 v2) := by
  unfold State.guardOne
  repeat' (first
    | intro y
    | (extract_lets +onlyGivenNames x; first | (refine keep_suff (p := Keep s0 x) ?_ (fun hx => ?_); subst x; rotate_left; clear_value x) | subst x)
    | with_reducible assumption | with_reducible apply State.guardOn_keep | with_reducible apply State.rampDown_keep
    | with_reducible apply State.retune_keep | with_reducible apply keep_ite | split)

theorem execGuardHop_keep {s0 s : State} (h : Keep s0 s) {v0} :
    OKeep s0 (execGuardHop v0 s) := by
  unfold execGuardHop
  repeat' (first
    | intro y
    | (extract_lets +onlyGivenNames x; first | (refine keep_suff (p := Keep s0 x) ?_ (fun hx => ?_); subst x; rotate_left; clear_value x) | subst x)
    | with_reducible assumption | with_reducible apply State.pickChan_keep | with_reducible apply State.recheckHops_keep
    | with_reducible apply State.guardOne_keep | with_reducible apply okeep_next | with_reducible apply keep_foldl
    | with_reducible apply keep_foldl1 | with_reducible apply keep_foldl2 | with_reducible apply keep_ite
    | refine keep_pair ?_ (by with_reducible assumption) | refine keep_pair1 ?_ (by with_reducible assumption) | split)

theorem execOffTimeExpiry_keep {s0 s : State} (h : Keep s0 s) {v0} :
    OKeep s0 (execOffTimeExpiry v0 s) := by
  unfold execOffTimeExpiry
  repeat' (first
    | intro y
    | (extract_lets +onlyGivenNames x; first | (refine keep_suff (p := Keep s0 x) ?_ (fun hx => ?_); subst x; rotate_left; clear_value x) | subst x)
    | with_reducible assumption | with_reducible apply State.wakeWaiting_keep | with_reducible apply okeep_next | split
    | refine keep_upd ?_ rfl rfl rfl rfl rfl rfl rfl rfl)

theorem execHopEpoch_keep {s0 s : State} (h : Keep s0 s) :
    OKeep s0 (execHopEpoch s) := by
  unfold execHopEpoch
  repeat' (first
    | intro y
    | (extract_lets +onlyGivenNames x; first | (refine keep_suff (p := Keep s0 x) ?_ (fun hx => ?_); subst x; rotate_left; clear_value x) | subst x)
    | with_reducible assumption | with_reducible apply State.recheckHops_keep | with_reducible apply okeep_next
    | with_reducible apply keep_ite | split | refine keep_upd ?_ rfl rfl rfl rfl rfl rfl rfl rfl
    | refine keep_raw ?_ rfl (Nat.le_refl _) (fun i => ⟨i.regs, i.seen, i.pop, i.latches, i.staging, i.phi, i.refAt, i.wts, i.seedWt, i.dueAt, i.divAt, i.tagBytes, i.tagWear, i.pingPorts, i.pingFlash, i.phiFlash, (List.length_map _).trans i.txc, i.chains, i.beams, i.slots, i.log, i.shedLo, i.shedHi, i.tasks⟩))

theorem execRampDownEnd_keep {s0 s : State} (h : Keep s0 s) {v0} :
    OKeep s0 (execRampDownEnd v0 s) := by
  unfold execRampDownEnd
  repeat' (first
    | intro y
    | (extract_lets +onlyGivenNames x; first | (refine keep_suff (p := Keep s0 x) ?_ (fun hx => ?_); subst x; rotate_left; clear_value x) | subst x)
    | with_reducible assumption | with_reducible apply State.recheckHops_keep | with_reducible apply State.afterDown_keep
    | with_reducible apply State.airEnds_keep | with_reducible apply State.portOpens_keep | with_reducible apply State.holdTaps_keep
    | with_reducible apply okeep_next | with_reducible apply keep_ite | split)

theorem execSynthSettled_keep {s0 s : State} (h : Keep s0 s) {v0} :
    OKeep s0 (execSynthSettled v0 s) := by
  unfold execSynthSettled
  repeat' (first
    | intro y
    | (extract_lets +onlyGivenNames x; first | (refine keep_suff (p := Keep s0 x) ?_ (fun hx => ?_); subst x; rotate_left; clear_value x) | subst x)
    | with_reducible assumption | with_reducible apply State.recheckHops_keep | with_reducible apply State.afterDown_keep
    | with_reducible apply State.updTx_keep | with_reducible apply State.setRamp_keep | with_reducible apply State.noteUp_keep
    | with_reducible apply State.upOrWait_keep | with_reducible apply okeep_next | with_reducible apply keep_ite | split)

theorem execRampUpEnd_keep {s0 s : State} (h : Keep s0 s) {v0} :
    OKeep s0 (execRampUpEnd v0 s) := by
  unfold execRampUpEnd
  repeat' (first
    | intro y
    | (extract_lets +onlyGivenNames x; first | (refine keep_suff (p := Keep s0 x) ?_ (fun hx => ?_); subst x; rotate_left; clear_value x) | subst x)
    | with_reducible assumption | with_reducible apply State.setMode_keep | with_reducible apply State.setRamp_keep
    | with_reducible apply State.recheckHops_keep | with_reducible apply State.updRound_keep | with_reducible apply okeep_next
    | with_reducible apply keep_ite | split)

theorem State.calTaps_keep {s0 s : State} (h : Keep s0 s) {v1 v2 v3} :
    Keep s0 (State.calTaps s v1 v2 v3) := by
  unfold State.calTaps
  repeat' (first
    | intro y
    | (extract_lets +onlyGivenNames x; first | (refine keep_suff (p := Keep s0 x) ?_ (fun hx => ?_); subst x; rotate_left; clear_value x) | subst x)
    | with_reducible assumption | with_reducible apply State.adaptTaps_keep | with_reducible apply State.setReg_keep
    | with_reducible apply keep_foldl | with_reducible apply keep_foldl1 | with_reducible apply keep_foldl2
    | with_reducible apply keep_ite | refine keep_pair ?_ (by with_reducible assumption)
    | refine keep_pair1 ?_ (by with_reducible assumption) | split)

theorem State.pointEnd_keep {s0 s : State} (h : Keep s0 s) {v1 v2 v3 v4 v5} :
    Keep s0 (State.pointEnd s v1 v2 v3 v4 v5) := by
  unfold State.pointEnd
  repeat' (first
    | intro y
    | (extract_lets +onlyGivenNames x; first | (refine keep_suff (p := Keep s0 x) ?_ (fun hx => ?_); subst x; rotate_left; clear_value x) | subst x)
    | with_reducible assumption | with_reducible apply State.calTaps_keep | with_reducible apply State.cntSat_keep
    | with_reducible apply State.updRound_keep | with_reducible apply keep_foldl | with_reducible apply keep_foldl1
    | with_reducible apply keep_foldl2 | with_reducible apply keep_ite | refine keep_pair ?_ (by with_reducible assumption)
    | refine keep_pair1 ?_ (by with_reducible assumption) | split | refine keep_upd ?_ rfl rfl rfl rfl rfl rfl rfl rfl
    | refine keep_raw ?_ rfl (Nat.le_refl _) (fun i => ⟨i.regs, i.seen, i.pop, i.latches, i.staging, i.phi, i.refAt, i.wts, swf_foldl _ (fun _ _ hm => swf_sput hm _ _) _ i.seedWt, i.dueAt, i.divAt, i.tagBytes, i.tagWear, i.pingPorts, i.pingFlash, i.phiFlash, i.txc, i.chains, i.beams, i.slots, i.log, i.shedLo, i.shedHi, i.tasks⟩))

theorem execCalPointEnd_keep {s0 s : State} (h : Keep s0 s) {v0 v1} :
    OKeep s0 (execCalPointEnd v0 v1 s) := by
  unfold execCalPointEnd
  repeat' (first
    | intro y
    | (extract_lets +onlyGivenNames x; first | (refine keep_suff (p := Keep s0 x) ?_ (fun hx => ?_); subst x; rotate_left; clear_value x) | subst x)
    | with_reducible assumption | with_reducible apply State.rampDown_keep | with_reducible apply State.pointEnd_keep
    | with_reducible apply okeep_next | with_reducible apply keep_ite | split)

theorem execCalPeriod_keep {s0 s : State} (h : Keep s0 s) :
    OKeep s0 (execCalPeriod s) := by
  unfold execCalPeriod
  repeat' (first
    | intro y
    | (extract_lets +onlyGivenNames x; first | (refine keep_suff (p := Keep s0 x) ?_ (fun hx => ?_); subst x; rotate_left; clear_value x) | subst x)
    | with_reducible assumption | with_reducible apply State.askCal_keep | with_reducible apply okeep_next
    | with_reducible apply keep_foldl | with_reducible apply keep_foldl1 | with_reducible apply keep_foldl2
    | with_reducible apply keep_ite | refine keep_pair ?_ (by with_reducible assumption)
    | refine keep_pair1 ?_ (by with_reducible assumption) | split | refine keep_upd ?_ rfl rfl rfl rfl rfl rfl rfl rfl)

theorem execDiverge_keep {s0 s : State} (h : Keep s0 s) {v0} :
    OKeep s0 (execDiverge v0 s) := by
  unfold execDiverge
  repeat' (first
    | intro y
    | (extract_lets +onlyGivenNames x; first | (refine keep_suff (p := Keep s0 x) ?_ (fun hx => ?_); subst x; rotate_left; clear_value x) | subst x)
    | with_reducible assumption | with_reducible apply State.askCal_keep | with_reducible apply State.cntSat_keep
    | with_reducible apply okeep_next | with_reducible apply keep_ite | split | refine keep_upd ?_ rfl rfl rfl rfl rfl rfl rfl rfl
    | refine keep_raw ?_ rfl (Nat.le_refl _) (fun i => ⟨i.regs, i.seen, i.pop, i.latches, i.staging, i.phi, i.refAt, i.wts, i.seedWt, i.dueAt, swf_sput i.divAt _ _, i.tagBytes, i.tagWear, i.pingPorts, i.pingFlash, i.phiFlash, i.txc, i.chains, i.beams, i.slots, i.log, i.shedLo, i.shedHi, i.tasks⟩))

theorem State.fixGain_keep {s0 s : State} (h : Keep s0 s) {v1 v2} :
    Keep s0 (State.fixGain s v1 v2) := by
  unfold State.fixGain
  repeat' (first
    | intro y
    | (extract_lets +onlyGivenNames x; first | (refine keep_suff (p := Keep s0 x) ?_ (fun hx => ?_); subst x; rotate_left; clear_value x) | subst x)
    | with_reducible assumption | with_reducible apply State.setGain_keep | with_reducible apply keep_ite | split)

theorem execCwIntervalEnd_keep {s0 s : State} (h : Keep s0 s) {v0 v1} :
    OKeep s0 (execCwIntervalEnd v0 v1 s) := by
  unfold execCwIntervalEnd
  repeat' (first
    | intro y
    | (extract_lets +onlyGivenNames x; first | (refine keep_suff (p := Keep s0 x) ?_ (fun hx => ?_); subst x; rotate_left; clear_value x) | subst x)
    | with_reducible assumption | with_reducible apply State.sendOp_keep | with_reducible apply State.fixGain_keep
    | with_reducible apply State.downRound_keep | with_reducible apply State.hopIfTogether_keep
    | with_reducible apply State.umaBegin_keep | with_reducible apply State.legBegin_keep | with_reducible apply okeep_next
    | with_reducible apply keep_foldl | with_reducible apply keep_foldl1 | with_reducible apply keep_foldl2
    | with_reducible apply keep_ite | refine keep_pair ?_ (by with_reducible assumption)
    | refine keep_pair1 ?_ (by with_reducible assumption) | split)

theorem State.tickAo_keep {s0 s : State} (h : Keep s0 s) :
    Keep s0 (State.tickAo s) := by
  unfold State.tickAo
  repeat' (first
    | intro y
    | (extract_lets +onlyGivenNames x; first | (refine keep_suff (p := Keep s0 x) ?_ (fun hx => ?_); subst x; rotate_left; clear_value x) | subst x)
    | with_reducible assumption | with_reducible apply State.cnt_keep | with_reducible apply keep_ite | split
    | refine keep_upd ?_ rfl rfl rfl rfl rfl rfl rfl rfl)

theorem State.tickOn_keep {s0 s : State} (h : Keep s0 s) {v1} :
    Keep s0 (State.tickOn s v1) := by
  unfold State.tickOn
  repeat' (first
    | intro y
    | (extract_lets +onlyGivenNames x; first | (refine keep_suff (p := Keep s0 x) ?_ (fun hx => ?_); subst x; rotate_left; clear_value x) | subst x)
    | with_reducible assumption | with_reducible apply State.cnt_keep | with_reducible apply State.updTx_keep
    | with_reducible apply keep_ite | split)

theorem State.tickLockout_keep {s0 s : State} (h : Keep s0 s) :
    Keep s0 (State.tickLockout s) := by
  unfold State.tickLockout
  repeat' (first
    | intro y
    | (extract_lets +onlyGivenNames x; first | (refine keep_suff (p := Keep s0 x) ?_ (fun hx => ?_); subst x; rotate_left; clear_value x) | subst x)
    | with_reducible assumption | with_reducible apply keep_ite | split | refine keep_upd ?_ rfl rfl rfl rfl rfl rfl rfl rfl)

theorem State.tickSlew_keep {s0 s : State} (h : Keep s0 s) :
    Keep s0 (State.tickSlew s) := by
  unfold State.tickSlew
  repeat' (first
    | intro y
    | (extract_lets +onlyGivenNames x; first | (refine keep_suff (p := Keep s0 x) ?_ (fun hx => ?_); subst x; rotate_left; clear_value x) | subst x)
    | with_reducible assumption | with_reducible apply keep_ite | split | refine keep_upd ?_ rfl rfl rfl rfl rfl rfl rfl rfl)

theorem State.tickWake_keep {s0 s : State} (h : Keep s0 s) :
    Keep s0 (State.tickWake s) := by
  unfold State.tickWake
  repeat' (first
    | intro y
    | (extract_lets +onlyGivenNames x; first | (refine keep_suff (p := Keep s0 x) ?_ (fun hx => ?_); subst x; rotate_left; clear_value x) | subst x)
    | with_reducible assumption | with_reducible apply State.wake_keep | with_reducible apply keep_ite | split
    | refine keep_upd ?_ rfl rfl rfl rfl rfl rfl rfl rfl)

theorem State.tickProof_keep {s0 s : State} (h : Keep s0 s) :
    Keep s0 (State.tickProof s) := by
  unfold State.tickProof
  repeat' (first
    | intro y
    | (extract_lets +onlyGivenNames x; first | (refine keep_suff (p := Keep s0 x) ?_ (fun hx => ?_); subst x; rotate_left; clear_value x) | subst x)
    | with_reducible assumption | with_reducible apply State.drawBool_keep | with_reducible apply State.setFld_keep
    | with_reducible apply keep_ite | refine keep_pair ?_ (by with_reducible assumption) | split)

theorem State.tick_keep {s0 s : State} (h : Keep s0 s) :
    Keep s0 (State.tick s) := by
  unfold State.tick
  repeat' (first
    | intro y
    | (extract_lets +onlyGivenNames x; first | (refine keep_suff (p := Keep s0 x) ?_ (fun hx => ?_); subst x; rotate_left; clear_value x) | subst x)
    | with_reducible assumption | with_reducible apply State.tickWake_keep | with_reducible apply State.tickLockout_keep
    | with_reducible apply State.tickAo_keep | with_reducible apply State.tickProof_keep | with_reducible apply State.tickOn_keep
    | with_reducible apply State.tickSlew_keep | with_reducible apply keep_foldl | with_reducible apply keep_foldl1
    | with_reducible apply keep_foldl2 | with_reducible apply keep_ite | refine keep_pair ?_ (by with_reducible assumption)
    | refine keep_pair1 ?_ (by with_reducible assumption) | split | refine keep_upd ?_ rfl rfl rfl rfl rfl rfl rfl rfl)

end Sys2Proof.Machine
end

