-- ==== Sys2Proof/Laws/KeepUnits.lean ====
section
/-! SUPPORT. What updates, the peer engine, pings and the tally die keep (`Keep` of Laws/Keep.lean), one lemma for each. -/
namespace Sys2Proof.Machine

set_option Elab.async false

theorem State.loadBlock_keep {s0 s : State} (h : Keep s0 s) {v1 v2 v3} :
    Keep s0 (State.loadBlock s v1 v2 v3) := by
  unfold State.loadBlock
  repeat' (first
    | intro y
    | (extract_lets +onlyGivenNames x; first | (refine keep_suff (p := Keep s0 x) ?_ (fun hx => ?_); subst x; rotate_left; clear_value x) | subst x)
    | with_reducible assumption | with_reducible apply State.setBit_keep | with_reducible apply State.toUpdState_keep
    | with_reducible apply State.submit_keep | with_reducible apply keep_ite | split | refine keep_upd ?_ rfl rfl rfl rfl rfl rfl rfl rfl)

theorem State.loadChunk_keep {s0 s : State} (h : Keep s0 s) {v1 v2} :
    Keep s0 (State.loadChunk s v1 v2) := by
  unfold State.loadChunk
  repeat' (first
    | intro y
    | (extract_lets +onlyGivenNames x; first | (refine keep_suff (p := Keep s0 x) ?_ (fun hx => ?_); subst x; rotate_left; clear_value x) | subst x)
    | with_reducible assumption | with_reducible apply State.setBit_keep | with_reducible apply State.toUpdState_keep
    | with_reducible apply State.submit_keep | with_reducible apply keep_ite | split | refine keep_upd ?_ rfl rfl rfl rfl rfl rfl rfl rfl)

theorem State.cmdLoad_keep {s0 s : State} (h : Keep s0 s) {v1 v2} :
    Keep s0 (State.cmdLoad s v1 v2) := by
  unfold State.cmdLoad
  repeat' (first
    | intro y
    | (extract_lets +onlyGivenNames x; first | (refine keep_suff (p := Keep s0 x) ?_ (fun hx => ?_); subst x; rotate_left; clear_value x) | subst x)
    | with_reducible assumption | with_reducible apply State.complete_keep | with_reducible apply State.loadBlock_keep
    | with_reducible apply keep_ite | split)

theorem State.cmdVerify_keep {s0 s : State} (h : Keep s0 s) {v1} :
    Keep s0 (State.cmdVerify s v1) := by
  unfold State.cmdVerify
  repeat' (first
    | intro y
    | (extract_lets +onlyGivenNames x; first | (refine keep_suff (p := Keep s0 x) ?_ (fun hx => ?_); subst x; rotate_left; clear_value x) | subst x)
    | with_reducible assumption | with_reducible apply State.complete_keep | with_reducible apply keep_ite | split
    | refine keep_upd ?_ rfl rfl rfl rfl rfl rfl rfl rfl)

theorem State.loadNew_keep {s0 s : State} (h : Keep s0 s) :
    Keep s0 (State.loadNew s) := by
  unfold State.loadNew
  repeat' (first
    | intro y
    | (extract_lets +onlyGivenNames x; first | (refine keep_suff (p := Keep s0 x) ?_ (fun hx => ?_); subst x; rotate_left; clear_value x) | subst x)
    | with_reducible assumption | with_reducible apply State.loadHalf_keep | split)

theorem State.armNow_keep {s0 s : State} (h : Keep s0 s) :
    Keep s0 (State.armNow s) := by
  unfold State.armNow
  repeat' (first
    | intro y
    | (extract_lets +onlyGivenNames x; first | (refine keep_suff (p := Keep s0 x) ?_ (fun hx => ?_); subst x; rotate_left; clear_value x) | subst x)
    | with_reducible assumption | with_reducible apply State.loadNew_keep | with_reducible apply State.updLog_keep
    | with_reducible apply State.showCompat_keep | with_reducible apply State.toUpdState_keep | with_reducible apply keep_ite | split)

theorem State.cmdArm_keep {s0 s : State} (h : Keep s0 s) {v1} :
    Keep s0 (State.cmdArm s v1) := by
  unfold State.cmdArm
  repeat' (first
    | intro y
    | (extract_lets +onlyGivenNames x; first | (refine keep_suff (p := Keep s0 x) ?_ (fun hx => ?_); subst x; rotate_left; clear_value x) | subst x)
    | with_reducible assumption | with_reducible apply State.complete_keep | with_reducible apply State.armNow_keep | split)

theorem State.cmdSwitchNow_keep {s0 s : State} (h : Keep s0 s) {v1} :
    Keep s0 (State.cmdSwitchNow s v1) := by
  unfold State.cmdSwitchNow
  repeat' (first
    | intro y
    | (extract_lets +onlyGivenNames x; first | (refine keep_suff (p := Keep s0 x) ?_ (fun hx => ?_); subst x; rotate_left; clear_value x) | subst x)
    | with_reducible assumption | with_reducible apply State.complete_keep | with_reducible apply State.loadNew_keep
    | with_reducible apply State.setBit_keep | with_reducible apply State.startFallback_keep
    | with_reducible apply State.switchAtOnce_keep | with_reducible apply keep_ite | split)

theorem State.eraseStaging_keep {s0 s : State} (h : Keep s0 s) :
    Keep s0 (State.eraseStaging s) := by
  unfold State.eraseStaging
  repeat' (first
    | intro y
    | (extract_lets +onlyGivenNames x; first | (refine keep_suff (p := Keep s0 x) ?_ (fun hx => ?_); subst x; rotate_left; clear_value x) | subst x)
    | with_reducible assumption | with_reducible apply State.addTask_keep | with_reducible apply keep_foldl
    | with_reducible apply keep_foldl1 | with_reducible apply keep_foldl2 | exact rfl
    | refine keep_pair ?_ (by with_reducible assumption) | refine keep_pair1 ?_ (by with_reducible assumption) | split)

theorem State.unstageImage_keep {s0 s : State} (h : Keep s0 s) :
    Keep s0 (State.unstageImage s) := by
  unfold State.unstageImage
  repeat' (first
    | intro y
    | (extract_lets +onlyGivenNames x; first | (refine keep_suff (p := Keep s0 x) ?_ (fun hx => ?_); subst x; rotate_left; clear_value x) | subst x)
    | with_reducible assumption | with_reducible apply State.setFld_keep | with_reducible apply State.setBit_keep
    | with_reducible apply State.setReg_keep | split | refine keep_upd ?_ rfl rfl rfl rfl rfl rfl rfl rfl)

theorem State.settleUpdate_keep {s0 s : State} (h : Keep s0 s) :
    Keep s0 (State.settleUpdate s) := by
  unfold State.settleUpdate
  repeat' (first
    | intro y
    | (extract_lets +onlyGivenNames x; first | (refine keep_suff (p := Keep s0 x) ?_ (fun hx => ?_); subst x; rotate_left; clear_value x) | subst x)
    | with_reducible assumption | with_reducible apply State.eraseStaging_keep | with_reducible apply State.putRecord_keep
    | with_reducible apply State.setReg_keep | with_reducible apply State.setBit_keep | with_reducible apply State.setFld_keep
    | with_reducible apply State.eraseOther_keep | with_reducible apply keep_ite | split
    | refine keep_upd ?_ rfl rfl rfl rfl rfl rfl rfl rfl)

theorem State.cmdConfirm_keep {s0 s : State} (h : Keep s0 s) {v1} :
    Keep s0 (State.cmdConfirm s v1) := by
  unfold State.cmdConfirm
  repeat' (first
    | intro y
    | (extract_lets +onlyGivenNames x; first | (refine keep_suff (p := Keep s0 x) ?_ (fun hx => ?_); subst x; rotate_left; clear_value x) | subst x)
    | with_reducible assumption | with_reducible apply State.complete_keep | with_reducible apply State.settleUpdate_keep
    | with_reducible apply State.addTask_keep | with_reducible apply keep_foldl | with_reducible apply keep_foldl1
    | with_reducible apply keep_foldl2 | with_reducible apply keep_ite | exact rfl | refine keep_pair ?_ (by with_reducible assumption)
    | refine keep_pair1 ?_ (by with_reducible assumption) | split | refine keep_upd ?_ rfl rfl rfl rfl rfl rfl rfl rfl)

theorem State.startRevert_keep {s0 s : State} (h : Keep s0 s) :
    Keep s0 (State.startRevert s) := by
  unfold State.startRevert
  repeat' (first
    | intro y
    | (extract_lets +onlyGivenNames x; first | (refine keep_suff (p := Keep s0 x) ?_ (fun hx => ?_); subst x; rotate_left; clear_value x) | subst x)
    | with_reducible assumption | with_reducible apply State.switchAtOnce_keep | split
    | refine keep_upd ?_ rfl rfl rfl rfl rfl rfl rfl rfl)

theorem State.cmdRevert_keep {s0 s : State} (h : Keep s0 s) {v1} :
    Keep s0 (State.cmdRevert s v1) := by
  unfold State.cmdRevert
  repeat' (first
    | intro y
    | (extract_lets +onlyGivenNames x; first | (refine keep_suff (p := Keep s0 x) ?_ (fun hx => ?_); subst x; rotate_left; clear_value x) | subst x)
    | with_reducible assumption | with_reducible apply State.complete_keep | with_reducible apply State.startRevert_keep
    | with_reducible apply keep_ite | split)

theorem State.cmdAbandon_keep {s0 s : State} (h : Keep s0 s) {v1} :
    Keep s0 (State.cmdAbandon s v1) := by
  unfold State.cmdAbandon
  repeat' (first
    | intro y
    | (extract_lets +onlyGivenNames x; first | (refine keep_suff (p := Keep s0 x) ?_ (fun hx => ?_); subst x; rotate_left; clear_value x) | subst x)
    | with_reducible assumption | with_reducible apply State.complete_keep | with_reducible apply State.updLog_keep
    | with_reducible apply State.loadHalf_keep | with_reducible apply State.eraseOther_keep | with_reducible apply State.toUpdState_keep
    | with_reducible apply State.unstageImage_keep | with_reducible apply State.eraseStaging_keep | with_reducible apply keep_ite | split
    | refine keep_upd ?_ rfl rfl rfl rfl rfl rfl rfl rfl)

theorem State.verified_keep {s0 s : State} (h : Keep s0 s) {v1} :
    Keep s0 (State.verified s v1) := by
  unfold State.verified
  repeat' (first
    | intro y
    | (extract_lets +onlyGivenNames x; first | (refine keep_suff (p := Keep s0 x) ?_ (fun hx => ?_); subst x; rotate_left; clear_value x) | subst x)
    | with_reducible assumption | with_reducible apply State.setFld_keep | with_reducible apply State.setReg_keep
    | with_reducible apply State.updLog_keep | with_reducible apply State.raise_keep | with_reducible apply State.showCompat_keep
    | with_reducible apply State.toUpdState_keep | with_reducible apply keep_ite | split
    | refine keep_upd ?_ rfl rfl rfl rfl rfl rfl rfl rfl)

theorem State.verifyPassed_keep {s0 s : State} (h : Keep s0 s) {v1} :
    Keep s0 (State.verifyPassed s v1) := by
  unfold State.verifyPassed
  repeat' (first
    | intro y
    | (extract_lets +onlyGivenNames x; first | (refine keep_suff (p := Keep s0 x) ?_ (fun hx => ?_); subst x; rotate_left; clear_value x) | subst x)
    | with_reducible assumption | with_reducible apply State.completeAll_keep | with_reducible apply State.verified_keep
    | with_reducible apply State.setReg_keep | with_reducible apply State.updLog_keep | with_reducible apply State.armNow_keep
    | with_reducible apply keep_ite | split)

theorem State.copyImage_keep {s0 s : State} (h : Keep s0 s) {v1} :
    Keep s0 (State.copyImage s v1) := by
  unfold State.copyImage
  repeat' (first
    | intro y
    | (extract_lets +onlyGivenNames x; first | (refine keep_suff (p := Keep s0 x) ?_ (fun hx => ?_); subst x; rotate_left; clear_value x) | subst x)
    | with_reducible assumption | with_reducible apply State.addTask_keep | with_reducible apply keep_ite | exact rfl | split
    | refine keep_upd ?_ rfl rfl rfl rfl rfl rfl rfl rfl)

theorem State.rejected_keep {s0 s : State} (h : Keep s0 s) {v1 v2} :
    Keep s0 (State.rejected s v1 v2) := by
  unfold State.rejected
  repeat' (first
    | intro y
    | (extract_lets +onlyGivenNames x; first | (refine keep_suff (p := Keep s0 x) ?_ (fun hx => ?_); subst x; rotate_left; clear_value x) | subst x)
    | with_reducible assumption | with_reducible apply State.toUpdState_keep | with_reducible apply State.setBit_keep
    | with_reducible apply State.setFld_keep | with_reducible apply State.logEvent_keep | split
    | refine keep_upd ?_ rfl rfl rfl rfl rfl rfl rfl rfl)

theorem State.confirmed_keep {s0 s : State} (h : Keep s0 s) :
    Keep s0 (State.confirmed s) := by
  unfold State.confirmed
  repeat' (first
    | intro y
    | (extract_lets +onlyGivenNames x; first | (refine keep_suff (p := Keep s0 x) ?_ (fun hx => ?_); subst x; rotate_left; clear_value x) | subst x)
    | with_reducible assumption | with_reducible apply State.unstageImage_keep | with_reducible apply State.updLog_keep
    | with_reducible apply State.showFw_keep | with_reducible apply State.setFld_keep | split
    | refine keep_upd ?_ rfl rfl rfl rfl rfl rfl rfl rfl
    | refine keep_raw ?_ rfl (Nat.le_refl _) (fun i => ⟨i.regs, i.seen, i.pop, i.latches, i.staging, i.phi, i.refAt, i.wts, i.seedWt, i.dueAt, i.divAt, i.tagBytes, i.tagWear, i.pingPorts, i.pingFlash, i.phiFlash, i.txc, i.chains, i.beams, (foldl_set_length _ _ _ _).trans i.slots, i.log, i.shedLo, i.shedHi, i.tasks⟩))

theorem State.taskDone_keep {s0 s : State} (h : Keep s0 s) {v1} :
    Keep s0 (State.taskDone s v1) := by
  unfold State.taskDone
  repeat' (first
    | intro y
    | (extract_lets +onlyGivenNames x; first | (refine keep_suff (p := Keep s0 x) ?_ (fun hx => ?_); subst x; rotate_left; clear_value x) | subst x)
    | with_reducible assumption | with_reducible apply State.verifyPassed_keep | with_reducible apply State.settleUpdate_keep
    | with_reducible apply State.completeAll_keep | with_reducible apply keep_ite | split
    | refine keep_upd ?_ rfl rfl rfl rfl rfl rfl rfl rfl
    | refine keep_raw ?_ rfl (Nat.le_refl _) (fun i => ⟨i.regs, i.seen, i.pop, i.latches, i.staging, i.phi, i.refAt, i.wts, i.seedWt, i.dueAt, i.divAt, i.tagBytes, i.tagWear, i.pingPorts, i.pingFlash, i.phiFlash, i.txc, i.chains, i.beams, List.length_set.trans i.slots, i.log, i.shedLo, i.shedHi, i.tasks⟩))

theorem State.endTaskEntry_keep {s0 s : State} (h : Keep s0 s) {v1 v2} :
    Keep s0 (State.endTaskEntry s v1 v2) := by
  unfold State.endTaskEntry
  repeat' (first
    | intro y
    | (extract_lets +onlyGivenNames x; first | (refine keep_suff (p := Keep s0 x) ?_ (fun hx => ?_); subst x; rotate_left; clear_value x) | subst x)
    | with_reducible assumption | with_reducible apply State.pumpTask_keep | with_reducible apply State.taskDone_keep
    | with_reducible apply keep_ite | split | refine keep_upd ?_ rfl rfl rfl rfl rfl rfl rfl rfl
    | refine keep_raw ?_ rfl (Nat.le_refl _) (fun i => ⟨i.regs, i.seen, i.pop, i.latches, i.staging, i.phi, i.refAt, i.wts, i.seedWt, i.dueAt, i.divAt, i.tagBytes, i.tagWear, i.pingPorts, i.pingFlash, i.phiFlash, i.txc, i.chains, i.beams, i.slots, i.log, i.shedLo, i.shedHi, tasks_filter _ i.tasks⟩)
    | refine keep_raw ?_ rfl (Nat.le_refl _) (fun i => ⟨i.regs, i.seen, i.pop, i.latches, i.staging, i.phi, i.refAt, i.wts, i.seedWt, i.dueAt, i.divAt, i.tagBytes, i.tagWear, i.pingPorts, i.pingFlash, i.phiFlash, i.txc, i.chains, i.beams, i.slots, i.log, i.shedLo, i.shedHi, tasks_map _ (fun x hx => by split; (have q := List.mem_of_find?_eq_some ‹List.find? _ s.memp.tasks = some _›; have r := tasks_mem i.tasks q; exact r); exact hx) i.tasks⟩))

theorem State.failTask_keep {s0 s : State} (h : Keep s0 s) {v1 v2} :
    Keep s0 (State.failTask s v1 v2) := by
  unfold State.failTask
  repeat' (first
    | intro y
    | (extract_lets +onlyGivenNames x; first | (refine keep_suff (p := Keep s0 x) ?_ (fun hx => ?_); subst x; rotate_left; clear_value x) | subst x)
    | with_reducible assumption | with_reducible apply State.putRecord_keep | with_reducible apply State.completeAll_keep
    | with_reducible apply State.toUpdState_keep | with_reducible apply State.dropUpdate_keep | with_reducible apply State.tearTask_keep
    | with_reducible apply keep_ite | split | refine keep_upd ?_ rfl rfl rfl rfl rfl rfl rfl rfl
    | refine keep_raw ?_ rfl (Nat.le_refl _) (fun i => ⟨i.regs, i.seen, i.pop, i.latches, i.staging, i.phi, i.refAt, i.wts, i.seedWt, i.dueAt, i.divAt, i.tagBytes, i.tagWear, i.pingPorts, i.pingFlash, i.phiFlash, i.txc, i.chains, i.beams, i.slots, i.log, i.shedLo, i.shedHi, tasks_filter _ i.tasks⟩)
    | refine keep_raw ?_ rfl (Nat.le_refl _) (fun i => ⟨i.regs, i.seen, i.pop, i.latches, i.staging, i.phi, i.refAt, i.wts, i.seedWt, i.dueAt, i.divAt, i.tagBytes, i.tagWear, i.pingPorts, i.pingFlash, none_wf _, i.txc, i.chains, i.beams, i.slots, i.log, i.shedLo, i.shedHi, i.tasks⟩)
    | refine keep_raw ?_ rfl (Nat.le_refl _) (fun i => ⟨i.regs, i.seen, i.pop, i.latches, i.staging, i.phi, i.refAt, i.wts, i.seedWt, i.dueAt, i.divAt, i.tagBytes, i.tagWear, i.pingPorts, none_wf _, i.phiFlash, i.txc, i.chains, i.beams, i.slots, i.log, i.shedLo, i.shedHi, i.tasks⟩)
    | exact wf_of_kind (by assumption) rfl
    | exact (tasks_mem (h.inv (by assumption)).tasks (List.mem_of_find?_eq_some (by assumption)) :))

theorem State.takeDraft_keep {s0 s : State} (h : Keep s0 s) {v1 v2} :
    Keep s0 (State.takeDraft s v1 v2) := by
  unfold State.takeDraft
  repeat' (first
    | intro y
    | (extract_lets +onlyGivenNames x; first | (refine keep_suff (p := Keep s0 x) ?_ (fun hx => ?_); subst x; rotate_left; clear_value x) | subst x)
    | with_reducible assumption | with_reducible apply State.startProof_keep | with_reducible apply State.switchDraft_keep
    | with_reducible apply keep_ite | split)

theorem State.switchOver_keep {s0 s : State} (h : Keep s0 s) :
    Keep s0 (State.switchOver s) := by
  unfold State.switchOver
  repeat' (first
    | intro y
    | (extract_lets +onlyGivenNames x; first | (refine keep_suff (p := Keep s0 x) ?_ (fun hx => ?_); subst x; rotate_left; clear_value x) | subst x)
    | with_reducible assumption | with_reducible apply State.dropServed_keep | with_reducible apply State.switchHalves_keep
    | with_reducible apply State.reverted_keep | with_reducible apply State.takeDraft_keep | with_reducible apply State.completeAll_keep
    | with_reducible apply State.raise_keep | with_reducible apply State.toUpdState_keep | with_reducible apply State.updLog_keep
    | with_reducible apply State.setFld_keep | with_reducible apply keep_ite | split | refine keep_upd ?_ rfl rfl rfl rfl rfl rfl rfl rfl)

theorem State.peerCount_keep {s0 s : State} (h : Keep s0 s) {v1} :
    Keep s0 (State.peerCount s v1) := by
  unfold State.peerCount
  repeat' (first
    | intro y
    | (extract_lets +onlyGivenNames x; first | (refine keep_suff (p := Keep s0 x) ?_ (fun hx => ?_); subst x; rotate_left; clear_value x) | subst x)
    | with_reducible assumption | with_reducible apply State.cnt_keep | split)

theorem State.updPeer_keep {s0 s : State} (h : Keep s0 s) {v1} :
    Keep s0 (State.updPeer s v1) := by
  unfold State.updPeer
  repeat' (first
    | intro y
    | (extract_lets +onlyGivenNames x; first | (refine keep_suff (p := Keep s0 x) ?_ (fun hx => ?_); subst x; rotate_left; clear_value x) | subst x)
    | with_reducible assumption | split | refine keep_upd ?_ rfl rfl rfl rfl rfl rfl rfl rfl)

theorem State.peerUp_keep {s0 s : State} (h : Keep s0 s) {v1} :
    Keep s0 (State.peerUp s v1) := by
  unfold State.peerUp
  repeat' (first
    | intro y
    | (extract_lets +onlyGivenNames x; first | (refine keep_suff (p := Keep s0 x) ?_ (fun hx => ?_); subst x; rotate_left; clear_value x) | subst x)
    | with_reducible assumption | with_reducible apply State.updRound_keep | with_reducible apply State.rampUp_keep | split)

theorem State.peerPrefix_keep {s0 s : State} (h : Keep s0 s) {v1} :
    Keep s0 (State.peerPrefix s v1).2 := by
  unfold State.peerPrefix
  repeat' (first
    | intro y
    | (extract_lets +onlyGivenNames x; first | (refine keep_suff (p := Keep s0 x) ?_ (fun hx => ?_); subst x; rotate_left; clear_value x) | subst x)
    | with_reducible assumption | with_reducible apply State.updPeer_keep | split)

theorem State.peerSend_keep {s0 s : State} (h : Keep s0 s) {v1} :
    Keep s0 (State.peerSend s v1) := by
  unfold State.peerSend
  repeat' (first
    | intro y
    | (extract_lets +onlyGivenNames x; first | (refine keep_suff (p := Keep s0 x) ?_ (fun hx => ?_); subst x; rotate_left; clear_value x) | subst x)
    | with_reducible assumption | with_reducible apply State.updPeer_keep | with_reducible apply State.peerCount_keep | split)

theorem State.utcNow_keep {s0 s : State} (h : Keep s0 s) :
    Keep s0 (State.utcNow s).2.2 := by
  unfold State.utcNow
  repeat' (first
    | intro y
    | (extract_lets +onlyGivenNames x; first | (refine keep_suff (p := Keep s0 x) ?_ (fun hx => ?_); subst x; rotate_left; clear_value x) | subst x)
    | with_reducible assumption | with_reducible apply State.drawWord_keep | with_reducible apply keep_ite
    | refine keep_pair ?_ (by with_reducible assumption) | split)

theorem State.beaconFrame_keep {s0 s : State} (h : Keep s0 s) :
    Keep s0 (State.beaconFrame s).2 := by
  unfold State.beaconFrame
  repeat' (first
    | intro y
    | (extract_lets +onlyGivenNames x; first | (refine keep_suff (p := Keep s0 x) ?_ (fun hx => ?_); subst x; rotate_left; clear_value x) | subst x)
    | with_reducible assumption | with_reducible apply State.utcNow_keep | with_reducible apply State.peerPrefix_keep
    | refine keep_pair ?_ (by with_reducible assumption) | refine keep_pair3 ?_ (by with_reducible assumption) | split)

theorem State.fill_keep {s0 s : State} (h : Keep s0 s) {v1 v2 v3} (hv3 : ∀ s, Keep s0 s → Keep s0 (v3 s)) :
    Keep s0 (State.fill s v1 v2 v3).2 := by
  unfold State.fill
  repeat' (first
    | intro y
    | (extract_lets +onlyGivenNames x; first | (refine keep_suff (p := Keep s0 x) ?_ (fun hx => ?_); subst x; rotate_left; clear_value x) | subst x)
    | with_reducible assumption | with_reducible apply hv3 | with_reducible apply keep_ite | split)

theorem State.sendOffer_keep {s0 s : State} (h : Keep s0 s) {v1} :
    Keep s0 (State.sendOffer s v1) := by
  unfold State.sendOffer
  repeat' (first
    | intro y
    | (extract_lets +onlyGivenNames x; first | (refine keep_suff (p := Keep s0 x) ?_ (fun hx => ?_); subst x; rotate_left; clear_value x) | subst x)
    | with_reducible assumption | with_reducible apply State.peerPrefix_keep | with_reducible apply State.peerSend_keep
    | refine keep_pair ?_ (by with_reducible assumption) | split)

theorem State.sendReq_keep {s0 s : State} (h : Keep s0 s) {v1} :
    Keep s0 (State.sendReq s v1) := by
  unfold State.sendReq
  repeat' (first
    | intro y
    | (extract_lets +onlyGivenNames x; first | (refine keep_suff (p := Keep s0 x) ?_ (fun hx => ?_); subst x; rotate_left; clear_value x) | subst x)
    | with_reducible assumption | with_reducible apply State.peerPrefix_keep | with_reducible apply State.peerSend_keep
    | refine keep_pair ?_ (by with_reducible assumption) | split)

theorem State.sendChunk_keep {s0 s : State} (h : Keep s0 s) {v1 v2} :
    Keep s0 (State.sendChunk s v1 v2) := by
  unfold State.sendChunk
  repeat' (first
    | intro y
    | (extract_lets +onlyGivenNames x; first | (refine keep_suff (p := Keep s0 x) ?_ (fun hx => ?_); subst x; rotate_left; clear_value x) | subst x)
    | with_reducible assumption | with_reducible apply State.peerPrefix_keep | with_reducible apply State.updPeer_keep
    | with_reducible apply State.peerSend_keep | refine keep_pair ?_ (by with_reducible assumption) | split)

theorem State.refuseData_keep {s0 s : State} (h : Keep s0 s) :
    Keep s0 (State.refuseData s) := by
  unfold State.refuseData
  repeat' (first
    | intro y
    | (extract_lets +onlyGivenNames x; first | (refine keep_suff (p := Keep s0 x) ?_ (fun hx => ?_); subst x; rotate_left; clear_value x) | subst x)
    | with_reducible assumption | with_reducible apply State.complete_keep | with_reducible apply State.updPeer_keep
    | with_reducible apply keep_ite | split)

theorem State.sendData_keep {s0 s : State} (h : Keep s0 s) {v1} :
    Keep s0 (State.sendData s v1) := by
  unfold State.sendData
  repeat' (first
    | intro y
    | (extract_lets +onlyGivenNames x; first | (refine keep_suff (p := Keep s0 x) ?_ (fun hx => ?_); subst x; rotate_left; clear_value x) | subst x)
    | with_reducible assumption | with_reducible apply State.peerSend_keep | with_reducible apply State.complete_keep
    | with_reducible apply State.updPeer_keep | with_reducible apply keep_ite | split)

theorem State.ownSlot_keep {s0 s : State} (h : Keep s0 s) {v1} :
    Keep s0 (State.ownSlot s v1) := by
  unfold State.ownSlot
  repeat' (first
    | intro y
    | (extract_lets +onlyGivenNames x; first | (refine keep_suff (p := Keep s0 x) ?_ (fun hx => ?_); subst x; rotate_left; clear_value x) | subst x)
    | with_reducible assumption | with_reducible apply State.refuseData_keep | with_reducible apply State.updPeer_keep
    | with_reducible apply State.fill_keep | with_reducible apply State.beaconFrame_keep | with_reducible apply State.peerSend_keep
    | with_reducible apply State.sendData_keep | with_reducible apply State.sendReq_keep | with_reducible apply State.sendOffer_keep
    | with_reducible apply State.sendChunk_keep | with_reducible apply State.updRound_keep | with_reducible apply State.peerUp_keep
    | with_reducible apply keep_foldl | with_reducible apply keep_foldl1 | with_reducible apply keep_foldl2
    | with_reducible apply keep_ite | refine keep_pair ?_ (by with_reducible assumption)
    | refine keep_pair1 ?_ (by with_reducible assumption) | split)

theorem State.peerEval_keep {s0 s : State} (h : Keep s0 s) :
    Keep s0 (State.peerEval s) := by
  unfold State.peerEval
  repeat' (first
    | intro y
    | (extract_lets +onlyGivenNames x; first | (refine keep_suff (p := Keep s0 x) ?_ (fun hx => ?_); subst x; rotate_left; clear_value x) | subst x)
    | with_reducible assumption | with_reducible apply State.setReg_keep | with_reducible apply State.peerCount_keep
    | with_reducible apply State.updPeer_keep | with_reducible apply keep_ite | split)

theorem State.peerColours_keep {s0 s : State} (h : Keep s0 s) :
    Keep s0 (State.peerColours s) := by
  unfold State.peerColours
  repeat' (first
    | intro y
    | (extract_lets +onlyGivenNames x; first | (refine keep_suff (p := Keep s0 x) ?_ (fun hx => ?_); subst x; rotate_left; clear_value x) | subst x)
    | with_reducible assumption | with_reducible apply State.setReg_keep | with_reducible apply keep_foldl
    | with_reducible apply keep_foldl1 | with_reducible apply keep_foldl2 | with_reducible apply keep_ite
    | refine keep_pair ?_ (by with_reducible assumption) | refine keep_pair1 ?_ (by with_reducible assumption) | split)

theorem State.steerBy_keep {s0 s : State} (h : Keep s0 s) {v1} :
    Keep s0 (State.steerBy s v1) := by
  unfold State.steerBy
  repeat' (first
    | intro y
    | (extract_lets +onlyGivenNames x; first | (refine keep_suff (p := Keep s0 x) ?_ (fun hx => ?_); subst x; rotate_left; clear_value x) | subst x)
    | with_reducible assumption | with_reducible apply State.updTx_keep | with_reducible apply State.setFld_keep
    | with_reducible apply State.updPeer_keep | with_reducible apply keep_foldl | with_reducible apply keep_foldl1
    | with_reducible apply keep_foldl2 | with_reducible apply keep_ite | refine keep_pair ?_ (by with_reducible assumption)
    | refine keep_pair1 ?_ (by with_reducible assumption) | split)

theorem State.sendAck_keep {s0 s : State} (h : Keep s0 s) {v1 v2} :
    Keep s0 (State.sendAck s v1 v2) := by
  unfold State.sendAck
  repeat' (first
    | intro y
    | (extract_lets +onlyGivenNames x; first | (refine keep_suff (p := Keep s0 x) ?_ (fun hx => ?_); subst x; rotate_left; clear_value x) | subst x)
    | with_reducible assumption | with_reducible apply State.peerUp_keep | with_reducible apply State.peerSend_keep | split)

theorem State.rxData_keep {s0 s : State} (h : Keep s0 s) {v1 v2} :
    Keep s0 (State.rxData s v1 v2) := by
  unfold State.rxData
  repeat' (first
    | intro y
    | (extract_lets +onlyGivenNames x; first | (refine keep_suff (p := Keep s0 x) ?_ (fun hx => ?_); subst x; rotate_left; clear_value x) | subst x)
    | with_reducible assumption | with_reducible apply State.sendAck_keep | with_reducible apply State.dropRec_keep
    | with_reducible apply State.fifoSync_keep | with_reducible apply State.queuePeer_keep | with_reducible apply State.updPeer_keep
    | with_reducible apply keep_ite | split | refine keep_upd ?_ rfl rfl rfl rfl rfl rfl rfl rfl)

theorem State.rxAck_keep {s0 s : State} (h : Keep s0 s) {v1} :
    Keep s0 (State.rxAck s v1) := by
  unfold State.rxAck
  repeat' (first
    | intro y
    | (extract_lets +onlyGivenNames x; first | (refine keep_suff (p := Keep s0 x) ?_ (fun hx => ?_); subst x; rotate_left; clear_value x) | subst x)
    | with_reducible assumption | with_reducible apply State.complete_keep | with_reducible apply State.updPeer_keep
    | with_reducible apply keep_ite | split)

theorem State.takeTime_keep {s0 s : State} (h : Keep s0 s) {v1} :
    Keep s0 (State.takeTime s v1) := by
  unfold State.takeTime
  repeat' (first
    | intro y
    | (extract_lets +onlyGivenNames x; first | (refine keep_suff (p := Keep s0 x) ?_ (fun hx => ?_); subst x; rotate_left; clear_value x) | subst x)
    | with_reducible assumption | with_reducible apply State.updPeer_keep | with_reducible apply State.setReg_keep
    | with_reducible apply State.setBit_keep | with_reducible apply keep_ite | split | refine keep_upd ?_ rfl rfl rfl rfl rfl rfl rfl rfl)

theorem State.rxBeacon_keep {s0 s : State} (h : Keep s0 s) {v1 v2} :
    Keep s0 (State.rxBeacon s v1 v2) := by
  unfold State.rxBeacon
  repeat' (first
    | intro y
    | (extract_lets +onlyGivenNames x; first | (refine keep_suff (p := Keep s0 x) ?_ (fun hx => ?_); subst x; rotate_left; clear_value x) | subst x)
    | with_reducible assumption | with_reducible apply State.updPeer_keep | with_reducible apply State.peerCount_keep
    | with_reducible apply State.peerEval_keep | with_reducible apply State.takeTime_keep | with_reducible apply State.downRound_keep
    | with_reducible apply keep_ite | split)

theorem State.rxOffer_keep {s0 s : State} (h : Keep s0 s) {v1} :
    Keep s0 (State.rxOffer s v1) := by
  unfold State.rxOffer
  repeat' (first
    | intro y
    | (extract_lets +onlyGivenNames x; first | (refine keep_suff (p := Keep s0 x) ?_ (fun hx => ?_); subst x; rotate_left; clear_value x) | subst x)
    | with_reducible assumption | with_reducible apply State.updPeer_keep | with_reducible apply keep_ite | split)

theorem State.rxReq_keep {s0 s : State} (h : Keep s0 s) {v1} :
    Keep s0 (State.rxReq s v1) := by
  unfold State.rxReq
  repeat' (first
    | intro y
    | (extract_lets +onlyGivenNames x; first | (refine keep_suff (p := Keep s0 x) ?_ (fun hx => ?_); subst x; rotate_left; clear_value x) | subst x)
    | with_reducible assumption | with_reducible apply State.updPeer_keep | with_reducible apply keep_ite | split)

theorem State.rxChunk_keep {s0 s : State} (h : Keep s0 s) {v1} :
    Keep s0 (State.rxChunk s v1) := by
  unfold State.rxChunk
  repeat' (first
    | intro y
    | (extract_lets +onlyGivenNames x; first | (refine keep_suff (p := Keep s0 x) ?_ (fun hx => ?_); subst x; rotate_left; clear_value x) | subst x)
    | with_reducible assumption | with_reducible apply State.loadChunk_keep | with_reducible apply State.updPeer_keep
    | with_reducible apply keep_ite | split)

theorem State.recOver_keep {s0 s : State} (h : Keep s0 s) {v1} :
    Keep s0 (State.recOver s v1) := by
  unfold State.recOver
  repeat' (first
    | intro y
    | (extract_lets +onlyGivenNames x; first | (refine keep_suff (p := Keep s0 x) ?_ (fun hx => ?_); subst x; rotate_left; clear_value x) | subst x)
    | with_reducible assumption | with_reducible apply State.updBeam_keep | split)

theorem State.peerActs_keep {s0 s : State} (h : Keep s0 s) {v1 v2} :
    Keep s0 (State.peerActs s v1 v2) := by
  unfold State.peerActs
  repeat' (first
    | intro y
    | (extract_lets +onlyGivenNames x; first | (refine keep_suff (p := Keep s0 x) ?_ (fun hx => ?_); subst x; rotate_left; clear_value x) | subst x)
    | with_reducible assumption | with_reducible apply State.steerBy_keep | with_reducible apply State.rxData_keep
    | with_reducible apply State.rxAck_keep | with_reducible apply State.rxBeacon_keep | with_reducible apply State.rxOffer_keep
    | with_reducible apply State.rxReq_keep | with_reducible apply State.rxChunk_keep | with_reducible apply keep_ite | split)

theorem State.peerReceive_keep {s0 s : State} (h : Keep s0 s) {v1 v2} :
    Keep s0 (State.peerReceive s v1 v2) := by
  unfold State.peerReceive
  repeat' (first
    | intro y
    | (extract_lets +onlyGivenNames x; first | (refine keep_suff (p := Keep s0 x) ?_ (fun hx => ?_); subst x; rotate_left; clear_value x) | subst x)
    | with_reducible assumption | with_reducible apply State.recOver_keep | with_reducible apply State.adaptWeights_keep
    | with_reducible apply State.peerCount_keep | with_reducible apply State.cnt_keep | with_reducible apply State.chainsRx_keep
    | with_reducible apply State.peerActs_keep | with_reducible apply keep_ite | split)

theorem State.peerHears_keep {s0 s : State} (h : Keep s0 s) {v1} :
    Keep s0 (State.peerHears s v1) := by
  unfold State.peerHears
  repeat' (first
    | intro y
    | (extract_lets +onlyGivenNames x; first | (refine keep_suff (p := Keep s0 x) ?_ (fun hx => ?_); subst x; rotate_left; clear_value x) | subst x)
    | with_reducible assumption | with_reducible apply State.peerReceive_keep | split)

theorem State.cmdPeerTx_keep {s0 s : State} (h : Keep s0 s) {v1 v2 v3} :
    Keep s0 (State.cmdPeerTx s v1 v2 v3) := by
  unfold State.cmdPeerTx
  repeat' (first
    | intro y
    | (extract_lets +onlyGivenNames x; first | (refine keep_suff (p := Keep s0 x) ?_ (fun hx => ?_); subst x; rotate_left; clear_value x) | subst x)
    | with_reducible assumption | with_reducible apply State.complete_keep | with_reducible apply State.updPeer_keep
    | with_reducible apply keep_ite | split)

theorem State.setPing_keep {s0 s : State} (h : Keep s0 s) {v1 v2} :
    Keep s0 (State.setPing s v1 v2) := by
  exact keep_raw h rfl (Nat.le_refl _) (fun i => ⟨i.regs, i.seen, i.pop, i.latches, i.staging, i.phi, i.refAt, i.wts, i.seedWt, i.dueAt,
      i.divAt, i.tagBytes, i.tagWear, swf_sput i.pingPorts _ _, i.pingFlash, i.phiFlash, i.txc, i.chains, i.beams, i.slots, i.log,
      i.shedLo, i.shedHi, i.tasks⟩)

theorem State.pingPortOne_keep {s0 : State} {s} (h : Keep s0 s.1) {v1} :
    Keep s0 (State.pingPortOne s v1).1 := by
  unfold State.pingPortOne
  repeat' (first
    | intro y
    | (extract_lets +onlyGivenNames x; first | (refine keep_suff (p := Keep s0 x) ?_ (fun hx => ?_); subst x; rotate_left; clear_value x) | subst x)
    | with_reducible assumption | with_reducible apply State.cnt_keep | with_reducible apply State.setPing_keep
    | with_reducible apply keep_ite | split | refine keep_upd ?_ rfl rfl rfl rfl rfl rfl rfl rfl)

theorem State.pingSweep_keep {s0 s : State} (h : Keep s0 s) {v1} :
    Keep s0 (State.pingSweep s v1).1 := by
  unfold State.pingSweep
  repeat' (first
    | intro y
    | (extract_lets +onlyGivenNames x; first | (refine keep_suff (p := Keep s0 x) ?_ (fun hx => ?_); subst x; rotate_left; clear_value x) | subst x)
    | with_reducible assumption | with_reducible apply State.pingPortOne_keep | with_reducible apply State.setReg_keep
    | with_reducible apply keep_foldl | with_reducible apply keep_foldl1 | with_reducible apply keep_foldl2
    | with_reducible apply keep_ite | refine keep_pair ?_ (by with_reducible assumption)
    | refine keep_pair1 ?_ (by with_reducible assumption) | split)

theorem State.noteSweep_keep {s0 s : State} (h : Keep s0 s) {v1 v2 v3} :
    Keep s0 (State.noteSweep s v1 v2 v3) := by
  unfold State.noteSweep
  repeat' (first
    | intro y
    | (extract_lets +onlyGivenNames x; first | (refine keep_suff (p := Keep s0 x) ?_ (fun hx => ?_); subst x; rotate_left; clear_value x) | subst x)
    | with_reducible assumption | with_reducible apply State.setFld_keep | with_reducible apply keep_ite | split
    | refine keep_upd ?_ rfl rfl rfl rfl rfl rfl rfl rfl)

theorem State.aoSweepEnd_keep {s0 s : State} (h : Keep s0 s) {v1 v2} :
    Keep s0 (State.aoSweepEnd s v1 v2) := by
  unfold State.aoSweepEnd
  repeat' (first
    | intro y
    | (extract_lets +onlyGivenNames x; first | (refine keep_suff (p := Keep s0 x) ?_ (fun hx => ?_); subst x; rotate_left; clear_value x) | subst x)
    | with_reducible assumption | with_reducible apply State.pingSweep_keep | with_reducible apply State.cnt_keep
    | with_reducible apply State.wake_keep | with_reducible apply State.noteSweep_keep | with_reducible apply State.setBit_keep
    | with_reducible apply State.raise_keep | with_reducible apply State.wakeReport_keep | with_reducible apply keep_ite
    | refine keep_pair1 ?_ (by with_reducible assumption) | split | refine keep_upd ?_ rfl rfl rfl rfl rfl rfl rfl rfl)

theorem State.roundSweepEnd_keep {s0 s : State} (h : Keep s0 s) {v1 v2} :
    Keep s0 (State.roundSweepEnd s v1 v2) := by
  unfold State.roundSweepEnd
  repeat' (first
    | intro y
    | (extract_lets +onlyGivenNames x; first | (refine keep_suff (p := Keep s0 x) ?_ (fun hx => ?_); subst x; rotate_left; clear_value x) | subst x)
    | with_reducible assumption | with_reducible apply State.pingSweep_keep | with_reducible apply State.updRound_keep
    | with_reducible apply State.cnt_keep | with_reducible apply State.raise_keep | with_reducible apply State.queueWarp_keep
    | with_reducible apply State.roundEnd_keep | with_reducible apply keep_ite | refine keep_pair1 ?_ (by with_reducible assumption)
    | split)

theorem State.meanOf_keep {s0 s : State} (h : Keep s0 s) {v1 v2} :
    Keep s0 (State.meanOf s v1 v2).2 := by
  unfold State.meanOf
  repeat' (first
    | intro y
    | (extract_lets +onlyGivenNames x; first | (refine keep_suff (p := Keep s0 x) ?_ (fun hx => ?_); subst x; rotate_left; clear_value x) | subst x)
    | with_reducible assumption | with_reducible apply State.drawBool_keep | with_reducible apply keep_ite
    | refine keep_pair ?_ (by with_reducible assumption) | split)

theorem State.saveBaselines_keep {s0 s : State} (h : Keep s0 s) :
    Keep s0 (State.saveBaselines s) := by
  refine State.addTask_keep ?_ (fun i0 => wf_baselines (h.inv i0).pingFlash)
  exact keep_raw h rfl (Nat.le_refl _) (fun i => ⟨i.regs, i.seen, i.pop, i.latches, i.staging, i.phi, i.refAt, i.wts, i.seedWt, i.dueAt,
      i.divAt, i.tagBytes, i.tagWear, i.pingPorts, fun m hm => Option.some.inj hm ▸ baselinesOf_wf i.pingPorts, i.phiFlash, i.txc,
      i.chains, i.beams, i.slots, i.log, i.shedLo, i.shedHi, i.tasks⟩)

theorem State.calDone_keep {s0 s : State} (h : Keep s0 s) {v1} :
    Keep s0 (State.calDone s v1) := by
  unfold State.calDone
  repeat' (first
    | intro y
    | (extract_lets +onlyGivenNames x; first | (refine keep_suff (p := Keep s0 x) ?_ (fun hx => ?_); subst x; rotate_left; clear_value x) | subst x)
    | with_reducible assumption | with_reducible apply State.meanOf_keep | with_reducible apply State.setPing_keep
    | with_reducible apply State.setReg_keep | with_reducible apply State.complete_keep | with_reducible apply State.saveBaselines_keep
    | with_reducible apply keep_foldl | with_reducible apply keep_foldl1 | with_reducible apply keep_foldl2
    | refine keep_pair ?_ (by with_reducible assumption) | refine keep_pair1 ?_ (by with_reducible assumption) | split
    | refine keep_upd ?_ rfl rfl rfl rfl rfl rfl rfl rfl)

theorem State.calSweepEnd_keep {s0 s : State} (h : Keep s0 s) {v1 v2} :
    Keep s0 (State.calSweepEnd s v1 v2) := by
  unfold State.calSweepEnd
  repeat' (first
    | intro y
    | (extract_lets +onlyGivenNames x; first | (refine keep_suff (p := Keep s0 x) ?_ (fun hx => ?_); subst x; rotate_left; clear_value x) | subst x)
    | with_reducible assumption | with_reducible apply State.roundEnd_keep | with_reducible apply State.cnt_keep
    | with_reducible apply State.addCnt_keep | with_reducible apply State.setPing_keep | with_reducible apply State.calDone_keep
    | with_reducible apply keep_foldl | with_reducible apply keep_foldl1 | with_reducible apply keep_foldl2
    | with_reducible apply keep_ite | refine keep_pair ?_ (by with_reducible assumption)
    | refine keep_pair1 ?_ (by with_reducible assumption) | split | refine keep_upd ?_ rfl rfl rfl rfl rfl rfl rfl rfl)

theorem State.onDie_keep {s0 s : State} (h : Keep s0 s) {v1} :
    Keep s0 (State.onDie s v1) := by
  unfold State.onDie
  repeat' (first
    | intro y
    | (extract_lets +onlyGivenNames x; first | (refine keep_suff (p := Keep s0 x) ?_ (fun hx => ?_); subst x; rotate_left; clear_value x) | subst x)
    | with_reducible assumption | with_reducible apply keep_ite | split | refine keep_upd ?_ rfl rfl rfl rfl rfl rfl rfl rfl)

theorem State.drawWords_keep {s0 s : State} (h : Keep s0 s) {v0} :
    Keep s0 (State.drawWords v0 s).2 := by
  induction v0 generalizing s  with
  | zero =>
    unfold State.drawWords
    repeat' (first
      | intro y
      | (extract_lets +onlyGivenNames x; first | (refine keep_suff (p := Keep s0 x) ?_ (fun hx => ?_); subst x; rotate_left; clear_value x) | subst x)
      | with_reducible assumption | with_reducible apply State.drawWord_keep | refine keep_pair ?_ (by with_reducible assumption) | split)
  | succ n ih =>
    unfold State.drawWords
    repeat' (first
      | intro y
      | (extract_lets +onlyGivenNames x; first | (refine keep_suff (p := Keep s0 x) ?_ (fun hx => ?_); subst x; rotate_left; clear_value x) | subst x)
      | with_reducible assumption | with_reducible apply ih | with_reducible apply State.drawWord_keep
      | refine keep_pair ?_ (by with_reducible assumption) | split)

theorem State.replaceBlock_keep {s0 s : State} (h : Keep s0 s) {v1 v2 v3} :
    Keep s0 (State.replaceBlock s v1 v2 v3) := by
  unfold State.replaceBlock
  repeat' (first
    | intro y
    | (extract_lets +onlyGivenNames x; first | (refine keep_suff (p := Keep s0 x) ?_ (fun hx => ?_); subst x; rotate_left; clear_value x) | subst x)
    | with_reducible assumption | with_reducible apply State.setReg_keep | with_reducible apply State.completeAll_keep
    | with_reducible apply keep_foldl | with_reducible apply keep_foldl1 | with_reducible apply keep_foldl2
    | refine keep_pair ?_ (by with_reducible assumption) | refine keep_pair1 ?_ (by with_reducible assumption) | split)

theorem State.talNote_keep {s0 s : State} (h : Keep s0 s) {v1 v2} :
    Keep s0 (State.talNote s v1 v2) := by
  unfold State.talNote
  repeat' (first
    | intro y
    | (extract_lets +onlyGivenNames x; first | (refine keep_suff (p := Keep s0 x) ?_ (fun hx => ?_); subst x; rotate_left; clear_value x) | subst x)
    | with_reducible assumption | with_reducible apply State.queueTally_keep | with_reducible apply State.raise_keep
    | with_reducible apply keep_ite | split | refine keep_upd ?_ rfl rfl rfl rfl rfl rfl rfl rfl)

theorem State.takePub_keep {s0 s : State} (h : Keep s0 s) {v1} :
    Keep s0 (State.takePub s v1) := by
  unfold State.takePub
  repeat' (first
    | intro y
    | (extract_lets +onlyGivenNames x; first | (refine keep_suff (p := Keep s0 x) ?_ (fun hx => ?_); subst x; rotate_left; clear_value x) | subst x)
    | with_reducible assumption | with_reducible apply State.setBit_keep | with_reducible apply State.cnt_keep
    | with_reducible apply State.replaceBlock_keep | with_reducible apply State.talNote_keep | split
    | refine keep_upd ?_ rfl rfl rfl rfl rfl rfl rfl rfl)

end Sys2Proof.Machine
end

