-- ==== Sys2Proof/Laws/KeepHost.lean ====
section
/-! SUPPORT. What host commands, writes and frames keep (`Keep` of Laws/Keep.lean), one lemma for each. -/
namespace Sys2Proof.Machine

set_option Elab.async false

theorem State.endReturn_keep {s0 s : State} (h : Keep s0 s) {v1} :
    Keep s0 (State.endReturn s v1) := by
  unfold State.endReturn
  repeat' (first
    | intro y
    | (extract_lets +onlyGivenNames x; first | (refine keep_suff (p := Keep s0 x) ?_ (fun hx => ?_); subst x; rotate_left; clear_value x) | subst x)
    | with_reducible assumption | with_reducible apply State.completeAll_keep | split)

theorem State.drainSome_keep {s0 s : State} (h : Keep s0 s) {v1} :
    Keep s0 (State.drainSome s v1) := by
  unfold State.drainSome
  repeat' (first
    | intro y
    | (extract_lets +onlyGivenNames x; first | (refine keep_suff (p := Keep s0 x) ?_ (fun hx => ?_); subst x; rotate_left; clear_value x) | subst x)
    | with_reducible assumption | with_reducible apply keep_ite | split | refine keep_upd ?_ rfl rfl rfl rfl rfl rfl rfl rfl)

theorem State.completeFree_keep {s0 s : State} (h : Keep s0 s) {v1} :
    Keep s0 (State.completeFree s v1) := by
  unfold State.completeFree
  repeat' (first
    | intro y
    | (extract_lets +onlyGivenNames x; first | (refine keep_suff (p := Keep s0 x) ?_ (fun hx => ?_); subst x; rotate_left; clear_value x) | subst x)
    | with_reducible assumption | with_reducible apply State.drawWord_keep | with_reducible apply State.complete_keep
    | refine keep_pair ?_ (by with_reducible assumption) | split)

theorem State.cmdTxcOut_keep {s0 s : State} (h : Keep s0 s) {v1 v2} :
    Keep s0 (State.cmdTxcOut s v1 v2) := by
  unfold State.cmdTxcOut
  repeat' (first
    | intro y
    | (extract_lets +onlyGivenNames x; first | (refine keep_suff (p := Keep s0 x) ?_ (fun hx => ?_); subst x; rotate_left; clear_value x) | subst x)
    | with_reducible assumption | with_reducible apply State.complete_keep | with_reducible apply State.endReturn_keep
    | with_reducible apply State.setReady_keep | with_reducible apply State.setFld_keep | with_reducible apply State.setRamp_keep
    | with_reducible apply State.forgetPoints_keep | with_reducible apply State.updTx_keep | with_reducible apply State.settleOuts_keep
    | with_reducible apply State.drainSome_keep | with_reducible apply keep_ite | split)

theorem State.cmdTxcReturn_keep {s0 s : State} (h : Keep s0 s) {v1 v2} :
    Keep s0 (State.cmdTxcReturn s v1 v2) := by
  unfold State.cmdTxcReturn
  repeat' (first
    | intro y
    | (extract_lets +onlyGivenNames x; first | (refine keep_suff (p := Keep s0 x) ?_ (fun hx => ?_); subst x; rotate_left; clear_value x) | subst x)
    | with_reducible assumption | with_reducible apply State.complete_keep | with_reducible apply State.startReturns_keep
    | with_reducible apply keep_ite | split)

theorem State.cmdPortOut_keep {s0 s : State} (h : Keep s0 s) {v1 v2} :
    Keep s0 (State.cmdPortOut s v1 v2) := by
  unfold State.cmdPortOut
  repeat' (first
    | intro y
    | (extract_lets +onlyGivenNames x; first | (refine keep_suff (p := Keep s0 x) ?_ (fun hx => ?_); subst x; rotate_left; clear_value x) | subst x)
    | with_reducible assumption | with_reducible apply State.complete_keep | with_reducible apply State.loseAnt_keep
    | with_reducible apply State.setPortOos_keep | with_reducible apply State.endReturn_keep | with_reducible apply State.settleOuts_keep
    | with_reducible apply State.drainSome_keep | with_reducible apply keep_ite | split)

theorem State.cmdPortReturn_keep {s0 s : State} (h : Keep s0 s) {v1 v2} :
    Keep s0 (State.cmdPortReturn s v1 v2) := by
  unfold State.cmdPortReturn
  repeat' (first
    | intro y
    | (extract_lets +onlyGivenNames x; first | (refine keep_suff (p := Keep s0 x) ?_ (fun hx => ?_); subst x; rotate_left; clear_value x) | subst x)
    | with_reducible assumption | with_reducible apply State.complete_keep | with_reducible apply State.recalibrate_keep
    | with_reducible apply State.setPortOos_keep | with_reducible apply keep_ite | split)

theorem State.cmdRxcOut_keep {s0 s : State} (h : Keep s0 s) {v1 v2} :
    Keep s0 (State.cmdRxcOut s v1 v2) := by
  unfold State.cmdRxcOut
  repeat' (first
    | intro y
    | (extract_lets +onlyGivenNames x; first | (refine keep_suff (p := Keep s0 x) ?_ (fun hx => ?_); subst x; rotate_left; clear_value x) | subst x)
    | with_reducible assumption | with_reducible apply State.complete_keep | with_reducible apply State.setFld_keep
    | with_reducible apply State.endReturn_keep | with_reducible apply State.settleOuts_keep | with_reducible apply State.chainOut_keep
    | with_reducible apply keep_ite | split)

theorem State.cmdRxcReturn_keep {s0 s : State} (h : Keep s0 s) {v1 v2} :
    Keep s0 (State.cmdRxcReturn s v1 v2) := by
  unfold State.cmdRxcReturn
  repeat' (first
    | intro y
    | (extract_lets +onlyGivenNames x; first | (refine keep_suff (p := Keep s0 x) ?_ (fun hx => ?_); subst x; rotate_left; clear_value x) | subst x)
    | with_reducible assumption | with_reducible apply State.complete_keep | with_reducible apply State.startReturns_keep
    | with_reducible apply keep_ite | split)

theorem State.cmdRun_keep {s0 s : State} (h : Keep s0 s) {v1 v2} :
    Keep s0 (State.cmdRun s v1 v2) := by
  unfold State.cmdRun
  repeat' (first
    | intro y
    | (extract_lets +onlyGivenNames x; first | (refine keep_suff (p := Keep s0 x) ?_ (fun hx => ?_); subst x; rotate_left; clear_value x) | subst x)
    | with_reducible assumption | split | refine keep_upd ?_ rfl rfl rfl rfl rfl rfl rfl rfl)

theorem State.cmdFind_keep {s0 s : State} (h : Keep s0 s) {v1} :
    Keep s0 (State.cmdFind s v1) := by
  unfold State.cmdFind
  repeat' (first
    | intro y
    | (extract_lets +onlyGivenNames x; first | (refine keep_suff (p := Keep s0 x) ?_ (fun hx => ?_); subst x; rotate_left; clear_value x) | subst x)
    | with_reducible assumption | with_reducible apply State.setReg_keep | with_reducible apply State.complete_keep | split)

theorem State.cmdClear_keep {s0 s : State} (h : Keep s0 s) {v1} :
    Keep s0 (State.cmdClear s v1) := by
  unfold State.cmdClear
  repeat' (first
    | intro y
    | (extract_lets +onlyGivenNames x; first | (refine keep_suff (p := Keep s0 x) ?_ (fun hx => ?_); subst x; rotate_left; clear_value x) | subst x)
    | with_reducible assumption | with_reducible apply State.complete_keep | with_reducible apply State.dropJobs_keep
    | with_reducible apply keep_ite | split | refine keep_upd ?_ rfl rfl rfl rfl rfl rfl rfl rfl
    | refine keep_raw ?_ rfl (Nat.le_refl _) (fun i => ⟨i.regs, swfFrom_map _ (fun k v hv => by cases v <;> simp_all) _ (swf_filter _ i.seen), rfl, i.latches, i.staging, i.phi, i.refAt, i.wts, i.seedWt, i.dueAt, i.divAt, i.tagBytes, i.tagWear, i.pingPorts, i.pingFlash, i.phiFlash, i.txc, i.chains, i.beams, i.slots, i.log, i.shedLo, i.shedHi, i.tasks⟩))

theorem State.tagGate_keep {s0 s : State} (h : Keep s0 s) {v1 v2} (hv2 : ∀ s, Keep s0 s → Keep s0 (v2 s)) :
    Keep s0 (State.tagGate s v1 v2) := by
  unfold State.tagGate
  repeat' (first
    | intro y
    | (extract_lets +onlyGivenNames x; first | (refine keep_suff (p := Keep s0 x) ?_ (fun hx => ?_); subst x; rotate_left; clear_value x) | subst x)
    | with_reducible assumption | with_reducible apply hv2 | with_reducible apply State.complete_keep | split)

theorem State.cmdClearGuard_keep {s0 s : State} (h : Keep s0 s) {v1} :
    Keep s0 (State.cmdClearGuard s v1) := by
  unfold State.cmdClearGuard
  repeat' (first
    | intro y
    | (extract_lets +onlyGivenNames x; first | (refine keep_suff (p := Keep s0 x) ?_ (fun hx => ?_); subst x; rotate_left; clear_value x) | subst x)
    | with_reducible assumption | with_reducible apply State.tagGate_keep | with_reducible apply State.complete_keep | split
    | refine keep_upd ?_ rfl rfl rfl rfl rfl rfl rfl rfl)

theorem State.cmdUnlock_keep {s0 s : State} (h : Keep s0 s) {v1} :
    Keep s0 (State.cmdUnlock s v1) := by
  unfold State.cmdUnlock
  repeat' (first
    | intro y
    | (extract_lets +onlyGivenNames x; first | (refine keep_suff (p := Keep s0 x) ?_ (fun hx => ?_); subst x; rotate_left; clear_value x) | subst x)
    | with_reducible assumption | with_reducible apply State.tagGate_keep | with_reducible apply State.complete_keep | split
    | refine keep_upd ?_ rfl rfl rfl rfl rfl rfl rfl rfl)

theorem State.cmdRemap_keep {s0 s : State} (h : Keep s0 s) {v1 v2} :
    Keep s0 (State.cmdRemap s v1 v2) := by
  unfold State.cmdRemap
  repeat' (first
    | intro y
    | (extract_lets +onlyGivenNames x; first | (refine keep_suff (p := Keep s0 x) ?_ (fun hx => ?_); subst x; rotate_left; clear_value x) | subst x)
    | with_reducible assumption | with_reducible apply State.tagGate_keep | with_reducible apply State.complete_keep
    | with_reducible apply State.requestCrumb_keep | with_reducible apply keep_ite | split)

theorem State.cmdCrumbOut_keep {s0 s : State} (h : Keep s0 s) {v1 v2} :
    Keep s0 (State.cmdCrumbOut s v1 v2) := by
  unfold State.cmdCrumbOut
  repeat' (first
    | intro y
    | (extract_lets +onlyGivenNames x; first | (refine keep_suff (p := Keep s0 x) ?_ (fun hx => ?_); subst x; rotate_left; clear_value x) | subst x)
    | with_reducible assumption | with_reducible apply State.tagGate_keep | with_reducible apply State.complete_keep
    | with_reducible apply State.requestCrumb_keep | with_reducible apply State.endReturn_keep | with_reducible apply keep_ite | split
    | refine keep_upd ?_ rfl rfl rfl rfl rfl rfl rfl rfl)

theorem State.cmdCrumbReturn_keep {s0 s : State} (h : Keep s0 s) {v1 v2} :
    Keep s0 (State.cmdCrumbReturn s v1 v2) := by
  unfold State.cmdCrumbReturn
  repeat' (first
    | intro y
    | (extract_lets +onlyGivenNames x; first | (refine keep_suff (p := Keep s0 x) ?_ (fun hx => ?_); subst x; rotate_left; clear_value x) | subst x)
    | with_reducible assumption | with_reducible apply State.tagGate_keep | with_reducible apply State.complete_keep
    | with_reducible apply State.requestCrumb_keep | with_reducible apply keep_ite | split)

theorem State.cmdCal_keep {s0 s : State} (h : Keep s0 s) {v1} :
    Keep s0 (State.cmdCal s v1) := by
  unfold State.cmdCal
  repeat' (first
    | intro y
    | (extract_lets +onlyGivenNames x; first | (refine keep_suff (p := Keep s0 x) ?_ (fun hx => ?_); subst x; rotate_left; clear_value x) | subst x)
    | with_reducible assumption | with_reducible apply State.complete_keep | with_reducible apply keep_ite | split
    | refine keep_upd ?_ rfl rfl rfl rfl rfl rfl rfl rfl)

theorem State.cmdRequest_keep {s0 s : State} (h : Keep s0 s) {v1 v2 v3} :
    Keep s0 (State.cmdRequest s v1 v2 v3) := by
  unfold State.cmdRequest
  repeat' (first
    | intro y
    | (extract_lets +onlyGivenNames x; first | (refine keep_suff (p := Keep s0 x) ?_ (fun hx => ?_); subst x; rotate_left; clear_value x) | subst x)
    | with_reducible assumption | with_reducible apply State.complete_keep | with_reducible apply keep_ite | split
    | refine keep_upd ?_ rfl rfl rfl rfl rfl rfl rfl rfl)

theorem State.cmdMempOut_keep {s0 s : State} (h : Keep s0 s) {v1 v2} :
    Keep s0 (State.cmdMempOut s v1 v2) := by
  unfold State.cmdMempOut
  repeat' (first
    | intro y
    | (extract_lets +onlyGivenNames x; first | (refine keep_suff (p := Keep s0 x) ?_ (fun hx => ?_); subst x; rotate_left; clear_value x) | subst x)
    | with_reducible assumption | with_reducible apply State.complete_keep | with_reducible apply State.memOut_keep
    | with_reducible apply State.endReturn_keep | with_reducible apply State.setBit_keep | with_reducible apply State.settleMemOut_keep
    | with_reducible apply keep_ite | split)

theorem State.cmdMempReturn_keep {s0 s : State} (h : Keep s0 s) {v1 v2} :
    Keep s0 (State.cmdMempReturn s v1 v2) := by
  unfold State.cmdMempReturn
  repeat' (first
    | intro y
    | (extract_lets +onlyGivenNames x; first | (refine keep_suff (p := Keep s0 x) ?_ (fun hx => ?_); subst x; rotate_left; clear_value x) | subst x)
    | with_reducible assumption | with_reducible apply State.complete_keep | with_reducible apply State.startMemReturn_keep
    | with_reducible apply keep_ite | split)

theorem State.cmdMgmtOut_keep {s0 s : State} (h : Keep s0 s) {v1 v2} :
    Keep s0 (State.cmdMgmtOut s v1 v2) := by
  unfold State.cmdMgmtOut
  repeat' (first
    | intro y
    | (extract_lets +onlyGivenNames x; first | (refine keep_suff (p := Keep s0 x) ?_ (fun hx => ?_); subst x; rotate_left; clear_value x) | subst x)
    | with_reducible assumption | with_reducible apply State.complete_keep | with_reducible apply State.halfOut_keep
    | with_reducible apply State.endReturn_keep | with_reducible apply keep_ite | split
    | refine keep_upd ?_ rfl rfl rfl rfl rfl rfl rfl rfl)

theorem State.cmdMgmtReturn_keep {s0 s : State} (h : Keep s0 s) {v1 v2} :
    Keep s0 (State.cmdMgmtReturn s v1 v2) := by
  unfold State.cmdMgmtReturn
  repeat' (first
    | intro y
    | (extract_lets +onlyGivenNames x; first | (refine keep_suff (p := Keep s0 x) ?_ (fun hx => ?_); subst x; rotate_left; clear_value x) | subst x)
    | with_reducible assumption | with_reducible apply State.complete_keep | with_reducible apply State.loadHalf_keep
    | with_reducible apply keep_ite | split)

theorem State.cmdDump_keep {s0 s : State} (h : Keep s0 s) {v1} :
    Keep s0 (State.cmdDump s v1) := by
  unfold State.cmdDump
  repeat' (first
    | intro y
    | (extract_lets +onlyGivenNames x; first | (refine keep_suff (p := Keep s0 x) ?_ (fun hx => ?_); subst x; rotate_left; clear_value x) | subst x)
    | with_reducible assumption | with_reducible apply State.complete_keep | with_reducible apply State.dumpOn_keep
    | with_reducible apply keep_ite | split | refine keep_upd ?_ rfl rfl rfl rfl rfl rfl rfl rfl)

theorem State.cmdDecOut_keep {s0 s : State} (h : Keep s0 s) {v1 v2} :
    Keep s0 (State.cmdDecOut s v1 v2) := by
  unfold State.cmdDecOut
  repeat' (first
    | intro y
    | (extract_lets +onlyGivenNames x; first | (refine keep_suff (p := Keep s0 x) ?_ (fun hx => ?_); subst x; rotate_left; clear_value x) | subst x)
    | with_reducible assumption | with_reducible apply State.complete_keep | with_reducible apply State.endReturn_keep
    | with_reducible apply State.logEvent_keep | with_reducible apply State.syncPool_keep | with_reducible apply State.setBit_keep
    | with_reducible apply State.settleOuts_keep | with_reducible apply State.drainSome_keep | with_reducible apply keep_ite | split)

theorem State.cmdDecReturn_keep {s0 s : State} (h : Keep s0 s) {v1 v2} :
    Keep s0 (State.cmdDecReturn s v1 v2) := by
  unfold State.cmdDecReturn
  repeat' (first
    | intro y
    | (extract_lets +onlyGivenNames x; first | (refine keep_suff (p := Keep s0 x) ?_ (fun hx => ?_); subst x; rotate_left; clear_value x) | subst x)
    | with_reducible assumption | with_reducible apply State.complete_keep | with_reducible apply keep_ite | split)

theorem State.updGate_keep {s0 s : State} (h : Keep s0 s) {v1 v2} (hv2 : ∀ s, Keep s0 s → Keep s0 (v2 s)) :
    Keep s0 (State.updGate s v1 v2) := by
  unfold State.updGate
  repeat' (first
    | intro y
    | (extract_lets +onlyGivenNames x; first | (refine keep_suff (p := Keep s0 x) ?_ (fun hx => ?_); subst x; rotate_left; clear_value x) | subst x)
    | with_reducible assumption | with_reducible apply hv2 | with_reducible apply State.complete_keep | split)

theorem State.serve_keep {s0 s : State} (h : Keep s0 s) {v0 v1} :
    Keep s0 (State.serve v0 v1 s) := by
  unfold State.serve
  repeat' (first
    | intro y
    | (extract_lets +onlyGivenNames x; first | (refine keep_suff (p := Keep s0 x) ?_ (fun hx => ?_); subst x; rotate_left; clear_value x) | subst x)
    | with_reducible assumption | with_reducible apply State.cmdTxcReturn_keep | with_reducible apply State.cmdPortReturn_keep
    | with_reducible apply State.cmdRxcReturn_keep | with_reducible apply State.cmdClearGuard_keep
    | with_reducible apply State.cmdUnlock_keep | with_reducible apply State.cmdRemap_keep | with_reducible apply State.cmdCrumbOut_keep
    | with_reducible apply State.cmdCrumbReturn_keep | with_reducible apply State.cmdCal_keep
    | with_reducible apply State.cmdRequest_keep | with_reducible apply State.cmdMempOut_keep
    | with_reducible apply State.cmdMempReturn_keep | with_reducible apply State.completeFree_keep
    | with_reducible apply State.cmdMgmtOut_keep | with_reducible apply State.cmdMgmtReturn_keep
    | with_reducible apply State.cmdDump_keep | with_reducible apply State.updGate_keep | with_reducible apply State.cmdLoad_keep
    | with_reducible apply State.cmdVerify_keep | with_reducible apply State.cmdArm_keep | with_reducible apply State.cmdSwitchNow_keep
    | with_reducible apply State.cmdConfirm_keep | with_reducible apply State.cmdRevert_keep | with_reducible apply State.cmdAbandon_keep
    | with_reducible apply keep_ite | split)

theorem State.serveHalf_keep {s0 s : State} (h : Keep s0 s) {v0 v1} :
    Keep s0 (State.serveHalf v0 v1 s) := by
  unfold State.serveHalf
  repeat' (first
    | intro y
    | (extract_lets +onlyGivenNames x; first | (refine keep_suff (p := Keep s0 x) ?_ (fun hx => ?_); subst x; rotate_left; clear_value x) | subst x)
    | with_reducible assumption | with_reducible apply State.serve_keep | with_reducible apply keep_ite | split)

theorem State.issueDone_keep {s0 s : State} (h : Keep s0 s) {v1 v2 v3} (hv3 : ∀ x s, Keep s0 s → Keep s0 (v3 x s)) :
    Keep s0 (State.issueDone s v1 v2 v3) := by
  unfold State.issueDone
  repeat' (first
    | intro y
    | (extract_lets +onlyGivenNames x; first | (refine keep_suff (p := Keep s0 x) ?_ (fun hx => ?_); subst x; rotate_left; clear_value x) | subst x)
    | with_reducible assumption | with_reducible apply hv3 | with_reducible apply State.issue_keep | split)

theorem State.issueTxcOut_keep {s0 s : State} (h : Keep s0 s) {v1} :
    Keep s0 (State.issueTxcOut s v1) := by
  unfold State.issueTxcOut
  repeat' (first
    | intro y
    | (extract_lets +onlyGivenNames x; first | (refine keep_suff (p := Keep s0 x) ?_ (fun hx => ?_); subst x; rotate_left; clear_value x) | subst x)
    | with_reducible assumption | with_reducible apply State.issueDone_keep | with_reducible apply State.cmdTxcOut_keep | split)

theorem State.issueTxcReturn_keep {s0 s : State} (h : Keep s0 s) {v1} :
    Keep s0 (State.issueTxcReturn s v1) := by
  unfold State.issueTxcReturn
  repeat' (first
    | intro y
    | (extract_lets +onlyGivenNames x; first | (refine keep_suff (p := Keep s0 x) ?_ (fun hx => ?_); subst x; rotate_left; clear_value x) | subst x)
    | with_reducible assumption | with_reducible apply State.issueDone_keep | with_reducible apply State.serveHalf_keep | split)

theorem State.issuePortOut_keep {s0 s : State} (h : Keep s0 s) {v1} :
    Keep s0 (State.issuePortOut s v1) := by
  unfold State.issuePortOut
  repeat' (first
    | intro y
    | (extract_lets +onlyGivenNames x; first | (refine keep_suff (p := Keep s0 x) ?_ (fun hx => ?_); subst x; rotate_left; clear_value x) | subst x)
    | with_reducible assumption | with_reducible apply State.issueDone_keep | with_reducible apply State.cmdPortOut_keep | split)

theorem State.issuePortReturn_keep {s0 s : State} (h : Keep s0 s) {v1} :
    Keep s0 (State.issuePortReturn s v1) := by
  unfold State.issuePortReturn
  repeat' (first
    | intro y
    | (extract_lets +onlyGivenNames x; first | (refine keep_suff (p := Keep s0 x) ?_ (fun hx => ?_); subst x; rotate_left; clear_value x) | subst x)
    | with_reducible assumption | with_reducible apply State.issueDone_keep | with_reducible apply State.serveHalf_keep | split)

theorem State.issueRxcOut_keep {s0 s : State} (h : Keep s0 s) {v1} :
    Keep s0 (State.issueRxcOut s v1) := by
  unfold State.issueRxcOut
  repeat' (first
    | intro y
    | (extract_lets +onlyGivenNames x; first | (refine keep_suff (p := Keep s0 x) ?_ (fun hx => ?_); subst x; rotate_left; clear_value x) | subst x)
    | with_reducible assumption | with_reducible apply State.issueDone_keep | with_reducible apply State.cmdRxcOut_keep | split)

theorem State.issueRxcReturn_keep {s0 s : State} (h : Keep s0 s) {v1} :
    Keep s0 (State.issueRxcReturn s v1) := by
  unfold State.issueRxcReturn
  repeat' (first
    | intro y
    | (extract_lets +onlyGivenNames x; first | (refine keep_suff (p := Keep s0 x) ?_ (fun hx => ?_); subst x; rotate_left; clear_value x) | subst x)
    | with_reducible assumption | with_reducible apply State.issueDone_keep | with_reducible apply State.serveHalf_keep | split)

theorem State.issueRun_keep {s0 s : State} (h : Keep s0 s) {v1} :
    Keep s0 (State.issueRun s v1) := by
  unfold State.issueRun
  repeat' (first
    | intro y
    | (extract_lets +onlyGivenNames x; first | (refine keep_suff (p := Keep s0 x) ?_ (fun hx => ?_); subst x; rotate_left; clear_value x) | subst x)
    | with_reducible assumption | with_reducible apply State.issue_keep | with_reducible apply State.cmdRun_keep | split)

theorem State.issueFind_keep {s0 s : State} (h : Keep s0 s) :
    Keep s0 (State.issueFind s) := by
  unfold State.issueFind
  repeat' (first
    | intro y
    | (extract_lets +onlyGivenNames x; first | (refine keep_suff (p := Keep s0 x) ?_ (fun hx => ?_); subst x; rotate_left; clear_value x) | subst x)
    | with_reducible assumption | with_reducible apply State.issueDone_keep | with_reducible apply State.cmdFind_keep | split)

theorem State.issueClear_keep {s0 s : State} (h : Keep s0 s) :
    Keep s0 (State.issueClear s) := by
  unfold State.issueClear
  repeat' (first
    | intro y
    | (extract_lets +onlyGivenNames x; first | (refine keep_suff (p := Keep s0 x) ?_ (fun hx => ?_); subst x; rotate_left; clear_value x) | subst x)
    | with_reducible assumption | with_reducible apply State.issueDone_keep | with_reducible apply State.cmdClear_keep | split)

theorem State.issueClearGuard_keep {s0 s : State} (h : Keep s0 s) :
    Keep s0 (State.issueClearGuard s) := by
  unfold State.issueClearGuard
  repeat' (first
    | intro y
    | (extract_lets +onlyGivenNames x; first | (refine keep_suff (p := Keep s0 x) ?_ (fun hx => ?_); subst x; rotate_left; clear_value x) | subst x)
    | with_reducible assumption | with_reducible apply State.issueDone_keep | with_reducible apply State.serveHalf_keep | split)

theorem State.issueUnlock_keep {s0 s : State} (h : Keep s0 s) :
    Keep s0 (State.issueUnlock s) := by
  unfold State.issueUnlock
  repeat' (first
    | intro y
    | (extract_lets +onlyGivenNames x; first | (refine keep_suff (p := Keep s0 x) ?_ (fun hx => ?_); subst x; rotate_left; clear_value x) | subst x)
    | with_reducible assumption | with_reducible apply State.issueDone_keep | with_reducible apply State.serveHalf_keep | split)

theorem State.issueRemap_keep {s0 s : State} (h : Keep s0 s) {v1} :
    Keep s0 (State.issueRemap s v1) := by
  unfold State.issueRemap
  repeat' (first
    | intro y
    | (extract_lets +onlyGivenNames x; first | (refine keep_suff (p := Keep s0 x) ?_ (fun hx => ?_); subst x; rotate_left; clear_value x) | subst x)
    | with_reducible assumption | with_reducible apply State.issueDone_keep | with_reducible apply State.serveHalf_keep | split)

theorem State.issueCrumbOut_keep {s0 s : State} (h : Keep s0 s) {v1} :
    Keep s0 (State.issueCrumbOut s v1) := by
  unfold State.issueCrumbOut
  repeat' (first
    | intro y
    | (extract_lets +onlyGivenNames x; first | (refine keep_suff (p := Keep s0 x) ?_ (fun hx => ?_); subst x; rotate_left; clear_value x) | subst x)
    | with_reducible assumption | with_reducible apply State.issueDone_keep | with_reducible apply State.serveHalf_keep | split)

theorem State.issueCrumbReturn_keep {s0 s : State} (h : Keep s0 s) {v1} :
    Keep s0 (State.issueCrumbReturn s v1) := by
  unfold State.issueCrumbReturn
  repeat' (first
    | intro y
    | (extract_lets +onlyGivenNames x; first | (refine keep_suff (p := Keep s0 x) ?_ (fun hx => ?_); subst x; rotate_left; clear_value x) | subst x)
    | with_reducible assumption | with_reducible apply State.issueDone_keep | with_reducible apply State.serveHalf_keep | split)

theorem State.issueCal_keep {s0 s : State} (h : Keep s0 s) :
    Keep s0 (State.issueCal s) := by
  unfold State.issueCal
  repeat' (first
    | intro y
    | (extract_lets +onlyGivenNames x; first | (refine keep_suff (p := Keep s0 x) ?_ (fun hx => ?_); subst x; rotate_left; clear_value x) | subst x)
    | with_reducible assumption | with_reducible apply State.issueDone_keep | with_reducible apply State.serveHalf_keep | split)

theorem State.issueRequest_keep {s0 s : State} (h : Keep s0 s) {v1 v2} :
    Keep s0 (State.issueRequest s v1 v2) := by
  unfold State.issueRequest
  repeat' (first
    | intro y
    | (extract_lets +onlyGivenNames x; first | (refine keep_suff (p := Keep s0 x) ?_ (fun hx => ?_); subst x; rotate_left; clear_value x) | subst x)
    | with_reducible assumption | with_reducible apply State.issueDone_keep | with_reducible apply State.serveHalf_keep | split)

theorem State.issueMempOut_keep {s0 s : State} (h : Keep s0 s) {v1} :
    Keep s0 (State.issueMempOut s v1) := by
  unfold State.issueMempOut
  repeat' (first
    | intro y
    | (extract_lets +onlyGivenNames x; first | (refine keep_suff (p := Keep s0 x) ?_ (fun hx => ?_); subst x; rotate_left; clear_value x) | subst x)
    | with_reducible assumption | with_reducible apply State.issueDone_keep | with_reducible apply State.serveHalf_keep | split)

theorem State.issueMempReturn_keep {s0 s : State} (h : Keep s0 s) {v1} :
    Keep s0 (State.issueMempReturn s v1) := by
  unfold State.issueMempReturn
  repeat' (first
    | intro y
    | (extract_lets +onlyGivenNames x; first | (refine keep_suff (p := Keep s0 x) ?_ (fun hx => ?_); subst x; rotate_left; clear_value x) | subst x)
    | with_reducible assumption | with_reducible apply State.issueDone_keep | with_reducible apply State.serveHalf_keep | split)

theorem State.issueMgmtOut_keep {s0 s : State} (h : Keep s0 s) {v1} :
    Keep s0 (State.issueMgmtOut s v1) := by
  unfold State.issueMgmtOut
  repeat' (first
    | intro y
    | (extract_lets +onlyGivenNames x; first | (refine keep_suff (p := Keep s0 x) ?_ (fun hx => ?_); subst x; rotate_left; clear_value x) | subst x)
    | with_reducible assumption | with_reducible apply State.issueDone_keep | with_reducible apply State.serveHalf_keep | split)

theorem State.issueMgmtReturn_keep {s0 s : State} (h : Keep s0 s) {v1} :
    Keep s0 (State.issueMgmtReturn s v1) := by
  unfold State.issueMgmtReturn
  repeat' (first
    | intro y
    | (extract_lets +onlyGivenNames x; first | (refine keep_suff (p := Keep s0 x) ?_ (fun hx => ?_); subst x; rotate_left; clear_value x) | subst x)
    | with_reducible assumption | with_reducible apply State.issueDone_keep | with_reducible apply State.serveHalf_keep | split)

theorem State.issueDump_keep {s0 s : State} (h : Keep s0 s) :
    Keep s0 (State.issueDump s) := by
  unfold State.issueDump
  repeat' (first
    | intro y
    | (extract_lets +onlyGivenNames x; first | (refine keep_suff (p := Keep s0 x) ?_ (fun hx => ?_); subst x; rotate_left; clear_value x) | subst x)
    | with_reducible assumption | with_reducible apply State.issueDone_keep | with_reducible apply State.serveHalf_keep | split)

theorem State.issueDecOut_keep {s0 s : State} (h : Keep s0 s) {v1} :
    Keep s0 (State.issueDecOut s v1) := by
  unfold State.issueDecOut
  repeat' (first
    | intro y
    | (extract_lets +onlyGivenNames x; first | (refine keep_suff (p := Keep s0 x) ?_ (fun hx => ?_); subst x; rotate_left; clear_value x) | subst x)
    | with_reducible assumption | with_reducible apply State.issueDone_keep | with_reducible apply State.cmdDecOut_keep | split)

theorem State.issueDecReturn_keep {s0 s : State} (h : Keep s0 s) {v1} :
    Keep s0 (State.issueDecReturn s v1) := by
  unfold State.issueDecReturn
  repeat' (first
    | intro y
    | (extract_lets +onlyGivenNames x; first | (refine keep_suff (p := Keep s0 x) ?_ (fun hx => ?_); subst x; rotate_left; clear_value x) | subst x)
    | with_reducible assumption | with_reducible apply State.issueDone_keep | with_reducible apply State.cmdDecReturn_keep | split)

theorem State.issuePeerTx_keep {s0 s : State} (h : Keep s0 s) {v1 v2} :
    Keep s0 (State.issuePeerTx s v1 v2) := by
  unfold State.issuePeerTx
  repeat' (first
    | intro y
    | (extract_lets +onlyGivenNames x; first | (refine keep_suff (p := Keep s0 x) ?_ (fun hx => ?_); subst x; rotate_left; clear_value x) | subst x)
    | with_reducible assumption | with_reducible apply State.issueDone_keep | with_reducible apply State.cmdPeerTx_keep | split)

theorem State.issueLoad_keep {s0 s : State} (h : Keep s0 s) {v1} :
    Keep s0 (State.issueLoad s v1) := by
  unfold State.issueLoad
  repeat' (first
    | intro y
    | (extract_lets +onlyGivenNames x; first | (refine keep_suff (p := Keep s0 x) ?_ (fun hx => ?_); subst x; rotate_left; clear_value x) | subst x)
    | with_reducible assumption | with_reducible apply State.issueDone_keep | with_reducible apply State.serveHalf_keep | split)

theorem State.issueVerify_keep {s0 s : State} (h : Keep s0 s) :
    Keep s0 (State.issueVerify s) := by
  unfold State.issueVerify
  repeat' (first
    | intro y
    | (extract_lets +onlyGivenNames x; first | (refine keep_suff (p := Keep s0 x) ?_ (fun hx => ?_); subst x; rotate_left; clear_value x) | subst x)
    | with_reducible assumption | with_reducible apply State.issueDone_keep | with_reducible apply State.serveHalf_keep | split)

theorem State.issueArm_keep {s0 s : State} (h : Keep s0 s) :
    Keep s0 (State.issueArm s) := by
  unfold State.issueArm
  repeat' (first
    | intro y
    | (extract_lets +onlyGivenNames x; first | (refine keep_suff (p := Keep s0 x) ?_ (fun hx => ?_); subst x; rotate_left; clear_value x) | subst x)
    | with_reducible assumption | with_reducible apply State.issueDone_keep | with_reducible apply State.serveHalf_keep | split)

theorem State.issueSwitchNow_keep {s0 s : State} (h : Keep s0 s) :
    Keep s0 (State.issueSwitchNow s) := by
  unfold State.issueSwitchNow
  repeat' (first
    | intro y
    | (extract_lets +onlyGivenNames x; first | (refine keep_suff (p := Keep s0 x) ?_ (fun hx => ?_); subst x; rotate_left; clear_value x) | subst x)
    | with_reducible assumption | with_reducible apply State.issueDone_keep | with_reducible apply State.serveHalf_keep | split)

theorem State.issueConfirm_keep {s0 s : State} (h : Keep s0 s) :
    Keep s0 (State.issueConfirm s) := by
  unfold State.issueConfirm
  repeat' (first
    | intro y
    | (extract_lets +onlyGivenNames x; first | (refine keep_suff (p := Keep s0 x) ?_ (fun hx => ?_); subst x; rotate_left; clear_value x) | subst x)
    | with_reducible assumption | with_reducible apply State.issueDone_keep | with_reducible apply State.serveHalf_keep | split)

theorem State.issueRevert_keep {s0 s : State} (h : Keep s0 s) :
    Keep s0 (State.issueRevert s) := by
  unfold State.issueRevert
  repeat' (first
    | intro y
    | (extract_lets +onlyGivenNames x; first | (refine keep_suff (p := Keep s0 x) ?_ (fun hx => ?_); subst x; rotate_left; clear_value x) | subst x)
    | with_reducible assumption | with_reducible apply State.issueDone_keep | with_reducible apply State.serveHalf_keep | split)

theorem State.issueAbandon_keep {s0 s : State} (h : Keep s0 s) :
    Keep s0 (State.issueAbandon s) := by
  unfold State.issueAbandon
  repeat' (first
    | intro y
    | (extract_lets +onlyGivenNames x; first | (refine keep_suff (p := Keep s0 x) ?_ (fun hx => ?_); subst x; rotate_left; clear_value x) | subst x)
    | with_reducible assumption | with_reducible apply State.issueDone_keep | with_reducible apply State.serveHalf_keep | split)

theorem State.sampleLands_keep {s0 s : State} (h : Keep s0 s) :
    Keep s0 (State.sampleLands s).2 := by
  unfold State.sampleLands
  repeat' (first
    | intro y
    | (extract_lets +onlyGivenNames x; first | (refine keep_suff (p := Keep s0 x) ?_ (fun hx => ?_); subst x; rotate_left; clear_value x) | subst x)
    | with_reducible assumption | with_reducible apply State.drawBool_keep | with_reducible apply keep_foldl
    | with_reducible apply keep_foldl1 | with_reducible apply keep_foldl2 | with_reducible apply keep_ite
    | refine keep_pair ?_ (by with_reducible assumption) | refine keep_pair1 ?_ (by with_reducible assumption) | split)

theorem execPor_keep {s0 s : State} (h : Keep s0 s) :
    OKeep s0 (execPor s) := by
  unfold execPor
  repeat' (first
    | intro y
    | (extract_lets +onlyGivenNames x; first | (refine keep_suff (p := Keep s0 x) ?_ (fun hx => ?_); subst x; rotate_left; clear_value x) | subst x)
    | with_reducible assumption | with_reducible apply State.takeReset_keep | with_reducible apply State.restartLockout_keep
    | with_reducible apply okeep_next | with_reducible apply keep_ite | split | refine keep_upd ?_ rfl rfl rfl rfl rfl rfl rfl rfl)

theorem execVaoBor_keep {s0 s : State} (h : Keep s0 s) :
    OKeep s0 (execVaoBor s) := by
  unfold execVaoBor
  repeat' (first
    | intro y
    | (extract_lets +onlyGivenNames x; first | (refine keep_suff (p := Keep s0 x) ?_ (fun hx => ?_); subst x; rotate_left; clear_value x) | subst x)
    | with_reducible assumption | with_reducible apply State.triggerReset_keep | with_reducible apply okeep_next | split
    | refine keep_upd ?_ rfl rfl rfl rfl rfl rfl rfl rfl)

theorem execVinBor_keep {s0 s : State} (h : Keep s0 s) :
    OKeep s0 (execVinBor s) := by
  unfold execVinBor
  repeat' (first
    | intro y
    | (extract_lets +onlyGivenNames x; first | (refine keep_suff (p := Keep s0 x) ?_ (fun hx => ?_); subst x; rotate_left; clear_value x) | subst x)
    | with_reducible assumption | with_reducible apply State.restartLockout_keep | with_reducible apply State.triggerReset_keep
    | with_reducible apply okeep_next | with_reducible apply keep_ite | split | refine keep_upd ?_ rfl rfl rfl rfl rfl rfl rfl rfl)

theorem State.pinReset_keep {s0 s : State} (h : Keep s0 s) :
    Keep s0 (State.pinReset s) := by
  unfold State.pinReset
  repeat' (first
    | intro y
    | (extract_lets +onlyGivenNames x; first | (refine keep_suff (p := Keep s0 x) ?_ (fun hx => ?_); subst x; rotate_left; clear_value x) | subst x)
    | with_reducible assumption | with_reducible apply State.triggerReset_keep | split
    | refine keep_upd ?_ rfl rfl rfl rfl rfl rfl rfl rfl)

theorem execPin_keep {s0 s : State} (h : Keep s0 s) {v0} :
    OKeep s0 (execPin v0 s) := by
  unfold execPin
  repeat' (first
    | intro y
    | (extract_lets +onlyGivenNames x; first | (refine keep_suff (p := Keep s0 x) ?_ (fun hx => ?_); subst x; rotate_left; clear_value x) | subst x)
    | with_reducible assumption | with_reducible apply State.drawBool_keep | with_reducible apply State.pinReset_keep
    | with_reducible apply okeep_next | with_reducible apply keep_ite | refine keep_pair ?_ (by with_reducible assumption) | split)

theorem execRstNRise_keep {s0 s : State} (h : Keep s0 s) :
    OKeep s0 (execRstNRise s) := by
  unfold execRstNRise
  repeat' (first
    | intro y
    | (extract_lets +onlyGivenNames x; first | (refine keep_suff (p := Keep s0 x) ?_ (fun hx => ?_); subst x; rotate_left; clear_value x) | subst x)
    | with_reducible assumption | with_reducible apply okeep_next | split | refine keep_upd ?_ rfl rfl rfl rfl rfl rfl rfl rfl)

theorem execResetEffect_keep {s0 s : State} (h : Keep s0 s) :
    OKeep s0 (execResetEffect s) := by
  unfold execResetEffect
  repeat' (first
    | intro y
    | (extract_lets +onlyGivenNames x; first | (refine keep_suff (p := Keep s0 x) ?_ (fun hx => ?_); subst x; rotate_left; clear_value x) | subst x)
    | with_reducible assumption | with_reducible apply State.takeReset_keep | with_reducible apply okeep_next
    | with_reducible apply keep_foldl | with_reducible apply keep_foldl1 | with_reducible apply keep_foldl2
    | with_reducible apply keep_ite | refine keep_pair ?_ (by with_reducible assumption)
    | refine keep_pair1 ?_ (by with_reducible assumption) | split | refine keep_upd ?_ rfl rfl rfl rfl rfl rfl rfl rfl)

theorem execResetRelease_keep {s0 s : State} (h : Keep s0 s) :
    OKeep s0 (execResetRelease s) := by
  unfold execResetRelease
  repeat' (first
    | intro y
    | (extract_lets +onlyGivenNames x; first | (refine keep_suff (p := Keep s0 x) ?_ (fun hx => ?_); subst x; rotate_left; clear_value x) | subst x)
    | with_reducible assumption | with_reducible apply State.setFld_keep | with_reducible apply State.setBit_keep
    | with_reducible apply okeep_next | with_reducible apply keep_ite | split | refine keep_upd ?_ rfl rfl rfl rfl rfl rfl rfl rfl)

theorem execVioPowerOn_keep {s0 s : State} (h : Keep s0 s) {v0} :
    OKeep s0 (execVioPowerOn v0 s) := by
  unfold execVioPowerOn
  repeat' (first
    | intro y
    | (extract_lets +onlyGivenNames x; first | (refine keep_suff (p := Keep s0 x) ?_ (fun hx => ?_); subst x; rotate_left; clear_value x) | subst x)
    | with_reducible assumption | with_reducible apply okeep_next | with_reducible apply okeep_fault | with_reducible apply keep_ite
    | split | refine keep_upd ?_ rfl rfl rfl rfl rfl rfl rfl rfl)

theorem execVioLoss_keep {s0 s : State} (h : Keep s0 s) :
    OKeep s0 (execVioLoss s) := by
  unfold execVioLoss
  repeat' (first
    | intro y
    | (extract_lets +onlyGivenNames x; first | (refine keep_suff (p := Keep s0 x) ?_ (fun hx => ?_); subst x; rotate_left; clear_value x) | subst x)
    | with_reducible assumption | with_reducible apply State.freeCrumbs_keep | with_reducible apply okeep_next | split
    | refine keep_upd ?_ rfl rfl rfl rfl rfl rfl rfl rfl)

theorem execAoXtalSwitch_keep {s0 s : State} (h : Keep s0 s) :
    OKeep s0 (execAoXtalSwitch s) := by
  unfold execAoXtalSwitch
  repeat' (first
    | intro y
    | (extract_lets +onlyGivenNames x; first | (refine keep_suff (p := Keep s0 x) ?_ (fun hx => ?_); subst x; rotate_left; clear_value x) | subst x)
    | with_reducible assumption | with_reducible apply State.setBit_keep | with_reducible apply okeep_next
    | with_reducible apply keep_ite | split)

theorem execAoXtalFail_keep {s0 s : State} (h : Keep s0 s) :
    OKeep s0 (execAoXtalFail s) := by
  unfold execAoXtalFail
  repeat' (first
    | intro y
    | (extract_lets +onlyGivenNames x; first | (refine keep_suff (p := Keep s0 x) ?_ (fun hx => ?_); subst x; rotate_left; clear_value x) | subst x)
    | with_reducible assumption | with_reducible apply State.logEvent_keep | with_reducible apply State.setBit_keep
    | with_reducible apply okeep_next | with_reducible apply keep_ite | split)

theorem execRefinSignal_keep {s0 s : State} (h : Keep s0 s) {v0 v1 v2} :
    OKeep s0 (execRefinSignal v0 v1 v2 s) := by
  unfold execRefinSignal
  repeat' (first
    | intro y
    | (extract_lets +onlyGivenNames x; first | (refine keep_suff (p := Keep s0 x) ?_ (fun hx => ?_); subst x; rotate_left; clear_value x) | subst x)
    | with_reducible assumption | with_reducible apply State.setBit_keep | with_reducible apply State.drawBool_keep
    | with_reducible apply okeep_next | with_reducible apply keep_ite | refine keep_pair ?_ (by with_reducible assumption) | split)

theorem State.refMove_keep {s0 s : State} (h : Keep s0 s) :
    Keep s0 (State.refMove s) := by
  unfold State.refMove
  repeat' (first
    | intro y
    | (extract_lets +onlyGivenNames x; first | (refine keep_suff (p := Keep s0 x) ?_ (fun hx => ?_); subst x; rotate_left; clear_value x) | subst x)
    | with_reducible assumption | with_reducible apply State.setBit_keep | with_reducible apply keep_ite | split)

theorem execRefinValid_keep {s0 s : State} (h : Keep s0 s) {v0} :
    OKeep s0 (execRefinValid v0 s) := by
  unfold execRefinValid
  repeat' (first
    | intro y
    | (extract_lets +onlyGivenNames x; first | (refine keep_suff (p := Keep s0 x) ?_ (fun hx => ?_); subst x; rotate_left; clear_value x) | subst x)
    | with_reducible assumption | with_reducible apply State.refMove_keep | with_reducible apply State.setBit_keep
    | with_reducible apply State.setFld_keep | with_reducible apply okeep_next | with_reducible apply keep_ite | split)

theorem execRefinLost_keep {s0 s : State} (h : Keep s0 s) :
    OKeep s0 (execRefinLost s) := by
  unfold execRefinLost
  repeat' (first
    | intro y
    | (extract_lets +onlyGivenNames x; first | (refine keep_suff (p := Keep s0 x) ?_ (fun hx => ?_); subst x; rotate_left; clear_value x) | subst x)
    | with_reducible assumption | with_reducible apply State.raise_keep | with_reducible apply State.setBit_keep
    | with_reducible apply State.logEvent_keep | with_reducible apply State.refMove_keep | with_reducible apply okeep_next
    | with_reducible apply keep_ite | split)

theorem execRefSlewEnd_keep {s0 s : State} (h : Keep s0 s) :
    OKeep s0 (execRefSlewEnd s) := by
  unfold execRefSlewEnd
  repeat' (first
    | intro y
    | (extract_lets +onlyGivenNames x; first | (refine keep_suff (p := Keep s0 x) ?_ (fun hx => ?_); subst x; rotate_left; clear_value x) | subst x)
    | with_reducible assumption | with_reducible apply State.setBit_keep | with_reducible apply okeep_next
    | with_reducible apply keep_ite | split)

theorem execClkfail_keep {s0 s : State} (h : Keep s0 s) {v0} :
    OKeep s0 (execClkfail v0 s) := by
  unfold execClkfail
  repeat' (first
    | intro y
    | (extract_lets +onlyGivenNames x; first | (refine keep_suff (p := Keep s0 x) ?_ (fun hx => ?_); subst x; rotate_left; clear_value x) | subst x)
    | with_reducible assumption | with_reducible apply State.triggerReset_keep | with_reducible apply okeep_next
    | with_reducible apply keep_ite | split)

theorem State.setTap_keep {s0 s : State} (h : Keep s0 s) {v1} :
    Keep s0 (State.setTap s v1) := by
  unfold State.setTap
  repeat' (first
    | intro y
    | (extract_lets +onlyGivenNames x; first | (refine keep_suff (p := Keep s0 x) ?_ (fun hx => ?_); subst x; rotate_left; clear_value x) | subst x)
    | with_reducible assumption | with_reducible apply State.triggerReset_keep | with_reducible apply keep_ite | split
    | refine keep_upd ?_ rfl rfl rfl rfl rfl rfl rfl rfl)

theorem State.shiftOut_keep {s0 s : State} (h : Keep s0 s) {v1} :
    Keep s0 (State.shiftOut s v1) := by
  unfold State.shiftOut
  repeat' (first
    | intro y
    | (extract_lets +onlyGivenNames x; first | (refine keep_suff (p := Keep s0 x) ?_ (fun hx => ?_); subst x; rotate_left; clear_value x) | subst x)
    | with_reducible assumption | with_reducible apply keep_ite | split | refine keep_upd ?_ rfl rfl rfl rfl rfl rfl rfl rfl)

theorem execBypass_keep {s0 s : State} (h : Keep s0 s) :
    OKeep s0 (execBypass s) := by
  unfold execBypass
  repeat' (first
    | intro y
    | (extract_lets +onlyGivenNames x; first | (refine keep_suff (p := Keep s0 x) ?_ (fun hx => ?_); subst x; rotate_left; clear_value x) | subst x)
    | with_reducible assumption | with_reducible apply State.shiftOut_keep | with_reducible apply State.setTap_keep
    | with_reducible apply okeep_next | with_reducible apply keep_ite | split)

theorem execIdcode_keep {s0 s : State} (h : Keep s0 s) :
    OKeep s0 (execIdcode s) := by
  unfold execIdcode
  repeat' (first
    | intro y
    | (extract_lets +onlyGivenNames x; first | (refine keep_suff (p := Keep s0 x) ?_ (fun hx => ?_); subst x; rotate_left; clear_value x) | subst x)
    | with_reducible assumption | with_reducible apply State.shiftOut_keep | with_reducible apply State.setTap_keep
    | with_reducible apply okeep_next | with_reducible apply keep_ite | split)

theorem State.scanLands_keep {s0 s : State} (h : Keep s0 s) :
    Keep s0 (State.scanLands s) := by
  unfold State.scanLands
  repeat' (first
    | intro y
    | (extract_lets +onlyGivenNames x; first | (refine keep_suff (p := Keep s0 x) ?_ (fun hx => ?_); subst x; rotate_left; clear_value x) | subst x)
    | with_reducible assumption | with_reducible apply State.sampleLands_keep | with_reducible apply State.shiftOut_keep
    | refine keep_pair ?_ (by with_reducible assumption) | split)

theorem State.loadScan_keep {s0 s : State} (h : Keep s0 s) :
    Keep s0 (State.loadScan s) := by
  unfold State.loadScan
  repeat' (first
    | intro y
    | (extract_lets +onlyGivenNames x; first | (refine keep_suff (p := Keep s0 x) ?_ (fun hx => ?_); subst x; rotate_left; clear_value x) | subst x)
    | with_reducible assumption | with_reducible apply State.drawWord_keep | refine keep_pair ?_ (by with_reducible assumption) | split
    | refine keep_upd ?_ rfl rfl rfl rfl rfl rfl rfl rfl)

theorem execSamplePreload_keep {s0 s : State} (h : Keep s0 s) :
    OKeep s0 (execSamplePreload s) := by
  unfold execSamplePreload
  repeat' (first
    | intro y
    | (extract_lets +onlyGivenNames x; first | (refine keep_suff (p := Keep s0 x) ?_ (fun hx => ?_); subst x; rotate_left; clear_value x) | subst x)
    | with_reducible assumption | with_reducible apply State.loadScan_keep | with_reducible apply State.scanLands_keep
    | with_reducible apply State.setTap_keep | with_reducible apply okeep_next | with_reducible apply keep_ite | split)

theorem execExtest_keep {s0 s : State} (h : Keep s0 s) :
    OKeep s0 (execExtest s) := by
  unfold execExtest
  repeat' (first
    | intro y
    | (extract_lets +onlyGivenNames x; first | (refine keep_suff (p := Keep s0 x) ?_ (fun hx => ?_); subst x; rotate_left; clear_value x) | subst x)
    | with_reducible assumption | with_reducible apply State.loadScan_keep | with_reducible apply State.scanLands_keep
    | with_reducible apply State.stopRound_keep | with_reducible apply State.updTx_keep | with_reducible apply State.setRamp_keep
    | with_reducible apply State.rampDown_keep | with_reducible apply State.deafPort_keep | with_reducible apply okeep_next
    | with_reducible apply keep_foldl | with_reducible apply keep_foldl1 | with_reducible apply keep_foldl2
    | with_reducible apply keep_ite | refine keep_pair ?_ (by with_reducible assumption)
    | refine keep_pair1 ?_ (by with_reducible assumption) | split | refine keep_upd ?_ rfl rfl rfl rfl rfl rfl rfl rfl)

theorem execLeaveExtest_keep {s0 s : State} (h : Keep s0 s) :
    OKeep s0 (execLeaveExtest s) := by
  unfold execLeaveExtest
  repeat' (first
    | intro y
    | (extract_lets +onlyGivenNames x; first | (refine keep_suff (p := Keep s0 x) ?_ (fun hx => ?_); subst x; rotate_left; clear_value x) | subst x)
    | with_reducible assumption | with_reducible apply State.setTap_keep | with_reducible apply okeep_next
    | with_reducible apply keep_ite | split)

theorem State.plainWrite_keep {s0 s : State} (h : Keep s0 s) {v1 v2} :
    Keep s0 (State.plainWrite s v1 v2) := by
  unfold State.plainWrite
  repeat' (first
    | intro y
    | (extract_lets +onlyGivenNames x; first | (refine keep_suff (p := Keep s0 x) ?_ (fun hx => ?_); subst x; rotate_left; clear_value x) | subst x)
    | with_reducible assumption | with_reducible apply State.loseAnt_keep | with_reducible apply State.setReg_keep
    | with_reducible apply keep_ite | split)

theorem State.setRegs_keep {s0 s : State} (h : Keep s0 s) {v1 v2} :
    Keep s0 (State.setRegs s v1 v2) := by
  induction v2 generalizing s v1 with
  | nil =>
    unfold State.setRegs
    repeat' (first
      | intro y
      | (extract_lets +onlyGivenNames x; first | (refine keep_suff (p := Keep s0 x) ?_ (fun hx => ?_); subst x; rotate_left; clear_value x) | subst x)
      | with_reducible assumption | with_reducible apply State.setReg_keep | split)
  | cons e r ih =>
    unfold State.setRegs
    repeat' (first
      | intro y
      | (extract_lets +onlyGivenNames x; first | (refine keep_suff (p := Keep s0 x) ?_ (fun hx => ?_); subst x; rotate_left; clear_value x) | subst x)
      | with_reducible assumption | with_reducible apply ih | with_reducible apply State.setReg_keep | split)

theorem State.commitGroup_keep {s0 s : State} (h : Keep s0 s) {v1 v2 v3} :
    Keep s0 (State.commitGroup s v1 v2 v3) := by
  unfold State.commitGroup
  repeat' (first
    | intro y
    | (extract_lets +onlyGivenNames x; first | (refine keep_suff (p := Keep s0 x) ?_ (fun hx => ?_); subst x; rotate_left; clear_value x) | subst x)
    | with_reducible assumption | with_reducible apply State.unstage_keep | with_reducible apply State.setRegs_keep
    | with_reducible apply State.setBit_keep | with_reducible apply keep_ite | split)

theorem State.writeSysCtrl_keep {s0 s : State} (h : Keep s0 s) {v1} :
    Keep s0 (State.writeSysCtrl s v1) := by
  unfold State.writeSysCtrl
  repeat' (first
    | intro y
    | (extract_lets +onlyGivenNames x; first | (refine keep_suff (p := Keep s0 x) ?_ (fun hx => ?_); subst x; rotate_left; clear_value x) | subst x)
    | with_reducible assumption | with_reducible apply State.triggerReset_keep | with_reducible apply keep_ite | split)

theorem State.writeProofCmd_keep {s0 s : State} (h : Keep s0 s) {v1} :
    Keep s0 (State.writeProofCmd s v1) := by
  unfold State.writeProofCmd
  repeat' (first
    | intro y
    | (extract_lets +onlyGivenNames x; first | (refine keep_suff (p := Keep s0 x) ?_ (fun hx => ?_); subst x; rotate_left; clear_value x) | subst x)
    | with_reducible assumption | with_reducible apply State.setBit_keep | with_reducible apply State.startProof_keep
    | with_reducible apply keep_ite | split | refine keep_upd ?_ rfl rfl rfl rfl rfl rfl rfl rfl)

theorem outReturn_keep {s0 s : State} (h : Keep s0 s) {v0 v1 v2} (hv1 : ∀ s, Keep s0 s → Keep s0 (v1 s)) (hv2 : ∀ s, Keep s0 s → Keep s0
    (v2 s)) :
    Keep s0 (outReturn v0 v1 v2 s) := by
  unfold outReturn
  repeat' (first
    | intro y
    | (extract_lets +onlyGivenNames x; first | (refine keep_suff (p := Keep s0 x) ?_ (fun hx => ?_); subst x; rotate_left; clear_value x) | subst x)
    | with_reducible assumption | with_reducible apply hv1 | with_reducible apply hv2 | split)

theorem State.writeSchedCtrl_keep {s0 s : State} (h : Keep s0 s) {v1} :
    Keep s0 (State.writeSchedCtrl s v1) := by
  unfold State.writeSchedCtrl
  repeat' (first
    | intro y
    | (extract_lets +onlyGivenNames x; first | (refine keep_suff (p := Keep s0 x) ?_ (fun hx => ?_); subst x; rotate_left; clear_value x) | subst x)
    | with_reducible assumption | with_reducible apply State.plainWrite_keep | with_reducible apply State.drainSome_keep | split
    | refine keep_upd ?_ rfl rfl rfl rfl rfl rfl rfl rfl)

theorem State.writeSeenCmd_keep {s0 s : State} (h : Keep s0 s) {v1} :
    Keep s0 (State.writeSeenCmd s v1) := by
  unfold State.writeSeenCmd
  repeat' (first
    | intro y
    | (extract_lets +onlyGivenNames x; first | (refine keep_suff (p := Keep s0 x) ?_ (fun hx => ?_); subst x; rotate_left; clear_value x) | subst x)
    | with_reducible assumption | with_reducible apply State.issueFind_keep | with_reducible apply State.issueClear_keep | split)

theorem State.writeCrcHctrl_keep {s0 s : State} (h : Keep s0 s) {v1} :
    Keep s0 (State.writeCrcHctrl s v1) := by
  unfold State.writeCrcHctrl
  repeat' (first
    | intro y
    | (extract_lets +onlyGivenNames x; first | (refine keep_suff (p := Keep s0 x) ?_ (fun hx => ?_); subst x; rotate_left; clear_value x) | subst x)
    | with_reducible assumption | with_reducible apply State.setReg_keep | with_reducible apply State.setBit_keep
    | with_reducible apply keep_ite | split | refine keep_upd ?_ rfl rfl rfl rfl rfl rfl rfl rfl)

theorem State.crcEnter_keep {s0 s : State} (h : Keep s0 s) {v1} :
    Keep s0 (State.crcEnter s v1) := by
  unfold State.crcEnter
  repeat' (first
    | intro y
    | (extract_lets +onlyGivenNames x; first | (refine keep_suff (p := Keep s0 x) ?_ (fun hx => ?_); subst x; rotate_left; clear_value x) | subst x)
    | with_reducible assumption | with_reducible apply State.addCnt_keep | split | refine keep_upd ?_ rfl rfl rfl rfl rfl rfl rfl rfl)

theorem State.writeHwin_keep {s0 s : State} (h : Keep s0 s) {v1} :
    Keep s0 (State.writeHwin s v1) := by
  unfold State.writeHwin
  repeat' (first
    | intro y
    | (extract_lets +onlyGivenNames x; first | (refine keep_suff (p := Keep s0 x) ?_ (fun hx => ?_); subst x; rotate_left; clear_value x) | subst x)
    | with_reducible assumption | with_reducible apply State.crcEnter_keep | split)

theorem State.writeHbits_keep {s0 s : State} (h : Keep s0 s) {v1} :
    Keep s0 (State.writeHbits s v1) := by
  unfold State.writeHbits
  repeat' (first
    | intro y
    | (extract_lets +onlyGivenNames x; first | (refine keep_suff (p := Keep s0 x) ?_ (fun hx => ?_); subst x; rotate_left; clear_value x) | subst x)
    | with_reducible assumption | with_reducible apply State.crcEnter_keep | with_reducible apply keep_ite | split)

theorem State.writeTagCmd_keep {s0 s : State} (h : Keep s0 s) {v1} :
    Keep s0 (State.writeTagCmd s v1) := by
  unfold State.writeTagCmd
  repeat' (first
    | intro y
    | (extract_lets +onlyGivenNames x; first | (refine keep_suff (p := Keep s0 x) ?_ (fun hx => ?_); subst x; rotate_left; clear_value x) | subst x)
    | with_reducible assumption | with_reducible apply State.issueClearGuard_keep | with_reducible apply State.issueUnlock_keep
    | with_reducible apply State.issueRemap_keep | with_reducible apply State.issueCrumbOut_keep
    | with_reducible apply State.issueCrumbReturn_keep | split)

theorem State.writeTagStat_keep {s0 s : State} (h : Keep s0 s) {v1} :
    Keep s0 (State.writeTagStat s v1) := by
  unfold State.writeTagStat
  repeat' (first
    | intro y
    | (extract_lets +onlyGivenNames x; first | (refine keep_suff (p := Keep s0 x) ?_ (fun hx => ?_); subst x; rotate_left; clear_value x) | subst x)
    | with_reducible assumption | split | refine keep_upd ?_ rfl rfl rfl rfl rfl rfl rfl rfl)

theorem State.writeMgmtCmd_keep {s0 s : State} (h : Keep s0 s) {v1} :
    Keep s0 (State.writeMgmtCmd s v1) := by
  unfold State.writeMgmtCmd
  repeat' (first
    | intro y
    | (extract_lets +onlyGivenNames x; first | (refine keep_suff (p := Keep s0 x) ?_ (fun hx => ?_); subst x; rotate_left; clear_value x) | subst x)
    | with_reducible assumption | with_reducible apply State.issueMgmtOut_keep | with_reducible apply State.issueMgmtReturn_keep
    | with_reducible apply State.issueDump_keep | split)

theorem State.writeMgmtCfg_keep {s0 s : State} (h : Keep s0 s) {v1} :
    Keep s0 (State.writeMgmtCfg s v1) := by
  unfold State.writeMgmtCfg
  repeat' (first
    | intro y
    | (extract_lets +onlyGivenNames x; first | (refine keep_suff (p := Keep s0 x) ?_ (fun hx => ?_); subst x; rotate_left; clear_value x) | subst x)
    | with_reducible assumption | with_reducible apply State.plainWrite_keep | with_reducible apply State.syncStandby_keep
    | with_reducible apply keep_ite | split)

theorem State.writeUpdCmd_keep {s0 s : State} (h : Keep s0 s) {v1} :
    Keep s0 (State.writeUpdCmd s v1) := by
  unfold State.writeUpdCmd
  repeat' (first
    | intro y
    | (extract_lets +onlyGivenNames x; first | (refine keep_suff (p := Keep s0 x) ?_ (fun hx => ?_); subst x; rotate_left; clear_value x) | subst x)
    | with_reducible assumption | with_reducible apply State.issueLoad_keep | with_reducible apply State.issueVerify_keep
    | with_reducible apply State.issueArm_keep | with_reducible apply State.issueSwitchNow_keep
    | with_reducible apply State.issueConfirm_keep | with_reducible apply State.issueRevert_keep
    | with_reducible apply State.issueAbandon_keep | split)

theorem State.writeUmaLink_keep {s0 s : State} (h : Keep s0 s) {v1 v2} :
    Keep s0 (State.writeUmaLink s v1 v2) := by
  unfold State.writeUmaLink
  repeat' (first
    | intro y
    | (extract_lets +onlyGivenNames x; first | (refine keep_suff (p := Keep s0 x) ?_ (fun hx => ?_); subst x; rotate_left; clear_value x) | subst x)
    | with_reducible assumption | with_reducible apply State.setReg_keep | with_reducible apply State.setBit_keep
    | with_reducible apply keep_ite | split)

theorem State.writeReg_keep {s0 s : State} (h : Keep s0 s) {v1 v2} :
    Keep s0 (State.writeReg s v1 v2) := by
  unfold State.writeReg
  repeat' (first
    | intro y
    | (extract_lets +onlyGivenNames x; first | (refine keep_suff (p := Keep s0 x) ?_ (fun hx => ?_); subst x; rotate_left; clear_value x) | subst x)
    | with_reducible assumption | with_reducible apply outReturn_keep | with_reducible apply State.issueTxcOut_keep
    | with_reducible apply State.issueTxcReturn_keep | with_reducible apply State.issueRxcOut_keep
    | with_reducible apply State.issueRxcReturn_keep | with_reducible apply State.writeSysCtrl_keep
    | with_reducible apply State.writeProofCmd_keep | with_reducible apply State.refMove_keep
    | with_reducible apply State.plainWrite_keep | with_reducible apply State.issuePortOut_keep
    | with_reducible apply State.issuePortReturn_keep | with_reducible apply State.writeUmaLink_keep
    | with_reducible apply State.fixedGain_keep | with_reducible apply State.peerEval_keep | with_reducible apply State.issuePeerTx_keep
    | with_reducible apply State.writeSchedCtrl_keep | with_reducible apply State.issueRun_keep
    | with_reducible apply State.fifoSync_keep | with_reducible apply State.writeSeenCmd_keep | with_reducible apply State.fifoFlush_keep
    | with_reducible apply State.writeCrcHctrl_keep | with_reducible apply State.writeHwin_keep
    | with_reducible apply State.writeHbits_keep | with_reducible apply State.writeTagCmd_keep
    | with_reducible apply State.writeTagStat_keep | with_reducible apply State.issueCal_keep
    | with_reducible apply State.issueRequest_keep | with_reducible apply State.issueMempOut_keep
    | with_reducible apply State.issueMempReturn_keep | with_reducible apply State.writeMgmtCmd_keep
    | with_reducible apply State.issueDecOut_keep | with_reducible apply State.issueDecReturn_keep
    | with_reducible apply State.writeMgmtCfg_keep | with_reducible apply State.writeUpdCmd_keep | with_reducible apply keep_ite | split)

theorem State.performWrite_keep {s0 s : State} (h : Keep s0 s) {v1 v2} :
    Keep s0 (State.performWrite s v1 v2) := by
  unfold State.performWrite
  repeat' (first
    | intro y
    | (extract_lets +onlyGivenNames x; first | (refine keep_suff (p := Keep s0 x) ?_ (fun hx => ?_); subst x; rotate_left; clear_value x) | subst x)
    | with_reducible assumption | with_reducible apply State.postWire_keep | with_reducible apply State.writeReg_keep
    | with_reducible apply State.commitGroup_keep | with_reducible apply State.stage_keep | with_reducible apply keep_ite | split)

theorem State.performWrites_keep {s0 s : State} (h : Keep s0 s) {v1} :
    Keep s0 (State.performWrites s v1) := by
  induction v1 generalizing s  with
  | nil =>
    unfold State.performWrites
    repeat' (first
      | intro y
      | (extract_lets +onlyGivenNames x; first | (refine keep_suff (p := Keep s0 x) ?_ (fun hx => ?_); subst x; rotate_left; clear_value x) | subst x)
      | with_reducible assumption | with_reducible apply State.endWrite_keep | with_reducible apply State.performWrite_keep | split)
  | cons e r ih =>
    unfold State.performWrites
    repeat' (first
      | intro y
      | (extract_lets +onlyGivenNames x; first | (refine keep_suff (p := Keep s0 x) ?_ (fun hx => ?_); subst x; rotate_left; clear_value x) | subst x)
      | with_reducible assumption | with_reducible apply ih | with_reducible apply State.endWrite_keep
      | with_reducible apply State.performWrite_keep | split)

theorem State.openFrame_keep {s0 s : State} (h : Keep s0 s) {v1 v2} (hv2 : ∀ s, Keep s0 s → Keep s0 (v2 s)) :
    Keep s0 (State.openFrame s v1 v2) := by
  unfold State.openFrame
  repeat' (first
    | intro y
    | (extract_lets +onlyGivenNames x; first | (refine keep_suff (p := Keep s0 x) ?_ (fun hx => ?_); subst x; rotate_left; clear_value x) | subst x)
    | with_reducible assumption | with_reducible apply hv2 | with_reducible apply State.wake_keep | with_reducible apply keep_ite | split
    | refine keep_upd ?_ rfl rfl rfl rfl rfl rfl rfl rfl)

theorem State.command_keep {s0 s : State} (h : Keep s0 s) {v1 v2 v3} (hv3 : ∀ s, Keep s0 s → Keep s0 (v3 s)) :
    Keep s0 (State.command s v1 v2 v3) := by
  unfold State.command
  repeat' (first
    | intro y
    | (extract_lets +onlyGivenNames x; first | (refine keep_suff (p := Keep s0 x) ?_ (fun hx => ?_); subst x; rotate_left; clear_value x) | subst x)
    | with_reducible assumption | with_reducible apply hv3 | with_reducible apply State.openFrame_keep
    | with_reducible apply State.serveFrame_keep | with_reducible apply State.cnt_keep | split | assumption)

theorem State.setAnswer_keep {s0 s : State} (h : Keep s0 s) {v1} :
    Keep s0 (State.setAnswer s v1) := by
  unfold State.setAnswer
  repeat' (first
    | intro y
    | (extract_lets +onlyGivenNames x; first | (refine keep_suff (p := Keep s0 x) ?_ (fun hx => ?_); subst x; rotate_left; clear_value x) | subst x)
    | with_reducible assumption | split | refine keep_upd ?_ rfl rfl rfl rfl rfl rfl rfl rfl)

theorem State.takeAbort_keep {s0 s : State} (h : Keep s0 s) {v1} :
    Keep s0 (State.takeAbort s v1) := by
  unfold State.takeAbort
  repeat' (first
    | intro y
    | (extract_lets +onlyGivenNames x; first | (refine keep_suff (p := Keep s0 x) ?_ (fun hx => ?_); subst x; rotate_left; clear_value x) | subst x)
    | with_reducible assumption | with_reducible apply State.hostAbort_keep | with_reducible apply State.setAnswer_keep
    | with_reducible apply keep_ite | refine keep_pair ?_ (by with_reducible assumption) | split)

theorem State.hostWrite_keep {s0 s : State} (h : Keep s0 s) {v1 v2 v3} (hv3 : ∀ s, Keep s0 s → Keep s0 (v3 s)) :
    Keep s0 (State.hostWrite s v1 v2 v3) := by
  unfold State.hostWrite
  repeat' (first
    | intro y
    | (extract_lets +onlyGivenNames x; first | (refine keep_suff (p := Keep s0 x) ?_ (fun hx => ?_); subst x; rotate_left; clear_value x) | subst x)
    | with_reducible assumption | with_reducible apply hv3 | with_reducible apply State.wake_keep
    | with_reducible apply State.command_keep | with_reducible apply State.single_keep | with_reducible apply State.cnt_keep
    | with_reducible apply keep_ite | split | assumption)

theorem State.hostRead_keep {s0 s : State} (h : Keep s0 s) {v1} :
    Keep s0 (State.hostRead s v1) := by
  unfold State.hostRead
  repeat' (first
    | intro y
    | (extract_lets +onlyGivenNames x; first | (refine keep_suff (p := Keep s0 x) ?_ (fun hx => ?_); subst x; rotate_left; clear_value x) | subst x)
    | with_reducible assumption | with_reducible apply State.wake_keep | with_reducible apply State.command_keep
    | with_reducible apply State.readWord_keep | with_reducible apply State.cnt_keep | with_reducible apply State.hpFlag_keep
    | with_reducible apply keep_ite | refine keep_pair3 ?_ (by with_reducible assumption) | split
    | refine keep_upd ?_ rfl rfl rfl rfl rfl rfl rfl rfl)

theorem execRdFrame_keep {s0 s : State} (h : Keep s0 s) {v0 v1} :
    OKeep s0 (execRdFrame v0 v1 s) := by
  unfold execRdFrame
  repeat' (first
    | intro y
    | (extract_lets +onlyGivenNames x; first | (refine keep_suff (p := Keep s0 x) ?_ (fun hx => ?_); subst x; rotate_left; clear_value x) | subst x)
    | with_reducible assumption | with_reducible apply State.command_keep | with_reducible apply okeep_next | split | assumption)

theorem execWrFrame_keep {s0 s : State} (h : Keep s0 s) {v0 v1 v2 v3} :
    OKeep s0 (execWrFrame v0 v1 v2 v3 s) := by
  unfold execWrFrame
  repeat' (first
    | intro y
    | (extract_lets +onlyGivenNames x; first | (refine keep_suff (p := Keep s0 x) ?_ (fun hx => ?_); subst x; rotate_left; clear_value x) | subst x)
    | with_reducible assumption | with_reducible apply State.command_keep | with_reducible apply okeep_next | split | assumption)

theorem execStatFrame_keep {s0 s : State} (h : Keep s0 s) {v0} :
    OKeep s0 (execStatFrame v0 s) := by
  unfold execStatFrame
  repeat' (first
    | intro y
    | (extract_lets +onlyGivenNames x; first | (refine keep_suff (p := Keep s0 x) ?_ (fun hx => ?_); subst x; rotate_left; clear_value x) | subst x)
    | with_reducible assumption | with_reducible apply State.command_keep | with_reducible apply okeep_next | split | assumption)

theorem execFrdFrame_keep {s0 s : State} (h : Keep s0 s) {v0} :
    OKeep s0 (execFrdFrame v0 s) := by
  unfold execFrdFrame
  repeat' (first
    | intro y
    | (extract_lets +onlyGivenNames x; first | (refine keep_suff (p := Keep s0 x) ?_ (fun hx => ?_); subst x; rotate_left; clear_value x) | subst x)
    | with_reducible assumption | with_reducible apply State.command_keep | with_reducible apply okeep_next | split | assumption)

theorem execFdropFrame_keep {s0 s : State} (h : Keep s0 s) {v0} :
    OKeep s0 (execFdropFrame v0 s) := by
  unfold execFdropFrame
  repeat' (first
    | intro y
    | (extract_lets +onlyGivenNames x; first | (refine keep_suff (p := Keep s0 x) ?_ (fun hx => ?_); subst x; rotate_left; clear_value x) | subst x)
    | with_reducible assumption | with_reducible apply State.command_keep | with_reducible apply okeep_next | split | assumption)

theorem execAbortFrame_keep {s0 s : State} (h : Keep s0 s) {v0 v1} :
    OKeep s0 (execAbortFrame v0 v1 s) := by
  unfold execAbortFrame
  repeat' (first
    | intro y
    | (extract_lets +onlyGivenNames x; first | (refine keep_suff (p := Keep s0 x) ?_ (fun hx => ?_); subst x; rotate_left; clear_value x) | subst x)
    | with_reducible assumption | with_reducible apply State.command_keep | with_reducible apply State.takeAbort_keep
    | with_reducible apply okeep_next | split)

theorem execWaitFrame_keep {s0 s : State} (h : Keep s0 s) {v0} :
    OKeep s0 (execWaitFrame v0 s) := by
  unfold execWaitFrame
  repeat' (first
    | intro y
    | (extract_lets +onlyGivenNames x; first | (refine keep_suff (p := Keep s0 x) ?_ (fun hx => ?_); subst x; rotate_left; clear_value x) | subst x)
    | with_reducible assumption | with_reducible apply State.command_keep | with_reducible apply State.waitEntry_keep
    | with_reducible apply okeep_next | split)

theorem execIdentFrame_keep {s0 s : State} (h : Keep s0 s) {v0} :
    OKeep s0 (execIdentFrame v0 s) := by
  unfold execIdentFrame
  repeat' (first
    | intro y
    | (extract_lets +onlyGivenNames x; first | (refine keep_suff (p := Keep s0 x) ?_ (fun hx => ?_); subst x; rotate_left; clear_value x) | subst x)
    | with_reducible assumption | with_reducible apply State.command_keep | with_reducible apply okeep_next | split | assumption)

theorem execLrstFrame_keep {s0 s : State} (h : Keep s0 s) :
    OKeep s0 (execLrstFrame s) := by
  unfold execLrstFrame
  repeat' (first
    | intro y
    | (extract_lets +onlyGivenNames x; first | (refine keep_suff (p := Keep s0 x) ?_ (fun hx => ?_); subst x; rotate_left; clear_value x) | subst x)
    | with_reducible assumption | with_reducible apply State.openFrame_keep | with_reducible apply State.cnt_keep
    | with_reducible apply okeep_next | split)

theorem execUnknownOpcodeFrame_keep {s0 s : State} (h : Keep s0 s) {v0} :
    OKeep s0 (execUnknownOpcodeFrame v0 s) := by
  unfold execUnknownOpcodeFrame
  repeat' (first
    | intro y
    | (extract_lets +onlyGivenNames x; first | (refine keep_suff (p := Keep s0 x) ?_ (fun hx => ?_); subst x; rotate_left; clear_value x) | subst x)
    | with_reducible assumption | with_reducible apply State.openFrame_keep | with_reducible apply State.setBit_keep
    | with_reducible apply State.cntSat_keep | with_reducible apply okeep_next | with_reducible apply keep_ite | split)

theorem execEarlyFrame_keep {s0 s : State} (h : Keep s0 s) {v0} :
    OKeep s0 (execEarlyFrame v0 s) := by
  unfold execEarlyFrame
  repeat' (first
    | intro y
    | (extract_lets +onlyGivenNames x; first | (refine keep_suff (p := Keep s0 x) ?_ (fun hx => ?_); subst x; rotate_left; clear_value x) | subst x)
    | with_reducible assumption | with_reducible apply State.wake_keep | with_reducible apply okeep_next | split)

theorem execHungAccessComplete_keep {s0 s : State} (h : Keep s0 s) :
    OKeep s0 (execHungAccessComplete s) := by
  unfold execHungAccessComplete
  repeat' (first
    | intro y
    | (extract_lets +onlyGivenNames x; first | (refine keep_suff (p := Keep s0 x) ?_ (fun hx => ?_); subst x; rotate_left; clear_value x) | subst x)
    | with_reducible assumption | with_reducible apply State.takeAbort_keep | with_reducible apply State.resumeFrame_keep
    | with_reducible apply okeep_next | with_reducible apply keep_ite | split)

theorem execFrdStallTimeout_keep {s0 s : State} (h : Keep s0 s) :
    OKeep s0 (execFrdStallTimeout s) := by
  unfold execFrdStallTimeout
  repeat' (first
    | intro y
    | (extract_lets +onlyGivenNames x; first | (refine keep_suff (p := Keep s0 x) ?_ (fun hx => ?_); subst x; rotate_left; clear_value x) | subst x)
    | with_reducible assumption | with_reducible apply State.hpFlag_keep | with_reducible apply State.sendTrailer_keep
    | with_reducible apply okeep_next | with_reducible apply keep_ite | split | refine keep_upd ?_ rfl rfl rfl rfl rfl rfl rfl rfl)

theorem State.abandon_keep {s0 s : State} (h : Keep s0 s) {v1} :
    Keep s0 (State.abandon s v1) := by
  unfold State.abandon
  repeat' (first
    | intro y
    | (extract_lets +onlyGivenNames x; first | (refine keep_suff (p := Keep s0 x) ?_ (fun hx => ?_); subst x; rotate_left; clear_value x) | subst x)
    | with_reducible assumption | with_reducible apply State.raise_keep | with_reducible apply State.hpFlag_keep
    | with_reducible apply State.setReg_keep | split)

theorem State.postedWords_keep {s0 s : State} (h : Keep s0 s) {v1 v2 v3} :
    Keep s0 (State.postedWords s v1 v2 v3).2 := by
  unfold State.postedWords
  repeat' (first
    | intro y
    | (extract_lets +onlyGivenNames x; first | (refine keep_suff (p := Keep s0 x) ?_ (fun hx => ?_); subst x; rotate_left; clear_value x) | subst x)
    | with_reducible assumption | with_reducible apply State.hpFlag_keep | with_reducible apply keep_ite | split)

theorem State.performPosted_keep {s0 s : State} (h : Keep s0 s) {v1} :
    Keep s0 (State.performPosted s v1) := by
  induction v1 generalizing s  with
  | nil =>
    unfold State.performPosted
    repeat' (first
      | intro y
      | (extract_lets +onlyGivenNames x; first | (refine keep_suff (p := Keep s0 x) ?_ (fun hx => ?_); subst x; rotate_left; clear_value x) | subst x)
      | with_reducible assumption | with_reducible apply State.endWrite_keep | with_reducible apply State.performWrite_keep
      | with_reducible apply State.abandon_keep | with_reducible apply keep_ite | split)
  | cons e r ih =>
    unfold State.performPosted
    repeat' (first
      | intro y
      | (extract_lets +onlyGivenNames x; first | (refine keep_suff (p := Keep s0 x) ?_ (fun hx => ?_); subst x; rotate_left; clear_value x) | subst x)
      | with_reducible assumption | with_reducible apply ih | with_reducible apply State.endWrite_keep
      | with_reducible apply State.performWrite_keep | with_reducible apply State.abandon_keep | with_reducible apply keep_ite | split)

theorem State.performFrame_keep {s0 s : State} (h : Keep s0 s) {v1 v2 v3} :
    Keep s0 (State.performFrame s v1 v2 v3) := by
  unfold State.performFrame
  repeat' (first
    | intro y
    | (extract_lets +onlyGivenNames x; first | (refine keep_suff (p := Keep s0 x) ?_ (fun hx => ?_); subst x; rotate_left; clear_value x) | subst x)
    | with_reducible assumption | with_reducible apply State.postedWords_keep | with_reducible apply State.endFrame_keep
    | with_reducible apply State.performPosted_keep | with_reducible apply State.beginFrame_keep
    | refine keep_pair ?_ (by with_reducible assumption) | split)

theorem State.endOf_keep {s0 s : State} (h : Keep s0 s) {v1} :
    Keep s0 (State.endOf s v1) := by
  unfold State.endOf
  repeat' (first
    | intro y
    | (extract_lets +onlyGivenNames x; first | (refine keep_suff (p := Keep s0 x) ?_ (fun hx => ?_); subst x; rotate_left; clear_value x) | subst x)
    | with_reducible assumption | with_reducible apply State.setReg_keep | with_reducible apply State.setBit_keep
    | with_reducible apply State.cntSat_keep | with_reducible apply State.abandon_keep | with_reducible apply State.abortEntry_keep
    | with_reducible apply State.performFrame_keep | with_reducible apply keep_ite | split)

theorem execSelectRelease_keep {s0 s : State} (h : Keep s0 s) :
    OKeep s0 (execSelectRelease s) := by
  unfold execSelectRelease
  repeat' (first
    | intro y
    | (extract_lets +onlyGivenNames x; first | (refine keep_suff (p := Keep s0 x) ?_ (fun hx => ?_); subst x; rotate_left; clear_value x) | subst x)
    | with_reducible assumption | with_reducible apply State.freeCrumbs_keep | with_reducible apply State.endOf_keep
    | with_reducible apply okeep_next | split | refine keep_upd ?_ rfl rfl rfl rfl rfl rfl rfl rfl)

theorem execSoftReset_keep {s0 s : State} (h : Keep s0 s) :
    OKeep s0 (execSoftReset s) := by
  unfold execSoftReset
  repeat' (first
    | intro y
    | (extract_lets +onlyGivenNames x; first | (refine keep_suff (p := Keep s0 x) ?_ (fun hx => ?_); subst x; rotate_left; clear_value x) | subst x)
    | with_reducible assumption | with_reducible apply State.hostWrite_keep | with_reducible apply State.writeSysCtrl_keep
    | with_reducible apply okeep_next | split)

theorem execProofCmd_keep {s0 s : State} (h : Keep s0 s) {v0} :
    OKeep s0 (execProofCmd v0 s) := by
  unfold execProofCmd
  repeat' (first
    | intro y
    | (extract_lets +onlyGivenNames x; first | (refine keep_suff (p := Keep s0 x) ?_ (fun hx => ?_); subst x; rotate_left; clear_value x) | subst x)
    | with_reducible assumption | with_reducible apply State.hostWrite_keep | with_reducible apply State.writeProofCmd_keep
    | with_reducible apply okeep_next | split)

theorem execTxcOut_keep {s0 s : State} (h : Keep s0 s) {v0} :
    OKeep s0 (execTxcOut v0 s) := by
  unfold execTxcOut
  repeat' (first
    | intro y
    | (extract_lets +onlyGivenNames x; first | (refine keep_suff (p := Keep s0 x) ?_ (fun hx => ?_); subst x; rotate_left; clear_value x) | subst x)
    | with_reducible assumption | with_reducible apply State.hostWrite_keep | with_reducible apply State.issueTxcOut_keep
    | with_reducible apply okeep_next | split)

theorem execTxcReturn_keep {s0 s : State} (h : Keep s0 s) {v0} :
    OKeep s0 (execTxcReturn v0 s) := by
  unfold execTxcReturn
  repeat' (first
    | intro y
    | (extract_lets +onlyGivenNames x; first | (refine keep_suff (p := Keep s0 x) ?_ (fun hx => ?_); subst x; rotate_left; clear_value x) | subst x)
    | with_reducible assumption | with_reducible apply State.hostWrite_keep | with_reducible apply State.issueTxcReturn_keep
    | with_reducible apply okeep_next | split)

theorem execPortOut_keep {s0 s : State} (h : Keep s0 s) {v0} :
    OKeep s0 (execPortOut v0 s) := by
  unfold execPortOut
  repeat' (first
    | intro y
    | (extract_lets +onlyGivenNames x; first | (refine keep_suff (p := Keep s0 x) ?_ (fun hx => ?_); subst x; rotate_left; clear_value x) | subst x)
    | with_reducible assumption | with_reducible apply State.hostWrite_keep | with_reducible apply State.issuePortOut_keep
    | with_reducible apply okeep_next | split)

theorem execPortReturn_keep {s0 s : State} (h : Keep s0 s) {v0} :
    OKeep s0 (execPortReturn v0 s) := by
  unfold execPortReturn
  repeat' (first
    | intro y
    | (extract_lets +onlyGivenNames x; first | (refine keep_suff (p := Keep s0 x) ?_ (fun hx => ?_); subst x; rotate_left; clear_value x) | subst x)
    | with_reducible assumption | with_reducible apply State.hostWrite_keep | with_reducible apply State.issuePortReturn_keep
    | with_reducible apply okeep_next | split)

theorem execRxcOut_keep {s0 s : State} (h : Keep s0 s) {v0} :
    OKeep s0 (execRxcOut v0 s) := by
  unfold execRxcOut
  repeat' (first
    | intro y
    | (extract_lets +onlyGivenNames x; first | (refine keep_suff (p := Keep s0 x) ?_ (fun hx => ?_); subst x; rotate_left; clear_value x) | subst x)
    | with_reducible assumption | with_reducible apply State.hostWrite_keep | with_reducible apply State.issueRxcOut_keep
    | with_reducible apply okeep_next | split)

theorem execRxcReturn_keep {s0 s : State} (h : Keep s0 s) {v0} :
    OKeep s0 (execRxcReturn v0 s) := by
  unfold execRxcReturn
  repeat' (first
    | intro y
    | (extract_lets +onlyGivenNames x; first | (refine keep_suff (p := Keep s0 x) ?_ (fun hx => ?_); subst x; rotate_left; clear_value x) | subst x)
    | with_reducible assumption | with_reducible apply State.hostWrite_keep | with_reducible apply State.issueRxcReturn_keep
    | with_reducible apply okeep_next | split)

theorem execSchedRun_keep {s0 s : State} (h : Keep s0 s) {v0} :
    OKeep s0 (execSchedRun v0 s) := by
  unfold execSchedRun
  repeat' (first
    | intro y
    | (extract_lets +onlyGivenNames x; first | (refine keep_suff (p := Keep s0 x) ?_ (fun hx => ?_); subst x; rotate_left; clear_value x) | subst x)
    | with_reducible assumption | with_reducible apply State.hostWrite_keep | with_reducible apply State.issueRun_keep
    | with_reducible apply okeep_next | split)

theorem execSchedRunClear_keep {s0 s : State} (h : Keep s0 s) :
    OKeep s0 (execSchedRunClear s) := by
  unfold execSchedRunClear
  repeat' (first
    | intro y
    | (extract_lets +onlyGivenNames x; first | (refine keep_suff (p := Keep s0 x) ?_ (fun hx => ?_); subst x; rotate_left; clear_value x) | subst x)
    | with_reducible assumption | with_reducible apply State.hostWrite_keep | with_reducible apply State.writeSchedCtrl_keep
    | with_reducible apply okeep_next | split)

theorem execWarpEnClear_keep {s0 s : State} (h : Keep s0 s) {v0} :
    OKeep s0 (execWarpEnClear v0 s) := by
  unfold execWarpEnClear
  repeat' (first
    | intro y
    | (extract_lets +onlyGivenNames x; first | (refine keep_suff (p := Keep s0 x) ?_ (fun hx => ?_); subst x; rotate_left; clear_value x) | subst x)
    | with_reducible assumption | with_reducible apply State.hostWrite_keep | with_reducible apply State.writeSchedCtrl_keep
    | with_reducible apply okeep_next | split)

theorem execFind_keep {s0 s : State} (h : Keep s0 s) :
    OKeep s0 (execFind s) := by
  unfold execFind
  repeat' (first
    | intro y
    | (extract_lets +onlyGivenNames x; first | (refine keep_suff (p := Keep s0 x) ?_ (fun hx => ?_); subst x; rotate_left; clear_value x) | subst x)
    | with_reducible assumption | with_reducible apply State.hostWrite_keep | with_reducible apply State.issueFind_keep
    | with_reducible apply okeep_next | split)

theorem execClear_keep {s0 s : State} (h : Keep s0 s) :
    OKeep s0 (execClear s) := by
  unfold execClear
  repeat' (first
    | intro y
    | (extract_lets +onlyGivenNames x; first | (refine keep_suff (p := Keep s0 x) ?_ (fun hx => ?_); subst x; rotate_left; clear_value x) | subst x)
    | with_reducible assumption | with_reducible apply State.hostWrite_keep | with_reducible apply State.issueClear_keep
    | with_reducible apply okeep_next | split)

theorem execFlush_keep {s0 s : State} (h : Keep s0 s) :
    OKeep s0 (execFlush s) := by
  unfold execFlush
  repeat' (first
    | intro y
    | (extract_lets +onlyGivenNames x; first | (refine keep_suff (p := Keep s0 x) ?_ (fun hx => ?_); subst x; rotate_left; clear_value x) | subst x)
    | with_reducible assumption | with_reducible apply State.hostWrite_keep | with_reducible apply State.fifoFlush_keep
    | with_reducible apply okeep_next | split)

theorem execClearGuard_keep {s0 s : State} (h : Keep s0 s) :
    OKeep s0 (execClearGuard s) := by
  unfold execClearGuard
  repeat' (first
    | intro y
    | (extract_lets +onlyGivenNames x; first | (refine keep_suff (p := Keep s0 x) ?_ (fun hx => ?_); subst x; rotate_left; clear_value x) | subst x)
    | with_reducible assumption | with_reducible apply State.hostWrite_keep | with_reducible apply State.issueClearGuard_keep
    | with_reducible apply okeep_next | split)

theorem execUnlock_keep {s0 s : State} (h : Keep s0 s) :
    OKeep s0 (execUnlock s) := by
  unfold execUnlock
  repeat' (first
    | intro y
    | (extract_lets +onlyGivenNames x; first | (refine keep_suff (p := Keep s0 x) ?_ (fun hx => ?_); subst x; rotate_left; clear_value x) | subst x)
    | with_reducible assumption | with_reducible apply State.hostWrite_keep | with_reducible apply State.issueUnlock_keep
    | with_reducible apply okeep_next | split)

theorem execRemap_keep {s0 s : State} (h : Keep s0 s) {v0} :
    OKeep s0 (execRemap v0 s) := by
  unfold execRemap
  repeat' (first
    | intro y
    | (extract_lets +onlyGivenNames x; first | (refine keep_suff (p := Keep s0 x) ?_ (fun hx => ?_); subst x; rotate_left; clear_value x) | subst x)
    | with_reducible assumption | with_reducible apply State.hostWrite_keep | with_reducible apply State.issueRemap_keep
    | with_reducible apply okeep_next | split)

theorem execCrumbOut_keep {s0 s : State} (h : Keep s0 s) {v0} :
    OKeep s0 (execCrumbOut v0 s) := by
  unfold execCrumbOut
  repeat' (first
    | intro y
    | (extract_lets +onlyGivenNames x; first | (refine keep_suff (p := Keep s0 x) ?_ (fun hx => ?_); subst x; rotate_left; clear_value x) | subst x)
    | with_reducible assumption | with_reducible apply State.hostWrite_keep | with_reducible apply State.issueCrumbOut_keep
    | with_reducible apply okeep_next | split)

theorem execCrumbReturn_keep {s0 s : State} (h : Keep s0 s) {v0} :
    OKeep s0 (execCrumbReturn v0 s) := by
  unfold execCrumbReturn
  repeat' (first
    | intro y
    | (extract_lets +onlyGivenNames x; first | (refine keep_suff (p := Keep s0 x) ?_ (fun hx => ?_); subst x; rotate_left; clear_value x) | subst x)
    | with_reducible assumption | with_reducible apply State.hostWrite_keep | with_reducible apply State.issueCrumbReturn_keep
    | with_reducible apply okeep_next | split)

theorem execCal_keep {s0 s : State} (h : Keep s0 s) :
    OKeep s0 (execCal s) := by
  unfold execCal
  repeat' (first
    | intro y
    | (extract_lets +onlyGivenNames x; first | (refine keep_suff (p := Keep s0 x) ?_ (fun hx => ?_); subst x; rotate_left; clear_value x) | subst x)
    | with_reducible assumption | with_reducible apply State.hostWrite_keep | with_reducible apply State.issueCal_keep
    | with_reducible apply okeep_next | split)

theorem execRequest_keep {s0 s : State} (h : Keep s0 s) {v0 v1} :
    OKeep s0 (execRequest v0 v1 s) := by
  unfold execRequest
  repeat' (first
    | intro y
    | (extract_lets +onlyGivenNames x; first | (refine keep_suff (p := Keep s0 x) ?_ (fun hx => ?_); subst x; rotate_left; clear_value x) | subst x)
    | with_reducible assumption | with_reducible apply State.hostWrite_keep | with_reducible apply State.issueRequest_keep
    | with_reducible apply State.performWrite_keep | with_reducible apply okeep_next | split)

theorem execMempOut_keep {s0 s : State} (h : Keep s0 s) {v0} :
    OKeep s0 (execMempOut v0 s) := by
  unfold execMempOut
  repeat' (first
    | intro y
    | (extract_lets +onlyGivenNames x; first | (refine keep_suff (p := Keep s0 x) ?_ (fun hx => ?_); subst x; rotate_left; clear_value x) | subst x)
    | with_reducible assumption | with_reducible apply State.hostWrite_keep | with_reducible apply State.issueMempOut_keep
    | with_reducible apply okeep_next | split)

theorem execMempReturn_keep {s0 s : State} (h : Keep s0 s) {v0} :
    OKeep s0 (execMempReturn v0 s) := by
  unfold execMempReturn
  repeat' (first
    | intro y
    | (extract_lets +onlyGivenNames x; first | (refine keep_suff (p := Keep s0 x) ?_ (fun hx => ?_); subst x; rotate_left; clear_value x) | subst x)
    | with_reducible assumption | with_reducible apply State.hostWrite_keep | with_reducible apply State.issueMempReturn_keep
    | with_reducible apply okeep_next | split)

theorem execMgmtOut_keep {s0 s : State} (h : Keep s0 s) {v0} :
    OKeep s0 (execMgmtOut v0 s) := by
  unfold execMgmtOut
  repeat' (first
    | intro y
    | (extract_lets +onlyGivenNames x; first | (refine keep_suff (p := Keep s0 x) ?_ (fun hx => ?_); subst x; rotate_left; clear_value x) | subst x)
    | with_reducible assumption | with_reducible apply State.hostWrite_keep | with_reducible apply State.issueMgmtOut_keep
    | with_reducible apply okeep_next | split)

theorem execMgmtReturn_keep {s0 s : State} (h : Keep s0 s) {v0} :
    OKeep s0 (execMgmtReturn v0 s) := by
  unfold execMgmtReturn
  repeat' (first
    | intro y
    | (extract_lets +onlyGivenNames x; first | (refine keep_suff (p := Keep s0 x) ?_ (fun hx => ?_); subst x; rotate_left; clear_value x) | subst x)
    | with_reducible assumption | with_reducible apply State.hostWrite_keep | with_reducible apply State.issueMgmtReturn_keep
    | with_reducible apply okeep_next | split)

theorem execDump_keep {s0 s : State} (h : Keep s0 s) :
    OKeep s0 (execDump s) := by
  unfold execDump
  repeat' (first
    | intro y
    | (extract_lets +onlyGivenNames x; first | (refine keep_suff (p := Keep s0 x) ?_ (fun hx => ?_); subst x; rotate_left; clear_value x) | subst x)
    | with_reducible assumption | with_reducible apply State.hostWrite_keep | with_reducible apply State.issueDump_keep
    | with_reducible apply okeep_next | split)

theorem execDecOut_keep {s0 s : State} (h : Keep s0 s) {v0} :
    OKeep s0 (execDecOut v0 s) := by
  unfold execDecOut
  repeat' (first
    | intro y
    | (extract_lets +onlyGivenNames x; first | (refine keep_suff (p := Keep s0 x) ?_ (fun hx => ?_); subst x; rotate_left; clear_value x) | subst x)
    | with_reducible assumption | with_reducible apply State.hostWrite_keep | with_reducible apply State.issueDecOut_keep
    | with_reducible apply okeep_next | split)

theorem execDecReturn_keep {s0 s : State} (h : Keep s0 s) {v0} :
    OKeep s0 (execDecReturn v0 s) := by
  unfold execDecReturn
  repeat' (first
    | intro y
    | (extract_lets +onlyGivenNames x; first | (refine keep_suff (p := Keep s0 x) ?_ (fun hx => ?_); subst x; rotate_left; clear_value x) | subst x)
    | with_reducible assumption | with_reducible apply State.hostWrite_keep | with_reducible apply State.issueDecReturn_keep
    | with_reducible apply okeep_next | split)

theorem execPeerTxCmd_keep {s0 s : State} (h : Keep s0 s) {v0 v1} :
    OKeep s0 (execPeerTxCmd v0 v1 s) := by
  unfold execPeerTxCmd
  repeat' (first
    | intro y
    | (extract_lets +onlyGivenNames x; first | (refine keep_suff (p := Keep s0 x) ?_ (fun hx => ?_); subst x; rotate_left; clear_value x) | subst x)
    | with_reducible assumption | with_reducible apply State.hostWrite_keep | with_reducible apply State.issuePeerTx_keep
    | with_reducible apply okeep_next | split)

theorem execLoad_keep {s0 s : State} (h : Keep s0 s) {v0} :
    OKeep s0 (execLoad v0 s) := by
  unfold execLoad
  repeat' (first
    | intro y
    | (extract_lets +onlyGivenNames x; first | (refine keep_suff (p := Keep s0 x) ?_ (fun hx => ?_); subst x; rotate_left; clear_value x) | subst x)
    | with_reducible assumption | with_reducible apply State.hostWrite_keep | with_reducible apply State.issueLoad_keep
    | with_reducible apply okeep_next | split)

theorem execVerify_keep {s0 s : State} (h : Keep s0 s) :
    OKeep s0 (execVerify s) := by
  unfold execVerify
  repeat' (first
    | intro y
    | (extract_lets +onlyGivenNames x; first | (refine keep_suff (p := Keep s0 x) ?_ (fun hx => ?_); subst x; rotate_left; clear_value x) | subst x)
    | with_reducible assumption | with_reducible apply State.hostWrite_keep | with_reducible apply State.issueVerify_keep
    | with_reducible apply okeep_next | split)

theorem execArm_keep {s0 s : State} (h : Keep s0 s) :
    OKeep s0 (execArm s) := by
  unfold execArm
  repeat' (first
    | intro y
    | (extract_lets +onlyGivenNames x; first | (refine keep_suff (p := Keep s0 x) ?_ (fun hx => ?_); subst x; rotate_left; clear_value x) | subst x)
    | with_reducible assumption | with_reducible apply State.hostWrite_keep | with_reducible apply State.issueArm_keep
    | with_reducible apply okeep_next | split)

theorem execSwitchNow_keep {s0 s : State} (h : Keep s0 s) :
    OKeep s0 (execSwitchNow s) := by
  unfold execSwitchNow
  repeat' (first
    | intro y
    | (extract_lets +onlyGivenNames x; first | (refine keep_suff (p := Keep s0 x) ?_ (fun hx => ?_); subst x; rotate_left; clear_value x) | subst x)
    | with_reducible assumption | with_reducible apply State.hostWrite_keep | with_reducible apply State.issueSwitchNow_keep
    | with_reducible apply okeep_next | split)

theorem execConfirm_keep {s0 s : State} (h : Keep s0 s) :
    OKeep s0 (execConfirm s) := by
  unfold execConfirm
  repeat' (first
    | intro y
    | (extract_lets +onlyGivenNames x; first | (refine keep_suff (p := Keep s0 x) ?_ (fun hx => ?_); subst x; rotate_left; clear_value x) | subst x)
    | with_reducible assumption | with_reducible apply State.hostWrite_keep | with_reducible apply State.issueConfirm_keep
    | with_reducible apply okeep_next | split)

theorem execRevert_keep {s0 s : State} (h : Keep s0 s) :
    OKeep s0 (execRevert s) := by
  unfold execRevert
  repeat' (first
    | intro y
    | (extract_lets +onlyGivenNames x; first | (refine keep_suff (p := Keep s0 x) ?_ (fun hx => ?_); subst x; rotate_left; clear_value x) | subst x)
    | with_reducible assumption | with_reducible apply State.hostWrite_keep | with_reducible apply State.issueRevert_keep
    | with_reducible apply okeep_next | split)

theorem execAbandonUpdate_keep {s0 s : State} (h : Keep s0 s) :
    OKeep s0 (execAbandonUpdate s) := by
  unfold execAbandonUpdate
  repeat' (first
    | intro y
    | (extract_lets +onlyGivenNames x; first | (refine keep_suff (p := Keep s0 x) ?_ (fun hx => ?_); subst x; rotate_left; clear_value x) | subst x)
    | with_reducible assumption | with_reducible apply State.hostWrite_keep | with_reducible apply State.issueAbandon_keep
    | with_reducible apply okeep_next | split)

theorem execRegisterWrite_keep {s0 s : State} (h : Keep s0 s) {v0 v1} :
    OKeep s0 (execRegisterWrite v0 v1 s) := by
  unfold execRegisterWrite
  repeat' (first
    | intro y
    | (extract_lets +onlyGivenNames x; first | (refine keep_suff (p := Keep s0 x) ?_ (fun hx => ?_); subst x; rotate_left; clear_value x) | subst x)
    | with_reducible assumption | with_reducible apply State.hostWrite_keep | with_reducible apply State.hpFlag_keep
    | with_reducible apply State.performWrite_keep | with_reducible apply okeep_next | with_reducible apply keep_ite | split)

theorem execMultiWordLowRead_keep {s0 s : State} (h : Keep s0 s) {v0} :
    OKeep s0 (execMultiWordLowRead v0 s) := by
  unfold execMultiWordLowRead
  repeat' (first
    | intro y
    | (extract_lets +onlyGivenNames x; first | (refine keep_suff (p := Keep s0 x) ?_ (fun hx => ?_); subst x; rotate_left; clear_value x) | subst x)
    | with_reducible assumption | with_reducible apply State.hostRead_keep | with_reducible apply okeep_next | split)

theorem execHpIgnoredRead_keep {s0 s : State} (h : Keep s0 s) :
    OKeep s0 (execHpIgnoredRead s) := by
  unfold execHpIgnoredRead
  repeat' (first
    | intro y
    | (extract_lets +onlyGivenNames x; first | (refine keep_suff (p := Keep s0 x) ?_ (fun hx => ?_); subst x; rotate_left; clear_value x) | subst x)
    | with_reducible assumption | with_reducible apply State.hostRead_keep | with_reducible apply okeep_next | split)

theorem execPortLastFaultRead_keep {s0 s : State} (h : Keep s0 s) :
    OKeep s0 (execPortLastFaultRead s) := by
  unfold execPortLastFaultRead
  repeat' (first
    | intro y
    | (extract_lets +onlyGivenNames x; first | (refine keep_suff (p := Keep s0 x) ?_ (fun hx => ?_); subst x; rotate_left; clear_value x) | subst x)
    | with_reducible assumption | with_reducible apply State.hostRead_keep | with_reducible apply okeep_next | split)

theorem execFifoStatRead_keep {s0 s : State} (h : Keep s0 s) :
    OKeep s0 (execFifoStatRead s) := by
  unfold execFifoStatRead
  repeat' (first
    | intro y
    | (extract_lets +onlyGivenNames x; first | (refine keep_suff (p := Keep s0 x) ?_ (fun hx => ?_); subst x; rotate_left; clear_value x) | subst x)
    | with_reducible assumption | with_reducible apply State.hostRead_keep | with_reducible apply okeep_next | split)

theorem execTagFieldLastRead_keep {s0 s : State} (h : Keep s0 s) :
    OKeep s0 (execTagFieldLastRead s) := by
  unfold execTagFieldLastRead
  repeat' (first
    | intro y
    | (extract_lets +onlyGivenNames x; first | (refine keep_suff (p := Keep s0 x) ?_ (fun hx => ?_); subst x; rotate_left; clear_value x) | subst x)
    | with_reducible assumption | with_reducible apply State.hostRead_keep | with_reducible apply okeep_next | split)

theorem execTimeBaseWrite_keep {s0 s : State} (h : Keep s0 s) {v0} :
    OKeep s0 (execTimeBaseWrite v0 s) := by
  unfold execTimeBaseWrite
  repeat' (first
    | intro y
    | (extract_lets +onlyGivenNames x; first | (refine keep_suff (p := Keep s0 x) ?_ (fun hx => ?_); subst x; rotate_left; clear_value x) | subst x)
    | with_reducible assumption | with_reducible apply State.wake_keep | with_reducible apply State.cnt_keep
    | with_reducible apply okeep_next | with_reducible apply keep_ite | split | refine keep_upd ?_ rfl rfl rfl rfl rfl rfl rfl rfl)

theorem execClkRefctrlWrite_keep {s0 s : State} (h : Keep s0 s) {v0} :
    OKeep s0 (execClkRefctrlWrite v0 s) := by
  unfold execClkRefctrlWrite
  repeat' (first
    | intro y
    | (extract_lets +onlyGivenNames x; first | (refine keep_suff (p := Keep s0 x) ?_ (fun hx => ?_); subst x; rotate_left; clear_value x) | subst x)
    | with_reducible assumption | with_reducible apply State.hostWrite_keep | with_reducible apply State.performWrite_keep
    | with_reducible apply okeep_next | split)

theorem execLegLinkCommit_keep {s0 s : State} (h : Keep s0 s) {v0 v1 v2} :
    OKeep s0 (execLegLinkCommit v0 v1 v2 s) := by
  unfold execLegLinkCommit
  repeat' (first
    | intro y
    | (extract_lets +onlyGivenNames x; first | (refine keep_suff (p := Keep s0 x) ?_ (fun hx => ?_); subst x; rotate_left; clear_value x) | subst x)
    | with_reducible assumption | with_reducible apply State.hostWrite_keep | with_reducible apply State.performWrites_keep
    | with_reducible apply okeep_next | split)

theorem execUmaLinkWrite_keep {s0 s : State} (h : Keep s0 s) {v0 v1} :
    OKeep s0 (execUmaLinkWrite v0 v1 s) := by
  unfold execUmaLinkWrite
  repeat' (first
    | intro y
    | (extract_lets +onlyGivenNames x; first | (refine keep_suff (p := Keep s0 x) ?_ (fun hx => ?_); subst x; rotate_left; clear_value x) | subst x)
    | with_reducible assumption | with_reducible apply State.hostWrite_keep | with_reducible apply State.performWrite_keep
    | with_reducible apply okeep_next | split)

theorem execCrcStart_keep {s0 s : State} (h : Keep s0 s) {v0} :
    OKeep s0 (execCrcStart v0 s) := by
  unfold execCrcStart
  repeat' (first
    | intro y
    | (extract_lets +onlyGivenNames x; first | (refine keep_suff (p := Keep s0 x) ?_ (fun hx => ?_); subst x; rotate_left; clear_value x) | subst x)
    | with_reducible assumption | with_reducible apply State.hostWrite_keep | with_reducible apply State.performWrite_keep
    | with_reducible apply okeep_next | split)

theorem execCrcHwinWrite_keep {s0 s : State} (h : Keep s0 s) {v0 v1} :
    OKeep s0 (execCrcHwinWrite v0 v1 s) := by
  unfold execCrcHwinWrite
  repeat' (first
    | intro y
    | (extract_lets +onlyGivenNames x; first | (refine keep_suff (p := Keep s0 x) ?_ (fun hx => ?_); subst x; rotate_left; clear_value x) | subst x)
    | with_reducible assumption | with_reducible apply State.hostWrite_keep | with_reducible apply State.performWrite_keep
    | with_reducible apply okeep_next | split)

theorem execCrcHbitsWrite_keep {s0 s : State} (h : Keep s0 s) {v0} :
    OKeep s0 (execCrcHbitsWrite v0 s) := by
  unfold execCrcHbitsWrite
  repeat' (first
    | intro y
    | (extract_lets +onlyGivenNames x; first | (refine keep_suff (p := Keep s0 x) ?_ (fun hx => ?_); subst x; rotate_left; clear_value x) | subst x)
    | with_reducible assumption | with_reducible apply State.hostWrite_keep | with_reducible apply State.performWrite_keep
    | with_reducible apply okeep_next | split)

theorem execCrcPresetCommit_keep {s0 s : State} (h : Keep s0 s) {v0 v1 v2 v3 v4} :
    OKeep s0 (execCrcPresetCommit v0 v1 v2 v3 v4 s) := by
  unfold execCrcPresetCommit
  repeat' (first
    | intro y
    | (extract_lets +onlyGivenNames x; first | (refine keep_suff (p := Keep s0 x) ?_ (fun hx => ?_); subst x; rotate_left; clear_value x) | subst x)
    | with_reducible assumption | with_reducible apply State.hostWrite_keep | with_reducible apply State.performWrites_keep
    | with_reducible apply okeep_next | split)

theorem execPingThrWrite_keep {s0 s : State} (h : Keep s0 s) {v0} :
    OKeep s0 (execPingThrWrite v0 s) := by
  unfold execPingThrWrite
  repeat' (first
    | intro y
    | (extract_lets +onlyGivenNames x; first | (refine keep_suff (p := Keep s0 x) ?_ (fun hx => ?_); subst x; rotate_left; clear_value x) | subst x)
    | with_reducible assumption | with_reducible apply State.hostWrite_keep | with_reducible apply State.performWrite_keep
    | with_reducible apply okeep_next | split)

theorem execMgmtLogSelWrite_keep {s0 s : State} (h : Keep s0 s) {v0} :
    OKeep s0 (execMgmtLogSelWrite v0 s) := by
  unfold execMgmtLogSelWrite
  repeat' (first
    | intro y
    | (extract_lets +onlyGivenNames x; first | (refine keep_suff (p := Keep s0 x) ?_ (fun hx => ?_); subst x; rotate_left; clear_value x) | subst x)
    | with_reducible assumption | with_reducible apply State.hostWrite_keep | with_reducible apply State.performWrite_keep
    | with_reducible apply okeep_next | split)

theorem execUpdUtcWrite_keep {s0 s : State} (h : Keep s0 s) {v0 v1 v2} :
    OKeep s0 (execUpdUtcWrite v0 v1 v2 s) := by
  unfold execUpdUtcWrite
  repeat' (first
    | intro y
    | (extract_lets +onlyGivenNames x; first | (refine keep_suff (p := Keep s0 x) ?_ (fun hx => ?_); subst x; rotate_left; clear_value x) | subst x)
    | with_reducible assumption | with_reducible apply State.hostWrite_keep | with_reducible apply State.performWrites_keep
    | with_reducible apply okeep_next | split)

theorem execMgmtCfgStandbyWrite_keep {s0 s : State} (h : Keep s0 s) {v0} :
    OKeep s0 (execMgmtCfgStandbyWrite v0 s) := by
  unfold execMgmtCfgStandbyWrite
  repeat' (first
    | intro y
    | (extract_lets +onlyGivenNames x; first | (refine keep_suff (p := Keep s0 x) ?_ (fun hx => ?_); subst x; rotate_left; clear_value x) | subst x)
    | with_reducible assumption | with_reducible apply State.hostWrite_keep | with_reducible apply State.performWrite_keep
    | with_reducible apply okeep_next | split)

theorem execWireCrumbWrite_keep {s0 s : State} (h : Keep s0 s) {v0 v1} :
    OKeep s0 (execWireCrumbWrite v0 v1 s) := by
  unfold execWireCrumbWrite
  repeat' (first
    | intro y
    | (extract_lets +onlyGivenNames x; first | (refine keep_suff (p := Keep s0 x) ?_ (fun hx => ?_); subst x; rotate_left; clear_value x) | subst x)
    | with_reducible assumption | with_reducible apply State.hostWrite_keep | with_reducible apply State.postWire_keep
    | with_reducible apply okeep_next | split)

end Sys2Proof.Machine
end

