-- ==== Sys2Proof/Laws/KeepEvents.lean ====
section
/-! SUPPORT. What the events of the units keep (`Keep` of Laws/Keep.lean), one lemma for each. -/
namespace Sys2Proof.Machine

set_option Elab.async false

theorem execLoadComplete_keep {s0 s : State} (h : Keep s0 s) {v0} :
    OKeep s0 (execLoadComplete v0 s) := by
  unfold execLoadComplete
  repeat' (first
    | intro y
    | (extract_lets +onlyGivenNames x; first | (refine keep_suff (p := Keep s0 x) ?_ (fun hx => ?_); subst x; rotate_left; clear_value x) | subst x)
    | with_reducible assumption | with_reducible apply State.complete_keep | with_reducible apply State.dropBlock_keep
    | with_reducible apply okeep_next | with_reducible apply keep_ite | split)

theorem execVerifyComplete_keep {s0 s : State} (h : Keep s0 s) {v0} :
    OKeep s0 (execVerifyComplete v0 s) := by
  unfold execVerifyComplete
  repeat' (first
    | intro y
    | (extract_lets +onlyGivenNames x; first | (refine keep_suff (p := Keep s0 x) ?_ (fun hx => ?_); subst x; rotate_left; clear_value x) | subst x)
    | with_reducible assumption | with_reducible apply State.completeAll_keep | with_reducible apply State.rejected_keep
    | with_reducible apply State.copyImage_keep | with_reducible apply State.verifyPassed_keep | with_reducible apply okeep_next
    | with_reducible apply keep_ite | split)

theorem execConfirmComplete_keep {s0 s : State} (h : Keep s0 s) {v0} :
    OKeep s0 (execConfirmComplete v0 s) := by
  unfold execConfirmComplete
  repeat' (first
    | intro y
    | (extract_lets +onlyGivenNames x; first | (refine keep_suff (p := Keep s0 x) ?_ (fun hx => ?_); subst x; rotate_left; clear_value x) | subst x)
    | with_reducible assumption | with_reducible apply State.completeAll_keep | with_reducible apply State.dropUpdate_keep
    | with_reducible apply State.confirmed_keep | with_reducible apply okeep_next | with_reducible apply keep_ite | split)

theorem execScheduledSwitch_keep {s0 s : State} (h : Keep s0 s) :
    OKeep s0 (execScheduledSwitch s) := by
  unfold execScheduledSwitch
  repeat' (first
    | intro y
    | (extract_lets +onlyGivenNames x; first | (refine keep_suff (p := Keep s0 x) ?_ (fun hx => ?_); subst x; rotate_left; clear_value x) | subst x)
    | with_reducible assumption | with_reducible apply State.setBit_keep | with_reducible apply State.expireRound_keep
    | with_reducible apply okeep_next | with_reducible apply keep_foldl | with_reducible apply keep_foldl1
    | with_reducible apply keep_foldl2 | with_reducible apply keep_ite | refine keep_pair ?_ (by with_reducible assumption)
    | refine keep_pair1 ?_ (by with_reducible assumption) | split | refine keep_upd ?_ rfl rfl rfl rfl rfl rfl rfl rfl)

theorem execSwitchOwnership_keep {s0 s : State} (h : Keep s0 s) :
    OKeep s0 (execSwitchOwnership s) := by
  unfold execSwitchOwnership
  repeat' (first
    | intro y
    | (extract_lets +onlyGivenNames x; first | (refine keep_suff (p := Keep s0 x) ?_ (fun hx => ?_); subst x; rotate_left; clear_value x) | subst x)
    | with_reducible assumption | with_reducible apply State.switchOver_keep | with_reducible apply okeep_next
    | with_reducible apply keep_ite | split)

theorem execFallbackPath_keep {s0 s : State} (h : Keep s0 s) :
    OKeep s0 (execFallbackPath s) := by
  unfold execFallbackPath
  repeat' (first
    | intro y
    | (extract_lets +onlyGivenNames x; first | (refine keep_suff (p := Keep s0 x) ?_ (fun hx => ?_); subst x; rotate_left; clear_value x) | subst x)
    | with_reducible assumption | with_reducible apply State.setBit_keep | with_reducible apply State.startFallback_keep
    | with_reducible apply State.switchAtOnce_keep | with_reducible apply okeep_next | with_reducible apply keep_ite | split)

theorem execTrialTimeout_keep {s0 s : State} (h : Keep s0 s) :
    OKeep s0 (execTrialTimeout s) := by
  unfold execTrialTimeout
  repeat' (first
    | intro y
    | (extract_lets +onlyGivenNames x; first | (refine keep_suff (p := Keep s0 x) ?_ (fun hx => ?_); subst x; rotate_left; clear_value x) | subst x)
    | with_reducible assumption | with_reducible apply State.startRevert_keep | with_reducible apply okeep_next
    | with_reducible apply keep_ite | split)

theorem execQuiesceEnd_keep {s0 s : State} (h : Keep s0 s) :
    OKeep s0 (execQuiesceEnd s) := by
  unfold execQuiesceEnd
  repeat' (first
    | intro y
    | (extract_lets +onlyGivenNames x; first | (refine keep_suff (p := Keep s0 x) ?_ (fun hx => ?_); subst x; rotate_left; clear_value x) | subst x)
    | with_reducible assumption | with_reducible apply State.commitEntry_keep | with_reducible apply okeep_next
    | with_reducible apply keep_ite | split)

theorem execQuiesceAbort_keep {s0 s : State} (h : Keep s0 s) {v0} :
    OKeep s0 (execQuiesceAbort v0 s) := by
  unfold execQuiesceAbort
  repeat' (first
    | intro y
    | (extract_lets +onlyGivenNames x; first | (refine keep_suff (p := Keep s0 x) ?_ (fun hx => ?_); subst x; rotate_left; clear_value x) | subst x)
    | with_reducible assumption | with_reducible apply State.abortEntry_keep | with_reducible apply okeep_next
    | with_reducible apply keep_ite | split)

theorem execQuiesceTimeout_keep {s0 s : State} (h : Keep s0 s) :
    OKeep s0 (execQuiesceTimeout s) := by
  unfold execQuiesceTimeout
  repeat' (first
    | intro y
    | (extract_lets +onlyGivenNames x; first | (refine keep_suff (p := Keep s0 x) ?_ (fun hx => ?_); subst x; rotate_left; clear_value x) | subst x)
    | with_reducible assumption | with_reducible apply State.abortEntry_keep | with_reducible apply okeep_next | split)

theorem execTallyFeedPending_keep {s0 s : State} (h : Keep s0 s) :
    OKeep s0 (execTallyFeedPending s) := by
  unfold execTallyFeedPending
  repeat' (first
    | intro y
    | (extract_lets +onlyGivenNames x; first | (refine keep_suff (p := Keep s0 x) ?_ (fun hx => ?_); subst x; rotate_left; clear_value x) | subst x)
    | with_reducible assumption | with_reducible apply State.abortEntry_keep | with_reducible apply okeep_next
    | with_reducible apply keep_ite | split)

theorem execPowerDown_keep {s0 s : State} (h : Keep s0 s) :
    OKeep s0 (execPowerDown s) := by
  unfold execPowerDown
  repeat' (first
    | intro y
    | (extract_lets +onlyGivenNames x; first | (refine keep_suff (p := Keep s0 x) ?_ (fun hx => ?_); subst x; rotate_left; clear_value x) | subst x)
    | with_reducible assumption | with_reducible apply State.gateClocks_keep | with_reducible apply State.setReg_keep
    | with_reducible apply State.tagPowerLost_keep | with_reducible apply okeep_next | with_reducible apply keep_ite | split
    | refine keep_upd ?_ rfl rfl rfl rfl rfl rfl rfl rfl)

theorem execPowerDownComplete_keep {s0 s : State} (h : Keep s0 s) :
    OKeep s0 (execPowerDownComplete s) := by
  unfold execPowerDownComplete
  repeat' (first
    | intro y
    | (extract_lets +onlyGivenNames x; first | (refine keep_suff (p := Keep s0 x) ?_ (fun hx => ?_); subst x; rotate_left; clear_value x) | subst x)
    | with_reducible assumption | with_reducible apply State.takeWake_keep | with_reducible apply okeep_next
    | with_reducible apply keep_ite | split | refine keep_upd ?_ rfl rfl rfl rfl rfl rfl rfl rfl)

theorem execWakeN_keep {s0 s : State} (h : Keep s0 s) {v0} :
    OKeep s0 (execWakeN v0 s) := by
  unfold execWakeN
  repeat' (first
    | intro y
    | (extract_lets +onlyGivenNames x; first | (refine keep_suff (p := Keep s0 x) ?_ (fun hx => ?_); subst x; rotate_left; clear_value x) | subst x)
    | with_reducible assumption | with_reducible apply State.drawBool_keep | with_reducible apply State.wake_keep
    | with_reducible apply okeep_next | with_reducible apply keep_ite | refine keep_pair ?_ (by with_reducible assumption) | split
    | refine keep_upd ?_ rfl rfl rfl rfl rfl rfl rfl rfl)

theorem execTimer_keep {s0 s : State} (h : Keep s0 s) :
    OKeep s0 (execTimer s) := by
  unfold execTimer
  repeat' (first
    | intro y
    | (extract_lets +onlyGivenNames x; first | (refine keep_suff (p := Keep s0 x) ?_ (fun hx => ?_); subst x; rotate_left; clear_value x) | subst x)
    | with_reducible assumption | with_reducible apply State.wake_keep | with_reducible apply okeep_next | split)

theorem execHost_keep {s0 s : State} (h : Keep s0 s) :
    OKeep s0 (execHost s) := by
  unfold execHost
  repeat' (first
    | intro y
    | (extract_lets +onlyGivenNames x; first | (refine keep_suff (p := Keep s0 x) ?_ (fun hx => ?_); subst x; rotate_left; clear_value x) | subst x)
    | with_reducible assumption | with_reducible apply State.wake_keep | with_reducible apply okeep_next | split)

theorem execVinReturn_keep {s0 s : State} (h : Keep s0 s) :
    OKeep s0 (execVinReturn s) := by
  unfold execVinReturn
  repeat' (first
    | intro y
    | (extract_lets +onlyGivenNames x; first | (refine keep_suff (p := Keep s0 x) ?_ (fun hx => ?_); subst x; rotate_left; clear_value x) | subst x)
    | with_reducible assumption | with_reducible apply State.leaveSleep_keep | with_reducible apply okeep_next
    | with_reducible apply keep_ite | split | refine keep_upd ?_ rfl rfl rfl rfl rfl rfl rfl rfl)

theorem State.loomCount_keep {s0 s : State} (h : Keep s0 s) {v1 v2} :
    Keep s0 (State.loomCount s v1 v2) := by
  unfold State.loomCount
  repeat' (first
    | intro y
    | (extract_lets +onlyGivenNames x; first | (refine keep_suff (p := Keep s0 x) ?_ (fun hx => ?_); subst x; rotate_left; clear_value x) | subst x)
    | with_reducible assumption | with_reducible apply State.cnt_keep | split)

theorem State.startReception_keep {s0 s : State} (h : Keep s0 s) {v1 v2 v3} :
    Keep s0 (State.startReception s v1 v2 v3) := by
  unfold State.startReception
  repeat' (first
    | intro y
    | (extract_lets +onlyGivenNames x; first | (refine keep_suff (p := Keep s0 x) ?_ (fun hx => ?_); subst x; rotate_left; clear_value x) | subst x)
    | with_reducible assumption | with_reducible apply State.loomCount_keep | with_reducible apply State.umaCount_keep
    | with_reducible apply State.updBeam_keep | with_reducible apply keep_ite | split)

theorem State.ldShow_keep {s0 s : State} (h : Keep s0 s) {v1 v2 v3} :
    Keep s0 (State.ldShow s v1 v2 v3) := by
  unfold State.ldShow
  repeat' (first
    | intro y
    | (extract_lets +onlyGivenNames x; first | (refine keep_suff (p := Keep s0 x) ?_ (fun hx => ?_); subst x; rotate_left; clear_value x) | subst x)
    | with_reducible assumption | with_reducible apply State.legCount_keep | with_reducible apply State.setBit_keep
    | with_reducible apply State.setFld_keep | with_reducible apply keep_ite | split)

theorem State.queueWefts_keep {s0 s : State} (h : Keep s0 s) {v1 v2 v3} :
    Keep s0 (State.queueWefts s v1 v2 v3) := by
  unfold State.queueWefts
  repeat' (first
    | intro y
    | (extract_lets +onlyGivenNames x; first | (refine keep_suff (p := Keep s0 x) ?_ (fun hx => ?_); subst x; rotate_left; clear_value x) | subst x)
    | with_reducible assumption | with_reducible apply keep_ite | split | refine keep_upd ?_ rfl rfl rfl rfl rfl rfl rfl rfl)

theorem State.endReception_keep {s0 s : State} (h : Keep s0 s) {v1 v2} :
    Keep s0 (State.endReception s v1 v2) := by
  unfold State.endReception
  repeat' (first
    | intro y
    | (extract_lets +onlyGivenNames x; first | (refine keep_suff (p := Keep s0 x) ?_ (fun hx => ?_); subst x; rotate_left; clear_value x) | subst x)
    | with_reducible assumption | with_reducible apply State.peerReceive_keep | with_reducible apply State.adaptWeights_keep
    | with_reducible apply State.updBeam_keep | with_reducible apply State.chainsRx_keep | with_reducible apply State.ldShow_keep
    | with_reducible apply State.loomCount_keep | with_reducible apply State.queueWefts_keep | with_reducible apply keep_ite | split)

theorem State.releaseFrame_keep {s0 s : State} (h : Keep s0 s) {v1 v2} :
    Keep s0 (State.releaseFrame s v1 v2) := by
  unfold State.releaseFrame
  repeat' (first
    | intro y
    | (extract_lets +onlyGivenNames x; first | (refine keep_suff (p := Keep s0 x) ?_ (fun hx => ?_); subst x; rotate_left; clear_value x) | subst x)
    | with_reducible assumption | with_reducible apply State.updBeam_keep | with_reducible apply State.queueWefts_keep
    | with_reducible apply keep_ite | split | refine keep_upd ?_ rfl rfl rfl rfl rfl rfl rfl rfl)

theorem State.sightOf_keep {s0 s : State} (h : Keep s0 s) {v1 v2 v3 v4 v5 v6 v7 v8 v9 v10 v11 v12} :
    Keep s0 (State.sightOf s v1 v2 v3 v4 v5 v6 v7 v8 v9 v10 v11 v12).2 := by
  unfold State.sightOf
  repeat' (first
    | intro y
    | (extract_lets +onlyGivenNames x; first | (refine keep_suff (p := Keep s0 x) ?_ (fun hx => ?_); subst x; rotate_left; clear_value x) | subst x)
    | with_reducible assumption | with_reducible apply State.posWord_keep | refine keep_pair ?_ (by with_reducible assumption) | split)

theorem State.makeSighting_keep {s0 s : State} (h : Keep s0 s) {v1 v2 v3 v4 v5 v6} :
    Keep s0 (State.makeSighting s v1 v2 v3 v4 v5 v6).2 := by
  unfold State.makeSighting
  repeat' (first
    | intro y
    | (extract_lets +onlyGivenNames x; first | (refine keep_suff (p := Keep s0 x) ?_ (fun hx => ?_); subst x; rotate_left; clear_value x) | subst x)
    | with_reducible assumption | with_reducible apply State.sighting_keep | with_reducible apply State.refUpdate_keep
    | with_reducible apply keep_ite | refine keep_pair ?_ (by with_reducible assumption) | split)

theorem State.pastCommit_keep {s0 s : State} (h : Keep s0 s) {v1} :
    Keep s0 (State.pastCommit s v1) := by
  unfold State.pastCommit
  repeat' (first
    | intro y
    | (extract_lets +onlyGivenNames x; first | (refine keep_suff (p := Keep s0 x) ?_ (fun hx => ?_); subst x; rotate_left; clear_value x) | subst x)
    | with_reducible assumption | with_reducible apply State.updRound_keep | split)

theorem State.legCheck_keep {s0 s : State} (h : Keep s0 s) {v1 v2 v3 v4} :
    Keep s0 (State.legCheck s v1 v2 v3 v4) := by
  unfold State.legCheck
  repeat' (first
    | intro y
    | (extract_lets +onlyGivenNames x; first | (refine keep_suff (p := Keep s0 x) ?_ (fun hx => ?_); subst x; rotate_left; clear_value x) | subst x)
    | with_reducible assumption | with_reducible apply State.cnt_keep | with_reducible apply State.legCount_keep
    | with_reducible apply State.updLeg_keep | with_reducible apply State.commitTxn_keep | with_reducible apply State.pastCommit_keep
    | with_reducible apply State.sightOf_keep | with_reducible apply State.makeSighting_keep | with_reducible apply keep_ite
    | refine keep_pair ?_ (by with_reducible assumption) | split)

theorem State.giveWeft_keep {s0 s : State} (h : Keep s0 s) {v1 v2 v3 v4 v5 v6 v7} :
    Keep s0 (State.giveWeft s v1 v2 v3 v4 v5 v6 v7) := by
  unfold State.giveWeft
  repeat' (first
    | intro y
    | (extract_lets +onlyGivenNames x; first | (refine keep_suff (p := Keep s0 x) ?_ (fun hx => ?_); subst x; rotate_left; clear_value x) | subst x)
    | with_reducible assumption | with_reducible apply State.loadForWeft_keep | with_reducible apply State.setUmTag_keep
    | with_reducible apply State.assignWeft_keep | with_reducible apply keep_ite | split)

theorem State.noTrim_keep {s0 s : State} (h : Keep s0 s) {v1} :
    Keep s0 (State.noTrim s v1) := by
  unfold State.noTrim
  repeat' (first
    | intro y
    | (extract_lets +onlyGivenNames x; first | (refine keep_suff (p := Keep s0 x) ?_ (fun hx => ?_); subst x; rotate_left; clear_value x) | subst x)
    | with_reducible assumption | with_reducible apply State.setUmTag_keep | split)

theorem State.commitRead_keep {s0 s : State} (h : Keep s0 s) {v1 v2 v3 v4} :
    Keep s0 (State.commitRead s v1 v2 v3 v4) := by
  unfold State.commitRead
  repeat' (first
    | intro y
    | (extract_lets +onlyGivenNames x; first | (refine keep_suff (p := Keep s0 x) ?_ (fun hx => ?_); subst x; rotate_left; clear_value x) | subst x)
    | with_reducible assumption | with_reducible apply State.updUma_keep | with_reducible apply State.commitTxn_keep
    | with_reducible apply keep_ite | split)

theorem State.umaCheck_keep {s0 s : State} (h : Keep s0 s) {v1 v2 v3 v4 v5} :
    Keep s0 (State.umaCheck s v1 v2 v3 v4 v5) := by
  unfold State.umaCheck
  repeat' (first
    | intro y
    | (extract_lets +onlyGivenNames x; first | (refine keep_suff (p := Keep s0 x) ?_ (fun hx => ?_); subst x; rotate_left; clear_value x) | subst x)
    | with_reducible assumption | with_reducible apply State.cnt_keep | with_reducible apply State.noTrim_keep
    | with_reducible apply State.updUma_keep | with_reducible apply State.umaCount_keep | with_reducible apply State.setFld_keep
    | with_reducible apply State.countClass_keep | with_reducible apply State.commitRead_keep
    | with_reducible apply State.pastCommit_keep | with_reducible apply State.sightOf_keep | with_reducible apply State.makeSighting_keep
    | with_reducible apply State.giveWeft_keep | with_reducible apply State.nextLoading_keep | with_reducible apply keep_ite
    | refine keep_pair ?_ (by with_reducible assumption) | split | refine keep_upd ?_ rfl rfl rfl rfl rfl rfl rfl rfl)

theorem State.checkFrame_keep {s0 s : State} (h : Keep s0 s) :
    Keep s0 (State.checkFrame s) := by
  unfold State.checkFrame
  repeat' (first
    | intro y
    | (extract_lets +onlyGivenNames x; first | (refine keep_suff (p := Keep s0 x) ?_ (fun hx => ?_); subst x; rotate_left; clear_value x) | subst x)
    | with_reducible assumption | with_reducible apply State.legCheck_keep | with_reducible apply State.umaCheck_keep | split
    | refine keep_upd ?_ rfl rfl rfl rfl rfl rfl rfl rfl)

theorem State.closeWindows_keep {s0 s : State} (h : Keep s0 s) {v1} :
    Keep s0 (State.closeWindows s v1) := by
  unfold State.closeWindows
  repeat' (first
    | intro y
    | (extract_lets +onlyGivenNames x; first | (refine keep_suff (p := Keep s0 x) ?_ (fun hx => ?_); subst x; rotate_left; clear_value x) | subst x)
    | with_reducible assumption | with_reducible apply State.updBeam_keep | with_reducible apply keep_foldl
    | with_reducible apply keep_foldl1 | with_reducible apply keep_foldl2 | refine keep_pair ?_ (by with_reducible assumption)
    | refine keep_pair1 ?_ (by with_reducible assumption) | split)

theorem State.engineOver_keep {s0 s : State} (h : Keep s0 s) {v1} :
    Keep s0 (State.engineOver s v1) := by
  unfold State.engineOver
  repeat' (first
    | intro y
    | (extract_lets +onlyGivenNames x; first | (refine keep_suff (p := Keep s0 x) ?_ (fun hx => ?_); subst x; rotate_left; clear_value x) | subst x)
    | with_reducible assumption | with_reducible apply State.legOver_keep | with_reducible apply State.umaOver_keep
    | with_reducible apply keep_ite | split)

theorem execPrimaryLock_keep {s0 s : State} (h : Keep s0 s) {v0 v1} :
    OKeep s0 (execPrimaryLock v0 v1 s) := by
  unfold execPrimaryLock
  repeat' (first
    | intro y
    | (extract_lets +onlyGivenNames x; first | (refine keep_suff (p := Keep s0 x) ?_ (fun hx => ?_); subst x; rotate_left; clear_value x) | subst x)
    | with_reducible assumption | with_reducible apply State.startReception_keep | with_reducible apply okeep_next
    | with_reducible apply keep_ite | split)

theorem State.capturePeak_keep {s0 s : State} (h : Keep s0 s) {v1 v2 v3 v4 v5 v6} :
    Keep s0 (State.capturePeak s v1 v2 v3 v4 v5 v6) := by
  unfold State.capturePeak
  repeat' (first
    | intro y
    | (extract_lets +onlyGivenNames x; first | (refine keep_suff (p := Keep s0 x) ?_ (fun hx => ?_); subst x; rotate_left; clear_value x) | subst x)
    | with_reducible assumption | with_reducible apply State.updBeam_keep | with_reducible apply State.loomCount_keep
    | with_reducible apply State.umaCount_keep | with_reducible apply State.startReception_keep
    | with_reducible apply State.adaptWeights_keep | with_reducible apply keep_ite | split)

theorem execCapture_keep {s0 s : State} (h : Keep s0 s) {v0 v1 v2 v3} :
    OKeep s0 (execCapture v0 v1 v2 v3 s) := by
  unfold execCapture
  repeat' (first
    | intro y
    | (extract_lets +onlyGivenNames x; first | (refine keep_suff (p := Keep s0 x) ?_ (fun hx => ?_); subst x; rotate_left; clear_value x) | subst x)
    | with_reducible assumption | with_reducible apply State.capturePeak_keep | with_reducible apply okeep_next
    | with_reducible apply keep_ite | split)

theorem execReplyWindowOpen_keep {s0 s : State} (h : Keep s0 s) {v0} :
    OKeep s0 (execReplyWindowOpen v0 s) := by
  unfold execReplyWindowOpen
  repeat' (first
    | intro y
    | (extract_lets +onlyGivenNames x; first | (refine keep_suff (p := Keep s0 x) ?_ (fun hx => ?_); subst x; rotate_left; clear_value x) | subst x)
    | with_reducible assumption | with_reducible apply State.updBeam_keep | with_reducible apply State.airOver_keep
    | with_reducible apply okeep_next | with_reducible apply keep_foldl | with_reducible apply keep_foldl1
    | with_reducible apply keep_foldl2 | with_reducible apply keep_ite | refine keep_pair ?_ (by with_reducible assumption)
    | refine keep_pair1 ?_ (by with_reducible assumption) | split)

theorem execReplyWindowClose_keep {s0 s : State} (h : Keep s0 s) {v0} :
    OKeep s0 (execReplyWindowClose v0 s) := by
  unfold execReplyWindowClose
  repeat' (first
    | intro y
    | (extract_lets +onlyGivenNames x; first | (refine keep_suff (p := Keep s0 x) ?_ (fun hx => ?_); subst x; rotate_left; clear_value x) | subst x)
    | with_reducible assumption | with_reducible apply State.closeWindows_keep | with_reducible apply State.legOver_keep
    | with_reducible apply State.umaEmpty_keep | with_reducible apply okeep_next | with_reducible apply keep_ite | split)

theorem execReceptionEnd_keep {s0 s : State} (h : Keep s0 s) {v0 v1} :
    OKeep s0 (execReceptionEnd v0 v1 s) := by
  unfold execReceptionEnd
  repeat' (first
    | intro y
    | (extract_lets +onlyGivenNames x; first | (refine keep_suff (p := Keep s0 x) ?_ (fun hx => ?_); subst x; rotate_left; clear_value x) | subst x)
    | with_reducible assumption | with_reducible apply State.endReception_keep | with_reducible apply okeep_next | split)

theorem execDecoderRelease_keep {s0 s : State} (h : Keep s0 s) {v0 v1} :
    OKeep s0 (execDecoderRelease v0 v1 s) := by
  unfold execDecoderRelease
  repeat' (first
    | intro y
    | (extract_lets +onlyGivenNames x; first | (refine keep_suff (p := Keep s0 x) ?_ (fun hx => ?_); subst x; rotate_left; clear_value x) | subst x)
    | with_reducible assumption | with_reducible apply State.releaseFrame_keep | with_reducible apply okeep_next | split)

theorem execCrcAliveCheck_keep {s0 s : State} (h : Keep s0 s) :
    OKeep s0 (execCrcAliveCheck s) := by
  unfold execCrcAliveCheck
  repeat' (first
    | intro y
    | (extract_lets +onlyGivenNames x; first | (refine keep_suff (p := Keep s0 x) ?_ (fun hx => ?_); subst x; rotate_left; clear_value x) | subst x)
    | with_reducible assumption | with_reducible apply State.checkFrame_keep | with_reducible apply okeep_next | split)

theorem State.peerAirOver_keep {s0 s : State} (h : Keep s0 s) {v1} :
    Keep s0 (State.peerAirOver s v1) := by
  unfold State.peerAirOver
  repeat' (first
    | intro y
    | (extract_lets +onlyGivenNames x; first | (refine keep_suff (p := Keep s0 x) ?_ (fun hx => ?_); subst x; rotate_left; clear_value x) | subst x)
    | with_reducible assumption | with_reducible apply State.rampDown_keep | with_reducible apply keep_ite | split)

theorem execLastBitOnAir_keep {s0 s : State} (h : Keep s0 s) {v0} :
    OKeep s0 (execLastBitOnAir v0 s) := by
  unfold execLastBitOnAir
  repeat' (first
    | intro y
    | (extract_lets +onlyGivenNames x; first | (refine keep_suff (p := Keep s0 x) ?_ (fun hx => ?_); subst x; rotate_left; clear_value x) | subst x)
    | with_reducible assumption | with_reducible apply State.peerAirOver_keep | with_reducible apply State.airOver_keep
    | with_reducible apply State.commitTxn_keep | with_reducible apply State.legLastBit_keep | with_reducible apply okeep_next
    | with_reducible apply keep_ite | split)

theorem State.legStep_keep {s0 s : State} (h : Keep s0 s) {v1 v2} :
    Keep s0 (State.legStep s v1 v2) := by
  unfold State.legStep
  repeat' (first
    | intro y
    | (extract_lets +onlyGivenNames x; first | (refine keep_suff (p := Keep s0 x) ?_ (fun hx => ?_); subst x; rotate_left; clear_value x) | subst x)
    | with_reducible assumption | with_reducible apply State.closeWindows_keep | with_reducible apply State.legOver_keep
    | with_reducible apply keep_ite | split)

theorem execLegacySlotEnd_keep {s0 s : State} (h : Keep s0 s) {v0} :
    OKeep s0 (execLegacySlotEnd v0 s) := by
  unfold execLegacySlotEnd
  repeat' (first
    | intro y
    | (extract_lets +onlyGivenNames x; first | (refine keep_suff (p := Keep s0 x) ?_ (fun hx => ?_); subst x; rotate_left; clear_value x) | subst x)
    | with_reducible assumption | with_reducible apply State.legStep_keep | with_reducible apply okeep_next | split)

theorem execIdentityReply_keep {s0 s : State} (h : Keep s0 s) {v0} :
    OKeep s0 (execIdentityReply v0 s) := by
  unfold execIdentityReply
  repeat' (first
    | intro y
    | (extract_lets +onlyGivenNames x; first | (refine keep_suff (p := Keep s0 x) ?_ (fun hx => ?_); subst x; rotate_left; clear_value x) | subst x)
    | with_reducible assumption | with_reducible apply State.legStep_keep | with_reducible apply okeep_next | split)

theorem execAccessReply_keep {s0 s : State} (h : Keep s0 s) {v0} :
    OKeep s0 (execAccessReply v0 s) := by
  unfold execAccessReply
  repeat' (first
    | intro y
    | (extract_lets +onlyGivenNames x; first | (refine keep_suff (p := Keep s0 x) ?_ (fun hx => ?_); subst x; rotate_left; clear_value x) | subst x)
    | with_reducible assumption | with_reducible apply State.legStep_keep | with_reducible apply okeep_next | split)

theorem execDelayedReplyTimeout_keep {s0 s : State} (h : Keep s0 s) {v0} :
    OKeep s0 (execDelayedReplyTimeout v0 s) := by
  unfold execDelayedReplyTimeout
  repeat' (first
    | intro y
    | (extract_lets +onlyGivenNames x; first | (refine keep_suff (p := Keep s0 x) ?_ (fun hx => ?_); subst x; rotate_left; clear_value x) | subst x)
    | with_reducible assumption | with_reducible apply State.legStep_keep | with_reducible apply okeep_next
    | with_reducible apply keep_ite | split)

theorem execUmaoloSlotEnd_keep {s0 s : State} (h : Keep s0 s) {v0} :
    OKeep s0 (execUmaoloSlotEnd v0 s) := by
  unfold execUmaoloSlotEnd
  repeat' (first
    | intro y
    | (extract_lets +onlyGivenNames x; first | (refine keep_suff (p := Keep s0 x) ?_ (fun hx => ?_); subst x; rotate_left; clear_value x) | subst x)
    | with_reducible assumption | with_reducible apply State.closeWindows_keep | with_reducible apply State.umaOver_keep
    | with_reducible apply okeep_next | with_reducible apply keep_ite | split)

theorem execWrWait_keep {s0 s : State} (h : Keep s0 s) {v0} :
    OKeep s0 (execWrWait v0 s) := by
  unfold execWrWait
  repeat' (first
    | intro y
    | (extract_lets +onlyGivenNames x; first | (refine keep_suff (p := Keep s0 x) ?_ (fun hx => ?_); subst x; rotate_left; clear_value x) | subst x)
    | with_reducible assumption | with_reducible apply State.umaOp_keep | with_reducible apply okeep_next | with_reducible apply keep_ite
    | split)

theorem State.askPeer_keep {s0 s : State} (h : Keep s0 s) {v1} :
    Keep s0 (State.askPeer s v1) := by
  unfold State.askPeer
  repeat' (first
    | intro y
    | (extract_lets +onlyGivenNames x; first | (refine keep_suff (p := Keep s0 x) ?_ (fun hx => ?_); subst x; rotate_left; clear_value x) | subst x)
    | with_reducible assumption | with_reducible apply State.tryStart_keep | with_reducible apply keep_ite | split
    | refine keep_upd ?_ rfl rfl rfl rfl rfl rfl rfl rfl)

theorem execPeerWindowOpen_keep {s0 s : State} (h : Keep s0 s) :
    OKeep s0 (execPeerWindowOpen s) := by
  unfold execPeerWindowOpen
  repeat' (first
    | intro y
    | (extract_lets +onlyGivenNames x; first | (refine keep_suff (p := Keep s0 x) ?_ (fun hx => ?_); subst x; rotate_left; clear_value x) | subst x)
    | with_reducible assumption | with_reducible apply State.askPeer_keep | with_reducible apply okeep_next
    | with_reducible apply keep_ite | split)

theorem execPeerSlot_keep {s0 s : State} (h : Keep s0 s) :
    OKeep s0 (execPeerSlot s) := by
  unfold execPeerSlot
  repeat' (first
    | intro y
    | (extract_lets +onlyGivenNames x; first | (refine keep_suff (p := Keep s0 x) ?_ (fun hx => ?_); subst x; rotate_left; clear_value x) | subst x)
    | with_reducible assumption | with_reducible apply State.ownSlot_keep | with_reducible apply okeep_next
    | with_reducible apply keep_ite | split)

theorem execPeerWindowEnd_keep {s0 s : State} (h : Keep s0 s) :
    OKeep s0 (execPeerWindowEnd s) := by
  unfold execPeerWindowEnd
  repeat' (first
    | intro y
    | (extract_lets +onlyGivenNames x; first | (refine keep_suff (p := Keep s0 x) ?_ (fun hx => ?_); subst x; rotate_left; clear_value x) | subst x)
    | with_reducible assumption | with_reducible apply State.updPeer_keep | with_reducible apply State.peerColours_keep
    | with_reducible apply State.peerEval_keep | with_reducible apply State.downRound_keep | with_reducible apply okeep_next
    | with_reducible apply keep_ite | split)

theorem execPeerReceivePeriod_keep {s0 s : State} (h : Keep s0 s) :
    OKeep s0 (execPeerReceivePeriod s) := by
  unfold execPeerReceivePeriod
  repeat' (first
    | intro y
    | (extract_lets +onlyGivenNames x; first | (refine keep_suff (p := Keep s0 x) ?_ (fun hx => ?_); subst x; rotate_left; clear_value x) | subst x)
    | with_reducible assumption | with_reducible apply State.askPeer_keep | with_reducible apply okeep_next
    | with_reducible apply keep_ite | split)

theorem execPeerReceivePeriodEnd_keep {s0 s : State} (h : Keep s0 s) :
    OKeep s0 (execPeerReceivePeriodEnd s) := by
  unfold execPeerReceivePeriodEnd
  repeat' (first
    | intro y
    | (extract_lets +onlyGivenNames x; first | (refine keep_suff (p := Keep s0 x) ?_ (fun hx => ?_); subst x; rotate_left; clear_value x) | subst x)
    | with_reducible assumption | with_reducible apply State.downRound_keep | with_reducible apply okeep_next
    | with_reducible apply keep_ite | split)

theorem execData_keep {s0 s : State} (h : Keep s0 s) {v0} :
    OKeep s0 (execData v0 s) := by
  unfold execData
  repeat' (first
    | intro y
    | (extract_lets +onlyGivenNames x; first | (refine keep_suff (p := Keep s0 x) ?_ (fun hx => ?_); subst x; rotate_left; clear_value x) | subst x)
    | with_reducible assumption | with_reducible apply State.peerHears_keep | with_reducible apply okeep_next | split)

theorem execAck_keep {s0 s : State} (h : Keep s0 s) {v0} :
    OKeep s0 (execAck v0 s) := by
  unfold execAck
  repeat' (first
    | intro y
    | (extract_lets +onlyGivenNames x; first | (refine keep_suff (p := Keep s0 x) ?_ (fun hx => ?_); subst x; rotate_left; clear_value x) | subst x)
    | with_reducible assumption | with_reducible apply State.peerHears_keep | with_reducible apply okeep_next | split)

theorem execAckTimeout_keep {s0 s : State} (h : Keep s0 s) :
    OKeep s0 (execAckTimeout s) := by
  unfold execAckTimeout
  repeat' (first
    | intro y
    | (extract_lets +onlyGivenNames x; first | (refine keep_suff (p := Keep s0 x) ?_ (fun hx => ?_); subst x; rotate_left; clear_value x) | subst x)
    | with_reducible assumption | with_reducible apply State.peerCount_keep | with_reducible apply State.complete_keep
    | with_reducible apply State.updPeer_keep | with_reducible apply okeep_next | with_reducible apply keep_ite | split)

theorem execBeacon_keep {s0 s : State} (h : Keep s0 s) {v0} :
    OKeep s0 (execBeacon v0 s) := by
  unfold execBeacon
  repeat' (first
    | intro y
    | (extract_lets +onlyGivenNames x; first | (refine keep_suff (p := Keep s0 x) ?_ (fun hx => ?_); subst x; rotate_left; clear_value x) | subst x)
    | with_reducible assumption | with_reducible apply State.peerHears_keep | with_reducible apply okeep_next | split)

theorem execReferenceLost_keep {s0 s : State} (h : Keep s0 s) :
    OKeep s0 (execReferenceLost s) := by
  unfold execReferenceLost
  repeat' (first
    | intro y
    | (extract_lets +onlyGivenNames x; first | (refine keep_suff (p := Keep s0 x) ?_ (fun hx => ?_); subst x; rotate_left; clear_value x) | subst x)
    | with_reducible assumption | with_reducible apply State.peerEval_keep | with_reducible apply State.updPeer_keep
    | with_reducible apply okeep_next | with_reducible apply keep_ite | split)

theorem execUpdOffer_keep {s0 s : State} (h : Keep s0 s) {v0} :
    OKeep s0 (execUpdOffer v0 s) := by
  unfold execUpdOffer
  repeat' (first
    | intro y
    | (extract_lets +onlyGivenNames x; first | (refine keep_suff (p := Keep s0 x) ?_ (fun hx => ?_); subst x; rotate_left; clear_value x) | subst x)
    | with_reducible assumption | with_reducible apply State.peerHears_keep | with_reducible apply okeep_next | split)

theorem execUpdReq_keep {s0 s : State} (h : Keep s0 s) {v0} :
    OKeep s0 (execUpdReq v0 s) := by
  unfold execUpdReq
  repeat' (first
    | intro y
    | (extract_lets +onlyGivenNames x; first | (refine keep_suff (p := Keep s0 x) ?_ (fun hx => ?_); subst x; rotate_left; clear_value x) | subst x)
    | with_reducible assumption | with_reducible apply State.peerHears_keep | with_reducible apply okeep_next | split)

theorem execUpdChunk_keep {s0 s : State} (h : Keep s0 s) {v0} :
    OKeep s0 (execUpdChunk v0 s) := by
  unfold execUpdChunk
  repeat' (first
    | intro y
    | (extract_lets +onlyGivenNames x; first | (refine keep_suff (p := Keep s0 x) ?_ (fun hx => ?_); subst x; rotate_left; clear_value x) | subst x)
    | with_reducible assumption | with_reducible apply State.peerHears_keep | with_reducible apply okeep_next | split)

theorem execPeerFetchComplete_keep {s0 s : State} (h : Keep s0 s) :
    OKeep s0 (execPeerFetchComplete s) := by
  unfold execPeerFetchComplete
  repeat' (first
    | intro y
    | (extract_lets +onlyGivenNames x; first | (refine keep_suff (p := Keep s0 x) ?_ (fun hx => ?_); subst x; rotate_left; clear_value x) | subst x)
    | with_reducible assumption | with_reducible apply okeep_next | with_reducible apply keep_ite | split
    | refine keep_upd ?_ rfl rfl rfl rfl rfl rfl rfl rfl)

theorem execEntryDue_keep {s0 s : State} (h : Keep s0 s) {v0} :
    OKeep s0 (execEntryDue v0 s) := by
  unfold execEntryDue
  repeat' (first
    | intro y
    | (extract_lets +onlyGivenNames x; first | (refine keep_suff (p := Keep s0 x) ?_ (fun hx => ?_); subst x; rotate_left; clear_value x) | subst x)
    | with_reducible assumption | with_reducible apply State.cnt_keep | with_reducible apply okeep_next | with_reducible apply keep_ite
    | split | refine keep_upd ?_ rfl rfl rfl rfl rfl rfl rfl rfl
    | refine keep_raw ?_ rfl (Nat.le_refl _) (fun i => ⟨i.regs, i.seen, i.pop, i.latches, i.staging, i.phi, i.refAt, i.wts, i.seedWt, swf_sput i.dueAt _ _, i.divAt, i.tagBytes, i.tagWear, i.pingPorts, i.pingFlash, i.phiFlash, i.txc, i.chains, i.beams, i.slots, i.log, i.shedLo, i.shedHi, i.tasks⟩))

theorem execRoundStart_keep {s0 s : State} (h : Keep s0 s) {v0} :
    OKeep s0 (execRoundStart v0 s) := by
  unfold execRoundStart
  repeat' (first
    | intro y
    | (extract_lets +onlyGivenNames x; first | (refine keep_suff (p := Keep s0 x) ?_ (fun hx => ?_); subst x; rotate_left; clear_value x) | subst x)
    | with_reducible assumption | with_reducible apply State.tryStart_keep | with_reducible apply okeep_next | split)

theorem execDurationExpiry_keep {s0 s : State} (h : Keep s0 s) {v0} :
    OKeep s0 (execDurationExpiry v0 s) := by
  unfold execDurationExpiry
  repeat' (first
    | intro y
    | (extract_lets +onlyGivenNames x; first | (refine keep_suff (p := Keep s0 x) ?_ (fun hx => ?_); subst x; rotate_left; clear_value x) | subst x)
    | with_reducible assumption | with_reducible apply State.expireRound_keep | with_reducible apply okeep_next
    | with_reducible apply keep_ite | split)

theorem execDisableBound_keep {s0 s : State} (h : Keep s0 s) {v0} :
    OKeep s0 (execDisableBound v0 s) := by
  unfold execDisableBound
  repeat' (first
    | intro y
    | (extract_lets +onlyGivenNames x; first | (refine keep_suff (p := Keep s0 x) ?_ (fun hx => ?_); subst x; rotate_left; clear_value x) | subst x)
    | with_reducible assumption | with_reducible apply State.stopRound_keep | with_reducible apply State.updRound_keep
    | with_reducible apply okeep_next | with_reducible apply keep_ite | split)

theorem execHostRunTimeout_keep {s0 s : State} (h : Keep s0 s) {v0} :
    OKeep s0 (execHostRunTimeout v0 s) := by
  unfold execHostRunTimeout
  repeat' (first
    | intro y
    | (extract_lets +onlyGivenNames x; first | (refine keep_suff (p := Keep s0 x) ?_ (fun hx => ?_); subst x; rotate_left; clear_value x) | subst x)
    | with_reducible assumption | with_reducible apply State.roundAtOnce_keep | with_reducible apply State.cnt_keep
    | with_reducible apply State.dropCand_keep | with_reducible apply okeep_next | with_reducible apply keep_ite | split)

theorem execShedLevelStep_keep {s0 s : State} (h : Keep s0 s) :
    OKeep s0 (execShedLevelStep s) := by
  unfold execShedLevelStep
  repeat' (first
    | intro y
    | (extract_lets +onlyGivenNames x; first | (refine keep_suff (p := Keep s0 x) ?_ (fun hx => ?_); subst x; rotate_left; clear_value x) | subst x)
    | with_reducible assumption | with_reducible apply okeep_next | with_reducible apply keep_ite | split
    | refine keep_upd ?_ rfl rfl rfl rfl rfl rfl rfl rfl
    | refine keep_raw ?_ rfl (Nat.le_refl _) (fun i => ⟨i.regs, i.seen, i.pop, i.latches, i.staging, i.phi, i.refAt, i.wts, i.seedWt, i.dueAt, i.divAt, i.tagBytes, i.tagWear, i.pingPorts, i.pingFlash, i.phiFlash, i.txc, i.chains, i.beams, i.slots, i.log, Nat.le_max_left _ _, Nat.max_le.mpr ⟨by decide, Nat.le_trans (Nat.sub_le _ _) i.shedHi⟩, i.tasks⟩)
    | refine keep_raw ?_ rfl (Nat.le_refl _) (fun i => ⟨i.regs, i.seen, i.pop, i.latches, i.staging, i.phi, i.refAt, i.wts, i.seedWt, i.dueAt, i.divAt, i.tagBytes, i.tagWear, i.pingPorts, i.pingFlash, i.phiFlash, i.txc, i.chains, i.beams, i.slots, i.log, Nat.le_min.mpr ⟨by decide, Nat.le_trans i.shedLo (Nat.le_succ _)⟩, Nat.min_le_left _ _, i.tasks⟩))

theorem execEvict_keep {s0 s : State} (h : Keep s0 s) :
    OKeep s0 (execEvict s) := by
  unfold execEvict
  repeat' (first
    | intro y
    | (extract_lets +onlyGivenNames x; first | (refine keep_suff (p := Keep s0 x) ?_ (fun hx => ?_); subst x; rotate_left; clear_value x) | subst x)
    | with_reducible assumption | with_reducible apply State.evictOne_keep | with_reducible apply okeep_next
    | with_reducible apply keep_ite | split)

theorem State.merge_keep {s0 s : State} (h : Keep s0 s) {v1} :
    Keep s0 (State.merge s v1) := by
  unfold State.merge
  repeat' (first
    | intro y
    | (extract_lets +onlyGivenNames x; first | (refine keep_suff (p := Keep s0 x) ?_ (fun hx => ?_); subst x; rotate_left; clear_value x) | subst x)
    | with_reducible assumption | with_reducible apply State.setSeen_keep | with_reducible apply State.cnt_keep
    | with_reducible apply keep_ite | split)

theorem execPopulationFetchReturn_keep {s0 s : State} (h : Keep s0 s) :
    OKeep s0 (execPopulationFetchReturn s) := by
  unfold execPopulationFetchReturn
  repeat' (first
    | intro y
    | (extract_lets +onlyGivenNames x; first | (refine keep_suff (p := Keep s0 x) ?_ (fun hx => ?_); subst x; rotate_left; clear_value x) | subst x)
    | with_reducible assumption | with_reducible apply State.merge_keep | with_reducible apply State.endFetch_keep
    | with_reducible apply okeep_next | split)

theorem execPopulationFetchTimeout_keep {s0 s : State} (h : Keep s0 s) :
    OKeep s0 (execPopulationFetchTimeout s) := by
  unfold execPopulationFetchTimeout
  repeat' (first
    | intro y
    | (extract_lets +onlyGivenNames x; first | (refine keep_suff (p := Keep s0 x) ?_ (fun hx => ?_); subst x; rotate_left; clear_value x) | subst x)
    | with_reducible assumption | with_reducible apply State.updSeen_keep | with_reducible apply State.cnt_keep
    | with_reducible apply State.endFetch_keep | with_reducible apply okeep_next | split)

theorem assemble_keep {s0 s : State} (h : Keep s0 s) :
    Keep s0 (assemble s) := by
  unfold assemble
  repeat' (first
    | intro y
    | (extract_lets +onlyGivenNames x; first | (refine keep_suff (p := Keep s0 x) ?_ (fun hx => ?_); subst x; rotate_left; clear_value x) | subst x)
    | with_reducible assumption | with_reducible apply State.beginPacket_keep | with_reducible apply State.dropRec_keep
    | with_reducible apply keep_ite | split | refine keep_upd ?_ rfl rfl rfl rfl rfl rfl rfl rfl)

theorem execPacketAssembly_keep {s0 s : State} (h : Keep s0 s) :
    OKeep s0 (execPacketAssembly s) := by
  unfold execPacketAssembly
  repeat' (first
    | intro y
    | (extract_lets +onlyGivenNames x; first | (refine keep_suff (p := Keep s0 x) ?_ (fun hx => ?_); subst x; rotate_left; clear_value x) | subst x)
    | with_reducible assumption | with_reducible apply State.dumpOn_keep | with_reducible apply assemble_keep
    | with_reducible apply okeep_next | with_reducible apply keep_ite | split)

theorem execPacketComplete_keep {s0 s : State} (h : Keep s0 s) :
    OKeep s0 (execPacketComplete s) := by
  unfold execPacketComplete
  repeat' (first
    | intro y
    | (extract_lets +onlyGivenNames x; first | (refine keep_suff (p := Keep s0 x) ?_ (fun hx => ?_); subst x; rotate_left; clear_value x) | subst x)
    | with_reducible assumption | with_reducible apply State.resumeFrame_keep | with_reducible apply completePacket_keep
    | with_reducible apply okeep_next | with_reducible apply keep_ite | split)

theorem execPointerMismatch_keep {s0 s : State} (h : Keep s0 s) {v0} :
    OKeep s0 (execPointerMismatch v0 s) := by
  unfold execPointerMismatch
  repeat' (first
    | intro y
    | (extract_lets +onlyGivenNames x; first | (refine keep_suff (p := Keep s0 x) ?_ (fun hx => ?_); subst x; rotate_left; clear_value x) | subst x)
    | with_reducible assumption | with_reducible apply State.dropRec_keep | with_reducible apply State.cnt_keep
    | with_reducible apply State.raise_keep | with_reducible apply State.beginPacket_keep | with_reducible apply State.logEvent_keep
    | with_reducible apply State.cutBurst_keep | with_reducible apply okeep_next | split
    | refine keep_upd ?_ rfl rfl rfl rfl rfl rfl rfl rfl)

theorem execFifoAgeExpiry_keep {s0 s : State} (h : Keep s0 s) :
    OKeep s0 (execFifoAgeExpiry s) := by
  unfold execFifoAgeExpiry
  repeat' (first
    | intro y
    | (extract_lets +onlyGivenNames x; first | (refine keep_suff (p := Keep s0 x) ?_ (fun hx => ?_); subst x; rotate_left; clear_value x) | subst x)
    | with_reducible assumption | with_reducible apply okeep_next | split | refine keep_upd ?_ rfl rfl rfl rfl rfl rfl rfl rfl)

theorem execFieldSelect_keep {s0 s : State} (h : Keep s0 s) {v0 v1} :
    OKeep s0 (execFieldSelect v0 v1 s) := by
  unfold execFieldSelect
  repeat' (first
    | intro y
    | (extract_lets +onlyGivenNames x; first | (refine keep_suff (p := Keep s0 x) ?_ (fun hx => ?_); subst x; rotate_left; clear_value x) | subst x)
    | with_reducible assumption | with_reducible apply State.fieldCmd_keep | with_reducible apply State.tagSelect_keep
    | with_reducible apply okeep_next | with_reducible apply keep_ite | split)

theorem execFieldQuery_keep {s0 s : State} (h : Keep s0 s) {v0 v1} :
    OKeep s0 (execFieldQuery v0 v1 s) := by
  unfold execFieldQuery
  repeat' (first
    | intro y
    | (extract_lets +onlyGivenNames x; first | (refine keep_suff (p := Keep s0 x) ?_ (fun hx => ?_); subst x; rotate_left; clear_value x) | subst x)
    | with_reducible assumption | with_reducible apply State.fieldCmd_keep | with_reducible apply State.tagQuery_keep
    | with_reducible apply okeep_next | split)

theorem execFieldQueryadjust_keep {s0 s : State} (h : Keep s0 s) {v0 v1 v2} :
    OKeep s0 (execFieldQueryadjust v0 v1 v2 s) := by
  unfold execFieldQueryadjust
  repeat' (first
    | intro y
    | (extract_lets +onlyGivenNames x; first | (refine keep_suff (p := Keep s0 x) ?_ (fun hx => ?_); subst x; rotate_left; clear_value x) | subst x)
    | with_reducible assumption | with_reducible apply State.fieldCmd_keep | with_reducible apply State.tagAdjust_keep
    | with_reducible apply okeep_next | split)

theorem execFieldQueryrep_keep {s0 s : State} (h : Keep s0 s) {v0 v1} :
    OKeep s0 (execFieldQueryrep v0 v1 s) := by
  unfold execFieldQueryrep
  repeat' (first
    | intro y
    | (extract_lets +onlyGivenNames x; first | (refine keep_suff (p := Keep s0 x) ?_ (fun hx => ?_); subst x; rotate_left; clear_value x) | subst x)
    | with_reducible assumption | with_reducible apply State.fieldCmd_keep | with_reducible apply State.tagRep_keep
    | with_reducible apply okeep_next | split)

theorem execFieldAck_keep {s0 s : State} (h : Keep s0 s) {v0 v1} :
    OKeep s0 (execFieldAck v0 v1 s) := by
  unfold execFieldAck
  repeat' (first
    | intro y
    | (extract_lets +onlyGivenNames x; first | (refine keep_suff (p := Keep s0 x) ?_ (fun hx => ?_); subst x; rotate_left; clear_value x) | subst x)
    | with_reducible assumption | with_reducible apply State.fieldCmd_keep | with_reducible apply State.tagAck_keep
    | with_reducible apply okeep_next | split)

theorem execFieldNak_keep {s0 s : State} (h : Keep s0 s) {v0} :
    OKeep s0 (execFieldNak v0 s) := by
  unfold execFieldNak
  repeat' (first
    | intro y
    | (extract_lets +onlyGivenNames x; first | (refine keep_suff (p := Keep s0 x) ?_ (fun hx => ?_); subst x; rotate_left; clear_value x) | subst x)
    | with_reducible assumption | with_reducible apply State.fieldCmd_keep | with_reducible apply State.tagNak_keep
    | with_reducible apply okeep_next | split)

theorem execFieldReqRn_keep {s0 s : State} (h : Keep s0 s) {v0 v1} :
    OKeep s0 (execFieldReqRn v0 v1 s) := by
  unfold execFieldReqRn
  repeat' (first
    | intro y
    | (extract_lets +onlyGivenNames x; first | (refine keep_suff (p := Keep s0 x) ?_ (fun hx => ?_); subst x; rotate_left; clear_value x) | subst x)
    | with_reducible assumption | with_reducible apply State.fieldCmd_keep | with_reducible apply State.tagReqRn_keep
    | with_reducible apply okeep_next | split)

theorem execFieldRead_keep {s0 s : State} (h : Keep s0 s) {v0 v1 v2 v3 v4 v5} :
    OKeep s0 (execFieldRead v0 v1 v2 v3 v4 v5 s) := by
  unfold execFieldRead
  repeat' (first
    | intro y
    | (extract_lets +onlyGivenNames x; first | (refine keep_suff (p := Keep s0 x) ?_ (fun hx => ?_); subst x; rotate_left; clear_value x) | subst x)
    | with_reducible assumption | with_reducible apply State.fieldCmd_keep | with_reducible apply State.accessCmd_keep
    | with_reducible apply State.tagRead_keep | with_reducible apply okeep_next | split)

theorem execFieldWrite_keep {s0 s : State} (h : Keep s0 s) {v0 v1 v2 v3 v4 v5} :
    OKeep s0 (execFieldWrite v0 v1 v2 v3 v4 v5 s) := by
  unfold execFieldWrite
  repeat' (first
    | intro y
    | (extract_lets +onlyGivenNames x; first | (refine keep_suff (p := Keep s0 x) ?_ (fun hx => ?_); subst x; rotate_left; clear_value x) | subst x)
    | with_reducible assumption | with_reducible apply State.fieldCmd_keep | with_reducible apply State.accessCmd_keep
    | with_reducible apply State.covered_keep | with_reducible apply State.tagWrite_keep | with_reducible apply okeep_next | split)

theorem execFieldBlockwrite_keep {s0 s : State} (h : Keep s0 s) {v0 v1 v2 v3 v4 v5} :
    OKeep s0 (execFieldBlockwrite v0 v1 v2 v3 v4 v5 s) := by
  unfold execFieldBlockwrite
  repeat' (first
    | intro y
    | (extract_lets +onlyGivenNames x; first | (refine keep_suff (p := Keep s0 x) ?_ (fun hx => ?_); subst x; rotate_left; clear_value x) | subst x)
    | with_reducible assumption | with_reducible apply State.fieldIgnored_keep | with_reducible apply State.fieldCmd_keep
    | with_reducible apply State.accessCmd_keep | with_reducible apply State.tagWrite_keep | with_reducible apply okeep_next
    | with_reducible apply keep_ite | split)

theorem execFieldLock_keep {s0 s : State} (h : Keep s0 s) {v0 v1 v2} :
    OKeep s0 (execFieldLock v0 v1 v2 s) := by
  unfold execFieldLock
  repeat' (first
    | intro y
    | (extract_lets +onlyGivenNames x; first | (refine keep_suff (p := Keep s0 x) ?_ (fun hx => ?_); subst x; rotate_left; clear_value x) | subst x)
    | with_reducible assumption | with_reducible apply State.fieldCmd_keep | with_reducible apply State.accessCmd_keep
    | with_reducible apply State.tagLock_keep | with_reducible apply okeep_next | split)

theorem execFieldAccess_keep {s0 s : State} (h : Keep s0 s) {v0 v1 v2} :
    OKeep s0 (execFieldAccess v0 v1 v2 s) := by
  unfold execFieldAccess
  repeat' (first
    | intro y
    | (extract_lets +onlyGivenNames x; first | (refine keep_suff (p := Keep s0 x) ?_ (fun hx => ?_); subst x; rotate_left; clear_value x) | subst x)
    | with_reducible assumption | with_reducible apply State.fieldIgnored_keep | with_reducible apply State.fieldCmd_keep
    | with_reducible apply State.accessCmd_keep | with_reducible apply State.covered_keep | with_reducible apply State.tagAccess_keep
    | with_reducible apply okeep_next | with_reducible apply keep_ite | split)

theorem execFieldKill_keep {s0 s : State} (h : Keep s0 s) {v0} :
    OKeep s0 (execFieldKill v0 s) := by
  unfold execFieldKill
  repeat' (first
    | intro y
    | (extract_lets +onlyGivenNames x; first | (refine keep_suff (p := Keep s0 x) ?_ (fun hx => ?_); subst x; rotate_left; clear_value x) | subst x)
    | with_reducible assumption | with_reducible apply State.fieldIgnored_keep | with_reducible apply okeep_next | split)

theorem execFieldBlockerase_keep {s0 s : State} (h : Keep s0 s) {v0} :
    OKeep s0 (execFieldBlockerase v0 s) := by
  unfold execFieldBlockerase
  repeat' (first
    | intro y
    | (extract_lets +onlyGivenNames x; first | (refine keep_suff (p := Keep s0 x) ?_ (fun hx => ?_); subst x; rotate_left; clear_value x) | subst x)
    | with_reducible assumption | with_reducible apply State.fieldIgnored_keep | with_reducible apply okeep_next | split)

theorem execFieldBlockpermalock_keep {s0 s : State} (h : Keep s0 s) {v0} :
    OKeep s0 (execFieldBlockpermalock v0 s) := by
  unfold execFieldBlockpermalock
  repeat' (first
    | intro y
    | (extract_lets +onlyGivenNames x; first | (refine keep_suff (p := Keep s0 x) ?_ (fun hx => ?_); subst x; rotate_left; clear_value x) | subst x)
    | with_reducible assumption | with_reducible apply State.fieldIgnored_keep | with_reducible apply okeep_next | split)

theorem execFieldUntraceable_keep {s0 s : State} (h : Keep s0 s) {v0} :
    OKeep s0 (execFieldUntraceable v0 s) := by
  unfold execFieldUntraceable
  repeat' (first
    | intro y
    | (extract_lets +onlyGivenNames x; first | (refine keep_suff (p := Keep s0 x) ?_ (fun hx => ?_); subst x; rotate_left; clear_value x) | subst x)
    | with_reducible assumption | with_reducible apply State.fieldIgnored_keep | with_reducible apply okeep_next | split)

theorem execFieldAuthenticate_keep {s0 s : State} (h : Keep s0 s) {v0} :
    OKeep s0 (execFieldAuthenticate v0 s) := by
  unfold execFieldAuthenticate
  repeat' (first
    | intro y
    | (extract_lets +onlyGivenNames x; first | (refine keep_suff (p := Keep s0 x) ?_ (fun hx => ?_); subst x; rotate_left; clear_value x) | subst x)
    | with_reducible assumption | with_reducible apply State.fieldIgnored_keep | with_reducible apply okeep_next | split)

theorem execFieldSessionTimeout_keep {s0 s : State} (h : Keep s0 s) :
    OKeep s0 (execFieldSessionTimeout s) := by
  unfold execFieldSessionTimeout
  repeat' (first
    | intro y
    | (extract_lets +onlyGivenNames x; first | (refine keep_suff (p := Keep s0 x) ?_ (fun hx => ?_); subst x; rotate_left; clear_value x) | subst x)
    | with_reducible assumption | with_reducible apply State.endSession_keep | with_reducible apply okeep_next
    | with_reducible apply keep_ite | split)

theorem execFieldLoss_keep {s0 s : State} (h : Keep s0 s) :
    OKeep s0 (execFieldLoss s) := by
  unfold execFieldLoss
  repeat' (first
    | intro y
    | (extract_lets +onlyGivenNames x; first | (refine keep_suff (p := Keep s0 x) ?_ (fun hx => ?_); subst x; rotate_left; clear_value x) | subst x)
    | with_reducible assumption | with_reducible apply State.endSession_keep | with_reducible apply State.tagPowerLost_keep
    | with_reducible apply okeep_next | with_reducible apply keep_ite | split | refine keep_upd ?_ rfl rfl rfl rfl rfl rfl rfl rfl)

theorem execCrumbWriteEnd_keep {s0 s : State} (h : Keep s0 s) {v0} :
    OKeep s0 (execCrumbWriteEnd v0 s) := by
  unfold execCrumbWriteEnd
  repeat' (first
    | intro y
    | (extract_lets +onlyGivenNames x; first | (refine keep_suff (p := Keep s0 x) ?_ (fun hx => ?_); subst x; rotate_left; clear_value x) | subst x)
    | with_reducible assumption | with_reducible apply State.resumeFrame_keep | with_reducible apply State.resumeWire_keep
    | with_reducible apply State.nextCrumb_keep | with_reducible apply State.endCrumb_keep | with_reducible apply okeep_next
    | with_reducible apply keep_ite | split)

theorem execGuardWriteEnd_keep {s0 s : State} (h : Keep s0 s) :
    OKeep s0 (execGuardWriteEnd s) := by
  unfold execGuardWriteEnd
  repeat' (first
    | intro y
    | (extract_lets +onlyGivenNames x; first | (refine keep_suff (p := Keep s0 x) ?_ (fun hx => ?_); subst x; rotate_left; clear_value x) | subst x)
    | with_reducible assumption | with_reducible apply okeep_next | split | refine keep_upd ?_ rfl rfl rfl rfl rfl rfl rfl rfl)

theorem execLockoutExpiry_keep {s0 s : State} (h : Keep s0 s) :
    OKeep s0 (execLockoutExpiry s) := by
  unfold execLockoutExpiry
  repeat' (first
    | intro y
    | (extract_lets +onlyGivenNames x; first | (refine keep_suff (p := Keep s0 x) ?_ (fun hx => ?_); subst x; rotate_left; clear_value x) | subst x)
    | with_reducible assumption | with_reducible apply okeep_next | split | refine keep_upd ?_ rfl rfl rfl rfl rfl rfl rfl rfl)

theorem execEccRewrite_keep {s0 s : State} (h : Keep s0 s) {v0} :
    OKeep s0 (execEccRewrite v0 s) := by
  unfold execEccRewrite
  repeat' (first
    | intro y
    | (extract_lets +onlyGivenNames x; first | (refine keep_suff (p := Keep s0 x) ?_ (fun hx => ?_); subst x; rotate_left; clear_value x) | subst x)
    | with_reducible assumption | with_reducible apply State.requestCrumb_keep | with_reducible apply okeep_next
    | with_reducible apply keep_ite | split)

theorem execSweepTimer_keep {s0 s : State} (h : Keep s0 s) :
    OKeep s0 (execSweepTimer s) := by
  unfold execSweepTimer
  repeat' (first
    | intro y
    | (extract_lets +onlyGivenNames x; first | (refine keep_suff (p := Keep s0 x) ?_ (fun hx => ?_); subst x; rotate_left; clear_value x) | subst x)
    | with_reducible assumption | with_reducible apply okeep_next | with_reducible apply keep_ite | split
    | refine keep_upd ?_ rfl rfl rfl rfl rfl rfl rfl rfl)

theorem execSweepEnd_keep {s0 s : State} (h : Keep s0 s) {v0} :
    OKeep s0 (execSweepEnd v0 s) := by
  unfold execSweepEnd
  repeat' (first
    | intro y
    | (extract_lets +onlyGivenNames x; first | (refine keep_suff (p := Keep s0 x) ?_ (fun hx => ?_); subst x; rotate_left; clear_value x) | subst x)
    | with_reducible assumption | with_reducible apply State.roundSweepEnd_keep | with_reducible apply State.calSweepEnd_keep
    | with_reducible apply State.aoSweepEnd_keep | with_reducible apply okeep_next | with_reducible apply keep_ite | split)

theorem execBaselineSave_keep {s0 s : State} (h : Keep s0 s) :
    OKeep s0 (execBaselineSave s) := by
  unfold execBaselineSave
  repeat' (first
    | intro y
    | (extract_lets +onlyGivenNames x; first | (refine keep_suff (p := Keep s0 x) ?_ (fun hx => ?_); subst x; rotate_left; clear_value x) | subst x)
    | with_reducible assumption | with_reducible apply State.saveBaselines_keep | with_reducible apply okeep_next
    | with_reducible apply keep_ite | split)

theorem execFeedItemSend_keep {s0 s : State} (h : Keep s0 s) :
    OKeep s0 (execFeedItemSend s) := by
  unfold execFeedItemSend
  repeat' (first
    | intro y
    | (extract_lets +onlyGivenNames x; first | (refine keep_suff (p := Keep s0 x) ?_ (fun hx => ?_); subst x; rotate_left; clear_value x) | subst x)
    | with_reducible assumption | with_reducible apply State.cnt_keep | with_reducible apply okeep_next | with_reducible apply keep_ite
    | split | refine keep_upd ?_ rfl rfl rfl rfl rfl rfl rfl rfl)

theorem State.feedTaken_keep {s0 s : State} (h : Keep s0 s) :
    Keep s0 (State.feedTaken s) := by
  unfold State.feedTaken
  repeat' (first
    | intro y
    | (extract_lets +onlyGivenNames x; first | (refine keep_suff (p := Keep s0 x) ?_ (fun hx => ?_); subst x; rotate_left; clear_value x) | subst x)
    | with_reducible assumption | split | refine keep_upd ?_ rfl rfl rfl rfl rfl rfl rfl rfl)

theorem execSightingItem_keep {s0 s : State} (h : Keep s0 s) {v0} :
    OKeep s0 (execSightingItem v0 s) := by
  unfold execSightingItem
  repeat' (first
    | intro y
    | (extract_lets +onlyGivenNames x; first | (refine keep_suff (p := Keep s0 x) ?_ (fun hx => ?_); subst x; rotate_left; clear_value x) | subst x)
    | with_reducible assumption | with_reducible apply State.onDie_keep | with_reducible apply State.feedTaken_keep
    | with_reducible apply okeep_next | with_reducible apply keep_ite | split)

theorem execWindowRequest_keep {s0 s : State} (h : Keep s0 s) {v0} :
    OKeep s0 (execWindowRequest v0 s) := by
  unfold execWindowRequest
  repeat' (first
    | intro y
    | (extract_lets +onlyGivenNames x; first | (refine keep_suff (p := Keep s0 x) ?_ (fun hx => ?_); subst x; rotate_left; clear_value x) | subst x)
    | with_reducible assumption | with_reducible apply State.onDie_keep | with_reducible apply State.feedTaken_keep
    | with_reducible apply okeep_next | with_reducible apply keep_ite | split)

theorem execFeedItemDiscarded_keep {s0 s : State} (h : Keep s0 s) {v0} :
    OKeep s0 (execFeedItemDiscarded v0 s) := by
  unfold execFeedItemDiscarded
  repeat' (first
    | intro y
    | (extract_lets +onlyGivenNames x; first | (refine keep_suff (p := Keep s0 x) ?_ (fun hx => ?_); subst x; rotate_left; clear_value x) | subst x)
    | with_reducible assumption | with_reducible apply State.onDie_keep | with_reducible apply State.feedTaken_keep
    | with_reducible apply okeep_next | with_reducible apply keep_ite | split)

theorem execTtTick_keep {s0 s : State} (h : Keep s0 s) :
    OKeep s0 (execTtTick s) := by
  unfold execTtTick
  repeat' (first
    | intro y
    | (extract_lets +onlyGivenNames x; first | (refine keep_suff (p := Keep s0 x) ?_ (fun hx => ?_); subst x; rotate_left; clear_value x) | subst x)
    | with_reducible assumption | with_reducible apply State.onDie_keep | with_reducible apply okeep_next | with_reducible apply keep_ite
    | split)

theorem execEntryWinExpiry_keep {s0 s : State} (h : Keep s0 s) {v0} :
    OKeep s0 (execEntryWinExpiry v0 s) := by
  unfold execEntryWinExpiry
  repeat' (first
    | intro y
    | (extract_lets +onlyGivenNames x; first | (refine keep_suff (p := Keep s0 x) ?_ (fun hx => ?_); subst x; rotate_left; clear_value x) | subst x)
    | with_reducible assumption | with_reducible apply State.onDie_keep | with_reducible apply okeep_next | with_reducible apply keep_ite
    | split)

theorem execExitSilExpiry_keep {s0 s : State} (h : Keep s0 s) {v0} :
    OKeep s0 (execExitSilExpiry v0 s) := by
  unfold execExitSilExpiry
  repeat' (first
    | intro y
    | (extract_lets +onlyGivenNames x; first | (refine keep_suff (p := Keep s0 x) ?_ (fun hx => ?_); subst x; rotate_left; clear_value x) | subst x)
    | with_reducible assumption | with_reducible apply State.onDie_keep | with_reducible apply okeep_next | with_reducible apply keep_ite
    | split)

theorem execMaxDwellExpiry_keep {s0 s : State} (h : Keep s0 s) {v0} :
    OKeep s0 (execMaxDwellExpiry v0 s) := by
  unfold execMaxDwellExpiry
  repeat' (first
    | intro y
    | (extract_lets +onlyGivenNames x; first | (refine keep_suff (p := Keep s0 x) ?_ (fun hx => ?_); subst x; rotate_left; clear_value x) | subst x)
    | with_reducible assumption | with_reducible apply State.onDie_keep | with_reducible apply okeep_next | with_reducible apply keep_ite
    | split)

theorem execFeedGapExpiry_keep {s0 s : State} (h : Keep s0 s) :
    OKeep s0 (execFeedGapExpiry s) := by
  unfold execFeedGapExpiry
  repeat' (first
    | intro y
    | (extract_lets +onlyGivenNames x; first | (refine keep_suff (p := Keep s0 x) ?_ (fun hx => ?_); subst x; rotate_left; clear_value x) | subst x)
    | with_reducible assumption | with_reducible apply State.onDie_keep | with_reducible apply okeep_next | with_reducible apply keep_ite
    | split)

theorem execGapMaxExpiry_keep {s0 s : State} (h : Keep s0 s) :
    OKeep s0 (execGapMaxExpiry s) := by
  unfold execGapMaxExpiry
  repeat' (first
    | intro y
    | (extract_lets +onlyGivenNames x; first | (refine keep_suff (p := Keep s0 x) ?_ (fun hx => ?_); subst x; rotate_left; clear_value x) | subst x)
    | with_reducible assumption | with_reducible apply State.onDie_keep | with_reducible apply okeep_next | with_reducible apply keep_ite
    | split)

theorem execTemperatureCompensation_keep {s0 s : State} (h : Keep s0 s) {v0} :
    OKeep s0 (execTemperatureCompensation v0 s) := by
  unfold execTemperatureCompensation
  repeat' (first
    | intro y
    | (extract_lets +onlyGivenNames x; first | (refine keep_suff (p := Keep s0 x) ?_ (fun hx => ?_); subst x; rotate_left; clear_value x) | subst x)
    | with_reducible assumption | with_reducible apply State.onDie_keep | with_reducible apply okeep_next | split)

theorem execTtSave_keep {s0 s : State} (h : Keep s0 s) :
    OKeep s0 (execTtSave s) := by
  unfold execTtSave
  repeat' (first
    | intro y
    | (extract_lets +onlyGivenNames x; first | (refine keep_suff (p := Keep s0 x) ?_ (fun hx => ?_); subst x; rotate_left; clear_value x) | subst x)
    | with_reducible assumption | with_reducible apply State.onDie_keep | with_reducible apply okeep_next | split)

theorem execVtalLoss_keep {s0 s : State} (h : Keep s0 s) :
    OKeep s0 (execVtalLoss s) := by
  unfold execVtalLoss
  repeat' (first
    | intro y
    | (extract_lets +onlyGivenNames x; first | (refine keep_suff (p := Keep s0 x) ?_ (fun hx => ?_); subst x; rotate_left; clear_value x) | subst x)
    | with_reducible assumption | with_reducible apply okeep_next | with_reducible apply keep_ite | split
    | refine keep_upd ?_ rfl rfl rfl rfl rfl rfl rfl rfl)

theorem execTallyDieStart_keep {s0 s : State} (h : Keep s0 s) :
    OKeep s0 (execTallyDieStart s) := by
  unfold execTallyDieStart
  repeat' (first
    | intro y
    | (extract_lets +onlyGivenNames x; first | (refine keep_suff (p := Keep s0 x) ?_ (fun hx => ?_); subst x; rotate_left; clear_value x) | subst x)
    | with_reducible assumption | with_reducible apply okeep_next | with_reducible apply keep_ite | split
    | refine keep_upd ?_ rfl rfl rfl rfl rfl rfl rfl rfl)

theorem execXtalFail_keep {s0 s : State} (h : Keep s0 s) :
    OKeep s0 (execXtalFail s) := by
  unfold execXtalFail
  repeat' (first
    | intro y
    | (extract_lets +onlyGivenNames x; first | (refine keep_suff (p := Keep s0 x) ?_ (fun hx => ?_); subst x; rotate_left; clear_value x) | subst x)
    | with_reducible assumption | with_reducible apply State.onDie_keep | with_reducible apply okeep_next | with_reducible apply keep_ite
    | split)

theorem execXtalRecovery_keep {s0 s : State} (h : Keep s0 s) :
    OKeep s0 (execXtalRecovery s) := by
  unfold execXtalRecovery
  repeat' (first
    | intro y
    | (extract_lets +onlyGivenNames x; first | (refine keep_suff (p := Keep s0 x) ?_ (fun hx => ?_); subst x; rotate_left; clear_value x) | subst x)
    | with_reducible assumption | with_reducible apply State.onDie_keep | with_reducible apply okeep_next | with_reducible apply keep_ite
    | split)

theorem execSealModeEntry_keep {s0 s : State} (h : Keep s0 s) :
    OKeep s0 (execSealModeEntry s) := by
  unfold execSealModeEntry
  repeat' (first
    | intro y
    | (extract_lets +onlyGivenNames x; first | (refine keep_suff (p := Keep s0 x) ?_ (fun hx => ?_); subst x; rotate_left; clear_value x) | subst x)
    | with_reducible assumption | with_reducible apply State.onDie_keep | with_reducible apply okeep_next | split
    | refine keep_upd ?_ rfl rfl rfl rfl rfl rfl rfl rfl)

theorem execSealImage_keep {s0 s : State} (h : Keep s0 s) {v0} :
    OKeep s0 (execSealImage v0 s) := by
  unfold execSealImage
  repeat' (first
    | intro y
    | (extract_lets +onlyGivenNames x; first | (refine keep_suff (p := Keep s0 x) ?_ (fun hx => ?_); subst x; rotate_left; clear_value x) | subst x)
    | with_reducible assumption | with_reducible apply State.onDie_keep | with_reducible apply okeep_next | with_reducible apply keep_ite
    | split)

theorem execSealExit_keep {s0 s : State} (h : Keep s0 s) :
    OKeep s0 (execSealExit s) := by
  unfold execSealExit
  repeat' (first
    | intro y
    | (extract_lets +onlyGivenNames x; first | (refine keep_suff (p := Keep s0 x) ?_ (fun hx => ?_); subst x; rotate_left; clear_value x) | subst x)
    | with_reducible assumption | with_reducible apply State.onDie_keep | with_reducible apply okeep_next | with_reducible apply keep_ite
    | split | refine keep_upd ?_ rfl rfl rfl rfl rfl rfl rfl rfl)

theorem execAttestationDone_keep {s0 s : State} (h : Keep s0 s) :
    OKeep s0 (execAttestationDone s) := by
  unfold execAttestationDone
  repeat' (first
    | intro y
    | (extract_lets +onlyGivenNames x; first | (refine keep_suff (p := Keep s0 x) ?_ (fun hx => ?_); subst x; rotate_left; clear_value x) | subst x)
    | with_reducible assumption | with_reducible apply State.drawWords_keep | with_reducible apply okeep_next
    | with_reducible apply keep_ite | refine keep_pair ?_ (by with_reducible assumption) | split
    | refine keep_upd ?_ rfl rfl rfl rfl rfl rfl rfl rfl)

theorem execPublish_keep {s0 s : State} (h : Keep s0 s) :
    OKeep s0 (execPublish s) := by
  unfold execPublish
  repeat' (first
    | intro y
    | (extract_lets +onlyGivenNames x; first | (refine keep_suff (p := Keep s0 x) ?_ (fun hx => ?_); subst x; rotate_left; clear_value x) | subst x)
    | with_reducible assumption | with_reducible apply okeep_next | with_reducible apply keep_ite | split
    | refine keep_upd ?_ rfl rfl rfl rfl rfl rfl rfl rfl)

theorem execPublishFrame_keep {s0 s : State} (h : Keep s0 s) {v0} :
    OKeep s0 (execPublishFrame v0 s) := by
  unfold execPublishFrame
  repeat' (first
    | intro y
    | (extract_lets +onlyGivenNames x; first | (refine keep_suff (p := Keep s0 x) ?_ (fun hx => ?_); subst x; rotate_left; clear_value x) | subst x)
    | with_reducible assumption | with_reducible apply State.takePub_keep | with_reducible apply State.cnt_keep
    | with_reducible apply okeep_next | with_reducible apply keep_ite | split | refine keep_upd ?_ rfl rfl rfl rfl rfl rfl rfl rfl)

theorem execTallinkTimeout_keep {s0 s : State} (h : Keep s0 s) :
    OKeep s0 (execTallinkTimeout s) := by
  unfold execTallinkTimeout
  repeat' (first
    | intro y
    | (extract_lets +onlyGivenNames x; first | (refine keep_suff (p := Keep s0 x) ?_ (fun hx => ?_); subst x; rotate_left; clear_value x) | subst x)
    | with_reducible assumption | with_reducible apply State.setBit_keep | with_reducible apply okeep_next | split)

theorem execStatusRequestTimer_keep {s0 s : State} (h : Keep s0 s) :
    OKeep s0 (execStatusRequestTimer s) := by
  unfold execStatusRequestTimer
  repeat' (first
    | intro y
    | (extract_lets +onlyGivenNames x; first | (refine keep_suff (p := Keep s0 x) ?_ (fun hx => ?_); subst x; rotate_left; clear_value x) | subst x)
    | with_reducible assumption | with_reducible apply okeep_next | with_reducible apply keep_ite | split
    | refine keep_upd ?_ rfl rfl rfl rfl rfl rfl rfl rfl)

theorem execTalReqTimeout_keep {s0 s : State} (h : Keep s0 s) :
    OKeep s0 (execTalReqTimeout s) := by
  unfold execTalReqTimeout
  repeat' (first
    | intro y
    | (extract_lets +onlyGivenNames x; first | (refine keep_suff (p := Keep s0 x) ?_ (fun hx => ?_); subst x; rotate_left; clear_value x) | subst x)
    | with_reducible assumption | with_reducible apply State.completeAll_keep | with_reducible apply okeep_next | split)

theorem State.pump_keep {s0 s : State} (h : Keep s0 s) :
    Keep s0 (State.pump s) := by
  unfold State.pump
  repeat' (first
    | intro y
    | (extract_lets +onlyGivenNames x; first | (refine keep_suff (p := Keep s0 x) ?_ (fun hx => ?_); subst x; rotate_left; clear_value x) | subst x)
    | with_reducible assumption | with_reducible apply State.pumpCopy_keep | with_reducible apply State.pumpTask_keep
    | with_reducible apply State.pumpWaiting_keep | split)

theorem State.startEntry_keep {s0 s : State} (h : Keep s0 s) {v1 v2} :
    Keep s0 (State.startEntry s v1 v2) := by
  unfold State.startEntry
  repeat' (first
    | intro y
    | (extract_lets +onlyGivenNames x; first | (refine keep_suff (p := Keep s0 x) ?_ (fun hx => ?_); subst x; rotate_left; clear_value x) | subst x)
    | with_reducible assumption | with_reducible apply State.pump_keep | with_reducible apply State.cnt_keep
    | with_reducible apply keep_ite | split | refine keep_upd ?_ rfl rfl rfl rfl rfl rfl rfl rfl
    | refine keep_raw ?_ rfl (Nat.le_refl _) (fun i => ⟨i.regs, i.seen, i.pop, i.latches, i.staging, i.phi, i.refAt, i.wts, i.seedWt, i.dueAt, i.divAt, i.tagBytes, i.tagWear, i.pingPorts, i.pingFlash, i.phiFlash, i.txc, i.chains, i.beams, i.slots, i.log, i.shedLo, i.shedHi, tasks_map _ (fun _ h => by split <;> exact h) i.tasks⟩))

theorem State.endJob_keep {s0 s : State} (h : Keep s0 s) {v1} :
    Keep s0 (State.endJob s v1) := by
  unfold State.endJob
  repeat' (first
    | intro y
    | (extract_lets +onlyGivenNames x; first | (refine keep_suff (p := Keep s0 x) ?_ (fun hx => ?_); subst x; rotate_left; clear_value x) | subst x)
    | with_reducible assumption | with_reducible apply State.writeBack_keep | with_reducible apply State.readCopy_keep
    | with_reducible apply State.submit_keep | with_reducible apply State.persistLog_keep | with_reducible apply State.readProof_keep
    | with_reducible apply State.endTaskEntry_keep | with_reducible apply keep_ite | split
    | refine keep_upd ?_ rfl rfl rfl rfl rfl rfl rfl rfl)

theorem State.failJob_keep {s0 s : State} (h : Keep s0 s) {v1 v2} :
    Keep s0 (State.failJob s v1 v2) := by
  unfold State.failJob
  repeat' (first
    | intro y
    | (extract_lets +onlyGivenNames x; first | (refine keep_suff (p := Keep s0 x) ?_ (fun hx => ?_); subst x; rotate_left; clear_value x) | subst x)
    | with_reducible assumption | with_reducible apply State.dropBlock_keep | with_reducible apply State.complete_keep
    | with_reducible apply State.updSeen_keep | with_reducible apply State.cnt_keep | with_reducible apply State.endFetch_keep
    | with_reducible apply State.setBit_keep | with_reducible apply State.readCopy_keep | with_reducible apply State.dropJobs_keep
    | with_reducible apply State.failTask_keep | with_reducible apply State.readProof_keep | with_reducible apply keep_ite | split
    | refine keep_upd ?_ rfl rfl rfl rfl rfl rfl rfl rfl)

theorem State.dropEntry_keep {s0 s : State} (h : Keep s0 s) {v1} :
    Keep s0 (State.dropEntry s v1) := by
  unfold State.dropEntry
  repeat' (first
    | intro y
    | (extract_lets +onlyGivenNames x; first | (refine keep_suff (p := Keep s0 x) ?_ (fun hx => ?_); subst x; rotate_left; clear_value x) | subst x)
    | with_reducible assumption | with_reducible apply State.failJob_keep | with_reducible apply State.endJob_keep
    | with_reducible apply keep_ite | split | refine keep_upd ?_ rfl rfl rfl rfl rfl rfl rfl rfl)

theorem State.writeStands_keep {s0 s : State} (h : Keep s0 s) {v1} :
    Keep s0 (State.writeStands s v1) := by
  unfold State.writeStands
  repeat' (first
    | intro y
    | (extract_lets +onlyGivenNames x; first | (refine keep_suff (p := Keep s0 x) ?_ (fun hx => ?_); subst x; rotate_left; clear_value x) | subst x)
    | with_reducible assumption | with_reducible apply State.endJob_keep | with_reducible apply keep_ite | split
    | refine keep_upd ?_ rfl rfl rfl rfl rfl rfl rfl rfl)

theorem State.endProgram_keep {s0 s : State} (h : Keep s0 s) {v1} :
    Keep s0 (State.endProgram s v1) := by
  unfold State.endProgram
  repeat' (first
    | intro y
    | (extract_lets +onlyGivenNames x; first | (refine keep_suff (p := Keep s0 x) ?_ (fun hx => ?_); subst x; rotate_left; clear_value x) | subst x)
    | with_reducible assumption | with_reducible apply State.writeStands_keep | with_reducible apply State.owe_keep
    | with_reducible apply keep_ite | split | refine keep_upd ?_ rfl rfl rfl rfl rfl rfl rfl rfl)

theorem State.endBus_keep {s0 s : State} (h : Keep s0 s) {v1} :
    Keep s0 (State.endBus s v1) := by
  unfold State.endBus
  repeat' (first
    | intro y
    | (extract_lets +onlyGivenNames x; first | (refine keep_suff (p := Keep s0 x) ?_ (fun hx => ?_); subst x; rotate_left; clear_value x) | subst x)
    | with_reducible assumption | with_reducible apply State.writeStands_keep | with_reducible apply State.endJob_keep
    | with_reducible apply keep_ite | split | refine keep_upd ?_ rfl rfl rfl rfl rfl rfl rfl rfl)

theorem State.resumeOp_keep {s0 s : State} (h : Keep s0 s) :
    Keep s0 (State.resumeOp s) := by
  unfold State.resumeOp
  repeat' (first
    | intro y
    | (extract_lets +onlyGivenNames x; first | (refine keep_suff (p := Keep s0 x) ?_ (fun hx => ?_); subst x; rotate_left; clear_value x) | subst x)
    | with_reducible assumption | split | refine keep_upd ?_ rfl rfl rfl rfl rfl rfl rfl rfl)

theorem execQueueEntryStart_keep {s0 s : State} (h : Keep s0 s) :
    OKeep s0 (execQueueEntryStart s) := by
  unfold execQueueEntryStart
  repeat' (first
    | intro y
    | (extract_lets +onlyGivenNames x; first | (refine keep_suff (p := Keep s0 x) ?_ (fun hx => ?_); subst x; rotate_left; clear_value x) | subst x)
    | with_reducible assumption | with_reducible apply State.pump_keep | with_reducible apply State.settleMemOuts_keep
    | with_reducible apply State.dropEntry_keep | with_reducible apply State.startEntry_keep | with_reducible apply okeep_next
    | with_reducible apply keep_ite | split | refine keep_upd ?_ rfl rfl rfl rfl rfl rfl rfl rfl)

theorem execQueueEntryEnd_keep {s0 s : State} (h : Keep s0 s) :
    OKeep s0 (execQueueEntryEnd s) := by
  unfold execQueueEntryEnd
  repeat' (first
    | intro y
    | (extract_lets +onlyGivenNames x; first | (refine keep_suff (p := Keep s0 x) ?_ (fun hx => ?_); subst x; rotate_left; clear_value x) | subst x)
    | with_reducible assumption | with_reducible apply State.startEntry_keep | with_reducible apply State.endBus_keep
    | with_reducible apply State.settleMemOuts_keep | with_reducible apply State.resumeOp_keep
    | with_reducible apply State.endProgram_keep | with_reducible apply okeep_next | with_reducible apply keep_ite | split
    | refine keep_upd ?_ rfl rfl rfl rfl rfl rfl rfl rfl)

theorem execXipMiss_keep {s0 s : State} (h : Keep s0 s) {v0 v1} :
    OKeep s0 (execXipMiss v0 v1 s) := by
  unfold execXipMiss
  repeat' (first
    | intro y
    | (extract_lets +onlyGivenNames x; first | (refine keep_suff (p := Keep s0 x) ?_ (fun hx => ?_); subst x; rotate_left; clear_value x) | subst x)
    | with_reducible assumption | with_reducible apply State.drawWord_keep | with_reducible apply State.logEvent_keep
    | with_reducible apply State.submit_keep | with_reducible apply State.cnt_keep | with_reducible apply okeep_next
    | with_reducible apply keep_ite | refine keep_pair ?_ (by with_reducible assumption) | split
    | refine keep_upd ?_ rfl rfl rfl rfl rfl rfl rfl rfl)

theorem execSuspended_keep {s0 s : State} (h : Keep s0 s) :
    OKeep s0 (execSuspended s) := by
  unfold execSuspended
  repeat' (first
    | intro y
    | (extract_lets +onlyGivenNames x; first | (refine keep_suff (p := Keep s0 x) ?_ (fun hx => ?_); subst x; rotate_left; clear_value x) | subst x)
    | with_reducible assumption | with_reducible apply State.cnt_keep | with_reducible apply State.resumeOp_keep
    | with_reducible apply State.settleMemOuts_keep | with_reducible apply State.dropEntry_keep
    | with_reducible apply State.startEntry_keep | with_reducible apply okeep_next | with_reducible apply keep_ite | split
    | refine keep_upd ?_ rfl rfl rfl rfl rfl rfl rfl rfl)

theorem execRgapExpiry_keep {s0 s : State} (h : Keep s0 s) :
    OKeep s0 (execRgapExpiry s) := by
  unfold execRgapExpiry
  repeat' (first
    | intro y
    | (extract_lets +onlyGivenNames x; first | (refine keep_suff (p := Keep s0 x) ?_ (fun hx => ?_); subst x; rotate_left; clear_value x) | subst x)
    | with_reducible assumption | with_reducible apply okeep_next | split | refine keep_upd ?_ rfl rfl rfl rfl rfl rfl rfl rfl)

theorem State.memFailure_keep {s0 s : State} (h : Keep s0 s) {v1 v2} :
    Keep s0 (State.memFailure s v1 v2) := by
  unfold State.memFailure
  repeat' (first
    | intro y
    | (extract_lets +onlyGivenNames x; first | (refine keep_suff (p := Keep s0 x) ?_ (fun hx => ?_); subst x; rotate_left; clear_value x) | subst x)
    | with_reducible assumption | with_reducible apply State.raise_keep | with_reducible apply State.memOut_keep
    | with_reducible apply State.drawWord_keep | with_reducible apply State.queueFaultRec_keep | with_reducible apply State.logEvent_keep
    | with_reducible apply keep_ite | refine keep_pair ?_ (by with_reducible assumption) | split
    | refine keep_upd ?_ rfl rfl rfl rfl rfl rfl rfl rfl)

theorem State.failEntry_keep {s0 s : State} (h : Keep s0 s) {v1 v2 v3 v4} :
    Keep s0 (State.failEntry s v1 v2 v3 v4) := by
  unfold State.failEntry
  repeat' (first
    | intro y
    | (extract_lets +onlyGivenNames x; first | (refine keep_suff (p := Keep s0 x) ?_ (fun hx => ?_); subst x; rotate_left; clear_value x) | subst x)
    | with_reducible assumption | with_reducible apply State.failJob_keep | with_reducible apply State.cnt_keep
    | with_reducible apply State.settleMemOuts_keep | with_reducible apply State.memFailure_keep
    | with_reducible apply State.logEvent_keep | with_reducible apply keep_ite | split
    | refine keep_upd ?_ rfl rfl rfl rfl rfl rfl rfl rfl)

theorem execMempTimeout_keep {s0 s : State} (h : Keep s0 s) {v0} :
    OKeep s0 (execMempTimeout v0 s) := by
  unfold execMempTimeout
  repeat' (first
    | intro y
    | (extract_lets +onlyGivenNames x; first | (refine keep_suff (p := Keep s0 x) ?_ (fun hx => ?_); subst x; rotate_left; clear_value x) | subst x)
    | with_reducible assumption | with_reducible apply State.failEntry_keep | with_reducible apply okeep_next
    | with_reducible apply keep_ite | split)

theorem execVerifyFail_keep {s0 s : State} (h : Keep s0 s) {v0} :
    OKeep s0 (execVerifyFail v0 s) := by
  unfold execVerifyFail
  repeat' (first
    | intro y
    | (extract_lets +onlyGivenNames x; first | (refine keep_suff (p := Keep s0 x) ?_ (fun hx => ?_); subst x; rotate_left; clear_value x) | subst x)
    | with_reducible assumption | with_reducible apply State.failEntry_keep | with_reducible apply okeep_next
    | with_reducible apply keep_ite | split)

theorem execResilverEnd_keep {s0 s : State} (h : Keep s0 s) :
    OKeep s0 (execResilverEnd s) := by
  unfold execResilverEnd
  repeat' (first
    | intro y
    | (extract_lets +onlyGivenNames x; first | (refine keep_suff (p := Keep s0 x) ?_ (fun hx => ?_); subst x; rotate_left; clear_value x) | subst x)
    | with_reducible assumption | with_reducible apply State.setBit_keep | with_reducible apply State.completeAll_keep
    | with_reducible apply okeep_next | with_reducible apply keep_ite | split)

theorem execTakeoverComplete_keep {s0 s : State} (h : Keep s0 s) :
    OKeep s0 (execTakeoverComplete s) := by
  unfold execTakeoverComplete
  repeat' (first
    | intro y
    | (extract_lets +onlyGivenNames x; first | (refine keep_suff (p := Keep s0 x) ?_ (fun hx => ?_); subst x; rotate_left; clear_value x) | subst x)
    | with_reducible assumption | with_reducible apply State.setBit_keep | with_reducible apply State.setHalf_keep
    | with_reducible apply State.raise_keep | with_reducible apply State.cnt_keep | with_reducible apply State.logEvent_keep
    | with_reducible apply State.startProof_keep | with_reducible apply State.askCal_keep
    | with_reducible apply State.fallbackPassed_keep | with_reducible apply State.serve_keep | with_reducible apply okeep_next
    | with_reducible apply keep_foldl | with_reducible apply keep_foldl1 | with_reducible apply keep_foldl2
    | with_reducible apply keep_ite | refine keep_pair ?_ (by with_reducible assumption)
    | refine keep_pair1 ?_ (by with_reducible assumption) | split | refine keep_upd ?_ rfl rfl rfl rfl rfl rfl rfl rfl)

end Sys2Proof.Machine
end

