-- ==== Sys2Proof/Machine/AirBits.lean ====
section
/-! DEFINITION. What the module drives outward from its state: the bits of its forward frames (R208, R222, R251), its peer frames
(R247), the TAL_PULSE land (R364) and the place of each antenna port on the grid (R37, R40). -/
namespace Sys2Proof.Machine

/-! ## Forward frames (R202, R209, R222, R232, R251) -/

/-- Fields 5 to 8 of a Umaolo forward frame (R232): CMD, its fields, LINK where the frame carries one, and the CRC-24 over them. -/
def umaFrame (cmd : Nat) (fields link : List Bool) : List Bool :=
  let b := bitsHigh 8 cmd ++ fields ++ link
  b ++ bitsHigh 24 (crc24 b)

/-- A bit address in the standard's extensible vector: blocks of 7 bits, the highest first, each but the last marked (PRESUMED, log entry 27). -/
def ebv (n : Nat) : List Bool :=
  if n < 128 then false :: bitsHigh 7 n
  else if n < 16384 then true :: bitsHigh 7 (n / 128) ++ false :: bitsHigh 7 n
  else true :: bitsHigh 7 (n / 16384) ++ true :: bitsHigh 7 (n / 128) ++ false :: bitsHigh 7 n

/-- A frame with the CRC-16 that the module appends (R202). -/
def with16 (l : List Bool) : List Bool := l ++ bitsHigh 16 (crc16 l)

/-- A command of eight bits, its operands, the handle and a CRC-16. -/
def longFrame (code : Nat) (l : List Bool) (handle : Nat) : List Bool := with16 (bitsHigh 8 code ++ l ++ bitsHigh 16 handle)

/-- The bits of an 18000-63 command with the CRC that the module appends (R202, R208). The spec names the commands; their codes and layouts are
those of ISO/IEC 18000-63 (PRESUMED, log entry 27). -/
def Air.isoBits : Air → List Bool
  | .select b p m t a =>
      with16 (bitsHigh 4 10 ++ bitsHigh 3 t ++ bitsHigh 3 a ++ bitsHigh 2 b ++ ebv p ++ bitsHigh 8 m.length ++ m ++ [false])
  | .query q sel ses t dr m x =>
      let l := bitsHigh 4 8 ++ [dr] ++ bitsHigh 2 m ++ [x] ++ bitsHigh 2 sel ++ bitsHigh 2 ses ++ [t] ++ bitsHigh 4 q
      l ++ bitsHigh 5 (crc5 l)
  | .queryAdjust ses up => bitsHigh 4 9 ++ bitsHigh 2 ses ++ bitsHigh 3 (if up then 6 else 3)
  | .queryRep ses => bitsHigh 2 0 ++ bitsHigh 2 ses
  | .ack rn => bitsHigh 2 1 ++ bitsHigh 16 rn
  | .nak => bitsHigh 8 0xC0
  | .reqRn rn => longFrame 0xC1 [] rn
  | .read b p n h => longFrame 0xC2 (bitsHigh 2 b ++ ebv p ++ bitsHigh 8 n) h
  | .write b p d h => longFrame 0xC3 (bitsHigh 2 b ++ ebv p ++ bitsHigh 16 d) h
  | .kill x h => longFrame 0xC4 (bitsHigh 16 x ++ bitsHigh 3 0) h
  | .lock p h => longFrame 0xC5 (bitsHigh 20 p) h
  | .access x h => longFrame 0xC6 (bitsHigh 16 x) h
  | .blockWrite b p d h => longFrame 0xC7 (bitsHigh 2 b ++ ebv p ++ bitsHigh 8 d.length ++ d.flatMap (bitsHigh 16)) h
  | _ => []

/-- The bits of a frame after its preamble, in sending order: the Umaolo commands (R251), the U0 commands (R222), a raw frame with the handle
and the CRC-16 it asks for (R209), and the commands of R208. -/
def Air.bits (handle : Nat) : Air → List Bool
  | .uquery scope q hw tpw => umaFrame 0xC1 (bitsHigh 1 scope ++ bitsHigh 4 q ++ bitsHigh 2 hw ++ bitsHigh 1 tpw) []
  | .unext q => umaFrame 0xC2 (bitsHigh 4 q) []
  | .uassign uid h g f c l =>
      umaFrame 0xC3 (bitsHigh 64 uid ++ bitsHigh 16 h ++ bitsHigh 8 g ++ bitsHigh 4 f ++ bitsHigh 4 c) (bitsHigh 40 l)
  | .upoll g k y => umaFrame 0xC4 (bitsHigh 8 g ++ bitsHigh 4 k ++ bitsHigh 6 y) []
  | .ulink h l => umaFrame 0xC5 (bitsHigh 16 h) (bitsHigh 40 l)
  | .uread h b a n l => umaFrame 0xC6 (bitsHigh 16 h ++ bitsHigh 2 b ++ bitsHigh 14 a ++ bitsHigh 8 n) (bitsHigh 40 l)
  | .uwrite h b a d l =>
      umaFrame 0xC7 (bitsHigh 16 h ++ bitsHigh 2 b ++ bitsHigh 14 a ++ bitsHigh 4 (d.length - 1) ++ bytesBits false d) (bitsHigh 40 l)
  | .urelease h => umaFrame 0xC8 (bitsHigh 16 h) []
  | .scan q => bitsHigh 4 9 ++ bitsHigh 4 q
  | .next => bitsHigh 2 0
  | .ackU0 t => bitsHigh 2 1 ++ bitsHigh 16 t
  | .readU0 b => bitsHigh 4 10 ++ bitsHigh 8 b
  | .hush t => bitsHigh 4 11 ++ bitsHigh 16 t
  | .raw l h crc =>
      let b := l ++ (if h then bitsHigh 16 handle else [])
      if crc then with16 b else b
  | a => a.isoBits

/-- The frame carries UCAL and opens a reply slot (R232, R251). -/
def Air.opensSlot : Air → Bool
  | .uquery _ _ _ _ | .unext _ | .upoll _ _ _ | .uread _ _ _ _ _ => true
  | _ => false

/-- The frames that the round on a warp sent in the last step of its engine, as bits. -/
def State.airOut (s : State) (w : Nat) : List (List Bool) :=
  match s.roundOn w with
  | some r => r.sent.map (fun a => a.bits (match r.leg with | some l => l.handle | none => 0))
  | none => []

/-! ## Peer frames (R247) -/

/-- The 48 header bits of a frame that the module sends, HCRC in its last eight (R239, R247). -/
def PeerTx.header (t : PeerTx) : List Bool :=
  let b := bitsHigh 4 t.ty ++ bitsHigh 2 t.rep ++ bitsHigh 24 ((List.range 12).foldl (fun a k => a + t.map.getD k 0 * 4 ^ k) 0) ++
    bitsHigh 10 t.body.length
  b ++ bitsHigh 8 (crc8 b)

/-- The body and the CRC-24 over header and body. -/
def PeerTx.payload (t : PeerTx) : List Bool :=
  bytesBits false t.body ++ bitsHigh 24 (crc24 (t.header ++ bytesBits false t.body))

/-- The symbols of the frame after its preamble: the header in BPSK on all 12 tufts, then body and CRC-24 under MAP and REP. -/
def PeerTx.symbols (t : PeerTx) : List (List (List (List Bool))) :=
  weftSymbols t.rep (allTufts 0) 1 t.header ++ weftSymbols t.rep t.map (blocksFor t.map t.payload.length) t.payload

/-- The carrier of an illuminator in Hz, with its steering (R155, R248). -/
def State.carrierHz (s : State) (n : Nat) : Int :=
  match s.region, (s.tx n).chan with | some rg, some c => 1000 * (regionKhz rg c : Int) + (s.tx n).steer | _, _ => 0

/-- The centre of the peer frames of a round (R226, R247): its channel plus BC, the default in a round without a link profile. -/
def State.peerCentre (s : State) (r : Round) : Int := match r.txc with | some n => s.carrierHz n + r.bcHz | none => 0

/-! ## Lands -/

/-- TAL_PULSE (R41, R364, R383): high for the first half of each second of TT while the tally die and its crystal run. -/
def State.talPulse (s : State) : Bool := s.die.running && s.die.xtal && decide (s.die.tt % 10 < 5)

/-- Row index and column of ANTn on the grid (R37, R40). -/
def antLand (n : Nat) : Nat × Nat :=
  let i := n % 16
  let k := 3 + 5 * (i / 4) + i % 4
  match n / 16 with
  | 0 => (1, k)
  | 1 => (k, 22)
  | 2 => (22, 23 - k)
  | _ => (23 - k, 1)

end Sys2Proof.Machine
end

