-- ==== Sys2Proof/Machine/Lanes.lean ====
section
/-! DEFINITION. The data lanes of the host port cycle by cycle (06_host_port.md R113 to R121), as a function of the frame that State holds. -/
namespace Sys2Proof.Machine

/-- Who drives the lanes in a cycle of HCLK, and on how many lanes with what value on HD(L-1) to HD0 (R113, R115). -/
inductive Cycle where
  | host (lanes value : Nat)
  | module (lanes value : Nat)
  | nobody
deriving DecidableEq, Repr

/-- The bits of a word as they travel: bits 31:24 first (R114). -/
def wordLane (w : Word) : List Bool := bitsHigh 32 w.toNat

/-- Lanes of the address phase: HP_LANES.ADDR (R115). -/
def State.addrLanes (s : State) : Nat := 2 ^ s.fld Reg.hpLanes 0 2

/-- The frame that an opcode and its address bytes ask for (R116); the words of a WR follow in its data phase. -/
def frameKindOf (op : Byte) (addr : BitVec 24) : Option FrameKind :=
  match op.toNat with
  | 0x03 => some (.rd addr.toNat)
  | 0x02 => some (.wr addr.toNat [] ⟨0, 0⟩)
  | 0x05 => some .stat
  | 0x5C => some .frd
  | 0x5D => some .fdrop
  | 0x6B => some (.abort addr.toNat)
  | 0x7A => some .wait
  | 0x9F => some .ident
  | _ => none

/-- The address bytes: the start address, the sequence number of an ABORT, and ignored in the others, where `ign` is sent (R116). -/
def FrameKind.address (ign : Nat) : FrameKind → Nat
  | .rd a => a
  | .wr a _ _ => a
  | .abort n => n
  | .stat | .frd | .fdrop | .wait | .ident => ign

/-- The first `n` bits of an opcode on HD0 alone, all of it in 8 cycles, whatever HP_LANES holds (R115). -/
def opcodeCycles (op n : Nat) : List Cycle := (lanesOf 1 ((bitsHigh 8 op).take n)).map (Cycle.host 1)

/-- The first `n` bits of the opcode and the three address bytes, bits 23:16 first (R114, R115). -/
def State.headCycles (s : State) (k : FrameKind) (ign n : Nat) : List Cycle :=
  opcodeCycles k.opcode n ++
  (lanesOf s.addrLanes ((bitsHigh 24 (k.address ign)).take (n - 8))).map (Cycle.host s.addrLanes)

/-- The bits of opcode and address that the host has clocked. -/
def headBits (r : Reach) : Nat := match r with | .address n => n | _ => 32

/-- A turnaround: HP_CTRL.TURN + 1 cycles that nobody drives. -/
def State.turnCycles (s : State) : List Cycle := List.replicate (s.fld Reg.hpCtrl 4 2 + 1) .nobody

/-- Bits that the module drives in the response, data and trailer phases. -/
def State.moduleCycles (s : State) (l : List Bool) : List Cycle := (lanesOf s.dataLanes l).map (Cycle.module s.dataLanes)

/-- The response phase after `busy` busy bytes: the start or the empty token, if one was sent (R118, R119). -/
def State.responseCycles (s : State) (t : Token) (busy : Nat) : List Cycle :=
  s.moduleCycles ((List.replicate busy (bitsHigh 8 0xB1)).flatten ++
    (match t with | .none => [] | .start => bitsHigh 8 0x4E | .empty => bitsHigh 8 0xE5))

/-- The bits that the module drives after the last whole word, up to where the host releases select (R124): those of the word or the trailer
that is cut off, which has no effect. -/
def State.cutBits (s : State) (f : Frame) : List Bool :=
  match f.reach, f.trailer, f.phase with
  | .data n b _, none, .data =>
    if f.token == .empty then (if s.trailerOn then (bitsHigh 16 s.trailerWord.toNat).take (32 * n + b) else [])
    else if s.trailerOn && decide (s.burstWords ≤ n) then (bitsHigh 16 s.trailerWord.toNat).take (s.readTail n b false)
    else if s.wordHangs f n then []
    else (wordLane (s.serveWord f n).1).take b
  | _, _, _ => []

/-- The data phase and trailer of a write whose BURST + 1 words are whole (R115, R120): after a further turnaround the trailer, as far as it was
clocked. The host's own bits beyond those words fall into these cycles, in which it no longer drives. -/
def State.writeEnd (s : State) (f : Frame) (d : List Word) (t : TailBits) (more : Nat) : List Cycle :=
  let trail := match f.trailer with | some t => t.toNat | none => s.trailerWord.toNat
  s.turnCycles.take (s.writeRest d t more) ++ s.moduleCycles ((bitsHigh 16 trail).take (s.writeTail d t more))

/-- The data phase and trailer of a frame that was served (R115, R119, R120): the module's words with the trailer, or after a second turnaround the
host's. -/
def State.dataCycles (s : State) (f : Frame) : List Cycle :=
  let trail := match f.trailer with | some t => bitsHigh 16 t.toNat | none => []
  let hosts := fun (l : List Bool) => s.turnCycles ++ (lanesOf s.dataLanes l).map (Cycle.host s.dataLanes)
  match f.kind, f.token with
  | _, .none => []
  | some (.wr _ d t), .start =>
      let more := match f.reach with | .written k => k | _ => 0
      if s.trailerOn && decide (s.burstWords ≤ d.length) then hosts ((d.take s.burstWords).flatMap wordLane) ++ s.writeEnd f d t more
      else hosts (d.flatMap wordLane ++ bitsHigh t.n t.value)
  | _, _ => s.moduleCycles (f.out.flatMap wordLane ++ trail ++ s.cutBits f)

/-- What the module drives once it has sent all that the frame asks for (R119, R120): zeros, after a trailer or the empty token. -/
def State.restCycle (s : State) (f : Frame) : Cycle :=
  if f.trailer.isSome || f.token == .empty then .module s.dataLanes 0 else .nobody

/-- The lanes in the frame in progress, cycle by cycle as far as it has come, with `busy` busy bytes and ignored address bytes `ign`
(R112 to R121). After the opcode of an LRST or an unknown one the module drives nothing (R116, R117). -/
def State.laneCycles (s : State) (busy ign : Nat) : List Cycle :=
  match s.hp.frame with
  | none => []
  | some f => match f.kind with
    | none => opcodeCycles f.op 8
    | some k => s.headCycles k ign (headBits f.reach) ++ (if f.phase = .opcode then [] else s.turnCycles ++ s.responseCycles f.token busy ++ s.dataCycles f)

end Sys2Proof.Machine
end

