-- ==== Sys2Proof/WellFormed.lean ====
section
/-! DEFINITION. Which commands the outside world can send: a field that the model holds in a wider type than the spec's stays in its width, a
list that names parts names each once. -/
namespace Sys2Proof

/-- No element occurs twice. -/
def distinct : List Nat → Bool
  | [] => true
  | a :: l => !l.contains a && distinct l

/-- A frame is released before its 8 bits of opcode and 24 of address are whole, or after whole words and at most 31 bits of one more; a trailer is
clocked out after whole words alone (R116, R120, R124). -/
def Reach.wf (r : Reach) : Bool :=
  match r with
  | .address clocked => decide (clocked < 32)
  | .response => true
  | .data _ bits trailer => decide (bits < 32) && !(trailer && bits != 0)
  | .written _ => false

/-- A write frame is released before its opcode and address are whole, or later. -/
def WrReach.wf (r : WrReach) : Bool := match r with | .address clocked => decide (clocked < 32) | .response => true | .data _ => true

/-- The frame has reached its data phase. -/
def WrReach.inData (r : WrReach) : Bool := match r with | .address _ => false | .response => false | .data _ => true

/-- A cut-off word has at most 31 bits, and its value fits in them (R124). -/
def TailBits.wf (t : TailBits) : Bool := decide (t.n ≤ 31) && decide (t.value < 2 ^ t.n)

/-- The opcodes of R116. -/
def knownOpcodes : List Byte := [0x03, 0x02, 0x05, 0x5C, 0x5D, 0x6B, 0x7A, 0x9F, 0xFF]

/-- A weft lies among the 12 tufts and names each chain once (R225, R236). -/
def WeftSig.wf (w : WeftSig) : Bool := decide (w.first < 12) && distinct (w.cells.map (fun c => c.1.val))

/-- The chains of a reception are named once, a collision lies in its bits, its wefts are well formed and begin on different tufts, and a preamble
seed is one of four. -/
def RxSignal.wf (r : RxSignal) : Bool :=
  distinct (r.chains.map (fun c => c.chain.val)) && r.collision.all (fun k => decide (k ≤ r.bits.length)) && r.wefts.all WeftSig.wf &&
  distinct (r.wefts.map (fun w => w.first)) && decide (r.seedRep < 4) && distinct (r.cells.map (fun c => c.1.val))

/-- A measurement in the 12-bit two's complement of PING_BASE (R347). -/
def GammaMeas.wf (m : GammaMeas) : Bool := [m.i, m.q].all (fun x => decide (-2048 ≤ x) && decide (x ≤ 2047))

/-- A geometry names a warp, an illuminator, ports and chains that exist (R21, R154). -/
def Geometry.wf (g : Geometry) : Bool :=
  decide (g.warp < 4) && decide (g.txc < 4) && decide (g.port < 64) && g.pairs.all (fun p => decide (p.1 < 16) && decide (p.2 < 64))

/-- A draft names ports, chains and decoders that exist, and its schedule rows of the table of R278. -/
def Draft.wf (d : Draft) : Bool :=
  d.struct_.ports.all (fun p => decide (p < 64)) && d.struct_.spares.all (fun c => decide (c < 16)) && d.struct_.geos.all Geometry.wf &&
  d.struct_.tagPorts.all (fun p => decide (p < 64)) && d.struct_.decoders.all (fun k => decide (k < 13)) && d.struct_.peerGeo.all Geometry.wf &&
  d.schedule.all (fun e => decide (e.1 < 256) && decide (e.2.length ≤ 16))

/-- The drafts of an image name what exists (R426). -/
def ImageFacts.wf (i : ImageFacts) : Bool := decide (i.contents.length ≤ 4) && i.contents.all (fun e => e.2.wf)

/-- A command that the outside world can send. -/
def Instr.wf (i : Instr) : Bool :=
  match i with
  | .rdFrame _ reach => reach.wf
  | .wrFrame _ ws tail reach => tail.wf && reach.wf && (reach.inData || (ws.isEmpty && tail.n == 0))
  | .statFrame reach => reach.wf
  | .frdFrame reach => reach.wf
  | .fdropFrame reach => reach.wf
  | .abortFrame _ reach => reach.wf
  | .waitFrame reach => reach.wf
  | .identFrame reach => reach.wf
  | .lrstFrame => true
  | .unknownOpcodeFrame op => !knownOpcodes.contains op
  | .earlyFrame _ => true
  | .selectRelease => true
  | .hungAccessComplete => true
  | .frdStallTimeout => true
  | .registerWrite _ _ => true
  | .multiWordLowRead _ => true
  | .hpIgnoredRead => true
  | .portLastFaultRead => true
  | .fifoStatRead => true
  | .tagFieldLastRead => true
  | .timeBaseWrite _ => true
  | .softReset => true
  | .proofCmd _ => true
  | .clkRefctrlWrite _ => true
  | .txcOut _ => true
  | .txcReturn _ => true
  | .portOut _ => true
  | .portReturn _ => true
  | .rxcOut _ => true
  | .rxcReturn _ => true
  | .legLinkCommit _ _ _ => true
  | .umaLinkWrite _ _ => true
  | .schedRun _ => true
  | .schedRunClear => true
  | .warpEnClear _ => true
  | .find => true
  | .clear => true
  | .flush => true
  | .crcStart _ => true
  | .crcHwinWrite _ _ => true
  | .crcHbitsWrite _ => true
  | .crcPresetCommit _ _ _ _ _ => true
  | .clearGuard => true
  | .unlock => true
  | .remap _ => true
  | .crumbOut _ => true
  | .crumbReturn _ => true
  | .wireCrumbWrite _ words => decide (words.length ≤ 16)
  | .cal => true
  | .pingThrWrite _ => true
  | .request _ _ => true
  | .mempOut _ => true
  | .mempReturn _ => true
  | .mgmtOut _ => true
  | .mgmtReturn _ => true
  | .dump => true
  | .mgmtLogSelWrite _ => true
  | .decOut _ => true
  | .decReturn _ => true
  | .peerTxCmd _ _ => true
  | .load _ => true
  | .loadComplete _ => true
  | .verify => true
  | .verifyComplete image => image.wf
  | .arm => true
  | .switchNow => true
  | .confirm => true
  | .confirmComplete _ => true
  | .revert => true
  | .abandonUpdate => true
  | .updUtcWrite _ _ _ => true
  | .quiesceEnd => true
  | .quiesceAbort _ => true
  | .quiesceTimeout => true
  | .tallyFeedPending => true
  | .powerDown => true
  | .powerDownComplete => true
  | .wakeN _ => true
  | .timer => true
  | .host => true
  | .vinReturn => true
  | .por => true
  | .vaoBor => true
  | .vinBor => true
  | .pin _ => true
  | .rstNRise => true
  | .resetEffect => true
  | .resetRelease => true
  | .vioPowerOn _ => true
  | .vioLoss => true
  | .hpReady => true
  | .mempDiscovery => true
  | .mgmtReady => true
  | .crcEngineSelftest _ => true
  | .tagfReady => true
  | .pingReady => true
  | .proofPassed => true
  | .proofFailed => true
  | .poolReady _ => true
  | .txcCalEnd _ _ => true
  | .rxcReady _ _ => true
  | .talReady => true
  | .portFirstClassification obs => distinct (obs.map (fun o => o.port.val))
  | .aoXtalSwitch => true
  | .aoXtalFail => true
  | .refinSignal _ _ _ => true
  | .refinValid _ => true
  | .refinLost => true
  | .refSlewEnd => true
  | .clkfail _ => true
  | .bypass => true
  | .idcode => true
  | .samplePreload => true
  | .extest => true
  | .leaveExtest => true
  | .thermalWarning _ _ => true
  | .paOvertemp _ _ => true
  | .dieOvertemp _ _ => true
  | .therm _ _ => true
  | .thermalFall _ _ => true
  | .portFault _ _ => true
  | .portIntact _ => true
  | .lossOfLock _ => true
  | .relockAttemptEnd _ _ => true
  | .paFault _ => true
  | .guardHop _ => true
  | .offTimeExpiry _ => true
  | .hopEpoch => true
  | .rampDownEnd _ => true
  | .synthSettled _ => true
  | .rampUpEnd _ => true
  | .calPointEnd _ _ => true
  | .calPeriod => true
  | .diverge _ => true
  | .cancSat _ => true
  | .adcFail _ => true
  | .primaryLock _ _ => true
  | .capture _ _ rx _ => rx.wf
  | .replyWindowClose _ => true
  | .receptionEnd _ rx => rx.wf
  | .decoderRelease _ _ => true
  | .crcAliveCheck => true
  | .legacySlotEnd _ => true
  | .identityReply _ => true
  | .accessReply _ => true
  | .delayedReplyTimeout _ => true
  | .umaoloSlotEnd _ => true
  | .wrWait _ => true
  | .peerWindowOpen => true
  | .peerSlot => true
  | .peerReceivePeriod => true
  | .peerReceivePeriodEnd => true
  | .data frame => frame.wf
  | .ack frame => frame.wf
  | .ackTimeout => true
  | .beacon frame => frame.wf
  | .referenceLost => true
  | .updOffer frame => frame.wf
  | .updReq frame => frame.wf
  | .updChunk frame => frame.wf
  | .peerFetchComplete => true
  | .entryDue _ => true
  | .roundStart _ => true
  | .durationExpiry _ => true
  | .disableBound _ => true
  | .hostRunTimeout _ => true
  | .shedLevelStep => true
  | .evict => true
  | .populationFetchReturn => true
  | .populationFetchTimeout => true
  | .packetAssembly => true
  | .packetComplete => true
  | .pointerMismatch _ => true
  | .fifoAgeExpiry => true
  | .fieldSelect _ a => decide (a.mask.length ≤ 255)
  | .fieldQuery _ a => decide (a.q ≤ 15)
  | .fieldQueryadjust _ _ up => decide (-1 ≤ up) && decide (up ≤ 1)
  | .fieldQueryrep _ _ => true
  | .fieldAck _ _ => true
  | .fieldNak _ => true
  | .fieldReqRn _ _ => true
  | .fieldRead _ _ _ count _ _ => decide (count ≤ 255)
  | .fieldWrite _ _ _ _ _ _ => true
  | .fieldBlockwrite _ _ _ ws _ _ => decide (ws.length ≤ 255)
  | .fieldLock _ _ _ => true
  | .fieldAccess _ _ _ => true
  | .fieldKill _ => true
  | .fieldBlockerase _ => true
  | .fieldBlockpermalock _ => true
  | .fieldUntraceable _ => true
  | .fieldAuthenticate _ => true
  | .fieldSessionTimeout => true
  | .fieldLoss => true
  | .crumbWriteEnd _ => true
  | .guardWriteEnd => true
  | .lockoutExpiry => true
  | .eccRewrite _ => true
  | .sweepTimer => true
  | .sweepEnd meas => distinct (meas.map (fun m => m.port.val)) && meas.all GammaMeas.wf
  | .baselineSave => true
  | .feedItemSend => true
  | .sightingItem item => decide (item.length = 16)
  | .windowRequest item => decide (item.length = 16)
  | .ttTick => true
  | .entryWinExpiry _ => true
  | .exitSilExpiry _ => true
  | .maxDwellExpiry _ => true
  | .feedGapExpiry => true
  | .gapMaxExpiry => true
  | .temperatureCompensation _ => true
  | .ttSave => true
  | .vtalLoss => true
  | .tallyDieStart => true
  | .xtalFail => true
  | .xtalRecovery => true
  | .sealModeEntry => true
  | .sealImage _ => true
  | .sealExit => true
  | .attestationDone => true
  | .publish => true
  | .publishFrame _ => true
  | .tallinkTimeout => true
  | .statusRequestTimer => true
  | .talReqTimeout => true
  | .queueEntryStart => true
  | .queueEntryEnd => true
  | .xipMiss _ _ => true
  | .suspended => true
  | .rgapExpiry => true
  | .mempTimeout _ => true
  | .verifyFail _ => true
  | .resilverEnd => true
  | .watchdogExpiry => true
  | .standbyWatchdogExpiry => true
  | .takeoverComplete => true
  | .checkpoint => true
  | .handoverComplete => true
  | .halfHot _ _ => true
  | .healthDiag => true
  | .logBatch _ => true
  | .decoderSelftest _ _ => true
  | .scheduledSwitch => true
  | .switchOwnership => true
  | .fallbackPath => true
  | .trialTimeout => true
  | .lastBitOnAir _ => true
  | .replyWindowOpen _ => true
  | .cwIntervalEnd _ gains => distinct (gains.map (fun g => g.chain.val))
  | .peerWindowEnd => true
  | .positionOffsetSave => true
  | .mgmtCfgStandbyWrite _ => true
  | .feedItemDiscarded item => decide (item.length = 16)

end Sys2Proof
end

