-- ==== Sys2Proof/Tests/Slice0.lean ====
section
/-! SUPPORT. The model's own tests: small states, a witness for the hypotheses of every clause of every statement, fixed-value checks against
the spec, and the terms that the well-formedness checks refuse. -/
set_option Elab.async false
set_option linter.unusedVariables false
set_option maxRecDepth 100000

namespace Sys2Proof.Tests
open Sys2Proof.Machine

/-- A module that runs: every clock on, every function ready and expected, no draft, registers as listed. -/
def base : State :=
  { State.reset with phase := .active, regs := [(Reg.sysReady, 0xFFFFFFFF), (Reg.sysExpect, 0xFFFFFFFF), (Reg.sysClkstat, 0xFF)] }

/-- A state with words put into its registers. -/
def regsOf (s : State) (l : List (Nat × Word)) : State := l.foldl (fun s e => s.setReg e.1 e.2) s

/-- Two packets of the report FIFO, the first partly read. -/
def fifoTwo : State := { base with fifo := { Fifo.init with head := [1, 2], packets := [⟨[3, 4, 5], 0, 0⟩, ⟨[6], 0, 0⟩] } }

/-- A geometry: illuminator 0 on port 0, chain 0 listens on port 1. -/
def geoA : Geometry := { idx := 0, warp := 0, txc := 0, port := 0, pairs := [(0, 1)] }

/-- A region of four channels, each a group of its own. -/
def regionA : RegionProfile :=
  { channels := [915000, 918000, 921000, 924000], hopOrder := [0, 1, 2, 3], caps := [60, 60, 60, 60], modes := 7, minTari := 0, dwellMax := 400, offTime := 0,
    occLimit := 400, occWindow := 20000, spread := false, groups := [[0], [1], [2], [3]], bcLo := 0, bcHi := 63, pingKhz := 915000, pingLevel := 10 }

/-- A draft with that geometry and region, three ports and a decoder of each kind. -/
def draftA : Draft :=
  { id := 7, struct_ := { ports := [0, 1, 2], spares := [], geos := [geoA], tagPorts := [0], decoders := [0, 8, 12], peerGeo := some geoA },
    region := regionA, seen := { epcw := false, coal := 5, filter := [] }, thr18000 := -140, thrUma := -160, thrPeer := -160, cwUs := 1500,
    peerLevel := 40, schedule := [], calPeriod := 60, hopEpoch := 100, missMax := 10, wrWait := 20, groups := [], pos := none, zones := [],
    fifoCfg := none, regDefs := [] }

/-- A section of one zero byte of each type, at an offset: its table entry and its CRC-32. -/
def sectionEntry (ty off : Nat) : List Byte := beBytes 4 (ty * 2 ^ 24) ++ beBytes 4 off ++ beBytes 4 1 ++ beBytes 4 (crc32 [0])

/-- Its image: a header, five sections and a signature. -/
def imgA : DraftImage :=
  { bytes := beBytes 4 0x44524654 ++ [1, 5, 3, 0] ++ beBytes 4 256 ++ beBytes 4 0x64800000 ++ beBytes 4 7 ++ List.replicate 44 0 ++
      sectionEntry 1 144 ++ sectionEntry 2 145 ++ sectionEntry 5 146 ++ sectionEntry 6 147 ++ sectionEntry 13 148 ++ List.replicate 112 0,
    sigOk := true, draft := draftA }

/-- The module runs with that draft live. -/
def withDraft : State := { base with upd := { Upd.init with live := some draftA } }

/-- An inventory round of warp 0 on illuminator 0. -/
def roundA : Round :=
  { kind := .inventory, seq := 8388609, entry := 0, words := [], warp := 0, warps := [0], txc := some 0, port := 0, geos := [0], chan := 915000,
    start := 0, began := 0, upAt := some 0, phase := .running, noNew := false, status := none, draining := false, txn := none, commitAt := none, trans := 0,
    reported := 0, coalesced := 0, dropped := 0, skipped := false, fifoReset := false, beams := [], decs := [], leg := none, uma := none,
    sent := [], points := [], failed := false, verdict := none, owed := [], ports := [], accData := [], raw := [], link := [], hopDue := false }

/-- An image with firmware of release 5 and no draft: FIRMWARE and MIGRATION of one byte each. -/
def imageA : CerrexImage :=
  { bytes := beBytes 4 0x43455258 ++ [1, 2, 0, 0] ++ beBytes 4 0x77 ++ beBytes 4 256 ++ beBytes 4 0x64800000 ++ beBytes 4 2 ++ beBytes 4 5 ++ beBytes 4 5 ++
      List.replicate 32 0 ++ sectionEntry 1 96 ++ sectionEntry 3 97 ++ List.replicate 160 0,
    facts := { sigOk := true, fwSigOk := true, contents := [], migrationOk := true, oneway := 70000 } }

/-- An image without firmware: that draft for PROF2. -/
def imageD : CerrexImage :=
  { bytes := beBytes 4 0x43455258 ++ [1, 1, 0, 0] ++ beBytes 4 0x78 ++ beBytes 4 416 ++ beBytes 4 0x64800000 ++ beBytes 4 2 ++ beBytes 4 5 ++ beBytes 4 5 ++
      List.replicate 32 0 ++ beBytes 4 0x02020000 ++ beBytes 4 80 ++ beBytes 4 256 ++ beBytes 4 (crc32 imgA.bytes) ++ imgA.bytes ++ List.replicate 80 0,
    facts := { sigOk := true, fwSigOk := false, contents := [(true, draftA)], migrationOk := false, oneway := 70000 } }

/-- A module whose half A runs. -/
def runS : State := { base with mgmt := { Mgmt.init with running := some false } }

/-- Staging holds an image, and its VERIFY is in progress. -/
def stagedS (st : Word) (i : CerrexImage) : State :=
  { regsOf base [(Reg.updStat, st), (Reg.updCmdRes, 5)] with
      cmds := [⟨5, some Reg.updCmdRes, .updVerify, some true⟩],
      mgmt := { Mgmt.init with running := some false },
      upd := { Upd.init with busy := true, blocks := [(0, wordsOfBytes (i.bytes ++ List.replicate (512 - i.bytes.length) 0xFF))] } }

/-- That round is on air, on channel 0. -/
def onAir : State :=
  ({ withDraft with rounds := [roundA], txc := [{ Txc.init with chan := some 0 }, .init, .init, .init] }).setReg (Reg.txcStat 0) 0x00800102

/-- A beam of one chain that listens. -/
def beamA : Beam :=
  { warp := 0, geo := 0, chains := [(0, 1)], window := true, captures := 0, secOff := false, rec_ := none, last := ⟨0, 0⟩, next := none, ending := false,
    decoding := none, heard := none, locked := false, sp := [] }

/-- The legacy engine waits for a slot. -/
def legA : Leg :=
  { phase := .slot, qfp := 64, q := 4, empties := 0, split := [], tries := 0, rn := 0, handle := 0, words := 0, data := [], retried := false, sighted := false,
    crcOk := none, index := 0xFFF, delayed := false, held := none, early := none, kept := none }

/-- An RN16 without collision. -/
def rxRn : RxReport :=
  { header := true, bits := bitsHigh 16 0x1234, collision := none, chains := [], chans := [], snr := 60, dev := 0, eqBad := false, refused := false, wefts := [], at_ := 0, ties := [] }

/-- A link profile: Q from 2 to 8, step 8/16, four empty slots end a round. -/
def linkA : List Word := [0, 0x04882400]

/-- An inventory round in a slot. -/
def roundL : Round := { roundA with leg := some legA, txn := some false, beams := [0], sent := [.queryRep 0], link := linkA }

/-- Its beam listens. -/
def listening : State := { onAir with rounds := [roundL], beams := [some beamA] }

/-- What chain 0 brings of an RN16 with two training symbols. -/
def sigRn : RxSignal :=
  { bits := bitsHigh 16 0x1234, collision := none, chains := [⟨0, -110, false, [(2 ^ 16, 0), (-(2 ^ 15), 7)], []⟩], snr := 60, dev := 3, wefts := [],
    seedRep := 0, cells := [] }

/-- An identity reply: PC, an EPC of 32 bits, CRC-16. -/
def rxEpc : RxReport := { rxRn with bits := let b := bitsHigh 48 0x1000DEADBEEF; b ++ bitsHigh 16 (crc16 b) }

/-- The round waits for an identity reply. -/
def roundI : Round := { roundL with leg := some { legA with phase := .ident, rn := 0x1234 }, sent := [.ack 0x1234] }

/-- The reply is in the decoder. -/
def identHeard : State := { listening with rounds := [roundI], beams := [some { beamA with decoding := some rxEpc }] }

/-- An access round whose operation is on air. -/
def legW : Leg := { legA with phase := .accOp, handle := 7 }
def roundW : Round := { roundL with kind := .access, seq := 5, leg := some legW, sent := [.write 3 0 0x1234 7] }
def accOnAir : State := { listening with rounds := [roundW] }

/-- An entry of the seen-tag table with the identity of that reply. -/
def seenA : Seen :=
  { id := 0xDEADBEEF, handle := 0, group := 0, wfirst := 0, wcount := 0, last := 5, first := 4, count := 9, alive := 0, pos := 0xFFFFFF, best := 100, miss := 0, proto := 0,
    longId := false, aliveLate := false, coal := false, lost := false, assigned := false, noHist := false, refTag := false, tally := false, valid := true,
    aliveTaken := false, firstAlive := 0 }

/-- A Read of one word, and its reply: no error, 0xCAFE, the handle, CRC-16. -/
def roundRd : Round := { roundW with words := [0, 0, 0, 0, 0, 0, 0, 0, 0, 0x10000201], sent := [.read 0 2 1 7] }
def rxRead : RxReport := { rxRn with bits := let b := false :: (bitsHigh 16 0xCAFE ++ bitsHigh 16 7); b ++ bitsHigh 16 (crc16 b) }
def rxHandle : RxReport := { rxRn with bits := let b := bitsHigh 16 0xBEEF; b ++ bitsHigh 16 (crc16 b) }
def accRead : State := { listening with rounds := [roundRd], beams := [some { beamA with heard := some rxRead, locked := true }] }

/-- A Umaolo inventory slot: Q from 2, C 8/16, two wefts of one tuft. -/
def umaA : Uma :=
  { phase := .inv, qfp := 64, q := 4, quiet := 0, group := 1, groups := [1, 2], slot := 0, slotsym := 8, res := [], tries := 0, index := 0xFFF, data := [], out := [], last := none, kept := none }
def roundU : Round := { roundL with leg := none, uma := some umaA, words := [0x08000000, 0, 0, 0x42880400], sent := [.unext 4], link := [] }
def umaInv : State := ({ listening with rounds := [roundU] }).setReg (Reg.loomBeam 0) 0x29000001
def umTagA : UmTag :=
  { index := 3, latest := some ⟨2, 0, [1]⟩, older := none, nextId := 3, pend := none, pendAt := 0, trim := -4, confirmed := false, good := 0, classB := false, tufts := 12, meas := [], eng := 0, again := false }
def roundUw : Round := { roundU with kind := .access, uma := some { umaA with phase := .wrWait, index := 3 }, txn := some true, beams := [],
                                     words := [0, 0, 0, 0, 0, 0, 0, 0, 0, 0x20000804] }

/-- Peer mode is on: address 0xA1, slot 2, channel 1, warp 0, a window every 1000 ms with a beacon in each. -/
def peerOnS : State := regsOf withDraft [(Reg.peerCfg, 0x00A12011), (Reg.peerWin, 0x03E80150), (Reg.schedCtrl, 0xF1), (Reg.peerTime, 0x0F000000), (Reg.peerCnt 0, 5)]

/-- A peer window is in progress. -/
def roundP : Round := { roundA with kind := .peerWin, seq := 0, beams := [0], decs := [12] }
def peerWinS : State := { peerOnS with rounds := [roundP], beams := [some beamA], txc := [{ Txc.init with chan := some 1 }, .init, .init, .init] }

/-- A frame is coming in. -/
def peerHears : State := { peerWinS with beams := [some { beamA with rec_ := some ⟨-100, 6⟩ }], wts := [(0, (65536, 0))] }

/-- The beam that hears it, with a weight of one. -/
def hearB : Beam := { beamA with rec_ := some ⟨-100, 6⟩ }

/-- A sample of a cell that carries a sign. -/
def signCx (neg : Bool) : Cx := (if neg then -65536 else 65536, 0)

/-- The sample of a cell that carries bits in a constellation. -/
def cellCx (c : Nat) (b : List Bool) : Cx := cquot (cellPoint c b) 65536

/-- The samples of bits in constellation `c` on all tufts, in copies by a REP code. -/
def symbolsOf (rep c : Nat) (l : List Bool) : List (List Cx) :=
  (weftSymbols rep (List.replicate 12 c) (blocksFor (List.replicate 12 c) l.length) l).map (fun y => y.flatMap (fun t => t.map (cellCx c)))

/-- The bits of a header of R247 for a body of `n` bytes in constellation `c` on all tufts. -/
def headBits (ty rep c n : Nat) : List Bool :=
  let h := bitsHigh 4 ty ++ bitsHigh 2 rep ++ bitsHigh 24 (c * 0x555555) ++ bitsHigh 10 n
  h ++ bitsHigh 8 (crc8 h)

/-- The payload of a frame: its body and the CRC-24 over header and body. -/
def payBits (h : List Bool) (body : List Byte) : List Bool := bytesBits false body ++ bitsHigh 24 (crc24 (h ++ bytesBits false body))

/-- A frame as another module sends it through a channel of gain 1, with these header and payload bits, and what PE makes of it. -/
def peerSignal (rep c : Nat) (head pay : List Bool) : RxSignal :=
  { sigRn with bits := [], chains := [⟨0, -100, false, (preamble (peerSeed rep)).flatten.map signCx, []⟩], seedRep := rep,
               cells := [(0, symbolsOf rep 0 head ++ symbolsOf rep c pay)] }
def peerFrameOf (rep : Nat) (head pay : List Bool) : PeerFrame :=
  { seedRep := rep, header := head, payload := pay, power := -100, snr := List.replicate 12 255, offset := 0 }
def sigOf (ty rep c : Nat) (body : List Byte) : RxSignal :=
  peerSignal rep c (headBits ty rep c body.length) (payBits (headBits ty rep c body.length) body)
def frameOf (ty rep c : Nat) (body : List Byte) : PeerFrame :=
  peerFrameOf rep (headBits ty rep c body.length) (payBits (headBits ty rep c body.length) body)

/-- DATA of two bytes from 0xB2 to the module, an ACK of its frame 9, a beacon of stratum 3, an offer of three chunks, a request, a chunk. -/
def bodyData : List Byte := [0, 0xA1, 0, 0xB2, 7, 0xCA, 0xFE]
def bodyAck : List Byte := [0, 0xA1, 0, 0xB2, 9] ++ List.replicate 12 64
def bodyBeacon : List Byte := [0xFF, 0xFF, 0, 0xB2, 7] ++ [3, 0, 0, 0, 9, 0, 0, 0] ++ [0, 0, 0, 0, 0x10, 0] ++ [1, 0, 0xC3]
def bodyOffer : List Byte := [0xFF, 0xFF, 0, 0xB2, 7] ++ [0, 0, 0, 0x77] ++ [0, 3] ++ [0, 0, 1, 0]
def bodyReq : List Byte := [0, 0xA1, 0, 0xB2, 7] ++ [0, 0, 0, 0x77] ++ [0, 0] ++ (0xA0 :: List.replicate 31 0)
def bodyChunk : List Byte := [0xFF, 0xFF, 0, 0xB2, 7] ++ [0, 0, 0, 0x77] ++ [0, 2] ++ List.replicate 256 0x5A
def sigData : RxSignal := sigOf 1 1 0 bodyData
def sigAck : RxSignal := sigOf 2 0 0 bodyAck
def sigBeacon : RxSignal := sigOf 3 0 0 bodyBeacon
def sigOffer : RxSignal := sigOf 4 0 0 bodyOffer
def sigReq : RxSignal := sigOf 5 0 1 bodyReq
def sigChunk : RxSignal := sigOf 6 0 2 bodyChunk
def frameData : PeerFrame := frameOf 1 1 0 bodyData
def frameAck : PeerFrame := frameOf 2 0 0 bodyAck
def frameBeacon : PeerFrame := frameOf 3 0 0 bodyBeacon
def frameOffer : PeerFrame := frameOf 4 0 0 bodyOffer
def frameReq : PeerFrame := frameOf 5 0 1 bodyReq
def frameChunk : PeerFrame := frameOf 6 0 2 bodyChunk
/-- The same DATA with a bad header, with a type that is not sent, and with a bad CRC-24. -/
def badHead : List Bool := (headBits 1 0 0 7).map (fun b => !b)
def sigBadHead : RxSignal := peerSignal 0 0 badHead []
def sigBadType : RxSignal := sigOf 9 0 0 bodyData
def sigBadCrc : RxSignal := peerSignal 0 0 (headBits 1 0 0 7) (List.replicate 80 true)
def frameBadHead : PeerFrame := peerFrameOf 0 badHead []
def frameBadType : PeerFrame := frameOf 9 0 0 bodyData
def frameBadCrc : PeerFrame := peerFrameOf 0 (headBits 1 0 0 7) (List.replicate 80 true)
/-- A frame that is heard as `f` reaches the module whole if `f` does. -/
theorem hearsPeer_of {s : State} {r : Round} {m k : Nat} {b : Beam} {x : RxSignal} {f : PeerFrame} (h : s.frameHeard r b x = f)
    (g : (s.hearsFrame r m b && peerHeaderOk f && peerCrcOk f && decide (5 ≤ f.body.length) && decide (1 ≤ k) && decide (k ≤ 6) && f.ty == k &&
      (bDst f.body == 0xFFFF || bDst f.body == s.peerAddr)) = true) : s.hearsPeer r m b x k = true := by
  subst h
  exact g

def jobA : PeerJob := { seq := 5, dst := 0xB2, data := [1, 2], num := 9, tries := 1, waiting := true }
def cmdTx : Cmd := { seq := 5, res := some Reg.peerTxRes, kind := .peerTx 0xB2 2, cell := some true }
def offerA : Offer := { src := 0xB2, image := 0x77, chunks := 3, bake := 256 }
def nbA : Neighbour := { addr := 0xB2, stratum := 3, colour := 1, power := -120, missed := 2, now := false }

/-- Entry 1 is due: an inventory on warp 0 with geometry 0 and a valid link profile, for 100 ms. -/
def startable : State :=
  regsOf { withDraft with cands := [{ kind := .inventory, seq := 0, entry := 1, warp := 0, due := true, points := [] }],
                          chains := List.replicate 16 { Chain.init with svc := .inService },
                          seeds := [(0, 0, 0), (0, 0, 1), (0, 0, 2), (0, 0, 3)] }
    [(Reg.schedCtrl, 0xF1), (Reg.schedTable 1 0, 0x90000000), (Reg.schedTable 1 1, 0x03E80064), (Reg.schedTable 1 2, 1), (Reg.legLinkA 0, 0x80000000)]

/-- A table of 4081 entries, the first of them the oldest. -/
def bigSeen : List (Nat × Option Seen) := (List.range 4081).map (fun i => (i, some { seenA with id := i, last := i }))

/-- The population store is in use. -/
def popS : State := regsOf base [(Reg.seenCfg, 1)]

/-- A record of 16 bytes. -/
def recA : Rec := { ty := 7, flags := 0, len := 16, words := [1, 2, 3] }

/-- A field session on port 0 of the draft's tag ports, in a state of the tag. -/
def sessOf (st : TagState) : Session := { fe := .comm, state := st, slot := 1, q := 4, session := 2, rn := 0x1234, handle := 0x7777, trunc := none, bySl := false, cover := none }
def fieldS (st : TagState) : State := { withDraft with tag := { TagFn.init with session := some (sessOf st), loaded := true } }
/-- The same after a Req_RN that covers the next command. -/
def sessC (st : TagState) : Session := { sessOf st with cover := some 0x0F0F }
def fieldC (st : TagState) : State := { withDraft with tag := { TagFn.init with session := some (sessC st), loaded := true } }
def fieldJob : CrumbJob := { crumb := 5, patch := [(2, 0x34), (3, 0x12)], who := .field 0x7777, failed := false, reply := true }

/-- A port of the ping engine with a baseline. -/
def pingA : PingPort := { valid := true, bi := 100, bq := -100, state := 0, pend := 0, hold := 0, mi := 100, mq := -100, md := 0 }

/-- A read of PSRAM, a code fetch, and a page of the event log as it is programmed and read back. -/
def popR : MemEntry := popEntry 768 256 false (.popFetch 3 true)
def flashR : MemEntry := { popR with dev := false, addr := 0x700040, len := 32, level := 1, job := .xip true 0x40 }
def flashP : MemEntry := { popR with dev := false, addr := 0x1A00000, len := 16, level := 4, write := true, prog := true, job := .log 1 }
def flashL : MemEntry := flashP
def flashK : MemEntry := { flashP with write := false, prog := false, job := .check }

/-- The last page of a resilver of the mirror. -/
def flashC : MemEntry := { flashP with dev := true, addr := 0x1FFFF00, len := 256, level := 5, job := .copy 0x1FFFF00 }

/-- An entry of the event log. -/
def logA : LogEntry := { seq := 1, aoTime := 0, sev := 0, source := 0x0D, code := 2, resets := 0, detail := 1 }

/-- An open dwell in zone 7 and a candidate in zone 9, a die that holds them, and the module with it. -/
def dwellA : Dwell := { idx := 3, family := 2, id := 0xBEEF, state := .open_, zone := 7, entry := 1000, last := 4000, silFrom := 4000, count := 4, flags := 4,
                        czone := 0, cfirst := 0, ccount := 0 }
def dwellC : Dwell := { idx := 0, family := 0, id := 0xC0DE, state := .cand, zone := 0, entry := 0, last := 0, silFrom := 0, count := 0, flags := 0,
                        czone := 9, cfirst := 4900, ccount := 2 }
def dieA : TalDie := { TalDie.init with running := true, tt := 5000, lastItem := 4990, dwells := [dwellA, dwellC] }
def tallyS : State := { base with die := dieA }
/-- A sighting item and a window request as the feed carries them. -/
def itemS (drop : Byte) (fam zone q r id : Nat) : List Byte :=
  feedBytes ([0x10, drop] ++ beBytes 2 (fam * 16384 + zone) ++ beBytes 1 q ++ beBytes 1 r ++ beBytes 8 id)
def itemW (code arg : Nat) : List Byte := feedBytes ([0x20, 0] ++ beBytes 2 code ++ [0, 0] ++ beBytes 4 arg ++ List.replicate 4 0)
/-- A tally image of parameters alone. -/
def sealImg : TallyImage :=
  { bytes := [0x54, 0x41, 0x4C, 0x49, 2, 0, 0, 5] ++ List.replicate 8 0 ++ paramBlock { talFactory with qMin := 32 } ++ List.replicate 64 0, sigOk := true }

/-! ## Witnesses -/

theorem witness_ReadFramesAnswer_1 : ∃ (s : State) (n bits : Nat), s.frameCan = true :=
  ⟨base, 3, 7, by decide +kernel⟩
theorem witness_ReadFramesAnswer_2 : ∃ (s : State) (bits : Nat), s.frameCan = true :=
  ⟨base, 0, by decide +kernel⟩
theorem witness_ReadFramesAnswer_3 : ∃ (s : State) (addr : BitVec 24) (n bits : Nat), s.frameCan = true ∧ s.clockRuns (alignWord addr.toNat) = true ∧
    (∀ k < max 1 n, burstAt addr.toNat k = some (alignWord addr.toNat + 4 * k) ∧ s.burstRuns addr.toNat k = true) ∧ (∀ k < max 1 n, s.plainRead
    (alignWord addr.toNat + 4 * k) = true) :=
  ⟨base, 0x2008, 3, 0, by decide +kernel⟩
theorem witness_ReadFramesAnswer_4 : ∃ (s : State) (n bits : Nat), s.frameCan = true ∧ s.coreOn = true ∧ 0 < s.fifo.unread.length ∧ n ≤
    s.fifo.unread.length ∧ (∀ p ∈ s.fifo.packets, p.words ≠ []) :=
  ⟨fifoTwo, 3, 0, by decide +kernel⟩
theorem witness_ReadFramesAnswer_5 : ∃ (s : State) (bits : Nat), s.frameCan = true ∧ s.coreOn = true :=
  ⟨fifoTwo, 0, by decide +kernel⟩
theorem witness_TrailerReportsAndClears_1 : ∃ (s : State) (n bits : Nat), s.frameReady = true ∧ s.bit Reg.hpCtrl 0 = true ∧ s.fld Reg.hpCtrl 8 8 + 1
    ≤ n :=
  ⟨{ base.setReg Reg.hpCtrl 0x101 with hp := { HostPort.init with flags := 64 } }, 3, 0, by decide +kernel⟩
theorem witness_TrailerReportsAndClears_2 : ∃ (s : State) (n bits : Nat) (full : Bool), s.frameReady = true ∧ s.bit Reg.hpCtrl 0 = true ∧ n < s.fld
    Reg.hpCtrl 8 8 + 1 :=
  ⟨{ base.setReg Reg.hpCtrl 0x301 with hp := { HostPort.init with flags := 64 } }, 3, 0, true, by decide +kernel⟩
theorem witness_OtherFramesAct_1 : ∃ (s : State) (addr : BitVec 24) (data : List Word) (tail : TailBits) (more : Nat), s.frameCan = true ∧
    s.clockRuns (alignWord addr.toNat) = true ∧ data.length ≤ 256 ∧ (∀ k < max 1 data.length, inTagStore (alignWord addr.toNat + 4 * k) = false) ∧ (∀
    k < data.length, s.burstOver addr.toNat k = false) :=
  ⟨base, 0x2008, [5, 6], ⟨0, 0⟩, 3, by decide +kernel⟩
theorem witness_OtherFramesAct_2 : ∃ (s : State) (seq : BitVec 24) (bits : Nat) (c : Cmd), s.frameCan = true ∧ s.coreOn = true ∧ s.wasAssigned
    seq.toNat = true ∧ s.cmd? seq.toNat = some c ∧ c.cell = some true :=
  ⟨{ base with hostNext := 2, cmds := [⟨1, some Reg.seenCmdRes, .find, some true⟩] }, 1, 0, ⟨1, some Reg.seenCmdRes, .find, some true⟩, by
    decide +kernel⟩
theorem witness_OtherFramesAct_3 : ∃ (s : State) (seq : BitVec 24) (bits : Nat) (k : Cmd) (c : Cand), s.frameCan = true ∧ s.coreOn = true ∧
    s.wasAssigned seq.toNat = true ∧ 0 < seq.toNat ∧ s.cmd? seq.toNat = some k ∧ k.cell = none ∧ s.acc.cur ≠ some seq.toNat ∧ k.res = some
    Reg.schedCmdRes ∧ s.fld Reg.schedCmdRes 0 24 = seq.toNat ∧ s.cands.find? (fun c => c.seq == seq.toNat) = some c ∧ c.kind.internal = false ∧ eWarp
    (s.entryWords c.entry) < s.fifo.warp.length ∧ (s.fifo.warp.getD (eWarp (s.entryWords c.entry)) []).length < 64 :=
  ⟨{ base.setReg Reg.schedCmdRes 1 with hostNext := 2, cmds := [⟨1, some Reg.schedCmdRes, .run 0, none⟩], cands := [⟨.inventory, 1, 0, 0, false, []⟩] },
    1, 0, ⟨1, some Reg.schedCmdRes, .run 0, none⟩, ⟨.inventory, 1, 0, 0, false, []⟩, by decide +kernel⟩
theorem witness_OtherFramesAct_4 : ∃ (s : State) (r : Reach) (g : Target), s.frameCan = true ∧ reachesAddress r = false ∧ g = Target.ofCode (s.fld
    Reg.pwrMode 0 2) ∧ g ≠ .active ∧ (∀ f ∈ allRefusers, (State.refuses
    { s.cnt Reg.hpFrames with hp := { s.hp with frame := some (Frame.open_ 0x7A (some .wait) r .response) } } g f) = false) ∧ s.tag.session = none ∧
    s.mgmt.unsaved ≤ s.logQueued :=
  ⟨{ base.setReg Reg.pwrMode 1 with mgmt := { Mgmt.init with running := some false } }, .data 1 0 false, .idle, by decide +kernel⟩
theorem witness_OtherFramesAct_5 : ∃ (s : State), s.frameReady = true :=
  ⟨base, by decide +kernel⟩
theorem witness_OtherFramesAct_6 : ∃ (s : State) (op : Byte), s.frameReady = true ∧ op ∉ [0x03, 0x02, 0x05, 0x5C, 0x5D, 0x6B, 0x7A, 0x9F, 0xFF] :=
  ⟨base, 0x77, by decide +kernel⟩
theorem witness_OtherFramesAct_7 : ∃ (s : State) (op : Byte), s.phase = .active ∧ s.sameCycle = false :=
  ⟨base, 3, by decide +kernel⟩
theorem witness_FrameEnds_1 : ∃ (s : State) (f : Frame) (a : Nat) (w : Word), s.hp.frame = some f ∧ f.lrst = false ∧ f.phase = .data ∧ f.kind = some
    (.wr a [w] ⟨0, 0⟩) ∧ s.regsWf = true ∧ s.bit Reg.hpCtrl 0 = false ∧ s.tag.queue = [] ∧ s.clockRuns (alignWord a) = true ∧ s.addrClass (alignWord
    a) = .word ∧ inTagStore (alignWord a) = false ∧ groupOf (alignWord a) = none ∧ plainReg (alignWord a) = true ∧ s.wordOk (alignWord a) (s.merged
    (alignWord a) w) = true :=
  ⟨{ base with hp := { HostPort.init with frame := some ⟨2, some (.wr 0x2008 [9] ⟨0, 0⟩), .written 0, .data, .start, [], none, false⟩ } }, ⟨2, some
    (.wr 0x2008 [9] ⟨0, 0⟩), .written 0, .data, .start, [], none, false⟩, 0x2008, 9, by decide +kernel⟩
theorem witness_FrameEnds_2 : ∃ (s : State) (f : Frame), s.hp.frame = some f ∧ f.lrst = true ∧ s.tag.queue = [] ∧ s.regsWf = true :=
  ⟨{ base with hp := { HostPort.init with frame := some ⟨0xFF, none, .response, .response, .none, [], none, true⟩ } }, ⟨0xFF, none, .response,
    .response, .none, [], none, true⟩, by decide +kernel⟩
theorem witness_FrameEnds_3 : ∃ (s : State) (f : Frame), s.hp.frame = some f ∧ f.lrst = false ∧ f.phase = .opcode ∧ s.tag.queue = [] ∧ s.regsWf =
    true :=
  ⟨{ base with hp := { HostPort.init with frame := some (Frame.open_ 5 (some .stat) (.address 3) .opcode) } }, Frame.open_ 5 (some .stat) (.address
    3) .opcode, by decide +kernel⟩
theorem witness_FrameEnds_4 : ∃ (s : State) (f : Frame) (a : Nat), s.hp.frame = some f ∧ f.lrst = false ∧ f.phase = .held .clock ∧ f.kind = some (.rd
    a) ∧ f.out = [] ∧ s.tag.queue = [] ∧ s.regsWf = true :=
  ⟨{ base with hp := { HostPort.init with frame := some (Frame.open_ 3 (some (.rd 0x24000)) .response (.held .clock)) } }, Frame.open_ 3 (some (.rd
    0x24000)) .response (.held .clock), 0x24000, by decide +kernel⟩
theorem witness_FrameEnds_5 : ∃ (s : State) (f : Frame), s.hp.frame = some f ∧ f.phase = .held .clock ∧ f.kind = some .fdrop ∧ f.reach = .response ∧
    s.coreOn = true ∧ s.wrPend = false :=
  ⟨{ base with hp := { HostPort.init with frame := some (Frame.open_ 0x5D (some .fdrop) .response (.held .clock)) } }, Frame.open_ 0x5D (some .fdrop)
    .response (.held .clock), by decide +kernel⟩
theorem witness_FrameEnds_6 : ∃ (s : State) (f : Frame), s.hp.frame = some f ∧ f.phase = .held .fifo ∧ s.fld Reg.hpStallLimit 0 16 ≠ 0 ∧ s.bit
    Reg.hpCtrl 0 = false ∧ s.regsWf = true :=
  ⟨{ base.setReg Reg.hpStallLimit 5 with hp := { HostPort.init with frame := some (Frame.open_ 0x5C (some .frd) (.data 1 0 false) (.held .fifo)) } },
    Frame.open_ 0x5C (some .frd) (.data 1 0 false) (.held .fifo), by decide +kernel⟩
theorem witness_RegisterWritesFollowTheirAccessCodes_1 : ∃ (s : State) (addr : BitVec 24) (value : Word), s.hostCan (alignWord addr.toNat) = true ∧
    s.addrClass (alignWord addr.toNat) = .word ∧ inTagStore (alignWord addr.toNat) = false ∧ groupOf (alignWord addr.toNat) = none ∧ plainReg
    (alignWord addr.toNat) = true ∧ s.wordOk (alignWord addr.toNat) (s.merged (alignWord addr.toNat) value) = true :=
  ⟨base, 0x2008, 77, by decide +kernel⟩
theorem witness_RegisterWritesFollowTheirAccessCodes_2 : ∃ (s : State) (addr : BitVec 24) (value : Word), s.hostCan (alignWord addr.toNat) = true ∧
    s.addrClass (alignWord addr.toNat) = .word ∧ inTagStore (alignWord addr.toNat) = false ∧ groupOf (alignWord addr.toNat) = none ∧ plainReg
    (alignWord addr.toNat) = true ∧ s.wordOk (alignWord addr.toNat) (s.merged (alignWord addr.toNat) value) = false :=
  ⟨base, 0x44008, 0xFFFFFFFF, by decide +kernel⟩
theorem witness_RegisterWritesFollowTheirAccessCodes_3 : ∃ (s : State) (addr : BitVec 24) (value : Word), s.hostCan (alignWord addr.toNat) = true ∧
    s.addrClass (alignWord addr.toNat) = .hole :=
  ⟨base, 0x18, 1, by decide +kernel⟩
theorem witness_RegisterWritesFollowTheirAccessCodes_4 : ∃ (s : State) (addr : BitVec 24) (value : Word), s.hostCan (alignWord addr.toNat) = true ∧
    s.addrClass (alignWord addr.toNat) = .beyond :=
  ⟨base, 0x2F00, 1, by decide +kernel⟩
theorem witness_RegisterWritesFollowTheirAccessCodes_5 : ∃ (s : State) (addr : BitVec 24) (value : Word) (lo n : Nat), s.hostCan (alignWord
    addr.toNat) = true ∧ s.addrClass (alignWord addr.toNat) = .word ∧ inTagStore (alignWord addr.toNat) = false ∧ groupOf (alignWord addr.toNat) =
    some (lo, n, true) ∧ alignWord addr.toNat ≠ lo + 4 * (n - 1) ∧ swf (fun _ => (none : Option Word)) s.staging = true :=
  ⟨base, 0x600044, 5, 0x600040, 16, by decide +kernel⟩
theorem witness_RegisterWritesFollowTheirAccessCodes_6 : ∃ (s : State) (value : Word), s.hostCan Reg.pingThr = true ∧ fieldN value 10 10 < fieldN
    value 0 10 ∧ fieldN value 0 10 < fieldN value 20 10 :=
  ⟨base, 0x1E001414, by decide +kernel⟩
theorem witness_RegisterWritesFollowTheirAccessCodes_7 : ∃ (s : State) (seq : Word), s.hostCan Reg.mgmtLogSel = true :=
  ⟨base, 9, by decide +kernel⟩
theorem witness_ReadsThatClear_1 : ∃ (s : State), s.hostCan Reg.hpIgnored = true :=
  ⟨base.setReg Reg.hpIgnored 7, by decide +kernel⟩
theorem witness_ReadsThatClear_2 : ∃ (s : State), s.hostCan Reg.portLastFault = true :=
  ⟨base.setReg Reg.portLastFault 0x03000505, by decide +kernel⟩
theorem witness_ReadsThatClear_3 : ∃ (s : State), s.hostCan Reg.fifoStat = true ∧ s.fifo.bytes < 2 ^ 18 :=
  ⟨fifoTwo.setReg Reg.fifoStat 0x00100000, by decide +kernel⟩
theorem witness_ReadsThatClear_4 : ∃ (s : State), s.hostCan Reg.tagFieldLast = true ∧ s.tag.loaded = true :=
  ⟨{ base with tag := { TagFn.init with loaded := true, fieldCount := 3, fieldCrumb := 5 } }, by decide +kernel⟩
theorem witness_ReadsThatClear_5 : ∃ (s : State) (addr : BitVec 24) (n : Nat) (host : Bool), s.hostCan (alignWord addr.toNat) = true ∧ s.addrClass
    (alignWord addr.toNat) = .word ∧ groupOf (alignWord addr.toNat) = some (alignWord addr.toNat, n, host) ∧ inTagStore (alignWord addr.toNat) =
    false ∧ swf (fun _ => (0 : Word)) s.latches = true :=
  ⟨base.setReg Reg.sysCmdLast 5, 0x60, 3, false, by decide +kernel⟩
theorem witness_ProfilesCommitWhole_1 : ∃ (s : State) (k : Fin 8) (a b : Word), s.hostCan (Reg.legLinkA k) = true ∧ s.legLinkOk (s.merged
    (Reg.legLinkA k) a) (s.merged (Reg.legLinkB k) b) = true :=
  ⟨base, 1, wordOf (2 ^ 31 + 1 * 2 ^ 28 + 2 * 2 ^ 26 + 1 * 2 ^ 24 + 2 ^ 22 + 2 * 2 ^ 20 + 320), wordOf (2 * 2 ^ 24 + 4 * 2 ^ 20 + 8 * 2 ^ 16 + 2 * 2
    ^ 8), by decide +kernel⟩
theorem witness_ProfilesCommitWhole_2 : ∃ (s : State) (k : Fin 8) (a b : Word), s.hostCan (Reg.legLinkA k) = true ∧ s.legLinkOk (s.merged
    (Reg.legLinkA k) a) (s.merged (Reg.legLinkB k) b) = false :=
  ⟨base, 1, 0x80000000, 0, by decide +kernel⟩
theorem witness_ProfilesCommitWhole_3 : ∃ (s : State) (k : Fin 8) (value : Word), s.hostCan (Reg.umaLink k) = true ∧ s.umaLinkOk (s.merged
    (Reg.umaLink k) value) = true :=
  ⟨base, 0, wordOf (2 ^ 31 + 1 * 2 ^ 28 + 2 * 2 ^ 26 + 1 * 2 ^ 24 + 50 * 2 ^ 16), by decide +kernel⟩
theorem witness_ProfilesCommitWhole_4 : ∃ (s : State) (k : Fin 8) (value : Word), s.hostCan (Reg.umaLink k) = true ∧ s.umaLinkOk (s.merged
    (Reg.umaLink k) value) = false :=
  ⟨base, 0, 0, by decide +kernel⟩
theorem witness_ProfilesCommitWhole_5 : ∃ (s : State) (k : Fin 8) (cfg poly init xor : Word), s.hostCan (0x3C000 + 16 * k.val) = true ∧ 5 ≤ k.val ∧
    crcPresetOk (s.merged (0x3C000 + 16 * k.val) cfg) (s.merged (0x3C004 + 16 * k.val) poly) (s.merged (0x3C008 + 16 * k.val) init) (s.merged
    (0x3C00C + 16 * k.val) xor) = true :=
  ⟨base, 5, 0x80000010, 0x1021, 0xFFFF, 0, by decide +kernel⟩
theorem witness_ProfilesCommitWhole_6 : ∃ (s : State) (k : Fin 8) (cfg poly init xor : Word), s.hostCan (0x3C000 + 16 * k.val) = true ∧ 5 ≤ k.val ∧
    crcPresetOk (s.merged (0x3C000 + 16 * k.val) cfg) (s.merged (0x3C004 + 16 * k.val) poly) (s.merged (0x3C008 + 16 * k.val) init) (s.merged
    (0x3C00C + 16 * k.val) xor) = false :=
  ⟨base, 5, 0x80000010, 0x11021, 0xFFFF, 0, by decide +kernel⟩
theorem witness_ProfilesCommitWhole_7 : ∃ (s : State) (k : Fin 8) (cfg poly init xor : Word), s.hostCan (0x3C000 + 16 * k.val) = true ∧ k.val < 5 :=
  ⟨base, 4, 0x80000010, 0x11021, 0xFFFF, 0, by decide +kernel⟩
theorem witness_ProfilesCommitWhole_8 : ∃ (s : State) (u0 u1 u2 : Word), s.hostCan (Reg.updUtc 0) = true :=
  ⟨base, 1, 2, 3, by decide +kernel⟩
theorem witness_ProfilesCommitWhole_9 : ∃ (s : State) (value : BitVec 64), s.frameReady = true :=
  ⟨base, 99, by decide +kernel⟩
theorem witness_HostCrcComputation_1 : ∃ (s : State) (preset : Fin 8), s.hostCan Reg.crcHctrl = true ∧ s.bit (0x3C000 + 16 * preset.val) 31 = true :=
  ⟨regsOf base [(0x3C010, 0x80000010), (0x3C014, 0x1021), (0x3C018, 0xFFFF), (0x3C01C, 0xFFFF)], 1, by decide +kernel⟩
theorem witness_HostCrcComputation_2 : ∃ (s : State) (preset : Fin 8), s.hostCan Reg.crcHctrl = true ∧ s.bit (0x3C000 + 16 * preset.val) 31 = false :=
  ⟨base, 7, by decide +kernel⟩
theorem witness_HostCrcComputation_3 : ∃ (s : State) (k : Fin 256) (value : Word) (p : List Word) (r : Nat), s.hostCan (Reg.crcHwin k) = true ∧
    s.crcHost = some (p, r) :=
  ⟨{ base with crcHost := some ([0x80000010, 0x1021, 0xFFFF, 0], 0xFFFF) }, 9, 0x12345678, [0x80000010, 0x1021, 0xFFFF, 0], 0xFFFF, by decide +kernel⟩
theorem witness_HostCrcComputation_4 : ∃ (s : State) (value : Word) (p : List Word) (r : Nat), s.hostCan Reg.crcHbits = true ∧ s.crcHost = some (p,
    r) ∧ 1 ≤ fieldN value 24 5 ∧ fieldN value 24 5 ≤ 24 :=
  ⟨{ base with crcHost := some ([0x80000010, 0x1021, 0xFFFF, 0], 0xFFFF) }, 0x05000015, [0x80000010, 0x1021, 0xFFFF, 0], 0xFFFF, by decide +kernel⟩
theorem witness_HostCrcComputation_5 : ∃ (s : State) (value : Word), s.hostCan Reg.crcHbits = true ∧ (s.crcHost = none ∨ fieldN value 24 5 = 0 ∨ 24 <
    fieldN value 24 5) :=
  ⟨base, 0x19000000, by decide +kernel⟩
theorem witness_HostCrcNeedsAValidStart_1 : ∃ (s : State) (preset : Fin 8), s.hostCan Reg.crcHctrl = true ∧ s.bit (0x3C000 + 16 * preset.val) 31 =
    false :=
  ⟨{ base with crcHost := some ([0x80000010, 0x1021, 0xFFFF, 0], 0xFFFF) }, 7, by decide +kernel⟩
theorem witness_HostCrcNeedsAValidStart_3 : ∃ (s : State) (k : Fin 256) (value : Word), s.hostCan (Reg.crcHwin k) = true ∧ s.crcHost = none :=
  ⟨base, 255, 0x12345678, by decide +kernel⟩
theorem witness_HostCrcNeedsAValidStart_4 : ∃ (s : State) (value : Word), s.hostCan Reg.crcHbits = true ∧ s.crcHost = none :=
  ⟨base, 0x05000015, by decide +kernel⟩
theorem witness_HostCrcNeedsAValidStart_5 : ∃ (s : State) (preset : Fin 8) (k : Fin 256) (value : Word), s.hostCan Reg.crcHctrl = true ∧ s.bit
    (0x3C000 + 16 * preset.val) 31 = true :=
  ⟨regsOf base [(0x3C010, 0x80000010), (0x3C014, 0x1021), (0x3C018, 0xFFFF), (0x3C01C, 0xFFFF)], 1, 0, 7, by decide +kernel⟩
theorem witness_HostCrcNeedsAValidStart_6 : ∃ (s : State) (c : Cause), s.resets = [c] ∧ s.regsWf = true :=
  ⟨{ base with resets := [.therm], crcHost := some ([0x80000010, 0x1021, 0xFFFF, 0], 0xFFFF) }, .therm, by decide +kernel⟩
theorem witness_WritesThatSelect_1 : ∃ (s : State) (src : Bool), s.hostCan Reg.clkRefctrl = true ∧ (s.bit Reg.clkRefstat 2 && !src) ≠ s.bit
    Reg.clkRefstat 0 :=
  ⟨base.setReg Reg.clkRefstat 5, true, by decide +kernel⟩
theorem witness_WritesThatSelect_2 : ∃ (s : State) (src : Bool), s.hostCan Reg.clkRefctrl = true ∧ (s.bit Reg.clkRefstat 2 && !src) = s.bit
    Reg.clkRefstat 0 :=
  ⟨base.setReg Reg.clkRefstat 5, false, by decide +kernel⟩
theorem witness_WritesThatSelect_3 : ∃ (s : State) (h : Bool), s.hostCan Reg.mgmtCfg = true ∧ s.mgmt.running = some h ∧ s.bit Reg.mgmtCfg 0 = false ∧
    s.wordOk Reg.mgmtCfg (s.reg Reg.mgmtCfg) = true ∧ s.halfState (!h) = 0 :=
  ⟨{ base.setReg Reg.mgmtCfg 0x190 with mgmt := { Mgmt.init with running := some false } }, false, by decide +kernel⟩
theorem witness_WritesThatSelect_4 : ∃ (s : State) (h : Bool), s.hostCan Reg.mgmtCfg = true ∧ s.mgmt.running = some h ∧ s.bit Reg.mgmtCfg 0 = true ∧
    s.wordOk Reg.mgmtCfg (s.reg Reg.mgmtCfg) = true ∧ s.halfState (!h) ≠ 5 ∧ s.updState ≠ 3 ∧ s.mgmt.handover = none :=
  ⟨{ regsOf base [(Reg.mgmtCfg, 0x191), (Reg.mgmtStat, 0x304)] with mgmt := { Mgmt.init with running := some false } }, false, by decide +kernel⟩
theorem witness_WritesThatSelect_5 : ∃ (s : State) (h : Bool) (x : Bool), s.hostCan Reg.mgmtCfg = true ∧ s.mgmt.running = some h ∧ s.bit Reg.mgmtCfg
    0 = true ∧ s.wordOk Reg.mgmtCfg (s.reg Reg.mgmtCfg) = true ∧ s.halfState (!h) ≠ 5 ∧ s.updState ≠ 3 ∧ s.mgmt.handover = some x ∧ (∀ c ∈ s.cmds,
    c.res ≠ some Reg.mgmtCfg ∧ c.res ≠ some Reg.mgmtStat) :=
  ⟨{ regsOf base [(Reg.mgmtCfg, 0x191), (Reg.mgmtStat, 0x304), (Reg.mgmtCmdRes, 4)] with mgmt := { Mgmt.init with running := some false, handover := some true }, cmds := [⟨4, some Reg.mgmtCmdRes, .mgmtOut 0, none⟩] },
    false, true, by decide +kernel⟩
theorem witness_WritesThatSelect_6 : ∃ (s : State) (crumb : Fin 128) (words : List Word), s.hostCan (0x480000 + 64 * crumb.val) = true ∧ s.tag.loaded
    = true ∧ words.length = 16 ∧ 3 ≤ crumb.val ∧ s.crumbOos crumb = false ∧ s.tag.job = none ∧ s.tag.queue = [] ∧ s.hp.posted = [] ∧ s.staging = [] :=
  ⟨{ base with tag := { TagFn.init with loaded := true } }, 5, List.replicate 16 0x04030201, by decide +kernel⟩
theorem witness_SoftResetAndProof_1 : ∃ (s : State), s.hostCan Reg.sysCtrl = true ∧ s.txcsOn = [] ∧ s.resets = [] :=
  ⟨base, by decide +kernel⟩
theorem witness_SoftResetAndProof_2 : ∃ (s : State) (slot : BitVec 3), s.hostCan Reg.sysProofCmd = true ∧ s.ready rdMgmt = true ∧ s.halfRuns = true ∧
    s.ready rdDraft = false ∧ s.upd.proof = none ∧ slot.toNat ≤ 4 :=
  ⟨{ regsOf base [(Reg.sysReady, 0x1F)] with mgmt := { Mgmt.init with running := some true } }, 4, by decide +kernel⟩
theorem witness_SoftResetAndProof_3 : ∃ (s : State) (slot : BitVec 3), s.hostCan Reg.sysProofCmd = true ∧ (s.ready rdMgmt = false ∨ s.halfRuns =
    false ∨ s.ready rdDraft = true ∨ s.upd.proof ≠ none ∨ 4 < slot.toNat) :=
  ⟨base, 5, by decide +kernel⟩
theorem witness_IlluminatorAndPortOrders_1 : ∃ (s : State) (n : Fin 4), s.canIssue (Reg.txcCmd n) = true ∧ s.ready rdDraft = true ∧ s.txcUsed n =
    true ∧ s.txReason n = 0 ∧ s.ready (rdTxc n) = true ∧ s.ramp n ≠ 5 ∧ s.cmds = [] ∧ s.cands = [] ∧ s.roundOfTxc n = none :=
  ⟨base, 2, by decide +kernel⟩
theorem witness_IlluminatorAndPortOrders_2 : ∃ (s : State) (n : Fin 4), s.canIssue (Reg.txcCmd n) = true ∧ s.ready rdDraft = true ∧ s.txcUsed n =
    true ∧ s.txReason n = 0 ∧ s.ready (rdTxc n) = true ∧ s.ramp n ≠ 5 ∧ s.cmds = [] ∧ s.cands = [] ∧ s.roundOfTxc n ≠ none :=
  ⟨{ base with rounds := [roundA] }, 0, by decide +kernel⟩
theorem witness_IlluminatorAndPortOrders_3 : ∃ (s : State) (n : Fin 4), s.canIssue (Reg.txcCmd n) = true ∧ s.ready rdDraft = true ∧ s.txcUsed n =
    true ∧ s.txReason n ≠ 0 ∧ s.txcHot n = false ∧ s.hot = [] ∧ s.tap ≠ .extest ∧ s.cmds = [] ∧ (s.tx n).calibrating = false ∧ s.roundOfTxc n = none
    ∧ s.noAnt = true ∧ s.mgmt.takeover = none :=
  ⟨base.setReg (Reg.txcStat 3) 0x01000000, 3, by decide +kernel⟩
theorem witness_IlluminatorAndPortOrders_4 : ∃ (s : State) (p : Fin 64), s.canIssue Reg.portCmd = true ∧ s.portNamed p = true ∧ s.portOos p = false ∧
    s.cmds = [] ∧ s.rounds.all (fun r => !s.roundUsesPort r p) = true ∧ s.noAnt = true :=
  ⟨withDraft, 2, by decide +kernel⟩
theorem witness_IlluminatorAndPortOrders_5 : ∃ (s : State) (p : Fin 64), s.canIssue Reg.portCmd = true ∧ s.portNamed p = true ∧ s.portOos p = false ∧
    s.cmds = [] ∧ s.rounds.any (fun r => s.roundUsesPort r p) = true ∧ s.noAnt = true :=
  ⟨{ withDraft with rounds := [roundA] }, 0, by decide +kernel⟩
theorem witness_IlluminatorAndPortOrders_6 : ∃ (s : State) (p : Fin 64) (g : Geometry), s.canIssue Reg.portCmd = true ∧ s.portNamed p = true ∧
    s.portClass p = 1 ∧ s.portOos p = true ∧ s.cmds = [] ∧ g ∈ s.geos ∧ s.geo? g.warp g.idx = some g ∧ g.warp < 4 ∧ geoUses g none (some p.val) none
    = true ∧ s.ready (rdTxc g.txc) = true ∧ (s.portOos g.port = false ∨ g.port = p) ∧ g.pairs.any (fun e => (e.2 == p.val || !s.portOos e.2) &&
    s.chainIn e.1) = true ∧ s.region.any (fun r => !r.groups.isEmpty) = true ∧ s.mgmt.takeover = none :=
  ⟨({ withDraft with chains := List.replicate 16 { Chain.init with svc := .inService } }).setReg (Reg.portState 0) 0x91, 1, geoA, by decide +kernel⟩
theorem witness_IlluminatorAndPortOrders_7 : ∃ (s : State) (p : Fin 64), s.canIssue Reg.portCmd = true ∧ s.portNamed p = true ∧ s.portClass p = 1 ∧
    s.portOos p = true ∧ s.cmds = [] ∧ s.geos.all (fun g => !geoUses g none (some p.val) none) = true ∧ s.mgmt.takeover = none :=
  ⟨withDraft.setReg (Reg.portState 0) 0x999, 2, by decide +kernel⟩
theorem witness_ChainAndDecoderOrders_1 : ∃ (s : State) (n : Fin 16), s.canIssue (Reg.rxcCmd n) = true ∧ s.ready rdDraft = true ∧ s.chainSpare n =
    true ∧ s.fld (Reg.rxcStat n) 24 8 = 0 ∧ s.ready (rdRxc n) = true ∧ (s.chain n).svc = .standby ∧ s.cmds = [] ∧ s.rounds.all (fun r =>
    !s.roundUsesChain r n) = true :=
  ⟨{ withDraft with upd := { Upd.init with live := some { draftA with struct_ := { draftA.struct_ with spares := [3] } } }, chains := State.reset.chains.set 3 { Chain.init with svc := .standby } },
    3, by decide +kernel⟩
theorem witness_ChainAndDecoderOrders_2 : ∃ (s : State) (n : Fin 16), s.canIssue (Reg.rxcCmd n) = true ∧ s.ready rdDraft = true ∧ s.chainNamed n =
    true ∧ s.fld (Reg.rxcStat n) 24 8 ≠ 0 ∧ (s.chain n).svc = .out ∧ s.cmds = [] ∧ s.rounds.all (fun r => !s.roundUsesChain r n) = true ∧
    s.mgmt.takeover = none :=
  ⟨({ withDraft with chains := State.reset.chains.set 0 { Chain.init with svc := .out } }).setReg (Reg.rxcStat 0) 0x01000000, 0, by decide +kernel⟩
theorem witness_ChainAndDecoderOrders_3 : ∃ (s : State) (d : BitVec 4), s.canIssue Reg.mgmtDecCmd = true ∧ d.toNat < 13 ∧ s.decGate d.toNat = none ∧
    s.decOos d.toNat = false ∧ s.cmds = [] ∧ s.rounds.all (fun r => !r.decs.contains d.toNat) = true :=
  ⟨withDraft, 8, by decide +kernel⟩
theorem witness_ChainAndDecoderOrders_4 : ∃ (s : State) (d : BitVec 4), s.canIssue Reg.mgmtDecCmd = true ∧ s.decGate d.toNat = none ∧ s.decOos
    d.toNat = true ∧ s.cmds = [] :=
  ⟨withDraft.setReg Reg.mgmtDecOos 0x100, 8, by decide +kernel⟩
theorem witness_ScheduleTableAndFifoCommands_1 : ∃ (s : State) (entry : BitVec 8), s.canIssue Reg.schedCmd = true :=
  ⟨base, 200, by decide +kernel⟩
theorem witness_ScheduleTableAndFifoCommands_2 : ∃ (s : State), s.hostCan Reg.schedCtrl = true ∧ s.bit Reg.schedCtrl 0 = true ∧ s.cmds = [] ∧
    s.wordOk Reg.schedCtrl (setBitN (s.reg Reg.schedCtrl) 0 false) = true :=
  ⟨{ base.setReg Reg.schedCtrl 0x14F1 with rounds := [roundA, { roundA with seq := 5, warp := 1, warps := [1] }] }, by decide +kernel⟩
theorem witness_ScheduleTableAndFifoCommands_3 : ∃ (s : State) (w : Fin 4), s.hostCan Reg.schedCtrl = true ∧ s.bit Reg.schedCtrl (4 + w.val) = true ∧
    s.cmds = [] ∧ s.wordOk Reg.schedCtrl (setBitN (s.reg Reg.schedCtrl) (4 + w.val) false) = true :=
  ⟨{ base.setReg Reg.schedCtrl 0x14F1 with rounds := [roundA] }, 0, by decide +kernel⟩
theorem witness_ScheduleTableAndFifoCommands_4 : ∃ (s : State), s.canIssue Reg.seenCmd = true :=
  ⟨base, by decide +kernel⟩
theorem witness_ScheduleTableAndFifoCommands_5 : ∃ (s : State), s.canIssue Reg.seenCmd = true ∧ s.rounds = [] :=
  ⟨base, by decide +kernel⟩
theorem witness_ScheduleTableAndFifoCommands_6 : ∃ (s : State), s.canIssue Reg.seenCmd = true ∧ s.rounds ≠ [] :=
  ⟨{ base with rounds := [roundA] }, by decide +kernel⟩
theorem witness_ScheduleTableAndFifoCommands_7 : ∃ (s : State), s.hostCan Reg.fifoCmd = true :=
  ⟨fifoTwo, by decide +kernel⟩
theorem witness_TagCommands_1 : ∃ (s : State), s.canIssue Reg.tagCmd = true ∧ s.ready rdTagf = true ∧ s.expected rdTagf = true ∧ s.mgmt.takeover =
    none :=
  ⟨{ base with tag := { TagFn.init with cum := 64, consec := 5, locked := true } }, by decide +kernel⟩
theorem witness_TagCommands_2 : ∃ (s : State), s.canIssue Reg.tagCmd = true ∧ s.ready rdTagf = true ∧ s.expected rdTagf = true ∧ s.mgmt.takeover =
    none :=
  ⟨{ base with tag := { TagFn.init with locks := 0x1E } }, by decide +kernel⟩
theorem witness_TagCommands_3 : ∃ (s : State) (crumb : Fin 128) (n : Nat), s.canIssue Reg.tagCmd = true ∧ s.ready rdTagf = true ∧ s.expected rdTagf =
    true ∧ crumb.val ≠ 2 ∧ s.freeSpare = some n ∧ s.cmds = [] ∧ s.tag.job = none ∧ s.tag.queue = [] ∧ s.mgmt.takeover = none :=
  ⟨base, 1, 0, by decide +kernel⟩
theorem witness_TagCommands_4 : ∃ (s : State) (crumb : Fin 128), s.canIssue Reg.tagCmd = true ∧ s.ready rdTagf = true ∧ s.expected rdTagf = true ∧
    crumb.val ≠ 2 ∧ s.crumbOos crumb = false ∧ s.cmds = [] ∧ s.tag.job = none ∧ s.tag.queue = [] ∧ s.mgmt.takeover = none :=
  ⟨base, 127, by decide +kernel⟩
theorem witness_TagCommands_5 : ∃ (s : State) (crumb : Fin 128), s.canIssue Reg.tagCmd = true ∧ s.ready rdTagf = true ∧ s.expected rdTagf = true ∧
    crumb.val ≠ 2 ∧ s.crumbOos crumb = true ∧ s.crumbWorn crumb = false ∧ s.cmds = [] ∧ s.tag.job = none ∧ s.tag.queue = [] ∧ s.mgmt.takeover = none
    :=
  ⟨{ base with tag := { TagFn.init with oos := [(9, false)] } }, 9, by decide +kernel⟩
theorem witness_TagCommands_6 : ∃ (s : State) (crumb : Fin 128), s.canIssue Reg.tagCmd = true ∧ s.ready rdTagf = true ∧ s.expected rdTagf = true ∧
    crumb.val ≠ 2 ∧ s.crumbWorn crumb = true ∧ s.freeSpare ≠ none ∧ s.cmds = [] ∧ s.tag.job = none ∧ s.tag.queue = [] ∧ s.mgmt.takeover = none :=
  ⟨{ base with tag := { TagFn.init with oos := [(9, true)] } }, 9, by decide +kernel⟩
theorem witness_TagCommands_7 : ∃ (s : State) (crumb : Fin 128), s.canIssue Reg.tagCmd = true ∧ s.ready rdTagf = true ∧ s.expected rdTagf = true ∧
    crumb.val = 2 ∧ s.mgmt.takeover = none :=
  ⟨base, 2, by decide +kernel⟩
theorem witness_TagCommands_8 : ∃ (s : State) (crumb : Fin 128), s.canIssue Reg.tagCmd = true ∧ s.ready rdTagf = true ∧ s.expected rdTagf = true ∧
    crumb.val = 2 ∧ s.mgmt.takeover = none :=
  ⟨base, 2, by decide +kernel⟩
theorem witness_TagCommands_9 : ∃ (s : State) (crumb : Fin 128), s.canIssue Reg.tagCmd = true ∧ s.ready rdTagf = true ∧ s.expected rdTagf = true ∧
    crumb.val = 2 ∧ s.mgmt.takeover = none :=
  ⟨base, 2, by decide +kernel⟩
theorem witness_ServiceCommands_1 : ∃ (s : State), s.canIssue Reg.pingCmd = true ∧ s.expected rdPing = true ∧ s.ready rdPing = true ∧ s.ready rdDraft
    = true ∧ s.ping.cal = none ∧ s.mgmt.takeover = none :=
  ⟨withDraft, by decide +kernel⟩
theorem witness_ServiceCommands_2 : ∃ (s : State) (block : BitVec 3) (arg : Word), s.canIssue Reg.talReq = true ∧ s.board.tally = true ∧ s.expected
    rdTal = true ∧ s.ready rdTal = true ∧ s.cmds = [] ∧ block.toNat ≤ 5 ∧ talArgOk block.toNat arg = true ∧ s.mgmt.takeover = none :=
  ⟨base, 2, 4032, by decide +kernel⟩
theorem witness_ServiceCommands_3 : ∃ (s : State) (dst : BitVec 16) (len : BitVec 10), s.canIssue Reg.peerTxCmd = true ∧ s.ready rdDraft = true ∧
    s.expected rdPe = true ∧ s.ready rdPe = true ∧ 1 ≤ len.toNat ∧ len.toNat ≤ 1000 ∧ s.peer.job = none ∧ s.dataUs dst.toNat len.toNat ≤ 10000 :=
  ⟨withDraft, 5, 6, by decide +kernel⟩
theorem witness_ServiceCommands_4 : ∃ (s : State), s.canIssue Reg.mempCmd = true ∧ s.expected rdMemp = true ∧ s.ready rdMemp = true ∧ s.dev1 = 2 ∧
    s.memOos true = false ∧ s.cmds = [] ∧ s.memIdle true = true ∧ s.mgmt.takeover = none :=
  ⟨base.setReg Reg.mempStat 0x200000, by decide +kernel⟩
theorem witness_ServiceCommands_5 : ∃ (s : State) (dev : Bool), s.canIssue Reg.mempCmd = true ∧ s.expected rdMemp = true ∧ s.ready rdMemp = true ∧
    (dev = false ∨ s.dev1 ≠ 0) ∧ (dev = true ∨ s.mirrorIn = true) ∧ s.memOos dev = false ∧ s.cmds = [] ∧ s.memIdle dev = false ∧ s.mgmt.takeover =
    none :=
  ⟨{ base.setReg Reg.mempStat 0x200000 with memp := { Memp.init with prog := some flashP } }, false, by decide +kernel⟩
theorem witness_ServiceCommands_6 : ∃ (s : State), s.canIssue Reg.mempCmd = true ∧ s.expected rdMemp = true ∧ s.ready rdMemp = true ∧ s.mirrorIn =
    true ∧ s.memOos false = false ∧ s.cmds = [] ∧ s.memIdle false = true ∧ s.mgmt.takeover = none :=
  ⟨base.setReg Reg.mempStat 0x200000, by decide +kernel⟩
theorem witness_ServiceCommands_7 : ∃ (s : State), s.canIssue Reg.mempCmd = true ∧ s.expected rdMemp = true ∧ s.ready rdMemp = true ∧ s.mirrorIn =
    false ∧ s.mgmt.takeover = none :=
  ⟨base, by decide +kernel⟩
theorem witness_ServiceCommands_8 : ∃ (s : State) (dev : Bool), s.canIssue Reg.mempCmd = true ∧ s.expected rdMemp = true ∧ s.ready rdMemp = true ∧
    (dev = false ∨ s.dev1 = 2) ∧ s.memOos dev = true ∧ s.cmds = [] ∧ s.passesDiscovery dev = true ∧ s.mgmt.takeover = none :=
  ⟨base.setReg Reg.mempStat 0x600000, false, by decide +kernel⟩
theorem witness_ServiceCommands_9 : ∃ (s : State) (half : Bool), s.canIssue Reg.mgmtCmd = true ∧ s.expected rdMgmt = true ∧ s.ready rdMgmt = true ∧
    s.mgmt.running = some half ∧ s.mgmt.handover = none ∧ s.halfState (!half) = 3 ∧ s.mgmt.takeover = none :=
  ⟨{ base.setReg Reg.mgmtStat 0x304 with mgmt := { Mgmt.init with running := some false } }, false, by decide +kernel⟩
theorem witness_ServiceCommands_10 : ∃ (s : State) (half : Bool), s.canIssue Reg.mgmtCmd = true ∧ s.expected rdMgmt = true ∧ s.ready rdMgmt = true ∧
    s.mgmt.running ≠ some half ∧ s.halfState half = 5 ∧ s.mgmt.takeover = none :=
  ⟨{ base.setReg Reg.mgmtStat 0x1504 with mgmt := { Mgmt.init with running := some false } }, true, by decide +kernel⟩
theorem witness_ServiceCommands_11 : ∃ (s : State), s.canIssue Reg.mgmtCmd = true ∧ s.expected rdMgmt = true ∧ s.ready rdMgmt = true ∧ s.halfRuns =
    true ∧ s.mgmt.dumps = [] ∧ s.live .dump = false ∧ s.fifo.diag.length < 4 ∧ 1 ≤ (s.dumpEntries (s.reg Reg.mgmtLogSel).toNat).length ∧
    (s.dumpEntries (s.reg Reg.mgmtLogSel).toNat).length ≤ 63 ∧ s.mgmt.takeover = none :=
  ⟨{ base with mgmt := { Mgmt.init with running := some false, unsaved := 1, log := [⟨1, 0, 1, 13, 5, 0, 0⟩] } }, by decide +kernel⟩
theorem witness_ServiceCommands_12 : ∃ (s : State) (c : Instr) (k : CmdKind) (cmd res : Nat), halfServed c = some (k, cmd, res) ∧ s.canIssue cmd =
    true ∧ s.mgmt.takeover.isSome = true :=
  ⟨{ base with mgmt := { Mgmt.init with takeover := some true } }, .unlock, .unlock, Reg.tagCmd, Reg.tagCmdRes, by decide +kernel⟩
theorem witness_UpdateCommands_1 : ∃ (s : State) (chunk : BitVec 14), s.canIssue Reg.updCmd = true ∧ s.expected rdMgmt = true ∧ s.ready rdMgmt = true
    ∧ s.updState ≤ 2 ∧ s.upd.busy = false ∧ chunk.toNat ≤ 12287 ∧ s.mgmt.takeover = none :=
  ⟨base.setReg (Reg.updBuf 3) 5, 12287, by decide +kernel⟩
theorem witness_UpdateCommands_2 : ∃ (s : State), s.canIssue Reg.updCmd = true ∧ s.expected rdMgmt = true ∧ s.ready rdMgmt = true ∧ (s.updState = 1 ∨
    s.updState = 2) ∧ s.upd.busy = false ∧ s.mgmt.takeover = none :=
  ⟨base.setReg Reg.updStat 0x10000000, by decide +kernel⟩
theorem witness_UpdateCommands_3 : ∃ (s : State), s.canIssue Reg.updCmd = true ∧ s.expected rdMgmt = true ∧ s.ready rdMgmt = true ∧ s.updState = 3 ∧
    s.updMoving = false ∧ s.upd.busy = false ∧ s.utcValid = true ∧ (s.now : Int) + 1000000 ≤ s.bakeAt (s.reg Reg.updBake) ∧ s.otherHalfOut = false ∧
    s.mgmt.takeover = none :=
  ⟨{ regsOf base [(Reg.updStat, 0x30100000), (Reg.updBake, 1000)] with mgmt := { Mgmt.init with running := some false } }, by decide +kernel⟩
theorem witness_UpdateCommands_4 : ∃ (s : State) (h : Bool), s.canIssue Reg.updCmd = true ∧ s.expected rdMgmt = true ∧ s.ready rdMgmt = true ∧
    s.updState = 2 ∧ s.updMoving = false ∧ s.upd.busy = false ∧ s.utcValid = true ∧ (s.now : Int) + 1000000 ≤ s.bakeAt (s.reg Reg.updBake) ∧
    s.otherHalfOut = false ∧ s.mgmt.running = some h ∧ s.mgmt.takeover = none :=
  ⟨{ regsOf base [(Reg.updStat, 0x20100000), (Reg.updBake, 1000)] with mgmt := { Mgmt.init with running := some false } }, false, by decide +kernel⟩
theorem witness_UpdateCommands_5 : ∃ (s : State), s.canIssue Reg.updCmd = true ∧ s.expected rdMgmt = true ∧ s.ready rdMgmt = true ∧ s.updState = 3 ∧
    s.updMoving = false ∧ s.upd.busy = false ∧ s.otherHalfOut = false ∧ s.bit Reg.updStat 21 = true ∧ s.hotHalf = none ∧ s.mgmt.takeover = none :=
  ⟨{ regsOf base [(Reg.updStat, 0x30200000)] with mgmt := { Mgmt.init with running := some false } }, by decide +kernel⟩
theorem witness_UpdateCommands_6 : ∃ (s : State), s.canIssue Reg.updCmd = true ∧ s.expected rdMgmt = true ∧ s.ready rdMgmt = true ∧ s.updState = 3 ∧
    s.updMoving = false ∧ s.upd.busy = false ∧ s.otherHalfOut = false ∧ s.bit Reg.updStat 21 = false ∧ s.mgmt.takeover = none :=
  ⟨{ regsOf base [(Reg.updStat, 0x30800000)] with mgmt := { Mgmt.init with running := some false } }, by decide +kernel⟩
theorem witness_UpdateCommands_7 : ∃ (s : State) (i : CerrexImage), s.canIssue Reg.updCmd = true ∧ s.expected rdMgmt = true ∧ s.ready rdMgmt = true ∧
    s.updState = 5 ∧ s.updMoving = false ∧ s.upd.busy = false ∧ s.upd.image = some i ∧ crxDrafts i ≠ [] ∧ s.mgmt.takeover = none :=
  ⟨{ base.setReg Reg.updStat 0x50000000 with upd := { Upd.init with image := some imageD } }, imageD, by decide +kernel⟩
theorem witness_UpdateCommands_8 : ∃ (s : State) (i : CerrexImage), s.canIssue Reg.updCmd = true ∧ s.expected rdMgmt = true ∧ s.ready rdMgmt = true ∧
    s.updState = 5 ∧ s.updMoving = false ∧ s.upd.busy = false ∧ s.upd.image = some i ∧ crxDrafts i = [] ∧ s.mgmt.takeover = none :=
  ⟨{ base.setReg Reg.updStat 0x50010000 with upd := { Upd.init with image := some imageA, newSettings := true } }, imageA, by decide +kernel⟩
theorem witness_UpdateCommands_9 : ∃ (s : State), s.canIssue Reg.updCmd = true ∧ s.expected rdMgmt = true ∧ s.ready rdMgmt = true ∧ s.updState = 5 ∧
    s.updMoving = false ∧ s.upd.busy = false ∧ s.mgmt.takeover = none :=
  ⟨base.setReg Reg.updStat 0x50000000, by decide +kernel⟩
theorem witness_UpdateCommands_10 : ∃ (s : State), s.canIssue Reg.updCmd = true ∧ s.expected rdMgmt = true ∧ s.ready rdMgmt = true ∧ (s.updState = 1
    ∨ s.updState = 2) ∧ s.updMoving = false ∧ s.upd.busy = false ∧ s.upd.blocks = [] ∧ s.mgmt.takeover = none :=
  ⟨base.setReg Reg.updStat 0x10000000, by decide +kernel⟩
theorem witness_UpdateCommands_11 : ∃ (s : State), s.canIssue Reg.updCmd = true ∧ s.expected rdMgmt = true ∧ s.ready rdMgmt = true ∧ (s.updState = 1
    ∨ s.updState = 2) ∧ s.updMoving = false ∧ s.upd.busy = false ∧ s.upd.blocks ≠ [] ∧ s.mgmt.takeover = none :=
  ⟨{ base.setReg Reg.updStat 0x10000000 with upd := { Upd.init with blocks := [(0, List.replicate 128 0)] } }, by decide +kernel⟩
theorem witness_UpdateCommands_12 : ∃ (s : State), s.canIssue Reg.updCmd = true ∧ s.expected rdMgmt = true ∧ s.ready rdMgmt = true ∧ (s.updState = 0
    ∨ 3 < s.updState) ∧ s.mgmt.takeover = none :=
  ⟨base.setReg Reg.updStat 0x50000000, by decide +kernel⟩
theorem witness_StagingAndVerification_1 : ∃ (s : State) (n chunk : Nat), s.halfRuns = true ∧ s.soleCmd n Reg.updCmdRes (.updLoad chunk) = true ∧
    s.memp.all.any (fun e => e.job == .stage n chunk) = false ∧ s.regsWf = true :=
  ⟨({ runS with cmds := [⟨5, some Reg.updCmdRes, .updLoad 3, some true⟩] }).setReg Reg.updCmdRes 5, 5, 3, by decide +kernel⟩
theorem witness_StagingAndVerification_2 : ∃ (s : State) (n chunk : Nat), s.soleCmd n Reg.updCmdRes (.updLoad chunk) = true ∧ s.memp.all.any (fun e
    => e.job == .stage n chunk) = true ∧ s.regsWf = true :=
  ⟨{ regsOf runS [(Reg.updCmdRes, 5)] with cmds := [⟨5, some Reg.updCmdRes, .updLoad 3, some true⟩], memp := { Memp.init with queue := [{ flashP with job := .stage 5 3 }] } },
    5, 3, by decide +kernel⟩
theorem witness_StagingAndVerification_3 : ∃ (s : State) (n chunk : Nat), s.halfRuns = true ∧ s.soleCmd n Reg.updCmdRes (.updLoad chunk) = true ∧ 1 ≤
    n ∧ s.memStopped = false ∧ s.regsWf = true :=
  ⟨({ runS with cmds := [⟨5, some Reg.updCmdRes, .updLoad 3, some true⟩] }).setReg Reg.updCmdRes 5, 5, 3, by decide +kernel⟩
theorem witness_StagingAndVerification_4 : ∃ (s : State) (i : CerrexImage) (n : Nat), s.halfRuns = true ∧ s.soleCmd n Reg.updCmdRes .updVerify = true
    ∧ s.upd.busy = true ∧ s.upd.copying = none ∧ (s.updState = 1 ∨ s.updState = 2) ∧ i.bytes = s.stagedBytes ∧ imageFits i = true ∧ s.rejectCode i =
    0 ∧ crxFirmware i = false ∧ s.regsWf = true :=
  ⟨stagedS 0x10000000 imageD, { imageD with bytes := (stagedS 0x10000000 imageD).stagedBytes }, 5, by decide +kernel⟩
theorem witness_StagingAndVerification_5 : ∃ (s : State) (i : CerrexImage), s.halfRuns = true ∧ s.upd.busy = true ∧ s.upd.copying = none ∧
    (s.updState = 1 ∨ s.updState = 2) ∧ i.bytes = s.stagedBytes ∧ imageFits i = true ∧ s.rejectCode i = 0 ∧ crxFirmware i = true ∧ s.regsWf = true :=
  ⟨stagedS 0x10000000 imageA, { imageA with bytes := (stagedS 0x10000000 imageA).stagedBytes }, by decide +kernel⟩
theorem witness_StagingAndVerification_6 : ∃ (s : State) (i : CerrexImage) (n : Nat), s.halfRuns = true ∧ s.soleCmd n Reg.updCmdRes .updVerify = true
    ∧ s.upd.busy = true ∧ s.upd.copying = none ∧ (s.updState = 1 ∨ s.updState = 2) ∧ i.bytes = s.stagedBytes ∧ (crxFormOk i.bytes = false ∨ imageFits
    i = true) ∧ s.rejectCode i ≠ 0 ∧ s.regsWf = true :=
  ⟨(stagedS 0x20000000 imageA).setReg Reg.updFloor 9, { imageA with bytes := (stagedS 0x20000000 imageA).stagedBytes }, 5, by decide +kernel⟩
theorem witness_StagingAndVerification_7 : ∃ (s : State) (n : Nat), s.halfRuns = true ∧ s.soleCmd n Reg.updCmdRes .updConfirm = true ∧ s.upd.busy =
    true ∧ s.updState = 5 ∧ s.memp.tasks = [] ∧ s.regsWf = true :=
  ⟨{ regsOf runS [(Reg.updStat, 0x50010000), (Reg.updCmdRes, 5)] with cmds := [⟨5, some Reg.updCmdRes, .updConfirm, some true⟩], upd := { Upd.init with busy := true, image := some imageA } },
    5, by decide +kernel⟩
theorem witness_StagingAndVerification_8 : ∃ (s : State), s.memp.tasks.any (fun x => x.kind == .eraseStaging) = true ∧ s.regsWf = true :=
  ⟨{ regsOf runS [(Reg.updStat, 0x50010000)] with upd := { Upd.init with busy := true }, memp := { Memp.init with tasks := [⟨0, .eraseStaging, 0x1200000, 0x1200200, false, true, false⟩] } },
    by decide +kernel⟩
theorem witness_StagingAndVerification_9 : ∃ (s : State) (n : Nat), s.halfRuns = true ∧ s.soleCmd n Reg.updCmdRes .updConfirm = true ∧ s.upd.busy =
    true ∧ s.updState = 5 ∧ s.updRecord.any (fun r => r.2.state == .idle) = false ∧ s.memp.tasks = [] ∧ s.regsWf = true :=
  ⟨{ regsOf runS [(Reg.updStat, 0x50010000), (Reg.updCmdRes, 5)] with cmds := [⟨5, some Reg.updCmdRes, .updConfirm, some true⟩], upd := { Upd.init with busy := true } },
    5, by decide +kernel⟩
theorem witness_SwitchesOfTheUpdate_1 : ∃ (s : State), s.updState = 3 ∧ s.utcValid = true ∧ s.mgmtOn = true ∧ s.switchAt ≤ s.now ∧ (s.now : Int) ≤
    s.switchAt + 1 ∧ s.updMoving = false ∧ s.rounds = [] ∧ s.regsWf = true :=
  ⟨base.setReg Reg.updStat 0x30D00000, by decide +kernel⟩
theorem witness_SwitchesOfTheUpdate_2 : ∃ (s : State), s.updState = 3 ∧ s.utcValid = true ∧ s.mgmtOn = true ∧ s.switchAt < s.now ∧ s.updMoving =
    false ∧ s.bit Reg.updStat 21 = false ∧ s.regsWf = true :=
  ⟨{ base.setReg Reg.updStat 0x30100000 with timeBase := 5, rounds := [roundA] }, by decide +kernel⟩
theorem witness_SwitchesOfTheUpdate_3 : ∃ (s : State), s.updState = 3 ∧ s.utcValid = true ∧ s.mgmtOn = true ∧ s.switchAt < s.now ∧ s.updMoving =
    false ∧ s.bit Reg.updStat 21 = true ∧ s.hotHalf = none ∧ s.regsWf = true :=
  ⟨{ base.setReg Reg.updStat 0x30300000 with timeBase := 5 }, by decide +kernel⟩
theorem witness_SwitchesOfTheUpdate_4 : ∃ (s : State) (h : Bool), s.updState = 3 ∧ s.utcValid = true ∧ s.mgmtOn = true ∧ s.switchAt < s.now ∧
    s.updMoving = false ∧ s.bit Reg.updStat 21 = true ∧ s.hotHalf = some h ∧ s.regsWf = true :=
  ⟨regsOf { base with timeBase := 5 } [(Reg.updStat, 0x30300000), (Reg.mgmtStat, 0x304)], true, by decide +kernel⟩
theorem witness_SwitchesOfTheUpdate_5 : ∃ (s : State) (h : Bool) (i : CerrexImage) (d : Draft), s.coreOn = true ∧ s.upd.switching = true ∧
    s.upd.reverting = false ∧ s.rounds = [] ∧ s.cmds = [] ∧ s.tag.job = none ∧ s.tag.queue = [] ∧ s.mgmt.running = some h ∧ s.ready rdDraft = true ∧
    s.upd.live = some d ∧ s.upd.image = some i ∧ crxDrafts i = [] ∧ s.regsWf = true :=
  ⟨{ regsOf base [(Reg.updStat, 0x30300000), (Reg.mgmtStat, 0x304)] with mgmt := { Mgmt.init with running := some false }, upd := { Upd.init with switching := true, image := some imageA, live := some draftA } },
    false, imageA, draftA, by decide +kernel⟩
theorem witness_SwitchesOfTheUpdate_6 : ∃ (s : State) (h : Bool), s.coreOn = true ∧ s.upd.switching = true ∧ s.upd.reverting = true ∧ s.rounds = [] ∧
    s.cmds = [] ∧ s.mgmt.running = some h ∧ s.ready rdDraft = false ∧ s.regsWf = true :=
  ⟨{ regsOf base [(Reg.sysReady, 0x1F), (Reg.updStat, 0x50300000), (Reg.mgmtStat, 0x304)] with mgmt := { Mgmt.init with running := some false }, upd := { Upd.init with switching := true, reverting := true } },
    false, by decide +kernel⟩
theorem witness_SwitchesOfTheUpdate_7 : ∃ (s : State), s.updState = 5 ∧ s.mgmtOn = true ∧ s.updMoving = false ∧ s.upd.busy = false ∧ s.fld Reg.updCfg
    24 8 ≠ 0 ∧ s.regsWf = true :=
  ⟨{ regsOf base [(Reg.updStat, 0x50000000), (Reg.updCfg, 0x18000000)] with rounds := [roundA] }, by decide +kernel⟩
theorem witness_EntryCommitsOrAborts_1 : ∃ (s : State) (tg : Target) (f : Frame), s.phase = .quiesce tg ∧ s.hp.frame = some f ∧ f.kind = some .wait ∧
    f.phase = .held .wait ∧ f.reach = .data 1 0 false ∧ s.bit Reg.hpCtrl 0 = false ∧ s.wrPend = false ∧ (tg = .doze ∨ tg = .dormant) ∧ s.feedPending
    = false ∧ s.mempBusy = false ∧ s.mgmt.unsaved = 0 ∧ allRefusers.find? (s.aborts tg) = none ∧ s.reg Reg.pwrWakeTimer ≠ 0 ∧ s.lands.wakeLow ≠ some
    10 ∧ s.regsWf = true :=
  ⟨regsOf ({ fifoTwo with phase := .quiesce .doze, hp := { HostPort.init with frame := some { op := 0x7A, kind := some .wait, reach := .data 1 0 false, phase := .held .wait, token := .none, out := [], trailer := none, lrst := false } } })
    [(Reg.pwrWakeTimer, 1), (Reg.pwrWakeEn, 2)], .doze,
    { op := 0x7A, kind := some .wait, reach := .data 1 0 false, phase := .held .wait, token := .none, out := [], trailer := none, lrst := false }, by
    decide +kernel⟩
theorem witness_EntryCommitsOrAborts_2 : ∃ (s : State) (f : Frame) (tg : Target), s.phase = .quiesce tg ∧ s.hp.frame = some f ∧ f.kind = some .wait ∧
    f.phase = .held .wait ∧ f.reach = .data 1 0 false ∧ s.bit Reg.hpCtrl 0 = false ∧ s.wrPend = false ∧ tg = .idle ∧ s.feedPending = false ∧
    s.mempBusy = false ∧ s.mgmt.unsaved = 0 ∧ allRefusers.find? (s.aborts tg) = none ∧ s.reg Reg.pwrWakeTimer ≠ 0 ∧ s.lands.wakeLow ≠ some 10 ∧
    s.regsWf = true :=
  ⟨({ base with phase := .quiesce .idle, hp := { HostPort.init with frame := some { op := 0x7A, kind := some .wait, reach := .data 1 0 false, phase := .held .wait, token := .none, out := [], trailer := none, lrst := false } } }).setReg
    Reg.pwrWakeTimer 1,
    { op := 0x7A, kind := some .wait, reach := .data 1 0 false, phase := .held .wait, token := .none, out := [], trailer := none, lrst := false },
    .idle, by decide +kernel⟩
theorem witness_EntryCommitsOrAborts_3 : ∃ (s : State) (refuser r : Refuser) (tg : Target) (f : Frame), s.phase = .quiesce tg ∧ s.hp.frame = some f ∧
    f.kind = some .wait ∧ f.phase = .held .wait ∧ f.reach = .data 1 0 false ∧ s.bit Reg.hpCtrl 0 = false ∧ s.wrPend = false ∧ s.aborts tg refuser =
    true ∧ allRefusers.find? (fun x => s.aborts tg x && (x == refuser || !(x == .tallyFeedPending || x == .mpQueueBusy))) = some r ∧ s.regsWf = true
    :=
  ⟨{ { base with ping := { Ping.init with cal := some ⟨1, 1, [], []⟩ } } with phase := .quiesce .idle, hp := { HostPort.init with frame := some { op := 0x7A, kind := some .wait, reach := .data 1 0 false, phase := .held .wait, token := .none, out := [], trailer := none, lrst := false } } },
    .pingCal, .pingCal, .idle,
    { op := 0x7A, kind := some .wait, reach := .data 1 0 false, phase := .held .wait, token := .none, out := [], trailer := none, lrst := false }, by
    decide +kernel⟩
theorem witness_EntryCommitsOrAborts_4 : ∃ (s : State) (r : Refuser) (tg : Target) (f : Frame), s.phase = .quiesce tg ∧ s.hp.frame = some f ∧ f.kind
    = some .wait ∧ f.phase = .held .wait ∧ f.reach = .data 1 0 false ∧ s.bit Reg.hpCtrl 0 = false ∧ s.wrPend = false ∧ allRefusers.find? (s.aborts
    tg) = some r ∧ s.regsWf = true :=
  ⟨{ { base with memp := { Memp.init with prog := some popR } } with phase := .quiesce .idle, hp := { HostPort.init with frame := some { op := 0x7A, kind := some .wait, reach := .data 1 0 false, phase := .held .wait, token := .none, out := [], trailer := none, lrst := false } } },
    .mpQueueBusy, .idle,
    { op := 0x7A, kind := some .wait, reach := .data 1 0 false, phase := .held .wait, token := .none, out := [], trailer := none, lrst := false }, by
    decide +kernel⟩
theorem witness_EntryCommitsOrAborts_5 : ∃ (s : State) (tg : Target) (f : Frame), s.phase = .quiesce tg ∧ s.hp.frame = some f ∧ f.kind = some .wait ∧
    f.phase = .held .wait ∧ f.reach = .data 1 0 false ∧ s.bit Reg.hpCtrl 0 = false ∧ s.wrPend = false ∧ s.feedPending = true ∧ s.regsWf = true :=
  ⟨{ { base with tal := { TalMain.init with queue := [⟨0, 1, 2, 3, 4⟩] } } with phase := .quiesce .doze, hp := { HostPort.init with frame := some { op := 0x7A, kind := some .wait, reach := .data 1 0 false, phase := .held .wait, token := .none, out := [], trailer := none, lrst := false } } },
    .doze, { op := 0x7A, kind := some .wait, reach := .data 1 0 false, phase := .held .wait, token := .none, out := [], trailer := none, lrst := false },
    by decide +kernel⟩
theorem witness_PowerDownAndWake_1 : ∃ (s : State) (tg : Target), s.phase = .committed tg ∧ tg ≠ .idle ∧ s.tag.field = true ∧ s.regsWf = true :=
  ⟨{ base with phase := .committed .doze, tag := { TagFn.init with field := true } }, .doze, by decide +kernel⟩
theorem witness_PowerDownAndWake_2 : ∃ (s : State) (tg : Target), s.phase = .committed tg ∧ tg ≠ .idle ∧ s.tag.field = false ∧ s.regsWf = true :=
  ⟨{ base with phase := .committed .doze }, .doze, by decide +kernel⟩
theorem witness_PowerDownAndWake_3 : ∃ (s : State) (tg : Target), s.phase = .poweringDown tg ∧ (tg = .doze ∨ tg = .dormant) ∧ s.wakes = [] ∧ s.regsWf
    = true :=
  ⟨{ base with phase := .poweringDown .dormant }, .dormant, by decide +kernel⟩
theorem witness_PowerDownAndWake_4 : ∃ (s : State) (tg : Target), s.phase = .poweringDown tg ∧ s.wakes ≠ [] ∧ s.lands.vin = true ∧ s.flashQuiet =
    true ∧ (tg = .doze ∨ tg = .dormant) ∧ s.regsWf = true :=
  ⟨{ base with phase := .poweringDown .doze, wakes := [1] }, .doze, by decide +kernel⟩
theorem witness_PowerDownAndWake_5 : ∃ (s : State), (s.phase = .doze ∨ s.phase = .dormant) ∧ s.wakes ≠ [] ∧ s.flashQuiet = true ∧ s.regsWf = true :=
  ⟨{ base with phase := .dormant, wakes := [1], lands := { Lands.init with vin := false } }, by decide +kernel⟩
theorem witness_PowerDownAndWake_6 : ∃ (s : State), s.phase ≠ .doze ∧ s.phase ≠ .dormant ∧ s.regsWf = true :=
  ⟨{ base with lands := { Lands.init with vin := false } }, by decide +kernel⟩
theorem witness_PowerDownAndWake_7 : ∃ (s : State) (us : Nat) (held : Bool), (us < 2 ∨ (held = true ∧ us < 10)) :=
  ⟨base, 1, false, by decide +kernel⟩
theorem witness_PowerDownAndWake_8 : ∃ (s : State) (us : Nat) (held : Bool), s.phase = .idle ∧ s.wakes = [] ∧ s.ping.wake = none ∧ 10 ≤ us ∧ s.bit
    Reg.pwrWakeEn 0 = true ∧ s.fld Reg.pwrWakeCause 16 4 = 0 ∧ s.regsWf = true :=
  ⟨{ regsOf base [(Reg.pwrWakeEn, 1), (Reg.sysClkstat, 0xE7), (Reg.pwrMode, 0x101)] with phase := .idle }, 10, true, by decide +kernel⟩
theorem witness_PowerDownAndWake_9 : ∃ (s : State) (us : Nat) (held : Bool) (tg : Target), s.phase = .poweringDown tg ∧ 10 ≤ us ∧ tg = .doze ∧ s.bit
    Reg.pwrWakeEn 0 = true ∧ s.wakes.contains 0 = false ∧ s.fld Reg.pwrWakeCause 16 4 ≠ 0 ∧ (s.sameCycle = false ∨ s.fld Reg.pwrWakeCause 16 4 ≤ 1) ∧
    s.regsWf = true :=
  ⟨{ regsOf base [(Reg.pwrWakeEn, 1), (Reg.pwrWakeCause, 0x30004)] with phase := .poweringDown .doze, wakes := [2] }, 10, true, .doze, by
    decide +kernel⟩
theorem witness_PowerDownAndWake_10 : ∃ (s : State), s.phase = .idle ∧ s.wakes = [] ∧ s.ping.wake = none ∧ s.bit Reg.pwrWakeEn 1 = true ∧ s.fld
    Reg.pwrWakeCause 16 4 = 0 ∧ s.regsWf = true :=
  ⟨{ regsOf base [(Reg.pwrWakeEn, 2), (Reg.sysClkstat, 0xE7), (Reg.pwrMode, 0x101)] with phase := .idle }, by decide +kernel⟩
theorem witness_PowerDownAndWake_11 : ∃ (s : State) (tg : Target), s.phase = .poweringDown tg ∧ tg = .doze ∧ s.bit Reg.pwrWakeEn 1 = true ∧
    s.wakes.contains 1 = false ∧ s.fld Reg.pwrWakeCause 16 4 ≠ 0 ∧ (s.sameCycle = false ∨ s.fld Reg.pwrWakeCause 16 4 ≤ 2) ∧ s.regsWf = true :=
  ⟨{ regsOf base [(Reg.pwrWakeEn, 2), (Reg.pwrWakeCause, 0x30004)] with phase := .poweringDown .doze, wakes := [2] }, .doze, by decide +kernel⟩
theorem witness_PowerDownAndWake_12 : ∃ (s : State), s.phase = .idle ∧ s.wakes = [] ∧ s.ping.wake = none ∧ s.fld Reg.pwrWakeCause 16 4 = 0 ∧ s.regsWf
    = true :=
  ⟨{ regsOf base [(Reg.pwrWakeEn, 16), (Reg.sysClkstat, 0xE7), (Reg.pwrMode, 0x101)] with phase := .idle }, by decide +kernel⟩
theorem witness_PowerDownAndWake_13 : ∃ (s : State) (tg : Target), s.phase = .poweringDown tg ∧ tg = .doze ∧ s.bit Reg.pwrWakeEn 4 = true ∧
    s.wakes.contains 4 = false ∧ s.fld Reg.pwrWakeCause 16 4 ≠ 0 ∧ (s.sameCycle = false ∨ s.fld Reg.pwrWakeCause 16 4 ≤ 5) ∧ s.regsWf = true :=
  ⟨{ regsOf base [(Reg.pwrWakeEn, 16), (Reg.pwrWakeCause, 0x30004)] with phase := .poweringDown .doze, wakes := [2] }, .doze, by decide +kernel⟩
theorem witness_ResetsTakeEffect_1 : ∃ (s : State), s.tag.session = none ∧ s.tag.half = none ∧ s.tag.job = none ∧ s.flashQuiet = true ∧ s.regsWf =
    true :=
  ⟨{ base with lands := { Lands.init with vin := false }, wakes := [1], aoFrac := 5, resets := [.therm] }, by decide +kernel⟩
theorem witness_ResetsTakeEffect_2 : ∃ (s : State), s.tag.session = none ∧ s.tag.half = none ∧ s.tag.job = none ∧ s.resets = [.vaoBor] ∧ s.flashQuiet
    = true ∧ s.regsWf = true :=
  ⟨{ base with resets := [.vaoBor] }, by decide +kernel⟩
theorem witness_ResetsTakeEffect_3 : ∃ (s : State) (c : Cause), s.regsWf = true ∧ s.tag.session = none ∧ s.tag.half = none ∧ s.tag.job = none ∧
    s.resets = [c] ∧ s.flashQuiet = true ∧ s.phase = .active ∧ c ≠ .por ∧ c ≠ .vaoBor ∧ c ≠ .wake :=
  ⟨{ base.setReg Reg.sysResetCause 0x10000002 with resets := [.therm] }, .therm, by decide +kernel⟩
theorem witness_ResetsTakeEffect_4 : ∃ (s : State), s.phase = .held ∧ s.resets = [] ∧ s.lands.rstN = true ∧ (s.thermHold = false ∨ s.hot.all (fun k
    => decide (4 ≤ k)) = true) ∧ s.regsWf = true :=
  ⟨{ State.reset with lands := { Lands.init with prof := 2 } }, by decide +kernel⟩
theorem witness_ResetsTakeEffect_5 : ∃ (s : State), (s.phase ≠ .held ∨ s.resets ≠ [] ∨ s.lands.rstN = false ∨ s.thermHold = true ∧ s.hot.any (fun k
    => decide (k < 4)) = true) :=
  ⟨{ State.reset with resets := [.pin] }, by decide +kernel⟩
theorem witness_ResetsAreTriggered_1 : ∃ (s : State), s.txcsOn = [] ∧ s.resets.contains .vaoBor = false ∧ s.regsWf = true :=
  ⟨base, by decide +kernel⟩
theorem witness_ResetsAreTriggered_2 : ∃ (s : State) (k : Nat), s.txcsOn = [k] ∧ s.ramp k = 2 ∧ s.resets.contains .vaoBor = false ∧ s.regsWf = true :=
  ⟨(base).setReg (Reg.txcStat 1) 2, 1, by decide +kernel⟩
theorem witness_ResetsAreTriggered_3 : ∃ (s : State), s.phase ≠ .doze ∧ s.phase ≠ .dormant ∧ s.tag.field = false ∧ s.txcsOn = [] ∧ s.resets.contains
    .vinBor = false ∧ s.regsWf = true :=
  ⟨{ base with tag := { TagFn.init with lockout := some (4, 17) } }, by decide +kernel⟩
theorem witness_ResetsAreTriggered_4 : ∃ (s : State) (k : Nat), s.phase ≠ .doze ∧ s.phase ≠ .dormant ∧ s.tag.field = false ∧ s.txcsOn = [k] ∧ s.ramp
    k = 2 ∧ s.resets.contains .vinBor = false ∧ s.regsWf = true :=
  ⟨({ base with tag := { TagFn.init with lockout := some (4, 17) } }).setReg (Reg.txcStat 1) 2, 1, by decide +kernel⟩
theorem witness_ResetsAreTriggered_5 : ∃ (s : State) (us : Nat), 10 ≤ us ∧ s.txcsOn = [] ∧ s.resets.contains .pin = false ∧ s.regsWf = true :=
  ⟨base, 10, by decide +kernel⟩
theorem witness_ResetsAreTriggered_6 : ∃ (s : State) (us : Nat) (k : Nat), 10 ≤ us ∧ s.txcsOn = [k] ∧ s.ramp k = 2 ∧ s.resets.contains .pin = false ∧
    s.regsWf = true :=
  ⟨(base).setReg (Reg.txcStat 1) 2, 10, 1, by decide +kernel⟩
theorem witness_ResetsAreTriggered_7 : ∃ (s : State) (mgmt : Bool), (if mgmt then s.mgmtOn else s.coreOn) = true ∧ s.txcsOn = [] ∧ s.resets.contains
    .clkfail = false ∧ s.regsWf = true :=
  ⟨base, true, by decide +kernel⟩
theorem witness_ResetsAreTriggered_8 : ∃ (s : State) (mgmt : Bool) (k : Nat), (if mgmt then s.mgmtOn else s.coreOn) = true ∧ s.txcsOn = [k] ∧ s.ramp
    k = 2 ∧ s.resets.contains .clkfail = false ∧ s.regsWf = true :=
  ⟨(base).setReg (Reg.txcStat 1) 2, true, 1, by decide +kernel⟩
theorem witness_ResetsAreTriggered_9 : ∃ (s : State), (s.phase = .doze ∨ s.phase = .dormant) ∧ s.regsWf = true :=
  ⟨{ base with phase := .doze }, by decide +kernel⟩
theorem witness_ResetsAreTriggered_10 : ∃ (s : State), s.phase ≠ .doze ∧ s.phase ≠ .dormant ∧ s.tag.field = true ∧ s.txcsOn = [] ∧ s.resets.contains
    .vinBor = false ∧ s.regsWf = true :=
  ⟨{ base with tag := { TagFn.init with field := true, lockout := some (4, 17) } }, by decide +kernel⟩
theorem witness_ResetsAreTriggered_11 : ∃ (s : State) (us : Nat), us < 2 :=
  ⟨base, 1, by decide +kernel⟩
theorem witness_ResetsAreTriggered_13 : ∃ (s : State) (mgmt : Bool), (if mgmt then s.mgmtOn else s.coreOn) = false :=
  ⟨base.setReg Reg.sysClkstat 7, false, by decide +kernel⟩
theorem witness_SuppliesClocksAndReference_1 : ∃ (s : State) (mv : Nat), mv ≤ 4000 ∧ s.lands.vio = false :=
  ⟨{ base with lands := { Lands.init with vio := false } }, 1800, by decide +kernel⟩
theorem witness_SuppliesClocksAndReference_2 : ∃ (s : State) (mv : Nat), mv ≤ 4000 ∧ s.lands.vio = true :=
  ⟨base, 4000, by decide +kernel⟩
theorem witness_SuppliesClocksAndReference_3 : ∃ (s : State), s.tag.queue = [] ∧ s.regsWf = true :=
  ⟨base, by decide +kernel⟩
theorem witness_SuppliesClocksAndReference_4 : ∃ (s : State), s.lands.vao = true ∧ s.regsWf = true :=
  ⟨base.setReg Reg.sysClkstat 0xFD, by decide +kernel⟩
theorem witness_SuppliesClocksAndReference_5 : ∃ (s : State), s.bit Reg.sysClkstat 1 = true ∧ s.regsWf = true :=
  ⟨base, by decide +kernel⟩
theorem witness_SuppliesClocksAndReference_6 : ∃ (s : State) (swingP swingN : Nat) (antiphase : Bool), (200 ≤ swingP ∨ 200 ≤ swingN) ∧ ((200 ≤ swingP
    ∧ 200 ≤ swingN) → antiphase = true) ∧ s.regsWf = true :=
  ⟨base, 199, 200, false, by decide +kernel⟩
theorem witness_SuppliesClocksAndReference_7 : ∃ (s : State) (swingP swingN : Nat) (antiphase : Bool), swingP < 200 ∧ swingN < 200 ∧ s.regsWf = true
    :=
  ⟨base.setReg Reg.clkRefstat 0x2A, 199, 0, false, by decide +kernel⟩
theorem witness_SuppliesClocksAndReference_8 : ∃ (s : State) (ferr : Byte), s.bit Reg.clkRefctrl 0 = false ∧ s.bit Reg.clkRefstat 1 = true ∧ s.regsWf
    = true :=
  ⟨base.setReg Reg.clkRefstat 2, 0x85, by decide +kernel⟩
theorem witness_SuppliesClocksAndReference_9 : ∃ (s : State), s.bit Reg.clkRefstat 2 = true ∧ s.regsWf = true :=
  ⟨base.setReg Reg.clkRefstat 7, by decide +kernel⟩
theorem witness_SuppliesClocksAndReference_10 : ∃ (s : State), s.bit Reg.clkRefstat 4 = true ∧ s.regsWf = true :=
  ⟨base.setReg Reg.clkRefstat 0x16, by decide +kernel⟩
theorem witness_TestAccessPort_1 : ∃ (s : State), s.lands.vio = true ∧ s.asleep = false ∧ s.tap ≠ .extest :=
  ⟨base, by decide +kernel⟩
theorem witness_TestAccessPort_2 : ∃ (s : State), s.lands.vio = true ∧ s.asleep = false ∧ s.tap ≠ .extest :=
  ⟨base, by decide +kernel⟩
theorem witness_TestAccessPort_3 : ∃ (s : State), s.lands.vio = true ∧ s.asleep = false ∧ s.tap ≠ .extest ∧ s.regsWf = true :=
  ⟨base, by decide +kernel⟩
theorem witness_TestAccessPort_4 : ∃ (s : State), s.lands.vio = true ∧ s.asleep = false ∧ s.tap ≠ .extest ∧ s.rounds = [] ∧ s.txcsOn = [] ∧
    s.noTxcCal = true ∧ s.switchesOpen = true ∧ s.regsWf = true :=
  ⟨base, by decide +kernel⟩
theorem witness_TestAccessPort_5 : ∃ (s : State), s.lands.vio = true ∧ s.asleep = false ∧ s.tap ≠ .extest ∧ s.rounds = [] ∧ s.txcsOn = [] ∧
    s.noTxcCal = true ∧ s.regsWf = true :=
  ⟨regsOf base [(Reg.rxcStat 3, 0x8580), (Reg.portWarpRx 0, 0x85)], by decide +kernel⟩
theorem witness_TestAccessPort_6 : ∃ (s : State) (k : Nat), s.lands.vio = true ∧ s.asleep = false ∧ s.tap ≠ .extest ∧ s.rounds = [] ∧ s.txcsOn = [k]
    ∧ s.ramp k = 2 ∧ s.noTxcCal = true ∧ s.switchesOpen = true ∧ s.regsWf = true :=
  ⟨base.setReg (Reg.txcStat 3) 2, 3, by decide +kernel⟩
theorem witness_TestAccessPort_7 : ∃ (s : State) (k : Nat), s.lands.vio = true ∧ s.asleep = false ∧ s.tap ≠ .extest ∧ s.rounds = [] ∧ s.txcsOn = [] ∧
    s.ramp k = 5 ∧ k < 4 ∧ (List.range 4).all (fun n => n == k || s.ramp n != 5) = true ∧ s.switchesOpen = true ∧ s.regsWf = true :=
  ⟨base.setReg (Reg.txcStat 3) 5, 3, by decide +kernel⟩
theorem witness_TestAccessPort_8 : ∃ (s : State), s.lands.vio = true ∧ s.asleep = false ∧ s.tap = .extest ∧ s.txcsOn = [] ∧ s.resets = [] ∧ s.regsWf
    = true :=
  ⟨{ base with tap := .extest }, by decide +kernel⟩
theorem witness_TestAccessPort_9 : ∃ (s : State), s.lands.vio = true ∧ s.asleep = false ∧ s.tap = .extest ∧ s.txcsOn = [] ∧ s.resets = [] ∧ s.regsWf
    = true :=
  ⟨{ base with tap := .extest }, by decide +kernel⟩
theorem witness_TestAccessPort_10 : ∃ (s : State), s.lands.vio = true ∧ s.asleep = false ∧ s.tap = .extest ∧ s.regsWf = true :=
  ⟨{ base with tap := .extest }, by decide +kernel⟩
theorem witness_FunctionsBecomeReady_1 : ∃ (s : State), s.phase = .active ∧ s.ready rdHp = false ∧ s.regsWf = true :=
  ⟨regsOf base [(Reg.sysReady, 0), (Reg.sysExpect, 1)], by decide +kernel⟩
theorem witness_FunctionsBecomeReady_2 : ∃ (s : State), s.phase = .active ∧ s.lands.vio = true ∧ s.ready rdMemp = false ∧ s.fld Reg.mempStat 28 4 = 0
    ∧ flashErr s.board.dev0 = 0 ∧ s.regsWf = true :=
  ⟨{ base.setReg Reg.sysReady 1 with board := { Board.init with dev1 := some { MemDevice.nor with sfdp := false, psram := true, density := 24 } } },
    by decide +kernel⟩
theorem witness_FunctionsBecomeReady_3 : ∃ (s : State), s.phase = .active ∧ s.lands.vio = true ∧ s.ready rdMemp = false ∧ s.fld Reg.mempStat 28 4 = 0
    ∧ flashErr s.board.dev0 ≠ 0 ∧ s.regsWf = true :=
  ⟨{ base.setReg Reg.sysReady 1 with board := { Board.init with dev0 := none } }, by decide +kernel⟩
theorem witness_FunctionsBecomeReady_4 : ∃ (s : State) (bad : BitVec 4) (n : Fin 4), s.coreOn = true ∧ s.ready rdMgmt = false ∧ bad = BitVec.ofNat 4
    (2 ^ n.val) ∧ s.bit Reg.crcStat (16 + n.val) = false ∧ s.regsWf = true :=
  ⟨base.setReg Reg.sysReady 1, 4, 2, by decide +kernel⟩
theorem witness_FunctionsBecomeReady_5 : ∃ (s : State), s.coreOn = true ∧ s.ready rdMgmt = false :=
  ⟨base.setReg Reg.sysReady 1, by decide +kernel⟩
theorem witness_FunctionsBecomeReady_6 : ∃ (s : State), s.ready rdMgmt = true ∧ s.ready rdTagf = false ∧ s.regsWf = true :=
  ⟨{ base.setReg Reg.sysReady 2 with tag := { TagFn.init with early := true } }, by decide +kernel⟩
theorem witness_FunctionsBecomeReady_7 : ∃ (s : State), s.ready rdMgmt = true ∧ s.ready rdPing = false ∧ s.ping.wake = none ∧ s.regsWf = true :=
  ⟨{ base.setReg Reg.sysReady 2 with ping := { Ping.init with lost := true, flash := some [(3, { PingPort.init with valid := true })] } }, by
    decide +kernel⟩
theorem witness_FunctionsBecomeReady_8 : ∃ (s : State), s.board.tally = true ∧ s.ready rdMgmt = true ∧ s.die.running = true ∧ s.ready rdTal = false ∧
    s.regsWf = true :=
  ⟨{ base.setReg Reg.sysReady 2 with die := { TalDie.init with running := true } }, by decide +kernel⟩
theorem witness_ProofAndDraftGoLive_1 : ∃ (s : State), s.phase = .active ∧ s.ready rdMgmt = false ∧ s.ready rdMemp = true ∧ s.mgmtOn = true ∧
    s.updRecord = none ∧ s.upd.image = none ∧ s.bit Reg.sysProfNext 31 = false ∧ s.tag.bad.contains 3 = false ∧ (s.tagByte 194).toNat < 0xA0 ∧
    s.upd.slots.getD (s.fld Reg.sysProfStat 0 2) none ≠ none ∧ s.bit Reg.mgmtCfg 0 = false ∧ s.regsWf = true :=
  ⟨{ regsOf base [(Reg.sysReady, 5), (Reg.sysProfStat, 2), (Reg.mgmtCfg, 2)] with upd := { Upd.init with slots := [none, none, some imgA, none, none] } },
    by decide +kernel⟩
theorem witness_ProofAndDraftGoLive_2 : ∃ (s : State) (slot : Nat) (x : DraftImage), s.upd.proof = some slot ∧ s.proofImage slot s.upd.fromStaging =
    some x ∧ s.proofFault (some x) = none ∧ s.halfRuns = true ∧ (List.range 4).all (fun n => s.txReason n == 0 && !s.txcHot n) = true ∧ s.hot = [] ∧
    s.tap ≠ .extest ∧ s.cmds = [] ∧ s.cands = [] ∧ s.rounds = [] ∧ s.noAnt = true ∧ s.regsWf = true :=
  ⟨{ regsOf base [(Reg.sysReady, 0x1F), (Reg.sysExpect, 0x3F)] with mgmt := { Mgmt.init with running := some true }, upd := { Upd.init with proof := some 1, slots := [none, some imgA, none, none, none] } },
    1, imgA, by decide +kernel⟩
theorem witness_ProofAndDraftGoLive_3 : ∃ (s : State) (slot stage sec : Nat), s.upd.proof = some slot ∧ s.upd.fromStaging = false ∧ s.proofFault
    (s.proofImage slot false) = some (stage, sec) ∧ s.halfRuns = true ∧ s.regsWf = true :=
  ⟨{ regsOf base [(Reg.sysReady, 0x1F)] with mgmt := { Mgmt.init with running := some true }, upd := { Upd.init with proof := some 2 } }, 2, 1, 255,
    by decide +kernel⟩
theorem witness_ProofAndDraftGoLive_4 : ∃ (s : State) (slot : Nat) (h : Bool), s.upd.proof = some slot ∧ s.upd.fromStaging = true ∧ s.proofFault
    (s.proofImage slot true) ≠ none ∧ s.halfRuns = true ∧ s.mgmt.running = some h ∧ s.regsWf = true :=
  ⟨{ regsOf base [(Reg.sysReady, 0x1F), (Reg.updStat, 0x50000000)] with mgmt := { Mgmt.init with running := some true }, upd := { Upd.init with proof := some 2, fromStaging := true } },
    2, true, by decide +kernel⟩
theorem witness_PartsBecomeReady_1 : ∃ (s : State) (pool : Pool), s.coreOn = true ∧ s.ready rdDraft = true ∧ s.expected (poolBits pool).1 = true ∧
    s.ready (poolBits pool).1 = false ∧ s.draft.any (fun d => (poolBits pool).2.any (fun k => d.struct_.decoders.contains k && !s.decOos k)) = true ∧
    s.regsWf = true :=
  ⟨withDraft.setReg Reg.sysReady 0x3F, .uep, by decide +kernel⟩
theorem witness_PartsBecomeReady_2 : ∃ (s : State) (n : Fin 4), (s.tx n).calibrating = true ∧ (List.range 64).all (fun p => p / 16 != n.val ||
    !s.portNamed p || s.portClass p != 0) = true ∧ s.txcHot n = false ∧ s.hot = [] ∧ s.cmds = [] ∧ s.chains.all (fun c => c.svc != .points) = true ∧
    s.txReason n = 0 ∧ s.regsWf = true :=
  ⟨({ withDraft with chains := List.replicate 16 { Chain.init with svc := .inService }, txc := [{ Txc.init with calibrating := true }, .init, .init, .init] }).setReg
    (Reg.portState 0) 0x111, 0, by decide +kernel⟩
theorem witness_PartsBecomeReady_3 : ∃ (s : State) (n : Fin 4), (s.tx n).calibrating = true ∧ (List.range 64).all (fun p => p / 16 != n.val ||
    !s.portNamed p || s.portClass p != 0) = true ∧ s.txcHot n = false ∧ s.hot = [] ∧ s.cmds = [] ∧ s.cands = [] ∧ s.rounds = [] ∧ s.fifo.fault.length
    < 32 ∧ s.regsWf = true :=
  ⟨{ withDraft with txc := [.init, .init, { Txc.init with calibrating := true }, .init] }, 2, by decide +kernel⟩
theorem witness_PartsBecomeReady_4 : ∃ (s : State) (n : Fin 16), (s.chain n).svc = .calibrating ∧ s.broughtUp = false ∧ s.cmds = [] ∧ s.awaitsTxc n =
    false ∧ (s.chainSpare n = false ∨ s.chains.all (fun c => c.svc != .out) = true) ∧ s.calPending (fun g => geoUses g none none (some n.val)) =
    false ∧ s.regsWf = true :=
  ⟨{ withDraft with chains := State.reset.chains.set 5 { Chain.init with svc := .calibrating } }, 5, by decide +kernel⟩
theorem witness_PartsBecomeReady_5 : ∃ (s : State) (n : Fin 16), (s.chain n).svc = .calibrating ∧ s.freeSpareChain (n.val / 4) = none ∧ s.cmds = [] ∧
    s.rounds = [] ∧ s.fifo.fault.length < 32 ∧ s.regsWf = true :=
  ⟨{ withDraft with chains := State.reset.chains.set 5 { Chain.init with svc := .calibrating } }, 5, by decide +kernel⟩
theorem witness_PartsBecomeReady_6 : ∃ (s : State) (o : PortObsAt), s.ready rdDraft = true ∧ s.portNamed o.port = true ∧ s.portClass o.port = 0 ∧
    firstClass o.obs = 1 ∧ s.regsWf = true :=
  ⟨withDraft, ⟨2, ⟨10000, 0, 0, 0, 0⟩⟩, by decide +kernel⟩
theorem witness_PartsBecomeReady_7 : ∃ (s : State) (o : PortObsAt), s.ready rdDraft = true ∧ s.portNamed o.port = true ∧ s.portClass o.port = 0 ∧
    firstClass o.obs ≠ 1 ∧ s.portCarries o.port = false ∧ s.cmds = [] ∧ s.fifo.fault.length < 32 ∧ s.noAnt = true ∧ s.regsWf = true :=
  ⟨withDraft, ⟨2, ⟨30000, 0, 0, 0, 0⟩⟩, by decide +kernel⟩
theorem witness_ThermalActions_1 : ∃ (s : State) (sensor : Fin 8) (temp : BitVec 16), s.coreOn = true ∧ s.hot.contains sensor.val = false ∧
    s.fifo.fault.length < 32 ∧ s.regsWf = true :=
  ⟨base, 5, 1150, by decide +kernel⟩
theorem witness_ThermalActions_2 : ∃ (s : State) (n : Fin 4) (temp : BitVec 16), s.coreOn = true ∧ s.hotOut.contains (4 + n.val) = false ∧
    s.hot.contains (4 + n.val) = true ∧ s.fifo.fault.length < 31 ∧ s.txcUsed n = true ∧ s.txReason n = 0 ∧ s.ramp n = 0 ∧ s.cmds = [] ∧ s.cands = []
    ∧ s.rounds = [] ∧ s.noAnt = true ∧ s.regsWf = true :=
  ⟨{ base with hot := [5] }, 1, 1350, by decide +kernel⟩
theorem witness_ThermalActions_3 : ∃ (s : State) (n : Fin 4) (temp : BitVec 16), s.txcUsed n = false :=
  ⟨base.setReg Reg.sysExpect 0, 1, 1350, by decide +kernel⟩
theorem witness_ThermalActions_4 : ∃ (s : State) (site : Fin 4) (temp : BitVec 16), s.coreOn = true ∧ s.hotOut.contains site.val = false ∧
    s.fifo.fault.length < 28 ∧ s.txcsOn = [] ∧ s.noAnt = true ∧ s.cmds = [] ∧ s.cands = [] ∧ s.rounds = [] ∧ s.regsWf = true :=
  ⟨base, 2, 1350, by decide +kernel⟩
theorem witness_ThermalActions_5 : ∃ (s : State) (site : Fin 4) (temp : BitVec 16), s.asleep = false ∧ s.txcsOn = [] ∧ s.resets.contains .therm =
    false ∧ s.regsWf = true :=
  ⟨base, 3, 1450, by decide +kernel⟩
theorem witness_ThermalActions_6 : ∃ (s : State) (sensor : Fin 8) (temp : BitVec 16), s.coreOn = true ∧ s.hot.contains sensor.val = true ∧ ofTwos 16
    temp.toNat < 1050 ∧ s.fifo.fault.length < 32 ∧ s.regsWf = true :=
  ⟨{ base with hot := [3, 5], hotOut := [5], hotRead := [5, 6] }, 5, 0xFFF6, by decide +kernel⟩
theorem witness_PortsFault_1 : ∃ (s : State) (p : Fin 64) (obs : PortObs) (c : Nat), s.portNamed p = true ∧ s.portClass p = 1 ∧ faultClass
    (s.portCarries p) obs = some c ∧ s.cmds = [] ∧ s.rounds = [] ∧ s.portCarries p = false ∧ s.switchesOpen = true ∧ s.fifo.fault.length < 32 ∧
    s.noAnt = true ∧ s.regsWf = true :=
  ⟨withDraft.setReg (Reg.portState 0) 0x111, 2, ⟨999, 0, 0, 0, 0⟩, 2, by decide +kernel⟩
theorem witness_PortsFault_2 : ∃ (s : State) (p : Fin 64) (obs : PortObs) (c n : Nat) (r : Round), s.portNamed p = true ∧ s.portClass p = 1 ∧
    faultClass (s.portCarries p) obs = some c ∧ s.cmds = [] ∧ s.soleRound r n = true ∧ n < 4 ∧ r.port = p.val ∧ r.beams = [] ∧ r.atRest = true ∧
    r.serves = true ∧ s.ramp n = 2 ∧ s.switchesOpen = true ∧ s.fifo.fault.length < 32 ∧ s.noAnt = true ∧ s.regsWf = true :=
  ⟨onAir.setReg (Reg.portState 0) 0x111, 0, ⟨10000, 0, 0, 20, 14⟩, 5, 0, roundA, by decide +kernel⟩
theorem witness_PortsFault_3 : ∃ (s : State) (n : Fin 4), s.ramp n = 3 ∧ s.bit (Reg.txcStat n) 23 = true ∧ 2 ≤ s.portClass (s.fld (Reg.txcStat n) 16
    6) ∧ (s.tx n).after = .off ∧ s.roundOfTxc n = none ∧ s.regsWf = true :=
  ⟨(base.setReg (Reg.txcStat 1) 0x00910203).setReg (Reg.portState 2) 0x50, 1, by decide +kernel⟩
theorem witness_PortsFault_4 : ∃ (s : State) (p : Fin 64), s.portNamed p = true ∧ 2 ≤ s.portClass p ∧ s.fifo.fault.length < 32 ∧ s.noAnt = true ∧
    s.regsWf = true :=
  ⟨withDraft.setReg (Reg.portState 0) 0xDD, 1, by decide +kernel⟩
theorem witness_SynthesisersAmplifiersAndChainsFail_1 : ∃ (s : State) (n : Fin 4) (r : Round), s.soleRound r n = true ∧ r.serves = true ∧ s.ramp n =
    2 ∧ s.regsWf = true :=
  ⟨onAir, 0, roundA, by decide +kernel⟩
theorem witness_SynthesisersAmplifiersAndChainsFail_2 : ∃ (s : State) (n : Fin 4) (k : Nat) (next : Relocked), (s.tx n).after = .relock k next ∧
    (s.tx n).cancelUp = false ∧ s.ramp n = 4 ∧ k < 2 ∧ s.regsWf = true :=
  ⟨({ onAir with txc := [{ Txc.init with after := .relock 1 (.hop 2) }, .init, .init, .init] }).setReg (Reg.txcStat 0) 4, 0, 1, .hop 2, by
    decide +kernel⟩
theorem witness_SynthesisersAmplifiersAndChainsFail_3 : ∃ (s : State) (n : Fin 4) (k : Nat) (next : Relocked), (s.tx n).after = .relock k next ∧
    (s.tx n).cancelUp = false ∧ s.ramp n = 4 ∧ 2 ≤ k ∧ s.noHopWaits = true ∧ s.txReason n = 0 ∧ s.cmds = [] ∧ s.cands = [] ∧ s.rounds = [] ∧
    s.fifo.fault.length < 32 ∧ s.regsWf = true :=
  ⟨({ base with txc := [{ Txc.init with after := .relock 2 .same }, .init, .init, .init] }).setReg (Reg.txcStat 0) 4, 0, 2, .same, by decide +kernel⟩
theorem witness_SynthesisersAmplifiersAndChainsFail_4 : ∃ (s : State) (n : Fin 4) (k c : Nat) (r : Round), (s.tx n).after = .relock k .same ∧ (s.tx
    n).cancelUp = false ∧ s.noHopWaits = true ∧ s.ramp n = 4 ∧ s.soleRound r n = true ∧ r.kind = .inventory ∧ r.atRest = true ∧ r.beams = [] ∧ (s.tx
    n).chan = some c ∧ s.chanOff.contains c = false ∧ s.clash n c = false ∧ s.regsWf = true :=
  ⟨({ onAir with txc := [{ Txc.init with after := .relock 1 .same, chan := some 0 }, .init, .init, .init] }).setReg (Reg.txcStat 0) 4, 0, 1, 0,
    roundA, by decide +kernel⟩
theorem witness_SynthesisersAmplifiersAndChainsFail_5 : ∃ (s : State) (n : Fin 4), s.ramp n = 2 ∧ s.portClass (s.fld (Reg.txcStat n) 16 6) ≠ 5 ∧
    s.txReason n = 0 ∧ s.cmds = [] ∧ s.cands = [] ∧ s.rounds = [] ∧ s.fifo.fault.length < 32 ∧ s.regsWf = true :=
  ⟨base.setReg (Reg.txcStat 2) 0x102, 2, by decide +kernel⟩
theorem witness_SynthesisersAmplifiersAndChainsFail_6 : ∃ (s : State) (n : Fin 16), (s.chain n).svc = .inService ∧ s.fld (Reg.rxcStat n) 24 8 = 0 ∧
    s.freeSpareChain (n.val / 4) = none ∧ s.cmds = [] ∧ s.rounds = [] ∧ s.fifo.fault.length < 32 ∧ s.regsWf = true :=
  ⟨{ withDraft with chains := State.reset.chains.set 4 { Chain.init with svc := .inService } }, 4, by decide +kernel⟩
theorem witness_SynthesisersAmplifiersAndChainsFail_7 : ∃ (s : State) (n : Fin 16), (s.chain n).svc = .inService ∧ s.fld (Reg.rxcStat n) 24 8 = 0 ∧
    s.freeSpareChain (n.val / 4) = none ∧ s.cmds = [] ∧ s.rounds = [] ∧ s.fifo.fault.length < 32 ∧ s.regsWf = true :=
  ⟨{ withDraft with chains := State.reset.chains.set 4 { Chain.init with svc := .inService } }, 4, by decide +kernel⟩
theorem witness_RampsAndSettling_1 : ∃ (s : State) (n : Fin 4), s.ramp n = 1 ∧ s.roundOfTxc n = none ∧ s.regsWf = true :=
  ⟨base.setReg (Reg.txcStat 1) 0x101, 1, by decide +kernel⟩
theorem witness_RampsAndSettling_2 : ∃ (s : State) (n : Fin 4) (r : Round), s.ramp n = 1 ∧ s.soleRound r n = true ∧ r.kind.peer = false ∧
    s.noHopWaits = true ∧ s.regsWf = true :=
  ⟨({ onAir with rounds := [{ roundA with phase := .starting }] }).setReg (Reg.txcStat 0) 0x800101, 0, { roundA with phase := .starting }, by
    decide +kernel⟩
theorem witness_RampsAndSettling_3 : ∃ (s : State) (n : Fin 4) (r : Round), s.ramp n = 1 ∧ s.soleRound r n = true ∧ r.kind.peer = true ∧ s.noHopWaits
    = true ∧ s.regsWf = true :=
  ⟨({ onAir with rounds := [{ roundA with kind := .peerWin }] }).setReg (Reg.txcStat 0) 0x800101, 0, { roundA with kind := .peerWin }, by
    decide +kernel⟩
theorem witness_RampsAndSettling_4 : ∃ (s : State) (n : Fin 4) (c u : Nat) (rg : RegionProfile), s.ramp n = 3 ∧ (s.tx n).after = .off ∧ s.rounds = []
    ∧ s.fallsAlone n = true ∧ (s.tx n).chan = some c ∧ (s.tx n).onAt = some u ∧ s.region = some rg ∧ s.regsWf = true :=
  ⟨({ withDraft with txc := [.init, { Txc.init with chan := some 3, onAt := some 40 }, .init, .init], peer := { Peer.init with steer := -3 } }).setReg
    (Reg.txcStat 1) 0x910203, 1, 3, 40, regionA, by decide +kernel⟩
theorem witness_RampsAndSettling_5 : ∃ (s : State) (n : Fin 4) (r : Round) (ch : Nat) (rg : RegionProfile), s.ramp n = 3 ∧ (s.tx n).after = .hop ch ∧
    s.soleRound r n = true ∧ r.kind = .inventory ∧ s.fallsAlone n = true ∧ (s.tx n).chan.all (fun c => c != ch) = true ∧ s.region = some rg ∧
    rg.offTime = 0 ∧ r.port < 64 ∧ s.regsWf = true :=
  ⟨({ onAir with txc := [{ Txc.init with chan := some 0, after := .hop 2 }, .init, .init, .init] }).setReg (Reg.txcStat 0) 0x800103, 0, roundA, 2,
    regionA, by decide +kernel⟩
theorem witness_RampsAndSettling_6 : ∃ (s : State) (n : Fin 4) (r : Round), s.ramp n = 3 ∧ (s.tx n).after = .change ∧ s.soleRound r n = true ∧
    s.fallsAlone n = true ∧ r.kind = .inventory ∧ r.port < 64 ∧ ((s.tx n).chan.all (fun c => !s.chanOff.contains c && !s.clash n c)) = true ∧
    s.regsWf = true :=
  ⟨({ onAir with txc := [{ Txc.init with chan := some 0, after := .change }, .init, .init, .init], rounds := [{ roundA with port := 2 }] }).setReg
    (Reg.txcStat 0) 0x800103, 0, { roundA with port := 2 }, by decide +kernel⟩
theorem witness_RampsAndSettling_7 : ∃ (s : State) (n : Fin 4) (r : Round), s.ramp n = 4 ∧ (s.tx n).after = .off ∧ (s.tx n).waiting = false ∧ (s.tx
    n).cancelUp = false ∧ s.soleRound r n = true ∧ r.serves = true ∧ ((s.tx n).chan.all (fun c => !s.chanOff.contains c && !s.clash n c)) = true ∧
    s.regsWf = true :=
  ⟨({ onAir with rounds := [{ roundA with upAt := none }] }).setReg (Reg.txcStat 0) 0x800004, 0, { roundA with upAt := none }, by decide +kernel⟩
theorem witness_RampsAndSettling_8 : ∃ (s : State) (n : Fin 4) (r : Round) (c : Nat), s.ramp n = 4 ∧ (s.tx n).after = .off ∧ (s.tx n).waiting = false
    ∧ (s.tx n).cancelUp = false ∧ s.soleRound r n = true ∧ r.serves = true ∧ (s.tx n).chan = some c ∧ (s.chanOff.contains c = true ∨ s.clash n c =
    true) ∧ s.regsWf = true :=
  ⟨({ onAir with chanOff := [0] }).setReg (Reg.txcStat 0) 0x800004, 0, roundA, 0, by decide +kernel⟩
theorem witness_RampsAndSettling_9 : ∃ (s : State) (n : Fin 4) (r : Round), s.ramp n = 4 ∧ (s.tx n).after = .off ∧ (s.tx n).waiting = false ∧ (s.tx
    n).cancelUp = false ∧ s.soleRound r n = true ∧ (r.kind = .peerWin ∨ r.kind = .peerRx) ∧ s.regsWf = true :=
  ⟨({ onAir with rounds := [{ roundA with kind := .peerWin }] }).setReg (Reg.txcStat 0) 0x800004, 0, { roundA with kind := .peerWin }, by
    decide +kernel⟩
theorem witness_RampsAndSettling_10 : ∃ (s : State) (ch : BitVec 6) (n : Nat), n < 4 ∧ (s.tx n).waiting = true ∧ (s.tx n).chan = some ch.toNat ∧
    s.ramp n = 4 ∧ s.rounds = [] ∧ s.chanOff.all (fun k => k == ch.toNat) = true ∧ s.clash n ch.toNat = false ∧ (∀ k < 4, k = n ∨ (s.tx k).waiting =
    false) ∧ s.regsWf = true :=
  ⟨({ base with chanOff := [5], txc := [.init, { Txc.init with waiting := true, chan := some 5 }, .init, .init] }).setReg (Reg.txcStat 1) 0x4, 5, 1,
    by decide +kernel⟩
theorem witness_RampsAndSettling_11 : ∃ (s : State) (ch : BitVec 6), (∀ k < 4, (s.tx k).waiting = false) ∧ s.regsWf = true :=
  ⟨{ base with chanOff := [3, 5] }, 3, by decide +kernel⟩
theorem witness_HopsAndGuard_1 : ∃ (s : State) (n : Fin 4) (r : Round) (rg : RegionProfile), s.ramp n = 2 ∧ s.soleRound r n = true ∧ r.kind =
    .inventory ∧ r.atRest = true ∧ r.beams = [] ∧ r.leg = none ∧ s.noHopWaits = true ∧ s.region = some rg ∧ rg.spread = false ∧ (∀ k < 4, k = n.val ∨
    s.ramp k = 0) ∧ s.regsWf = true :=
  ⟨{ onAir with hopPos := 7 }, 0, roundA, regionA, by decide +kernel⟩
theorem witness_HopsAndGuard_2 : ∃ (s : State) (d : Draft) (n : Nat) (r : Round), s.upd.live = some d ∧ s.coreOn = true ∧ d.region.spread = false ∧
    s.bit Reg.peerCfg 1 = false ∧ s.soleRound r n = true ∧ n < 4 ∧ s.ramp n = 2 ∧ s.noHopWaits = true ∧ (∀ k < 4, k = n ∨ s.ramp k = 0) ∧ r.atRest =
    true ∧ r.serves = true ∧ eHop r.words = 1 ∧ s.regsWf = true :=
  ⟨{ onAir with rounds := [{ roundA with words := [0x20000] }] }, draftA, 0, { roundA with words := [0x20000] }, by decide +kernel⟩
theorem witness_HopsAndGuard_3 : ∃ (s : State) (d : Draft) (n : Nat) (r : Round), s.upd.live = some d ∧ s.coreOn = true ∧ s.bit Reg.peerCfg 1 = false
    ∧ s.soleRound r n = true ∧ s.serving n = true ∧ n < 4 ∧ eHop r.words ≠ 1 ∧ s.noHopWaits = true ∧ d.region.spread = false ∧ s.regsWf = true :=
  ⟨onAir, draftA, 0, roundA, by decide +kernel⟩
theorem witness_HopsAndGuard_4 : ∃ (s : State) (d : Draft), s.upd.live = some d ∧ s.coreOn = true ∧ s.bit Reg.peerCfg 1 = true ∧ s.rounds = [] ∧
    s.noHopWaits = true ∧ d.hopEpoch ≠ 0 ∧ s.regsWf = true :=
  ⟨{ regsOf withDraft [(Reg.peerCfg, 2), (Reg.peerColour, 3)] with timeBase := 250000 }, draftA, by decide +kernel⟩
theorem witness_HopsAndGuard_5 : ∃ (s : State) (n : Fin 4) (r : Round) (l : Leg), s.ramp n = 2 ∧ s.soleRound r n = true ∧ r.leg = some l ∧
    r.awaitsDelayed = true ∧ s.regsWf = true :=
  ⟨{ accOnAir with rounds := [{ roundW with leg := some { legW with delayed := true } }] }, 0,
    { roundW with leg := some { legW with delayed := true } }, { legW with delayed := true }, by decide +kernel⟩
theorem witness_HopsAndGuard_6 : ∃ (s : State) (n : Fin 4) (r : Round) (rg : RegionProfile) (l : Leg) (a : Air), s.ramp n = 2 ∧ s.soleRound r n =
    true ∧ r.kind = .access ∧ r.leg = some l ∧ l.phase = .accHeld ∧ r.status = none ∧ s.noHopWaits = true ∧ l.held = some (a, false) ∧ s.region =
    some rg ∧ rg.spread = false ∧ (∀ k < 4, k = n.val ∨ s.ramp k = 0) ∧ s.regsWf = true :=
  ⟨{ accOnAir with rounds := [{ roundW with leg := some { legW with phase := .accHeld, held := some (.write 3 0 0x1234 7, false) } }] }, 0,
    { roundW with leg := some { legW with phase := .accHeld, held := some (.write 3 0 0x1234 7, false) } }, regionA,
    { legW with phase := .accHeld, held := some (.write 3 0 0x1234 7, false) }, .write 3 0 0x1234 7, by decide +kernel⟩
theorem witness_CalibrationAndGain_1 : ∃ (s : State) (w : Fin 4) (r : Round) (n g c : Nat) (pass : Bool), s.soleRound r n = true ∧ r.warps.contains
    w.val = true ∧ r.kind = .cal ∧ r.points.head? = some (g, c) ∧ s.ramp n = 2 ∧ s.geo? r.warp g = none ∧ s.regsWf = true :=
  ⟨{ onAir with rounds := [{ roundA with kind := .cal, points := [(5, 2)] }] }, 0, { roundA with kind := .cal, points := [(5, 2)] }, 0, 5, 2, true,
    by decide +kernel⟩
theorem witness_CalibrationAndGain_2 : ∃ (s : State) (w : Fin 4) (r : Round) (n g c k p : Nat) (x : Geometry), s.soleRound r n = true ∧
    r.warps.contains w.val = true ∧ r.kind = .cal ∧ r.points.head? = some (g, c) ∧ s.ramp n = 2 ∧ s.geo? r.warp g = some x ∧ s.calPairs x = [(k, p)]
    ∧ k < 16 ∧ n < 4 ∧ s.regsWf = true :=
  ⟨{ onAir with rounds := [{ roundA with kind := .cal, points := [(0, 2)] }], chains := State.reset.chains.set 0 { Chain.init with svc := .inService } },
    0, { roundA with kind := .cal, points := [(0, 2)] }, 0, 0, 2, 0, 1, geoA, by decide +kernel⟩
theorem witness_CalibrationAndGain_3 : ∃ (s : State) (n : Fin 4) (r : Round) (g c : Nat), s.ramp n = 3 ∧ (s.tx n).after = .change ∧ s.soleRound r n =
    true ∧ s.fallsAlone n = true ∧ r.kind = .cal ∧ r.points = [(g, c)] ∧ r.verdict = some true ∧ s.cmds = [] ∧ s.cands = [] ∧ s.regsWf = true :=
  ⟨({ onAir with rounds := [{ roundA with kind := .cal, points := [(0, 2)], verdict := some true }], txc := [{ Txc.init with chan := some 0, after := .change }, .init, .init, .init] }).setReg
    (Reg.txcStat 0) 0x800103, 0, { roundA with kind := .cal, points := [(0, 2)], verdict := some true }, 0, 2, by decide +kernel⟩
theorem witness_CalibrationAndGain_4 : ∃ (s : State) (n : Fin 4) (r : Round) (g c : Nat), s.ramp n = 3 ∧ (s.tx n).after = .change ∧ s.soleRound r n =
    true ∧ s.fallsAlone n = true ∧ r.kind = .cal ∧ r.points = [(g, c)] ∧ r.verdict = some false ∧ r.failed = true ∧ s.halfRuns = true ∧ s.cmds = [] ∧
    s.cands = [] ∧ s.regsWf = true :=
  ⟨({ onAir with rounds := [{ roundA with kind := .cal, points := [(0, 2)], verdict := some false, failed := true }], mgmt := { Mgmt.init with running := some true }, txc := [{ Txc.init with chan := some 0, after := .change }, .init, .init, .init] }).setReg
    (Reg.txcStat 0) 0x800103, 0, { roundA with kind := .cal, points := [(0, 2)], verdict := some false, failed := true }, 0, 2, by decide +kernel⟩
theorem witness_CalibrationAndGain_5 : ∃ (s : State) (n : Fin 4) (r : Round) (g c : Nat) (x : Geometry) (rg : RegionProfile), s.ramp n = 3 ∧ (s.tx
    n).after = .change ∧ s.soleRound r n = true ∧ s.fallsAlone n = true ∧ r.kind = .cal ∧ r.points = [(g, c)] ∧ r.verdict = some false ∧ r.failed =
    false ∧ s.geo? r.warp g = some x ∧ x.txc = n.val ∧ s.txcUp n = true ∧ s.geoCal x = true ∧ s.region = some rg ∧ s.noAnt = true ∧ s.cmds = [] ∧
    s.cands = [] ∧ s.regsWf = true :=
  ⟨regsOf ({ onAir with rounds := [{ roundA with kind := .cal, points := [(0, 2)], verdict := some false, failed := false }], txc := [{ Txc.init with chan := some 0, after := .change }, .init, .init, .init], chains := State.reset.chains.set 0 { Chain.init with svc := .inService } })
    [(Reg.txcStat 0, 0x800103), (Reg.portState 0, 0x111)], 0,
    { roundA with kind := .cal, points := [(0, 2)], verdict := some false, failed := false }, 0, 2, geoA, regionA, by decide +kernel⟩
theorem witness_CalibrationAndGain_6 : ∃ (s : State) (rg : RegionProfile), s.region = some rg ∧ s.coreOn = true ∧ rg.groups ≠ [] ∧ s.cands = [] ∧
    s.regsWf = true :=
  ⟨{ withDraft with calNext := 7 }, regionA, by decide +kernel⟩
theorem witness_CalibrationAndGain_7 : ∃ (s : State) (n : Fin 16) (r : Round) (b : Beam) (k g ch : Nat) (rg : RegionProfile), s.soleRound r k = true
    ∧ r.beams = [0] ∧ s.beam? 0 = some b ∧ b.geo = g ∧ b.chains.any (fun e => e.1 == n.val) = true ∧ r.geos.head? = some g ∧ s.region = some rg ∧
    (s.tx k).chan = some ch ∧ s.ramp k = 2 ∧ sget (fun _ => 0) s.divAt (256 * r.warp + 8 * g + regionGroup rg ch) = 0 ∧ s.cands = [] ∧ s.regsWf =
    true :=
  ⟨{ onAir with rounds := [{ roundA with beams := [0] }], beams := State.reset.beams.set 0 (some (newBeam ⟨0, false, [(0, 1)]⟩)) }, 0,
    { roundA with beams := [0] }, newBeam ⟨0, false, [(0, 1)]⟩, 0, 0, 0, regionA, by decide +kernel⟩
theorem witness_CalibrationAndGain_8 : ∃ (s : State) (w : Fin 4) (gains : List ChainGain) (r : Round) (n : Nat), s.soleRound r n = true ∧ n < 4 ∧
    r.warps.contains w.val = true ∧ r.kind = .inventory ∧ r.atRest = true ∧ s.ramp n = 2 ∧ r.beams = [] ∧ r.leg = none ∧ r.uma = none ∧ r.hopDue =
    false ∧ eProto r.words = 0 ∧ s.regsWf = true :=
  ⟨onAir, 0, [], roundA, 0, by decide +kernel⟩
theorem witness_CalibrationAndGain_9 : ∃ (s : State) (w : Fin 4) (gains : List ChainGain) (r : Round) (n k : Nat) (b : Beam) (g : ChainGain),
    s.soleRound r n = true ∧ n < 4 ∧ r.warps.contains w.val = true ∧ r.kind = .inventory ∧ r.atRest = true ∧ s.ramp n = 2 ∧ r.beams = [0] ∧ s.beam? 0
    = some b ∧ r.geos.head? = some b.geo ∧ b.chains.map (fun e => e.1) = [k] ∧ k < 16 ∧ gains = [g] ∧ g.chain.val = k ∧ s.bit (Reg.rxcCfg k) 7 =
    false ∧ s.regsWf = true :=
  ⟨{ onAir with rounds := [{ roundA with beams := [0] }], beams := State.reset.beams.set 0 (some (newBeam ⟨0, false, [(0, 1)]⟩)) }, 0, [⟨0, -60⟩],
    { roundA with beams := [0] }, 0, 0, newBeam ⟨0, false, [(0, 1)]⟩, ⟨0, -60⟩, by decide +kernel⟩
theorem witness_LocksAndReceptions_1 : ∃ (s : State) (m : Fin 16) (b : Beam) (r : Round) (p : Int), s.beam? m = some b ∧ s.rounds = [r] ∧
    r.beams.contains m.val = true ∧ b.window = true ∧ b.rec_ = none ∧ b.next = none ∧ s.thrOf r ≤ p ∧ s.fld (Reg.loomBeam m) 28 3 ≠ 2 ∧ s.regsWf =
    true :=
  ⟨listening, 0, beamA, roundL, -100, by decide +kernel⟩
theorem witness_LocksAndReceptions_2 : ∃ (s : State) (m : Fin 16) (b : Beam) (r : Round) (p : Int), s.beam? m = some b ∧ s.rounds = [r] ∧
    r.beams.contains m.val = true ∧ b.window = true ∧ b.rec_ = none ∧ b.next = none ∧ s.thrOf r ≤ p ∧ s.fld (Reg.loomBeam m) 28 3 = 2 ∧ s.regsWf =
    true :=
  ⟨listening.setReg (Reg.loomBeam 0) 0x29000001, 0, beamA, roundL, -100, by decide +kernel⟩
theorem witness_LocksAndReceptions_3 : ∃ (s : State) (m : Fin 16) (r : Round) (p : Int), s.rounds = [r] ∧ p < s.thrOf r ∧ s.regsWf = true :=
  ⟨listening, 0, roundL, -150, by decide +kernel⟩
theorem witness_LocksAndReceptions_4 : ∃ (s : State) (m : Fin 16) (b : Beam) (r : Round) (x : Reception) (p : Int) (y : RxSignal) (h : Bool), s.beam?
    m = some b ∧ s.rounds = [r] ∧ r.beams.contains m.val = true ∧ b.rec_ = some x ∧ b.ending = false ∧ b.secOff = false ∧ b.captures < 4 ∧ s.captures
    r x p = true ∧ s.fld (Reg.loomBeam m) 28 3 ≠ 2 ∧ b.chains.all (fun e => decide (e.1 < 16)) = true ∧ (s.report r b (s.weightsAfter r b y)
    y).header = h ∧ s.regsWf = true :=
  ⟨{ listening with beams := [some { beamA with rec_ := some ⟨-120, 6⟩, captures := 3 }] }, 0, { beamA with rec_ := some ⟨-120, 6⟩, captures := 3 },
    roundL, ⟨-120, 6⟩, -90, sigRn, true, by decide +kernel⟩
theorem witness_LocksAndReceptions_5 : ∃ (s : State) (m : Fin 16) (b : Beam) (r : Round) (x : Reception) (p : Int) (y : RxSignal), s.beam? m = some b
    ∧ s.rounds = [r] ∧ r.beams.contains m.val = true ∧ b.rec_ = some x ∧ b.ending = false ∧ b.secOff = false ∧ 4 ≤ b.captures ∧ s.captures r x p =
    true ∧ s.regsWf = true :=
  ⟨{ listening with beams := [some { beamA with rec_ := some ⟨-120, 6⟩, captures := 4 }] }, 0, { beamA with rec_ := some ⟨-120, 6⟩, captures := 4 },
    roundL, ⟨-120, 6⟩, -90, sigRn, by decide +kernel⟩
theorem witness_LocksAndReceptions_6 : ∃ (s : State) (m : Fin 16) (b : Beam) (r : Round) (x : Reception) (p : Int) (y : RxSignal) (l : Bool), s.beam?
    m = some b ∧ s.rounds = [r] ∧ b.rec_ = some x ∧ p < x.pref + (x.margin : Int) ∧ s.regsWf = true :=
  ⟨({ listening with beams := [some { beamA with rec_ := some ⟨-120, 6⟩ }] }).setReg Reg.loomCtrl 0x60000, 0, { beamA with rec_ := some ⟨-120, 6⟩ },
    roundL, ⟨-120, 6⟩, -115, sigRn, false, by decide +kernel⟩
theorem witness_LocksAndReceptions_7 : ∃ (s : State) (m : Fin 16) (b : Beam) (r : Round) (x : Reception) (y : RxSignal) (l : Leg), s.beam? m = some b
    ∧ s.rounds = [r] ∧ r.beams.contains m.val = true ∧ b.rec_ = some x ∧ b.decoding = none ∧ b.heard = none ∧ b.chains.all (fun e => decide (e.1 <
    16)) = true ∧ r.uma = none ∧ r.leg = some l ∧ r.isU0 = false ∧ s.fld (Reg.loomBeam m) 24 4 < 8 ∧ (r.devOk y.dev && decide (8 ≤ y.bits.length) &&
    y.collision.all (fun k => decide (8 ≤ k))) = false ∧ s.regsWf = true :=
  ⟨{ listening with beams := [some { beamA with rec_ := some ⟨-120, 6⟩, next := some ⟨-110, 6⟩, ending := true }] }, 0,
    { beamA with rec_ := some ⟨-120, 6⟩, next := some ⟨-110, 6⟩, ending := true }, roundL, ⟨-120, 6⟩, { sigRn with collision := some 3 }, legA, by
    decide +kernel⟩
theorem witness_LocksAndReceptions_8 : ∃ (s : State) (m : Fin 16) (b : Beam) (r : Round) (x : Reception) (y : RxSignal) (u : Uma), s.beam? m = some b
    ∧ s.rounds = [r] ∧ r.beams.contains m.val = true ∧ b.rec_ = some x ∧ b.decoding = none ∧ b.heard = none ∧ b.chains.all (fun e => decide (e.1 <
    16)) = true ∧ r.beams = [m.val] ∧ r.geos.head? = some b.geo ∧ b.next = none ∧ r.uma = some u ∧ y.wefts = [] ∧ s.regsWf = true :=
  ⟨{ umaInv with beams := [some { beamA with rec_ := some ⟨-120, 6⟩ }] }, 0, { beamA with rec_ := some ⟨-120, 6⟩ }, roundU, ⟨-120, 6⟩,
    { sigRn with bits := [] }, umaA, by decide +kernel⟩
theorem witness_LocksAndReceptions_9 : ∃ (s : State) (m : Fin 16) (b : Beam) (r : Round) (x : Reception) (y : RxSignal) (l : Leg) (n p : Nat) (c :
    ChainRx), s.beam? m = some b ∧ s.rounds = [r] ∧ r.beams.contains m.val = true ∧ b.rec_ = some x ∧ b.decoding = none ∧ b.chains = [(n, p)] ∧ n <
    16 ∧ r.uma = none ∧ r.leg = some l ∧ r.isU0 = false ∧ s.fld (Reg.loomBeam m) 24 4 < 8 ∧ (r.devOk y.dev && decide (8 ≤ y.bits.length) &&
    y.collision.all (fun k => decide (8 ≤ k))) = true ∧ y.chains = [c] ∧ c.chain.val = n ∧ c.clip = false ∧ swf (fun _ => ((0, 0) : Cx)) s.wts = true
    ∧ s.regsWf = true :=
  ⟨{ listening with beams := [some { beamA with rec_ := some ⟨-120, 6⟩ }] }, 0, { beamA with rec_ := some ⟨-120, 6⟩ }, roundL, ⟨-120, 6⟩, sigRn,
    legA, 0, 1, ⟨0, -110, false, [(2 ^ 16, 0), (-(2 ^ 15), 7)], []⟩, by decide +kernel⟩
theorem witness_LocksAndReceptions_10 : ∃ (s : State) (w : Fin 4) (r : Round) (m n : Nat) (b : Beam), s.rounds = [r] ∧ r.warps.contains w.val = true
    ∧ r.txc = some n ∧ s.ramp n = 2 ∧ r.beams = [m] ∧ s.beam? m = some b ∧ r.geos.head? = some b.geo ∧ r.expectsReply = true ∧ s.regsWf = true :=
  ⟨{ listening with beams := [some { beamA with window := false, captures := 2, secOff := true }] }, 0, roundL, 0, 0,
    { beamA with window := false, captures := 2, secOff := true }, by decide +kernel⟩
theorem witness_LocksAndReceptions_11 : ∃ (s : State) (w : Fin 4) (r : Round) (m : Nat) (b : Beam), s.rounds = [r] ∧ r.warps.contains w.val = true ∧
    r.beams = [m] ∧ s.beam? m = some b ∧ r.geos.head? = some b.geo ∧ b.locked = true ∧ s.regsWf = true :=
  ⟨{ listening with beams := [some { beamA with rec_ := some ⟨-120, 6⟩, captures := 1, locked := true }] }, 0, roundL, 0,
    { beamA with rec_ := some ⟨-120, 6⟩, captures := 1, locked := true }, by decide +kernel⟩
theorem witness_LocksAndReceptions_12 : ∃ (s : State) (w : Fin 4) (r : Round) (n : Nat) (l : Leg) (c : Cmd) (k p v h : Nat), s.rounds = [r] ∧
    r.warps.contains w.val = true ∧ r.txc = some n ∧ s.ramp n = 2 ∧ r.uma = none ∧ r.kind = .access ∧ r.leg = some l ∧ l.phase = .accOp ∧ r.sent =
    [.write k p v h] ∧ r.txn = some false ∧ s.cmds = [c] ∧ c.seq = r.seq ∧ c.cell = none ∧ s.regsWf = true :=
  ⟨{ accOnAir with rounds := [roundW], cmds := [{ seq := 5, res := none, kind := .entry 0, cell := none }] }, 0, roundW, 0, legW,
    { seq := 5, res := none, kind := .entry 0, cell := none }, 3, 0, 0x1234, 7, by decide +kernel⟩
theorem witness_LocksAndReceptions_13 : ∃ (s : State) (w : Fin 4) (r : Round) (n : Nat) (l : Leg) (c : Cmd) (p h : Nat), s.rounds = [r] ∧
    r.warps.contains w.val = true ∧ r.txc = some n ∧ s.ramp n = 2 ∧ r.uma = none ∧ r.kind = .access ∧ r.leg = some l ∧ l.phase = .accOp ∧ r.sent =
    [.lock p h] ∧ r.txn = some false ∧ s.cmds = [c] ∧ c.seq = r.seq ∧ c.cell = none ∧ s.regsWf = true :=
  ⟨{ accOnAir with rounds := [{ roundW with sent := [.lock 5 7] }], cmds := [{ seq := 5, res := none, kind := .entry 0, cell := none }] }, 0,
    { roundW with sent := [.lock 5 7] }, 0, legW, { seq := 5, res := none, kind := .entry 0, cell := none }, 5, 7, by decide +kernel⟩
theorem witness_LocksAndReceptions_14 : ∃ (s : State) (w : Fin 4) (r : Round) (n : Nat) (l : Leg) (c : Cmd) (p h : Nat), s.rounds = [r] ∧
    r.warps.contains w.val = true ∧ r.txc = some n ∧ s.ramp n = 2 ∧ r.uma = none ∧ r.kind = .access ∧ r.leg = some l ∧ l.phase = .accOp ∧ r.sent =
    [.kill p h] ∧ l.words = 1 ∧ r.txn = some false ∧ s.cmds = [c] ∧ c.seq = r.seq ∧ c.cell = none ∧ s.regsWf = true :=
  ⟨{ accOnAir with rounds := [{ roundW with sent := [.kill 5 7], leg := some { legW with words := 1 } }], cmds := [{ seq := 5, res := none, kind := .entry 0, cell := none }] },
    0, { roundW with sent := [.kill 5 7], leg := some { legW with words := 1 } }, 0, { legW with words := 1 },
    { seq := 5, res := none, kind := .entry 0, cell := none }, 5, 7, by decide +kernel⟩
theorem witness_LocksAndReceptions_15 : ∃ (s : State) (w : Fin 4) (r : Round) (n : Nat) (l : Leg), s.rounds = [r] ∧ r.warps.contains w.val = true ∧
    r.txc = some n ∧ s.ramp n = 2 ∧ r.uma = none ∧ r.kind.peer = false ∧ r.leg = some l ∧ r.sent = [.queryRep 0] ∧ s.regsWf = true :=
  ⟨{ accOnAir with rounds := [{ roundW with sent := [.queryRep 0] }] }, 0, { roundW with sent := [.queryRep 0] }, 0, legW, by decide +kernel⟩
theorem witness_DecodersAndFrames_1 : ∃ (s : State) (m : Fin 16) (b : Beam) (r : Round) (x : RxReport) (l : Leg) (ties : List Nat), s.beam? m = some
    b ∧ s.rounds = [r] ∧ r.beams.contains m.val = true ∧ b.decoding = some x ∧ r.leg = some l ∧ r.isU0 = false ∧ (l.phase = .slot ∨ l.phase =
    .accSlot) ∧ s.regsWf = true :=
  ⟨{ listening with beams := [some { beamA with decoding := some rxRn }] }, 0, { beamA with decoding := some rxRn }, roundL, rxRn, legA, [2], by
    decide +kernel⟩
theorem witness_DecodersAndFrames_2 : ∃ (s : State) (m : Fin 16) (b : Beam) (r : Round) (x : RxReport) (l : Leg) (ties : List Nat), s.beam? m = some
    b ∧ s.rounds = [r] ∧ r.beams.contains m.val = true ∧ b.decoding = some x ∧ r.leg = some l ∧ l.phase ≠ .slot ∧ l.phase ≠ .accSlot ∧ s.regsWf =
    true :=
  ⟨identHeard.setReg 0 0, 0, { beamA with decoding := some rxEpc }, roundI, rxEpc, { legA with phase := .ident, rn := 0x1234 }, [], by decide +kernel⟩
theorem witness_DecodersAndFrames_3 : ∃ (s : State) (b : Beam) (r : Round) (l : Leg) (j : CrcJob) (q : List CrcJob), s.crcQ = j :: q ∧ s.beam? j.beam
    = some b ∧ s.rounds = [r] ∧ r.beams.contains j.beam = true ∧ r.leg = some l ∧ r.uma = none ∧ r.isU0 = false ∧ eProto r.words = 0 ∧
    (j.rx.bits.length < 16 ∨ crc16 (j.rx.bits.take (j.rx.bits.length - 16)) ≠ natOfBits (j.rx.bits.drop (j.rx.bits.length - 16))) ∧ s.regsWf = true :=
  ⟨{ identHeard with crcQ := [{ beam := 0, rx := { rxEpc with bits := [true] }, weft := none }] }, { beamA with decoding := some rxEpc }, roundI,
    { legA with phase := .ident, rn := 0x1234 }, { beam := 0, rx := { rxEpc with bits := [true] }, weft := none }, [], by decide +kernel⟩
theorem witness_DecodersAndFrames_4 : ∃ (s : State) (b : Beam) (r : Round) (l : Leg) (j : CrcJob) (q : List CrcJob) (i : Nat), s.crcQ = j :: q ∧
    s.beam? j.beam = some b ∧ s.rounds = [r] ∧ r.beams.contains j.beam = true ∧ r.warps = [r.warp] ∧ r.warp < 4 ∧ r.port < 64 ∧ r.leg = some l ∧
    r.uma = none ∧ r.isU0 = false ∧ r.kind = .inventory ∧ r.txn = some false ∧ eProto r.words = 0 ∧ l.phase = .ident ∧ l.sighted = false ∧ 32 ≤
    j.rx.bits.length ∧ crc16 (j.rx.bits.take (j.rx.bits.length - 16)) = natOfBits (j.rx.bits.drop (j.rx.bits.length - 16)) ∧ s.findSeen 0 (s.keyOf 0
    ((j.rx.bits.take (j.rx.bits.length - 16)).drop 16)) = none ∧ s.freeSeen = some i ∧ s.seenWf = true ∧ s.regsWf = true :=
  ⟨{ identHeard with crcQ := [{ beam := 0, rx := rxEpc, weft := none }] }, { beamA with decoding := some rxEpc }, roundI,
    { legA with phase := .ident, rn := 0x1234 }, { beam := 0, rx := rxEpc, weft := none }, [], 0, by decide +kernel⟩
theorem witness_DecodersAndFrames_5 : ∃ (s : State) (b : Beam) (r : Round) (l : Leg) (j : CrcJob) (q : List CrcJob) (i : Nat) (e : Seen), s.crcQ = j
    :: q ∧ s.beam? j.beam = some b ∧ s.rounds = [r] ∧ r.beams.contains j.beam = true ∧ r.warps = [r.warp] ∧ r.warp < 4 ∧ r.port < 64 ∧ r.leg = some l
    ∧ r.uma = none ∧ r.isU0 = false ∧ r.kind = .inventory ∧ r.txn = some false ∧ eProto r.words = 0 ∧ l.phase = .ident ∧ l.sighted = false ∧ 32 ≤
    j.rx.bits.length ∧ crc16 (j.rx.bits.take (j.rx.bits.length - 16)) = natOfBits (j.rx.bits.drop (j.rx.bits.length - 16)) ∧ s.findSeen 0 (s.keyOf 0
    ((j.rx.bits.take (j.rx.bits.length - 16)).drop 16)) = some i ∧ s.seenAt i = some e ∧ s.seenWf = true ∧ s.regsWf = true :=
  ⟨{ identHeard with crcQ := [{ beam := 0, rx := rxEpc, weft := none }], seen := [(3, some seenA)] }, { beamA with decoding := some rxEpc }, roundI,
    { legA with phase := .ident, rn := 0x1234 }, { beam := 0, rx := rxEpc, weft := none }, [], 3, seenA, by decide +kernel⟩
theorem witness_SlotsAndIdentities_1 : ∃ (s : State) (w : Fin 4) (r : Round) (l : Leg) (n m : Nat) (b : Beam), s.rounds = [r] ∧ r.warps = [r.warp] ∧
    r.warp = w.val ∧ r.txc = some n ∧ s.ramp n = 2 ∧ s.fld (Reg.txcStat n) 8 3 = 1 ∧ r.phase = .running ∧ r.txn = some false ∧ r.uma = none ∧ r.leg =
    some l ∧ r.port < 64 ∧ r.beams = [m] ∧ s.beam? m = some b ∧ r.geos = [b.geo] ∧ b.rec_ = none ∧ b.next = none ∧ b.decoding = none ∧ s.crcQ = [] ∧
    n < 4 ∧ m < 16 ∧ s.cmds = [] ∧ s.fld (Reg.loomBeam m) 0 16 = b.chains.foldl (fun a e => a + 2 ^ e.1) 0 ∧ (∀ e ∈ b.chains, e.1 < 16 ∧ (s.chain
    e.1).leaving = false) ∧ r.status = none ∧ r.noNew = false ∧ r.hopDue = false ∧ r.kind = .inventory ∧ l.phase = .slot ∧ l.split = [] ∧ r.isU0 =
    false ∧ b.locked = false ∧ b.heard = none ∧ r.lb 24 4 = 0 ∧ s.regsWf = true :=
  ⟨{ listening.setReg (Reg.loomBeam 0) 0x10000001 with rounds := [{ roundL with link := [0, 0x00882400] }] }, 0,
    { roundL with link := [0, 0x00882400] }, legA, 0, 0, beamA, by decide +kernel⟩
theorem witness_SlotsAndIdentities_2 : ∃ (s : State) (w : Fin 4) (r : Round) (l : Leg) (n m : Nat) (b : Beam) (x : RxReport), s.rounds = [r] ∧
    r.warps = [r.warp] ∧ r.warp = w.val ∧ r.txc = some n ∧ s.ramp n = 2 ∧ s.fld (Reg.txcStat n) 8 3 = 1 ∧ r.phase = .running ∧ r.txn = some false ∧
    r.uma = none ∧ r.leg = some l ∧ r.port < 64 ∧ r.beams = [m] ∧ s.beam? m = some b ∧ r.geos = [b.geo] ∧ b.rec_ = none ∧ b.next = none ∧ b.decoding
    = none ∧ s.crcQ = [] ∧ n < 4 ∧ m < 16 ∧ l.phase = .slot ∧ r.isU0 = false ∧ b.heard = some x ∧ r.devOk x.dev = true ∧ clean16 x = true ∧ s.regsWf
    = true :=
  ⟨{ listening with beams := [some { beamA with heard := some rxRn, locked := true }] }, 0, roundL, legA, 0, 0,
    { beamA with heard := some rxRn, locked := true }, rxRn, by decide +kernel⟩
theorem witness_SlotsAndIdentities_3 : ∃ (s : State) (w : Fin 4) (r : Round) (l : Leg) (n m : Nat) (b : Beam), s.rounds = [r] ∧ r.warps = [r.warp] ∧
    r.warp = w.val ∧ r.txc = some n ∧ s.ramp n = 2 ∧ s.fld (Reg.txcStat n) 8 3 = 1 ∧ r.phase = .running ∧ r.txn = some false ∧ r.uma = none ∧ r.leg =
    some l ∧ r.port < 64 ∧ r.beams = [m] ∧ s.beam? m = some b ∧ r.geos = [b.geo] ∧ b.rec_ = none ∧ b.next = none ∧ b.decoding = none ∧ s.crcQ = [] ∧
    n < 4 ∧ m < 16 ∧ s.cmds = [] ∧ s.fld (Reg.loomBeam m) 0 16 = b.chains.foldl (fun a e => a + 2 ^ e.1) 0 ∧ (∀ e ∈ b.chains, e.1 < 16 ∧ (s.chain
    e.1).leaving = false) ∧ r.status = none ∧ r.noNew = false ∧ r.hopDue = false ∧ r.kind = .inventory ∧ l.phase = .slot ∧ l.split = [] ∧ r.isU0 =
    false ∧ b.locked = true ∧ b.heard = none ∧ r.lb 24 4 = 0 ∧ s.regsWf = true :=
  ⟨{ listening.setReg (Reg.loomBeam 0) 0x10000001 with rounds := [{ roundL with link := [0, 0x00882400] }], beams := [some { beamA with locked := true }] },
    0, { roundL with link := [0, 0x00882400] }, legA, 0, 0, { beamA with locked := true }, by decide +kernel⟩
theorem witness_SlotsAndIdentities_4 : ∃ (s : State) (w : Fin 4) (r : Round) (l : Leg) (n m : Nat) (b : Beam), s.rounds = [r] ∧ r.warps = [r.warp] ∧
    r.warp = w.val ∧ r.txc = some n ∧ s.ramp n = 2 ∧ s.fld (Reg.txcStat n) 8 3 = 1 ∧ r.phase = .running ∧ r.txn = some true ∧ r.uma = none ∧ r.leg =
    some l ∧ r.port < 64 ∧ r.beams = [m] ∧ s.beam? m = some b ∧ r.geos = [b.geo] ∧ b.rec_ = none ∧ b.next = none ∧ b.decoding = none ∧ s.crcQ = [] ∧
    n < 4 ∧ m < 16 ∧ s.cmds = [] ∧ s.fld (Reg.loomBeam m) 0 16 = b.chains.foldl (fun a e => a + 2 ^ e.1) 0 ∧ (∀ e ∈ b.chains, e.1 < 16 ∧ (s.chain
    e.1).leaving = false) ∧ r.status = none ∧ r.noNew = false ∧ r.hopDue = false ∧ r.kind = .inventory ∧ l.phase = .ident ∧ l.sighted = true ∧
    l.split = [] ∧ r.isU0 = false ∧ r.lb 24 4 = 0 ∧ (l.qfp + 8) / 16 = l.q ∧ s.regsWf = true :=
  ⟨{ listening.setReg (Reg.loomBeam 0) 0x10000001 with rounds := [{ roundI with leg := some { legA with phase := .ident, sighted := true }, txn := some true, link := [0, 0x00882400] }] },
    0, { roundI with leg := some { legA with phase := .ident, sighted := true }, txn := some true, link := [0, 0x00882400] },
    { legA with phase := .ident, sighted := true }, 0, 0, beamA, by decide +kernel⟩
theorem witness_AccessOperations_1 : ∃ (s : State) (w : Fin 4) (r : Round) (l : Leg) (n m : Nat) (b : Beam) (x : RxReport), s.rounds = [r] ∧ r.warps
    = [r.warp] ∧ r.warp = w.val ∧ r.txc = some n ∧ s.ramp n = 2 ∧ s.fld (Reg.txcStat n) 8 3 = 1 ∧ r.phase = .running ∧ r.txn = some false ∧ r.uma =
    none ∧ r.leg = some l ∧ r.port < 64 ∧ r.beams = [m] ∧ s.beam? m = some b ∧ r.geos = [b.geo] ∧ b.rec_ = none ∧ b.next = none ∧ b.decoding = none ∧
    s.crcQ = [] ∧ n < 4 ∧ m < 16 ∧ r.kind = .access ∧ r.isU0 = false ∧ l.phase = .accOp ∧ eOp r.words = 1 ∧ b.heard = some x ∧ x.header = true ∧
    r.devOk x.dev = true ∧ x.collision = none ∧ crc16Ok x.bits = true ∧ (x.bits.take (x.bits.length - 16)).headD false = false ∧ l.kept = none ∧
    (s.fifo.warp.getD r.warp []).length < 64 ∧ s.regsWf = true :=
  ⟨accRead, 0, roundRd, legW, 0, 0, { beamA with heard := some rxRead, locked := true }, rxRead, by decide +kernel⟩
theorem witness_AccessOperations_2 : ∃ (s : State) (b : Beam) (r : Round) (l : Leg) (j : CrcJob) (q : List CrcJob) (c : Cmd), s.crcQ = j :: q ∧
    s.beam? j.beam = some b ∧ s.rounds = [r] ∧ r.beams.contains j.beam = true ∧ r.warps = [r.warp] ∧ r.leg = some l ∧ r.isU0 = false ∧ r.txn = some
    false ∧ l.phase = .accOp ∧ eOp r.words = 1 ∧ 16 ≤ j.rx.bits.length ∧ crc16 (j.rx.bits.take (j.rx.bits.length - 16)) = natOfBits (j.rx.bits.drop
    (j.rx.bits.length - 16)) ∧ s.cmds = [c] ∧ c.seq = r.seq ∧ c.cell = none ∧ s.regsWf = true :=
  ⟨{ accRead with cmds := [{ seq := 5, res := none, kind := .entry 0, cell := none }], crcQ := [{ beam := 0, rx := rxRead, weft := none }] },
    { beamA with heard := some rxRead, locked := true }, roundRd, legW, { beam := 0, rx := rxRead, weft := none }, [],
    { seq := 5, res := none, kind := .entry 0, cell := none }, by decide +kernel⟩
theorem witness_AccessOperations_3 : ∃ (s : State) (w : Fin 4) (r : Round) (l : Leg) (n m : Nat) (b : Beam) (x : RxReport), s.rounds = [r] ∧ r.warps
    = [r.warp] ∧ r.warp = w.val ∧ r.txc = some n ∧ s.ramp n = 2 ∧ s.fld (Reg.txcStat n) 8 3 = 1 ∧ r.phase = .running ∧ r.txn = some false ∧ r.uma =
    none ∧ r.leg = some l ∧ r.port < 64 ∧ r.beams = [m] ∧ s.beam? m = some b ∧ r.geos = [b.geo] ∧ b.rec_ = none ∧ b.next = none ∧ b.decoding = none ∧
    s.crcQ = [] ∧ n < 4 ∧ m < 16 ∧ r.kind = .access ∧ r.isU0 = false ∧ l.phase = .accOp ∧ eOp r.words = 1 ∧ l.retried = false ∧ l.kept = none ∧
    b.heard = some x ∧ x.header = true ∧ r.devOk x.dev = true ∧ x.bits.length < 16 ∧ r.status = none ∧ s.regsWf = true :=
  ⟨{ accRead with beams := [some { beamA with heard := some { rxRead with bits := [false] }, locked := true }] }, 0, roundRd, legW, 0, 0,
    { beamA with heard := some { rxRead with bits := [false] }, locked := true }, { rxRead with bits := [false] }, by decide +kernel⟩
theorem witness_AccessOperations_4 : ∃ (s : State) (w : Fin 4) (r : Round) (l : Leg) (n m : Nat) (b : Beam) (x : RxReport), s.rounds = [r] ∧ r.warps
    = [r.warp] ∧ r.warp = w.val ∧ r.txc = some n ∧ s.ramp n = 2 ∧ s.fld (Reg.txcStat n) 8 3 = 1 ∧ r.phase = .running ∧ r.txn = some false ∧ r.uma =
    none ∧ r.leg = some l ∧ r.port < 64 ∧ r.beams = [m] ∧ s.beam? m = some b ∧ r.geos = [b.geo] ∧ b.rec_ = none ∧ b.next = none ∧ b.decoding = none ∧
    s.crcQ = [] ∧ n < 4 ∧ m < 16 ∧ r.kind = .access ∧ r.isU0 = false ∧ l.phase = .accHandle ∧ eOp r.words = 1 ∧ r.words.getD 11 0 = 0 ∧ b.heard =
    some x ∧ x.header = true ∧ r.devOk x.dev = true ∧ x.collision = none ∧ crc16Ok x.bits = true ∧ r.status = none ∧ s.regsWf = true :=
  ⟨{ accRead with rounds := [{ roundRd with leg := some { legW with phase := .accHandle } }], beams := [some { beamA with heard := some rxHandle, locked := true }] },
    0, { roundRd with leg := some { legW with phase := .accHandle } }, { legW with phase := .accHandle }, 0, 0,
    { beamA with heard := some rxHandle, locked := true }, rxHandle, by decide +kernel⟩
theorem witness_AccessOperations_5 : ∃ (s : State) (w : Fin 4) (r : Round) (l : Leg) (n m : Nat) (b : Beam), s.rounds = [r] ∧ r.warps = [r.warp] ∧
    r.warp = w.val ∧ r.txc = some n ∧ s.ramp n = 2 ∧ s.fld (Reg.txcStat n) 8 3 = 1 ∧ r.phase = .running ∧ r.txn = some true ∧ r.uma = none ∧ r.leg =
    some l ∧ r.port < 64 ∧ r.beams = [m] ∧ s.beam? m = some b ∧ r.geos = [b.geo] ∧ b.rec_ = none ∧ b.next = none ∧ b.decoding = none ∧ s.crcQ = [] ∧
    n < 4 ∧ m < 16 ∧ r.kind = .access ∧ r.isU0 = false ∧ eOp r.words ≠ 6 ∧ l.phase = .accOp ∧ l.delayed = true ∧ b.locked = false ∧ b.heard = none ∧
    eOp r.words ≠ 1 ∧ l.kept = none ∧ (s.fifo.warp.getD r.warp []).length < 64 ∧ s.regsWf = true :=
  ⟨{ accOnAir with rounds := [{ roundW with txn := some true, words := [0, 0, 0, 0, 0, 0, 0, 0, 0, 0x20000001], leg := some { legW with delayed := true } }] },
    0, { roundW with txn := some true, words := [0, 0, 0, 0, 0, 0, 0, 0, 0, 0x20000001], leg := some { legW with delayed := true } },
    { legW with delayed := true }, 0, 0, beamA, by decide +kernel⟩
theorem witness_AccessOperations_6 : ∃ (s : State) (w : Fin 4) (r : Round), s.rounds = [r] ∧ r.awaitsDelayed = false ∧ s.regsWf = true :=
  ⟨listening, 0, roundL, by decide +kernel⟩
theorem witness_UmaoloSlotsAndReads_1 : ∃ (s : State) (w : Fin 4) (r : Round) (u : Uma) (n m : Nat) (b : Beam), s.rounds = [r] ∧ r.warps = [r.warp] ∧
    r.warp = w.val ∧ r.txc = some n ∧ s.ramp n = 2 ∧ s.fld (Reg.txcStat n) 8 3 = 1 ∧ r.phase = .running ∧ r.txn = some false ∧ r.leg = none ∧ r.uma =
    some u ∧ r.port < 64 ∧ r.beams = [m] ∧ s.beam? m = some b ∧ r.geos = [b.geo] ∧ b.rec_ = none ∧ b.next = none ∧ b.decoding = none ∧ s.crcQ = [] ∧
    n < 4 ∧ m < 16 ∧ s.cmds = [] ∧ s.fld (Reg.loomBeam m) 0 16 = b.chains.foldl (fun a e => a + 2 ^ e.1) 0 ∧ (∀ e ∈ b.chains, e.1 < 16 ∧ (s.chain
    e.1).leaving = false) ∧ r.status = none ∧ r.noNew = false ∧ r.hopDue = false ∧ r.kind = .inventory ∧ eSplit r.words = false ∧ u.phase = .inv ∧
    u.res = [] ∧ b.heard = none ∧ ew r.words 3 12 4 = 0 ∧ s.regsWf = true :=
  ⟨umaInv, 0, roundU, umaA, 0, 0, beamA, by decide +kernel⟩
theorem witness_UmaoloSlotsAndReads_2 : ∃ (s : State) (w : Fin 4) (r : Round) (u : Uma) (n m : Nat) (b : Beam), s.rounds = [r] ∧ r.warps = [r.warp] ∧
    r.warp = w.val ∧ r.txc = some n ∧ s.ramp n = 2 ∧ s.fld (Reg.txcStat n) 8 3 = 1 ∧ r.phase = .running ∧ r.txn = some false ∧ r.leg = none ∧ r.uma =
    some u ∧ r.port < 64 ∧ r.beams = [m] ∧ s.beam? m = some b ∧ r.geos = [b.geo] ∧ b.rec_ = none ∧ b.next = none ∧ b.decoding = none ∧ s.crcQ = [] ∧
    n < 4 ∧ m < 16 ∧ r.kind = .poll ∧ u.phase = .poll ∧ u.slot < ew r.words 3 0 4 ∧ b.heard = none ∧ s.slotWefts r u = [] ∧ s.regsWf = true :=
  ⟨{ umaInv with rounds := [{ roundU with kind := .poll, words := [0x28000000, 0, 0, 3, 0x102], uma := some { umaA with phase := .poll, slot := 2 } }] },
    0, { roundU with kind := .poll, words := [0x28000000, 0, 0, 3, 0x102], uma := some { umaA with phase := .poll, slot := 2 } },
    { umaA with phase := .poll, slot := 2 }, 0, 0, beamA, by decide +kernel⟩
theorem witness_UmaoloSlotsAndReads_3 : ∃ (s : State) (w : Fin 4) (r : Round) (u : Uma) (n : Nat) (e : Seen) (g : UmTag) (p : Loading), s.rounds =
    [r] ∧ r.warps.contains w.val = true ∧ r.txc = some n ∧ n < 4 ∧ r.beams = [] ∧ r.phase = .running ∧ r.txn = some true ∧ r.uma = some u ∧ u.phase =
    .wrWait ∧ s.seenAt u.index = some e ∧ s.umTag? u.index = some g ∧ g.confirmed = false ∧ g.latest = some p ∧ s.regsWf = true :=
  ⟨{ umaInv with rounds := [roundUw], seen := [(3, some { seenA with proto := 2, assigned := true, handle := 9, group := 1, wfirst := 4, wcount := 1 })], umTags := [umTagA] },
    0, roundUw, { umaA with phase := .wrWait, index := 3 }, 0,
    { seenA with proto := 2, assigned := true, handle := 9, group := 1, wfirst := 4, wcount := 1 }, umTagA, ⟨2, 0, [1]⟩, by decide +kernel⟩
theorem witness_UmaoloSlotsAndReads_4 : ∃ (s : State) (w : Fin 4) (r : Round) (u : Uma), s.rounds = [r] ∧ r.uma = some u ∧ u.phase ≠ .wrWait ∧
    s.regsWf = true :=
  ⟨umaInv, 0, roundU, umaA, by decide +kernel⟩
theorem witness_PeerWindowsAndSlots_1 : ∃ (s : State), s.coreOn = true ∧ s.peerOn = true ∧ s.rounds = [] ∧ s.cands = [] ∧ s.mayStart = true ∧
    s.tag.session = none ∧ s.candLive { kind := .peerWin, seq := 0, entry := 0, warp := s.fld Reg.peerCfg 10 2, due := true, points := [] } = true ∧
    s.resFree (s.peerPlan { kind := .peerWin, seq := 0, entry := 0, warp := s.fld Reg.peerCfg 10 2, due := true, points := [] }) = true ∧ s.regsWf =
    true :=
  ⟨peerOnS, by decide +kernel⟩
theorem witness_PeerWindowsAndSlots_2 : ∃ (s : State), s.peerRound.isSome = true ∧ s.regsWf = true :=
  ⟨peerWinS, by decide +kernel⟩
theorem witness_PeerWindowsAndSlots_3 : ∃ (s : State) (r : Round), s.rounds = [r] ∧ r.kind = .peerWin ∧ s.peerCanSend r = true ∧ s.fld Reg.peerWin 8
    8 ≠ 0 ∧ s.peer.windows % s.fld Reg.peerWin 8 8 ≠ 0 ∧ s.peer.job = none ∧ s.upd.image = none ∧ s.peer.offer = none ∧ s.regsWf = true :=
  ⟨(regsOf { peerWinS with peer := { peerWinS.peer with windows := 3 } } [(Reg.peerWin, 0x03E80250)]), roundP, by decide +kernel⟩
theorem witness_PeerWindowsAndSlots_4 : ∃ (s : State) (r : Round) (n : Nat) (j : PeerJob), s.rounds = [r] ∧ r.kind = .peerWin ∧ r.warps.contains
    r.warp = true ∧ s.peerCanSend r = true ∧ r.txc = some n ∧ n < 4 ∧ s.fld Reg.peerWin 8 8 ≠ 0 ∧ s.peer.windows % s.fld Reg.peerWin 8 8 ≠ 0 ∧
    s.peer.job = some j ∧ j.waiting = false ∧ j.dst = 0xFFFF ∧ s.dataUs 0xFFFF j.data.length ≤ 10000 ∧ s.upd.image = none ∧ s.peer.offer = none ∧
    s.soleCmd j.seq Reg.peerTxRes (.peerTx j.dst j.data.length) = true ∧ s.regsWf = true :=
  ⟨(regsOf { peerWinS with peer := { peerWinS.peer with windows := 3, job := some { jobA with dst := 0xFFFF, waiting := false } }, cmds := [{ cmdTx with kind := .peerTx 0xFFFF 2 }] }
    [(Reg.peerWin, 0x03E80250), (Reg.peerTxRes, 5)]), roundP, 0, { jobA with dst := 0xFFFF, waiting := false }, by decide +kernel⟩
theorem witness_PeerWindowsAndSlots_5 : ∃ (s : State) (r : Round) (n : Nat), s.rounds = [r] ∧ r.kind = .peerWin ∧ r.warps = [r.warp] ∧ r.txc = some n
    ∧ s.ramp n = 2 ∧ n < 4 ∧ r.beams = [] ∧ s.fld Reg.peerWin 8 8 ≠ 0 ∧ s.bit Reg.peerCfg 2 = true ∧ s.bit Reg.peerCfg 1 = false ∧ s.regsWf = true :=
  ⟨(regsOf { peerWinS with rounds := [{ roundP with beams := [] }], peer := { peerWinS.peer with windows := 4, neighbours := [nbA] } }
    [(Reg.peerCfg, 0x00A12015), (Reg.txcStat 0, 0x00800102), (Reg.peerTime, 0x840000B2)]), { roundP with beams := [] }, 0, by decide +kernel⟩
theorem witness_PeerWindowsAndSlots_6 : ∃ (s : State), s.coreOn = true ∧ s.peerOn = true ∧ s.stratum = 15 ∧ s.peer.neighbours.all (fun k => decide (8
    ≤ k.missed)) = true ∧ s.rounds = [] ∧ s.cands = [] ∧ s.mayStart = true ∧ s.tag.session = none ∧ s.candLive
    { kind := .peerRx, seq := 0, entry := 0, warp := s.fld Reg.peerCfg 10 2, due := true, points := [] } = true ∧ s.resFree (s.peerPlan
    { kind := .peerRx, seq := 0, entry := 0, warp := s.fld Reg.peerCfg 10 2, due := true, points := [] }) = true ∧ s.regsWf = true :=
  ⟨peerOnS, by decide +kernel⟩
theorem witness_PeerWindowsAndSlots_7 : ∃ (s : State), s.stratum ≠ 15 ∧ s.regsWf = true :=
  ⟨peerOnS.setReg Reg.peerTime 0, by decide +kernel⟩
theorem witness_PeerWindowsAndSlots_8 : ∃ (s : State) (r : Round) (n : Nat), s.rounds = [r] ∧ r.kind = .peerRx ∧ r.warps = [r.warp] ∧ r.txc = some n
    ∧ s.ramp n = 2 ∧ n < 4 ∧ r.beams = [] ∧ s.regsWf = true :=
  ⟨(regsOf { peerWinS with rounds := [{ roundP with kind := .peerRx, beams := [] }] } [(Reg.txcStat 0, 0x00800102)]),
    { roundP with kind := .peerRx, beams := [] }, 0, by decide +kernel⟩
theorem witness_PeerWindowsAndSlots_9 : ∃ (s : State) (w : Fin 4) (r : Round) (n : Nat), s.rounds = [r] ∧ r.warps.contains w.val = true ∧ r.kind =
    .peerWin ∧ r.txc = some n ∧ n < 4 ∧ s.ramp n = 2 ∧ s.regsWf = true :=
  ⟨peerWinS.setReg (Reg.txcStat 0) 0x00800402, 0, roundP, 0, by decide +kernel⟩
theorem heard_1 : State.frameHeard peerHears roundP hearB sigData = frameData := by
  decide +kernel
theorem witness_PeerFrames_1 : ∃ (s : State) (r : Round) (m : Nat) (b : Beam) (x : RxSignal) (f : PeerFrame) (n : Nat), s.hearsPeer r m b x 1 = true
    ∧ s.frameHeard r b x = f ∧ s.refPeer ≠ some (bSrc f.body) ∧ bDst f.body = s.peerAddr ∧ (bRest f.body).length ≠ 0 ∧ s.peerCanSend r = true ∧ r.txc
    = some n ∧ n < 4 ∧ s.peer.dups.any (fun d => d.1 == bSrc f.body && d.2 == bSeq f.body) = false ∧ s.fits 5 (16 + (bRest f.body).length) = true ∧
    s.fifo.peer.length < 2 ∧ s.regsWf = true :=
  ⟨peerHears, roundP, 0, hearB, sigData, frameData, 0, hearsPeer_of heard_1 (by decide +kernel), heard_1, by decide +kernel⟩
theorem heard_2 : State.frameHeard (regsOf { peerHears with peer := { peerWinS.peer with job := some jobA }, cmds := [cmdTx] } [(Reg.peerTxRes, 5)])
    roundP hearB sigAck = frameAck := by
  decide +kernel
theorem witness_PeerFrames_2 : ∃ (s : State) (r : Round) (m : Nat) (b : Beam) (x : RxSignal) (f : PeerFrame) (j : PeerJob), s.hearsPeer r m b x 2 =
    true ∧ s.frameHeard r b x = f ∧ s.refPeer ≠ some (bSrc f.body) ∧ s.peer.job = some j ∧ j.waiting = true ∧ bDst f.body = s.peerAddr ∧ bSrc f.body
    = j.dst ∧ bSeq f.body = j.num ∧ (bRest f.body).length = 12 ∧ s.soleCmd j.seq Reg.peerTxRes (.peerTx j.dst j.data.length) = true ∧ s.regsWf = true
    :=
  ⟨(regsOf { peerHears with peer := { peerWinS.peer with job := some jobA }, cmds := [cmdTx] } [(Reg.peerTxRes, 5)]), roundP, 0, hearB, sigAck,
    frameAck, jobA, hearsPeer_of heard_2 (by decide +kernel), heard_2, by decide +kernel⟩
theorem heard_3 : State.frameHeard (peerHears.setReg Reg.peerCfg 0x00A12015) roundP hearB sigBeacon = frameBeacon := by
  decide +kernel
theorem witness_PeerFrames_3 : ∃ (s : State) (r : Round) (m : Nat) (b : Beam) (x : RxSignal) (f : PeerFrame), s.hearsPeer r m b x 3 = true ∧
    s.frameHeard r b x = f ∧ s.bit Reg.peerCfg 2 = true ∧ s.refPeer = none ∧ r.kind = .peerWin ∧ (bRest f.body).length = 17 ∧ s.regsWf = true :=
  ⟨peerHears.setReg Reg.peerCfg 0x00A12015, roundP, 0, hearB, sigBeacon, frameBeacon, hearsPeer_of heard_3 (by decide +kernel), heard_3, by
    decide +kernel⟩
theorem heard_4 : State.frameHeard (peerHears.setReg Reg.updCfg 2) roundP hearB sigOffer = frameOffer := by
  decide +kernel
theorem witness_PeerFrames_4 : ∃ (s : State) (r : Round) (m : Nat) (b : Beam) (x : RxSignal) (f : PeerFrame), s.hearsPeer r m b x 4 = true ∧
    s.frameHeard r b x = f ∧ s.refPeer ≠ some (bSrc f.body) ∧ (bRest f.body).length = 10 ∧ s.bit Reg.updCfg 1 = true ∧ s.peer.offer = none ∧
    s.updState = 0 ∧ wordOf (beNum (bRest f.body) 0 4) ≠ s.reg Reg.updImage ∧ s.upd.used ≠ some (wordOf (beNum (bRest f.body) 0 4)) ∧ s.regsWf = true
    :=
  ⟨peerHears.setReg Reg.updCfg 2, roundP, 0, hearB, sigOffer, frameOffer, hearsPeer_of heard_4 (by decide +kernel), heard_4, by decide +kernel⟩
theorem heard_5 : State.frameHeard ({ peerHears with upd := { peerWinS.upd with image := some imageA } }) roundP hearB sigReq = frameReq := by
  decide +kernel
theorem witness_PeerFrames_5 : ∃ (s : State) (r : Round) (m : Nat) (b : Beam) (x : RxSignal) (f : PeerFrame) (i : CerrexImage), s.hearsPeer r m b x 5
    = true ∧ s.frameHeard r b x = f ∧ s.refPeer ≠ some (bSrc f.body) ∧ s.upd.image = some i ∧ (bRest f.body).length = 38 ∧ wordOf (beNum (bRest
    f.body) 0 4) = crxId i ∧ s.peer.asked = [] ∧ s.regsWf = true :=
  ⟨{ peerHears with upd := { peerWinS.upd with image := some imageA } }, roundP, 0, hearB, sigReq, frameReq, imageA, hearsPeer_of heard_5 (by
    decide +kernel), heard_5, by decide +kernel⟩
theorem heard_6 : State.frameHeard (regsOf { peerHears with peer := { peerWinS.peer with offer := some offerA, held := [0] } }
    [(Reg.updCfg, 2), (Reg.updStat, 0x10000000)]) roundP hearB sigChunk = frameChunk := by
  decide +kernel
theorem witness_PeerFrames_6 : ∃ (s : State) (r : Round) (m : Nat) (b : Beam) (x : RxSignal) (f : PeerFrame) (o : Offer), s.hearsPeer r m b x 6 =
    true ∧ s.frameHeard r b x = f ∧ s.refPeer ≠ some (bSrc f.body) ∧ s.peer.offer = some o ∧ s.bit Reg.updCfg 1 = true ∧ s.upd.busy = false ∧
    s.updState = 1 ∧ s.peer.held ≠ [] ∧ (bRest f.body).length = 262 ∧ wordOf (beNum (bRest f.body) 0 4) = o.image ∧ beNum (bRest f.body) 4 2 <
    o.chunks ∧ s.peer.held.contains (beNum (bRest f.body) 4 2) = false ∧ (∀ b ∈ s.upd.blocks, b.2.length = 128) ∧ s.regsWf = true :=
  ⟨regsOf { peerHears with peer := { peerWinS.peer with offer := some offerA, held := [0] } } [(Reg.updCfg, 2), (Reg.updStat, 0x10000000)], roundP,
    0, hearB, sigChunk, frameChunk, offerA, hearsPeer_of heard_6 (by decide +kernel), heard_6, by decide +kernel⟩
theorem heard_7 : State.frameHeard peerHears roundP hearB sigBadHead = frameBadHead := by
  decide +kernel
theorem witness_PeerFrames_7 : ∃ (s : State) (r : Round) (m : Nat) (b : Beam) (x : RxSignal) (f : PeerFrame), s.hearsFrame r m b = true ∧
    s.frameHeard r b x = f ∧ peerHeaderOk f = false ∧ s.regsWf = true :=
  ⟨peerHears, roundP, 0, hearB, sigBadHead, frameBadHead, by decide +kernel, heard_7, by decide +kernel⟩
theorem heard_8 : State.frameHeard peerHears roundP hearB sigBadType = frameBadType := by
  decide +kernel
theorem witness_PeerFrames_8 : ∃ (s : State) (r : Round) (m : Nat) (b : Beam) (x : RxSignal) (f : PeerFrame), s.hearsFrame r m b = true ∧
    s.frameHeard r b x = f ∧ peerHeaderOk f = true ∧ peerTypeOk f = false ∧ s.regsWf = true :=
  ⟨peerHears, roundP, 0, hearB, sigBadType, frameBadType, by decide +kernel, heard_8, by decide +kernel⟩
theorem heard_9 : State.frameHeard peerHears roundP hearB sigBadCrc = frameBadCrc := by
  decide +kernel
theorem witness_PeerFrames_9 : ∃ (s : State) (r : Round) (m : Nat) (b : Beam) (x : RxSignal) (f : PeerFrame), s.hearsFrame r m b = true ∧
    s.frameHeard r b x = f ∧ peerHeaderOk f = true ∧ peerTypeOk f = true ∧ peerCrcOk f = false ∧ s.regsWf = true :=
  ⟨peerHears, roundP, 0, hearB, sigBadCrc, frameBadCrc, by decide +kernel, heard_9, by decide +kernel⟩
theorem witness_PeerFrames_10 : ∃ (s : State) (j : PeerJob), s.peer.job = some j ∧ j.waiting = true ∧ j.tries < 5 ∧ s.coreOn = true ∧ s.regsWf = true
    :=
  ⟨{ peerWinS with peer := { peerWinS.peer with job := some { jobA with tries := 4 } } }, { jobA with tries := 4 }, by decide +kernel⟩
theorem witness_PeerFrames_11 : ∃ (s : State) (j : PeerJob), s.peer.job = some j ∧ j.waiting = true ∧ 5 ≤ j.tries ∧ s.coreOn = true ∧ s.soleCmd j.seq
    Reg.peerTxRes (.peerTx j.dst j.data.length) = true ∧ s.regsWf = true :=
  ⟨(regsOf { peerWinS with peer := { peerWinS.peer with job := some { jobA with tries := 5 } }, cmds := [cmdTx] } [(Reg.peerTxRes, 5)]),
    { jobA with tries := 5 }, by decide +kernel⟩
theorem witness_PeerFrames_12 : ∃ (s : State), (s.peer.job = none ∨ s.peer.job.any (fun j => !j.waiting) = true) ∧ s.regsWf = true :=
  ⟨{ peerWinS with peer := { peerWinS.peer with job := some { jobA with waiting := false } } }, by decide +kernel⟩
theorem witness_PeerFrames_13 : ∃ (s : State) (n : Neighbour), s.refPeer = some n.addr ∧ s.peer.neighbours = [n] ∧ s.bit Reg.peerCfg 2 = false ∧
    s.coreOn = true ∧ s.regsWf = true :=
  ⟨{ peerWinS with peer := { peerWinS.peer with neighbours := [nbA] } }.setReg Reg.peerTime 0x840000B2, nbA, by decide +kernel⟩
theorem witness_PeerFrames_14 : ∃ (s : State), s.bit Reg.peerTime 31 = false ∧ s.regsWf = true :=
  ⟨peerWinS, by decide +kernel⟩
theorem witness_PeerFrames_15 : ∃ (s : State) (o : Offer), s.halfRuns = true ∧ s.peer.offer = some o ∧ s.bit Reg.updCfg 1 = true ∧ (∀ k < o.chunks,
    s.peer.held.contains k = true) ∧ s.updState = 1 ∧ s.upd.busy = false ∧ s.regsWf = true :=
  ⟨regsOf { peerWinS with mgmt := { Mgmt.init with running := some true }, peer := { peerWinS.peer with offer := some offerA, held := [2, 0, 1] } }
    [(Reg.updCfg, 2), (Reg.updStat, 0x10000000)], offerA, by decide +kernel⟩
theorem witness_PeerFrames_16 : ∃ (s : State), (s.peer.offer = none ∨ s.updState ≠ 1) ∧ s.regsWf = true :=
  ⟨peerWinS, by decide +kernel⟩
theorem witness_EntriesFallDue_1 : ∃ (s : State) (e : BitVec 8), s.coreOn = true ∧ s.bit Reg.schedCtrl 0 = true ∧ s.bit (Reg.schedTable e.toNat 0) 31
    = true ∧ s.fld (Reg.schedTable e.toNat 1) 16 16 ≠ 0 ∧ s.atDue (s.entryWords e.toNat) = true ∧ sget (fun _ => 0) s.dueAt e.toNat ≠ s.now / 1000 +
    1 ∧ (∀ c ∈ s.cands, c.due = false ∨ c.entry ≠ e.toNat ∨ c.kind.internal = true) ∧ (∀ r ∈ s.rounds, r.entry ≠ e.toNat ∨ r.seq < 8388608 ∨
    r.kind.internal = true) ∧ s.regsWf = true :=
  ⟨regsOf { withDraft with cands := [{ kind := .inventory, seq := 5, entry := 1, warp := 0, due := false, points := [] }] }
    [(Reg.schedCtrl, 0xF1), (Reg.schedTable 1 0, 0xA0100000), (Reg.schedTable 1 1, 0x03E80064)], 1, by decide +kernel⟩
theorem witness_EntriesFallDue_2 : ∃ (s : State) (e : BitVec 8) (c : Cand), s.coreOn = true ∧ s.bit Reg.schedCtrl 0 = true ∧ s.bit (Reg.schedTable
    e.toNat 0) 31 = true ∧ s.fld (Reg.schedTable e.toNat 1) 16 16 ≠ 0 ∧ s.atDue (s.entryWords e.toNat) = true ∧ sget (fun _ => 0) s.dueAt e.toNat ≠
    s.now / 1000 + 1 ∧ c ∈ s.cands ∧ c.due = true ∧ c.entry = e.toNat ∧ c.kind.internal = false ∧ s.regsWf = true :=
  ⟨regsOf { withDraft with cands := [{ kind := .access, seq := 0, entry := 1, warp := 0, due := true, points := [] }] }
    [(Reg.schedCtrl, 0xF1), (Reg.schedTable 1 0, 0xA0100000), (Reg.schedTable 1 1, 0x03E80064)], 1,
    { kind := .access, seq := 0, entry := 1, warp := 0, due := true, points := [] }, by decide +kernel⟩
theorem witness_EntriesFallDue_3 : ∃ (s : State) (e : BitVec 8), (s.bit Reg.schedCtrl 0 = false ∨ s.bit (Reg.schedTable e.toNat 0) 31 = false ∨ s.fld
    (Reg.schedTable e.toNat 1) 16 16 = 0) ∧ s.regsWf = true :=
  ⟨withDraft, 1, by decide +kernel⟩
theorem witness_EntriesFallDue_4 : ∃ (s : State) (e : BitVec 8), (s.now / 1000 % s.fld (Reg.schedTable e.toNat 1) 16 16 ≠ s.fld (Reg.schedTable
    e.toNat 4) 16 16 % s.fld (Reg.schedTable e.toNat 1) 16 16 ∨ sget (fun _ => 0) s.dueAt e.toNat = s.now / 1000 + 1) ∧ s.regsWf = true :=
  ⟨regsOf { withDraft with timeBase := 7000, dueAt := [(1, 8)] }
    [(Reg.schedCtrl, 0xF1), (Reg.schedTable 1 0, 0xA0100000), (Reg.schedTable 1 1, 0x00070064)], 1, by decide +kernel⟩
theorem witness_EntriesFallDue_5 : ∃ (s : State) (c : Cand) (k : Cmd), s.cands = [c] ∧ c.due = false ∧ c.kind.internal = false ∧ (0 < c.seq ∧ c.seq <
    8388608) ∧ s.cmds = [k] ∧ k.seq = c.seq ∧ k.res = some Reg.schedCmdRes ∧ s.fld Reg.schedCmdRes 0 24 = c.seq ∧ (s.fifo.warp.getD (s.fld
    (Reg.schedTable c.entry 0) 20 2) []).length < 64 ∧ s.coreOn = true ∧ s.regsWf = true :=
  ⟨regsOf { withDraft with cands := [{ kind := .inventory, seq := 5, entry := 1, warp := 0, due := false, points := [] }], cmds := [{ seq := 5, res := some Reg.schedCmdRes, kind := .run 1, cell := none }] }
    [(Reg.schedTable 1 0, 0xA0100000), (Reg.schedCmdRes, 5)], { kind := .inventory, seq := 5, entry := 1, warp := 0, due := false, points := [] },
    { seq := 5, res := some Reg.schedCmdRes, kind := .run 1, cell := none }, by decide +kernel⟩
theorem witness_EntriesFallDue_6 : ∃ (s : State) (n : BitVec 24), (∀ c ∈ s.cands, c.due = true ∨ c.seq ≠ n.toNat) ∧ s.regsWf = true :=
  ⟨{ withDraft with cands := [{ kind := .inventory, seq := 5, entry := 1, warp := 0, due := false, points := [] }] }, 6, by decide +kernel⟩
theorem witness_EntriesFallDue_7 : ∃ (s : State), s.coreOn = true ∧ s.regsWf = true :=
  ⟨{ base with shed := 4 }, by decide +kernel⟩
theorem witness_RoundsStartAndAreStopped_1 : ∃ (s : State) (w : Fin 4) (c : Cand) (p : Plan), s.mayStart = true ∧ s.bit Reg.schedCtrl 0 = true ∧
    s.rounds = [] ∧ s.cands = [c] ∧ c.kind = .inventory ∧ c.due = true ∧ s.bit (Reg.schedTable c.entry 0) 31 = true ∧ s.entryPlan c.entry false = p ∧
    p.status = none ∧ p.warps.contains w.val = true ∧ (ePrio p.words = 0 ∨ ePrio p.words < s.shed) ∧ s.resFree p = true ∧ s.meetsWindow c p = false ∧
    s.tag.session = none ∧ s.cmds = [] ∧ (1 ≤ s.schedNext ∧ s.schedNext < 0x7FFFFF) ∧ s.regsWf = true :=
  ⟨startable, 0, { kind := .inventory, seq := 0, entry := 1, warp := 0, due := true, points := [] }, startable.entryPlan 1 false, by decide +kernel⟩
theorem witness_RoundsStartAndAreStopped_2 : ∃ (s : State) (w : Fin 4) (c : Cand) (p : Plan), s.mayStart = true ∧ s.bit Reg.schedCtrl 0 = true ∧
    s.rounds = [] ∧ s.cands = [c] ∧ c.kind = .inventory ∧ c.due = true ∧ s.bit (Reg.schedTable c.entry 0) 31 = true ∧ s.entryPlan c.entry false = p ∧
    p.status = none ∧ p.warps.contains w.val = true ∧ (ePrio p.words ≠ 0 ∧ s.shed ≤ ePrio p.words) ∧ s.resFree p = true ∧ s.meetsWindow c p = false ∧
    s.tag.session = none ∧ s.cmds = [] ∧ (1 ≤ s.schedNext ∧ s.schedNext < 0x7FFFFF) ∧ (s.fifo.warp.getD (eWarp p.words) []).length < 64 ∧ s.regsWf =
    true :=
  ⟨{ startable.setReg (Reg.schedTable 1 0) 0x91400000 with shed := 3 }, 0,
    { kind := .inventory, seq := 0, entry := 1, warp := 0, due := true, points := [] },
    { startable.setReg (Reg.schedTable 1 0) 0x91400000 with shed := 3 }.entryPlan 1 false, by decide +kernel⟩
theorem witness_RoundsStartAndAreStopped_3 : ∃ (s : State) (w : Fin 4), (s.mayStart = false ∨ s.cands = []) ∧ s.regsWf = true :=
  ⟨withDraft, 0, by decide +kernel⟩
theorem witness_RoundsStartAndAreStopped_4 : ∃ (s : State) (w : Fin 4) (r : Round) (n : Nat), s.soleRound r n = true ∧ r.warps = [r.warp] ∧ r.warp =
    w.val ∧ r.kind = .inventory ∧ r.phase = .running ∧ r.beams = [] ∧ s.ramp n = 2 ∧ n < 4 ∧ s.regsWf = true :=
  ⟨onAir, 0, roundA, 0, by decide +kernel⟩
theorem witness_RoundsStartAndAreStopped_5 : ∃ (s : State) (w : Fin 4) (r : Round) (n : Nat), s.soleRound r n = true ∧ r.warps = [r.warp] ∧ r.warp =
    w.val ∧ r.kind = .inventory ∧ r.draining = true ∧ r.status = none ∧ r.txn ≠ some true ∧ r.phase = .running ∧ r.beams = [] ∧ r.leg = none ∧ s.ramp
    n = 2 ∧ n < 4 ∧ s.regsWf = true :=
  ⟨{ onAir with rounds := [{ roundA with draining := true }] }, 0, { roundA with draining := true }, 0, by decide +kernel⟩
theorem witness_RoundsStartAndAreStopped_6 : ∃ (s : State) (w : Fin 4) (r : Round), s.rounds = [r] ∧ r.warps = [r.warp] ∧ r.warp = w.val ∧ r.draining
    = true ∧ r.status = none ∧ r.txn = some true ∧ r.phase = .running ∧ s.regsWf = true :=
  ⟨{ onAir with rounds := [{ roundA with draining := true, txn := some true }] }, 0, { roundA with draining := true, txn := some true }, by
    decide +kernel⟩
theorem witness_RoundsStartAndAreStopped_7 : ∃ (s : State) (w : Fin 4), (∀ r ∈ s.rounds, r.draining = false) ∧ s.regsWf = true :=
  ⟨onAir, 0, by decide +kernel⟩
theorem witness_TheTableEvictsAndMerges_1 : ∃ (s : State) (i : Nat) (e : Seen), 4080 < s.seenUsed ∧ s.evictee = some i ∧ s.seenAt i = some e ∧
    s.popIn = false ∧ s.seenWf = true ∧ s.regsWf = true :=
  ⟨{ base with seen := bigSeen }, 1, { seenA with id := 1, last := 1 }, by and_intros <;> decide +kernel⟩
theorem witness_TheTableEvictsAndMerges_2 : ∃ (s : State) (i : Nat) (e : Seen), 4080 < s.seenUsed ∧ s.evictee = some i ∧ s.seenAt i = some e ∧
    s.popIn = true ∧ s.seenWb.length < 32 ∧ s.seenWf = true ∧ s.regsWf = true :=
  ⟨{ popS with seen := bigSeen }, 1, { seenA with id := 1, last := 1 }, by and_intros <;> decide +kernel⟩
theorem witness_TheTableEvictsAndMerges_3 : ∃ (s : State), s.seenUsed ≤ 4080 ∧ s.regsWf = true :=
  ⟨{ base with seen := [(3, some seenA)] }, by decide +kernel⟩
theorem witness_TheTableEvictsAndMerges_4 : ∃ (s : State) (i : Nat) (l : List Nat) (e p : Seen) (k : Nat), s.coreOn = true ∧ s.memp.arrived = i :: l
    ∧ s.seenAt i = some e ∧ s.popFind e.family e.id = some k ∧ s.popAt k = some p ∧ e.aliveTaken = false ∧ s.seenWf = true ∧ s.regsWf = true :=
  ⟨{ base with seen := [(3, some { seenA with noHist := true })], fetches := [3], memp := { Memp.init with arrived := [3] }, pop := [(8 * popBucket 0 0xDEADBEEF + 2, some { seenA with count := 65530, first := 1, best := 90 })] },
    3, [], { seenA with noHist := true }, { seenA with count := 65530, first := 1, best := 90 }, 8 * popBucket 0 0xDEADBEEF + 2, by decide +kernel⟩
theorem witness_TheTableEvictsAndMerges_5 : ∃ (s : State) (i : Nat) (l : List Nat) (e : Seen), s.coreOn = true ∧ s.memp.arrived = i :: l ∧ s.seenAt i
    = some e ∧ s.popFind e.family e.id = none ∧ s.seenWf = true ∧ s.regsWf = true :=
  ⟨{ base with seen := [(3, some { seenA with noHist := true })], fetches := [3], memp := { Memp.init with arrived := [3] } }, 3, [],
    { seenA with noHist := true }, by decide +kernel⟩
theorem witness_TheTableEvictsAndMerges_6 : ∃ (s : State) (i : Nat) (l : List Nat) (e : Seen), s.coreOn = true ∧ s.fetches = i :: l ∧ s.seenAt i =
    some e ∧ s.seenWf = true ∧ s.regsWf = true :=
  ⟨{ base with seen := [(3, some { seenA with noHist := true })], fetches := [3] }, 3, [], { seenA with noHist := true }, by decide +kernel⟩
theorem witness_TheTableEvictsAndMerges_7 : ∃ (s : State), s.memp.arrived = [] ∧ s.regsWf = true :=
  ⟨base, by decide +kernel⟩
theorem witness_PacketsAreAssembled_1 : ∃ (s : State) (r : Rec) (l : List Rec), s.coreOn = true ∧ s.mgmt.dumps = [] ∧ s.fifo.building = none ∧
    s.fifo.fault = r :: l ∧ (s.fifo.sincePeer < 5 ∧ s.fifo.sinceTally < 5 ∧ s.fifo.sinceDiag < 5) ∧ s.fits r.ty r.len = true ∧ s.regsWf = true :=
  ⟨{ base with fifo := { Fifo.init with fault := [recA], wptr := 131064, tally := [recA] } }, recA, [], by decide +kernel⟩
theorem witness_PacketsAreAssembled_2 : ∃ (s : State) (r : Rec) (l : List Rec), s.coreOn = true ∧ s.mgmt.dumps = [] ∧ s.fifo.building = none ∧
    s.fifo.fault = [] ∧ s.fifo.warp = [[], [], [], []] ∧ s.fifo.peer = [] ∧ s.fifo.tally = r :: l ∧ (s.fifo.sincePeer < 5 ∧ s.fifo.sinceTally < 5 ∧
    s.fifo.sinceDiag < 5) ∧ s.fits r.ty r.len = false ∧ s.regsWf = true :=
  ⟨{ base with fifo := { Fifo.init with tally := [recA], setAside := 131060 } }, recA, [], by decide +kernel⟩
theorem witness_PacketsAreAssembled_3 : ∃ (s : State), s.mgmt.dumps = [] ∧ (s.fifo.building.isSome = true ∨ s.fifo.pick = none) ∧ s.regsWf = true :=
  ⟨base, by decide +kernel⟩
theorem witness_PacketsAreAssembled_4 : ∃ (s : State) (r : Rec), s.coreOn = true ∧ s.hp.frame = none ∧ s.fifo.building = some r ∧ s.regsWf = true :=
  ⟨{ base with fifo := { Fifo.init with building := some recA } }, recA, by decide +kernel⟩
theorem witness_PacketsAreAssembled_5 : ∃ (s : State) (p : Fin 3), s.fifo.building = none ∧ s.hp.frame.all (fun f => f.kind != some .frd) = true ∧
    s.regsWf = true :=
  ⟨fifoTwo, 1, by decide +kernel⟩
theorem witness_PacketsAreAssembled_6 : ∃ (s : State) (p : Packet) (l : List Packet), s.fifo.packets = p :: l ∧ s.regsWf = true :=
  ⟨fifoTwo.setReg Reg.fifoCfg 0x32000000, ⟨[3, 4, 5], 0, 0⟩, [⟨[6], 0, 0⟩], by decide +kernel⟩
theorem witness_PacketsAreAssembled_7 : ∃ (s : State), s.fifo.packets = [] ∧ s.regsWf = true :=
  ⟨base, by decide +kernel⟩
theorem witness_FlushDiscardsWhatIsComplete_1 : ∃ (s : State), s.hostCan Reg.fifoCmd = true :=
  ⟨{ fifoTwo with fifo := { fifoTwo.fifo with setAside := 1024, building := some recA } }, by decide +kernel⟩
theorem witness_FlushDiscardsWhatIsComplete_2 : ∃ (s : State) (r : Rec), s.hostCan Reg.fifoCmd = true ∧ s.coreOn = true ∧ s.hp.frame = none ∧
    s.fifo.building = some r :=
  ⟨{ fifoTwo with fifo := { fifoTwo.fifo with setAside := 1024, building := some recA } }, recA, by decide +kernel⟩
theorem witness_TheTagAnswersInventory_1 : ∃ (s : State) (x : Session) (a : SelectArgs), s.fieldOpen x = true ∧ a.target = 4 ∧ a.bank ≠ 0 ∧
    (a.truncate = false ∨ a.bank = 1) ∧ s.regsWf = true :=
  ⟨fieldS .arbitrate, sessOf .arbitrate, { target := 4, action := 0, bank := 1, ptr := 16, mask := [false, false, true, true], truncate := true }, by
    decide +kernel⟩
theorem witness_TheTagAnswersInventory_2 : ∃ (s : State) (fe : FrontEnd) (a : SelectArgs), s.phase = .active ∧ s.tag.session = none ∧ s.feOk fe =
    true ∧ s.fieldBusy = false ∧ s.tag.half = none ∧ a.target.toNat < 4 ∧ a.bank ≠ 0 ∧ s.tag.flags.length = 4 ∧ s.sameCycle = false ∧ a.truncate =
    false ∧ a.action = 0 ∧ s.regsWf = true :=
  ⟨{ withDraft with tag := { TagFn.init with loaded := true } }, .comm,
    { target := 2, action := 0, bank := 1, ptr := 16, mask := [true], truncate := false }, by decide +kernel⟩
theorem witness_TheTagAnswersInventory_3 : ∃ (s : State) (x : Session) (a : QueryArgs), s.fieldOpen x = true ∧ a.q % 16 = 0 ∧ a.sel.toNat < 2 ∧
    x.acked = false ∧ a.session ≠ 1 ∧ s.invFlag a.session.toNat = a.target ∧ s.regsWf = true :=
  ⟨fieldS .ready, sessOf .ready, { sel := 0, session := 2, target := false, q := 0 }, by decide +kernel⟩
theorem witness_TheTagAnswersInventory_4 : ∃ (s : State) (x : Session) (a : QueryArgs), s.fieldOpen x = true ∧ a.session ≠ 1 ∧ x.acked = false ∧
    s.invFlag a.session.toNat ≠ a.target ∧ s.regsWf = true :=
  ⟨fieldS .arbitrate, sessOf .arbitrate, { sel := 0, session := 2, target := true, q := 4 }, by decide +kernel⟩
theorem witness_TheTagAnswersInventory_5 : ∃ (s : State) (x : Session) (n : BitVec 2), s.fieldOpen x = true ∧ x.acked = true ∧ n.toNat = x.session ∧
    s.regsWf = true :=
  ⟨fieldS .acknowledged, sessOf .acknowledged, 2, by decide +kernel⟩
theorem witness_TheTagAnswersInventory_6 : ∃ (s : State) (x : Session) (n : BitVec 2) (up : Int), s.fieldOpen x = true ∧ n.toNat ≠ x.session ∧
    s.regsWf = true :=
  ⟨fieldS .acknowledged, sessOf .acknowledged, 1, -1, by decide +kernel⟩
theorem witness_TheTagAnswersInventory_7 : ∃ (s : State) (x : Session) (n : BitVec 2), s.fieldOpen x = true ∧ x.state = .arbitrate ∧ n.toNat =
    x.session ∧ (1 < x.slot ∧ x.slot < 32768) ∧ s.regsWf = true :=
  ⟨{ withDraft with tag := { TagFn.init with session := some { sessOf .arbitrate with slot := 3 }, loaded := true } },
    { sessOf .arbitrate with slot := 3 }, 2, by decide +kernel⟩
theorem witness_TheTagAnswersInventory_8 : ∃ (s : State) (x : Session) (n : BitVec 2), s.fieldOpen x = true ∧ x.state = .arbitrate ∧ n.toNat =
    x.session ∧ x.slot = 1 ∧ s.regsWf = true :=
  ⟨fieldS .arbitrate, sessOf .arbitrate, 2, by decide +kernel⟩
theorem witness_TheTagAnswersInventory_9 : ∃ (s : State) (x : Session) (rn : BitVec 16), s.fieldOpen x = true ∧ x.state = .reply ∧ (x.bySl = false ∨
    x.trunc = none) ∧ s.regsWf = true :=
  ⟨fieldS .reply, sessOf .reply, 0x1234, by decide +kernel⟩
theorem witness_TheTagAnswersInventory_10 : ∃ (s : State) (x : Session) (rn : BitVec 16) (p : Nat), s.fieldOpen x = true ∧ x.state = .reply ∧
    rn.toNat = x.rn ∧ x.bySl = true ∧ x.trunc = some p ∧ s.regsWf = true :=
  ⟨{ withDraft with tag := { TagFn.init with session := some { sessOf .reply with bySl := true, trunc := some 40 }, loaded := true } },
    { sessOf .reply with bySl := true, trunc := some 40 }, 0x1234, 40, by decide +kernel⟩
theorem witness_TheTagAnswersInventory_11 : ∃ (s : State) (x : Session), s.fieldOpen x = true ∧ x.state ≠ .ready ∧ s.regsWf = true :=
  ⟨fieldS .reply, sessOf .reply, by decide +kernel⟩
theorem witness_TheTagAnswersInventory_12 : ∃ (s : State) (x : Session) (rn : BitVec 16), s.fieldOpen x = true ∧ x.state = .acknowledged ∧ rn.toNat =
    x.rn ∧ s.regsWf = true :=
  ⟨fieldS .acknowledged, sessOf .acknowledged, 0x1234, by decide +kernel⟩
theorem witness_TheTagAnswersAccess_1 : ∃ (s : State) (x : Session) (bank : BitVec 2) (ptr n : Nat) (rn : BitVec 16), s.fieldOpen x = true ∧ x.open
    rn = true ∧ bank ≠ 0 ∧ 0 < n ∧ ptr + n ≤ bankWords bank.toNat ∧ s.tag.bad = [] ∧ s.regsWf = true :=
  ⟨fieldS .open_, sessOf .open_, 3, 3740, 4, 0x7777, by decide +kernel⟩
theorem witness_TheTagAnswersAccess_2 : ∃ (s : State) (x : Session) (bank : BitVec 2) (ptr n : Nat) (rn : BitVec 16) (e : EccResult), s.fieldOpen x =
    true ∧ x.open rn = true ∧ 0 < n ∧ (bank = 0 ∨ bankWords bank.toNat < ptr + n) ∧ s.regsWf = true :=
  ⟨fieldS .open_, sessOf .open_, 0, 3, 2, 0x7777, .clean, by decide +kernel⟩
theorem witness_TheTagAnswersAccess_3 : ∃ (s : State) (x : Session) (ptr : Nat) (data : BitVec 16) (rn : BitVec 16) (energy : Bool) (k d : Nat),
    s.fieldOpen x = true ∧ x.open rn = true ∧ x.cover = some k ∧ d = data.toNat ^^^ k ∧ ptr < 3744 ∧ lockForbids (s.lockBits 3) (decide (x.state =
    .secured)) = false ∧ (s.lands.vin || energy) = true ∧ s.crumbOos (3 + ptr / 32) = false ∧ s.crumbFree (3 + ptr / 32) = true ∧ s.regsWf = true :=
  ⟨fieldC .open_, sessC .open_, 3743, 0x1234, 0x7777, true, 0x0F0F, 0x1D3B, by decide +kernel⟩
theorem witness_TheTagAnswersAccess_4 : ∃ (s : State) (x : Session) (ptr : Nat) (data : BitVec 16) (rn : BitVec 16) (k : Nat), s.fieldOpen x = true ∧
    x.open rn = true ∧ x.cover = some k ∧ ptr < 3744 ∧ lockForbids (s.lockBits 3) (decide (x.state = .secured)) = false ∧ s.lands.vin = false ∧
    s.regsWf = true :=
  ⟨{ fieldC .open_ with lands := { (fieldC .open_).lands with vin := false } }, sessC .open_, 0, 1, 0x7777, 0x0F0F, by decide +kernel⟩
theorem witness_TheTagAnswersAccess_5 : ∃ (s : State) (x : Session) (bank : BitVec 2) (ptr : Nat) (data : BitVec 16) (rn : BitVec 16) (energy :
    Bool), s.fieldOpen x = true ∧ x.open rn = true ∧ x.cover = none ∧ s.regsWf = true :=
  ⟨fieldS .open_, sessOf .open_, 3, 0, 1, 0x7777, true, by decide +kernel⟩
theorem witness_TheTagAnswersAccess_6 : ∃ (s : State) (x : Session) (ptr : Nat) (a b : BitVec 16) (rn : BitVec 16) (energy : Bool), s.fieldOpen x =
    true ∧ x.open rn = true ∧ ptr + 1 < 3744 ∧ ptr % 32 ≠ 31 ∧ lockForbids (s.lockBits 3) (decide (x.state = .secured)) = false ∧ (s.lands.vin ||
    energy) = true ∧ s.crumbOos (3 + ptr / 32) = false ∧ s.crumbFree (3 + ptr / 32) = true ∧ s.regsWf = true :=
  ⟨fieldS .secured, sessOf .secured, 30, 0x1234, 0x5678, 0x7777, true, by decide +kernel⟩
theorem witness_TheTagAnswersAccess_7 : ∃ (s : State) (x : Session) (p : BitVec 20) (rn : BitVec 16), s.fieldOpen x = true ∧ x.state = .secured ∧
    rn.toNat = x.handle ∧ s.tag.locks = 0 ∧ p.toNat / 2 ^ 18 = 0 ∧ p.toNat / 2 ^ 12 % 4 = 0 ∧ s.regsWf = true :=
  ⟨fieldS .secured, sessOf .secured, 0x0C030, 0x7777, by decide +kernel⟩
theorem witness_TheTagAnswersAccess_8 : ∃ (s : State) (x : Session) (p : BitVec 20) (rn : BitVec 16), s.fieldOpen x = true ∧ x.state = .secured ∧
    rn.toNat = x.handle ∧ lockPair (s.lockBits 3) (p.toNat / 2 ^ 10 % 4) (p.toNat % 4) = none ∧ s.regsWf = true :=
  ⟨{ (fieldS .secured) with tag := { (fieldS .secured).tag with locks := 12 } }, sessOf .secured, 0x00800, 0x7777, by decide +kernel⟩
theorem witness_TheTagAnswersAccess_9 : ∃ (s : State) (x : Session) (v rn : BitVec 16) (k : Nat), s.fieldOpen x = true ∧ x.open rn = true ∧ x.cover =
    some k ∧ s.tag.locked = false ∧ s.tag.lockout = none ∧ s.regsWf = true :=
  ⟨fieldC .open_, sessC .open_, 0xABCD, 0x7777, 0x0F0F, by decide +kernel⟩
theorem witness_TheTagAnswersAccess_10 : ∃ (s : State) (x : Session) (v rn : BitVec 16) (k : Nat), s.fieldTakes x = true ∧ x.open rn = true ∧ x.cover
    = some k ∧ s.tag.locked = false ∧ s.tag.lockout = none ∧ s.tag.guardBusy = false ∧ s.tag.half = some s.accessPwd.1 ∧ v.toNat ^^^ k =
    s.accessPwd.2 ∧ s.regsWf = true :=
  ⟨{ (fieldC .open_) with tag := { (fieldC .open_).tag with half := some 0, consec := 1, cum := 1 } }, sessC .open_, 0x0F0F, 0x7777, 0x0F0F, by
    decide +kernel⟩
theorem witness_TheTagAnswersAccess_11 : ∃ (s : State) (x : Session) (h : Nat) (v rn : BitVec 16) (k : Nat), s.fieldTakes x = true ∧ x.open rn = true
    ∧ x.cover = some k ∧ s.tag.locked = false ∧ s.tag.lockout = none ∧ s.tag.guardBusy = false ∧ s.tag.half = some h ∧ (h, v.toNat ^^^ k) ≠
    s.accessPwd ∧ s.tag.cum < 64 ∧ s.regsWf = true :=
  ⟨{ (fieldC .open_) with tag := { (fieldC .open_).tag with half := some 1, consec := 5, cum := 5 } }, sessC .open_, 1, 0, 0x7777, 0x0F0F, by
    decide +kernel⟩
theorem witness_TheTagAnswersAccess_12 : ∃ (s : State) (x : Session) (fe : FrontEnd), s.fieldOpen x = true ∧ s.feOk fe = true ∧ s.regsWf = true :=
  ⟨fieldS .secured, sessOf .secured, .comm, by decide +kernel⟩
theorem witness_TheTagAnswersAccess_13 : ∃ (s : State) (x : Session) (fe : FrontEnd), s.fieldOpen x = true ∧ s.feOk fe = true ∧ s.regsWf = true :=
  ⟨fieldS .secured, sessOf .secured, .comm, by decide +kernel⟩
theorem witness_TheTagAnswersAccess_14 : ∃ (s : State) (x : Session) (fe : FrontEnd), s.fieldOpen x = true ∧ s.feOk fe = true ∧ s.regsWf = true :=
  ⟨fieldS .secured, sessOf .secured, .comm, by decide +kernel⟩
theorem witness_TheTagAnswersAccess_15 : ∃ (s : State) (x : Session) (fe : FrontEnd), s.fieldOpen x = true ∧ s.feOk fe = true ∧ s.regsWf = true :=
  ⟨fieldS .secured, sessOf .secured, .comm, by decide +kernel⟩
theorem witness_TheTagAnswersAccess_16 : ∃ (s : State) (x : Session) (fe : FrontEnd), s.fieldOpen x = true ∧ s.feOk fe = true ∧ s.regsWf = true :=
  ⟨fieldS .secured, sessOf .secured, .comm, by decide +kernel⟩
theorem witness_TheTagStoreEndsItsWork_1 : ∃ (s : State) (x : Session), s.tag.session = some x ∧ s.tag.half = none ∧ s.regsWf = true :=
  ⟨{ (fieldS .open_) with tag := { (fieldS .open_).tag with job := some fieldJob } }, sessOf .open_, by decide +kernel⟩
theorem witness_TheTagStoreEndsItsWork_2 : ∃ (s : State) (x : Session), s.tag.session = some x ∧ s.tag.half = none ∧ s.antSession = false ∧
    s.tagFromVin = true ∧ s.regsWf = true :=
  ⟨{ (fieldS .open_) with tag := { (fieldS .open_).tag with job := some fieldJob } }, sessOf .open_, by decide +kernel⟩
theorem witness_TheTagStoreEndsItsWork_3 : ∃ (s : State) (x : Session), s.tag.session = some x ∧ x.fe ≠ .comm ∧ s.tag.half = none ∧ s.regsWf = true :=
  ⟨{ withDraft with tag := { TagFn.init with session := some { sessOf .open_ with fe := .ant 0 }, field := true, loaded := true } },
    { sessOf .open_ with fe := .ant 0 }, by decide +kernel⟩
theorem witness_TheTagStoreEndsItsWork_4 : ∃ (s : State), s.tag.session = none ∧ s.tag.half = none ∧ s.tagFromVin = false ∧ s.tag.job = none ∧
    s.regsWf = true :=
  ⟨{ withDraft with lands := { withDraft.lands with vin := false }, tag := { TagFn.init with lockout := some (2, 5), flags := [true, true, true, false] } },
    by decide +kernel⟩
theorem witness_TheTagStoreEndsItsWork_5 : ∃ (s : State) (j : CrumbJob) (h : Nat), s.tag.job = some j ∧ s.tag.queue = [] ∧ j.who = .field h ∧ j.reply
    = true ∧ j.crumb ≠ 1 ∧ j.crumb < 128 ∧ (∀ e ∈ j.patch, e.1 < 64) ∧ s.wearOf (s.locOf j.crumb) < 89999 ∧ s.hp.frame = none ∧ s.hp.posted = [] ∧
    s.phase = .active ∧ swf (tagFactory s.board.serial) s.tag.bytes = true ∧ s.regsWf = true :=
  ⟨{ (fieldS .open_) with tag := { (fieldS .open_).tag with job := some fieldJob } }, fieldJob, 0x7777, by decide +kernel⟩
theorem witness_TheTagStoreEndsItsWork_6 : ∃ (s : State) (j : CrumbJob), s.tag.job = some j ∧ j.failed = false ∧ s.hp.frame = none ∧ s.hp.posted = []
    ∧ s.regsWf = true :=
  ⟨{ (fieldS .open_) with tag := { (fieldS .open_).tag with job := some fieldJob } }, fieldJob, by decide +kernel⟩
theorem witness_TheTagStoreEndsItsWork_7 : ∃ (s : State) (v : Bool), s.tag.job = none ∧ s.regsWf = true :=
  ⟨fieldS .open_, true, by decide +kernel⟩
theorem witness_TheTagStoreEndsItsWork_8 : ∃ (s : State), s.regsWf = true :=
  ⟨{ (fieldS .open_) with tag := { (fieldS .open_).tag with guardBusy := true } }, by decide +kernel⟩
theorem witness_TheTagStoreEndsItsWork_9 : ∃ (s : State), s.regsWf = true :=
  ⟨{ (fieldS .open_) with tag := { (fieldS .open_).tag with lockout := some (2, 0) } }, by decide +kernel⟩
theorem witness_TheTagStoreEndsItsWork_10 : ∃ (s : State) (c : Fin 128), s.tagFromVin = true ∧ s.crumbOos c = false ∧ s.crumbFree c = true ∧
    s.tag.fix.contains c.val = true ∧ s.regsWf = true :=
  ⟨{ (fieldS .open_) with tag := { (fieldS .open_).tag with fix := [127] } }, 127, by decide +kernel⟩
theorem witness_TheTagStoreEndsItsWork_11 : ∃ (s : State) (c : Fin 128), (s.tagFromVin = false ∨ s.tag.fix.contains c.val = false ∨ s.crumbOwned c =
    true ∨ s.crumbOos c = true) ∧ s.regsWf = true :=
  ⟨{ (fieldS .open_) with tag := { (fieldS .open_).tag with job := some fieldJob } }, 5, by decide +kernel⟩
theorem witness_SweepsAndBaselines_1 : ∃ (s : State) (l : List Nat), (s.sleeping = some .idle ∨ s.sleeping = some .doze) ∧ s.tap ≠ .extest ∧
    s.ping.sweep = none ∧ s.bit Reg.pingRf 31 = true ∧ s.fld Reg.pingSweep 0 16 ≠ 0 ∧ l = (List.range 64).filter (fun p => s.bit (Reg.pingPorts (p /
    32)) (p % 32) && !s.bit (Reg.pingSkip (p / 32)) (p % 32)) ∧ l ≠ [] ∧ s.regsWf = true :=
  ⟨(regsOf { base with phase := .doze } [(Reg.pingRf, 0x80000000), (Reg.pingSweep, 1024), (Reg.pingPorts 1, 5), (Reg.pingSkip 1, 1)]), [34], by
    decide +kernel⟩
theorem witness_SweepsAndBaselines_2 : ∃ (s : State), (s.sleeping = none ∨ s.sleeping = some .dormant) ∧ s.regsWf = true :=
  ⟨base, by decide +kernel⟩
theorem witness_SweepsAndBaselines_3 : ∃ (s : State) (m : GammaMeas) (p : PingPort), s.tap ≠ .extest ∧ s.rounds = [] ∧ s.ping.sweep = some
    [m.port.val] ∧ s.pingPort m.port = p ∧ -40 ≤ m.listen ∧ s.regsWf = true :=
  ⟨{ base with phase := .doze, ping := { Ping.init with sweep := some [7] } }, ⟨7, 100, 100, -40⟩, PingPort.init, by decide +kernel⟩
theorem witness_SweepsAndBaselines_4 : ∃ (s : State) (m : GammaMeas) (p : PingPort), s.tap ≠ .extest ∧ s.rounds = [] ∧ s.ping.sweep = some
    [m.port.val] ∧ s.pingPort m.port = p ∧ m.listen < -40 ∧ p.valid = false ∧ swf (fun _ => PingPort.init) s.ping.ports = true ∧ s.regsWf = true :=
  ⟨{ base with phase := .doze, ping := { Ping.init with sweep := some [7] } }, ⟨7, 100, -100, -60⟩, PingPort.init, by decide +kernel⟩
theorem witness_SweepsAndBaselines_5 : ∃ (s : State) (m : GammaMeas) (p : PingPort), s.tap ≠ .extest ∧ s.rounds = [] ∧ s.ping.sweep = some
    [m.port.val] ∧ s.pingPort m.port = p ∧ m.listen < -40 ∧ p.valid = true ∧ p.state = 0 ∧ pingD p m.i m.q < fieldN s.ping.thr 0 10 ∧ pingD p m.i m.q
    < fieldN s.ping.thr 10 10 ∧ ((m.i - p.bi).tdiv (2 ^ s.fld Reg.pingCfg 24 4) ≠ 0 ∨ (m.q - p.bq).tdiv (2 ^ s.fld Reg.pingCfg 24 4) ≠ 0) ∧ swf (fun
    _ => PingPort.init) s.ping.ports = true ∧ s.regsWf = true :=
  ⟨({ base with phase := .doze, ping := { Ping.init with sweep := some [7], ports := [(7, pingA)], thr := 0x1E005014 } }).setReg Reg.pingCfg
    0x22000000, ⟨7, 105, -103, -60⟩, pingA, by decide +kernel⟩
theorem witness_SweepsAndBaselines_6 : ∃ (s : State) (m : GammaMeas) (p : PingPort), s.tap ≠ .extest ∧ s.rounds = [] ∧ s.phase = .active ∧
    s.ping.sweep = some [m.port.val] ∧ s.pingPort m.port = p ∧ m.listen < -40 ∧ p.valid = true ∧ p.state = 0 ∧ fieldN s.ping.thr 0 10 ≤ pingD p m.i
    m.q ∧ pingD p m.i m.q < fieldN s.ping.thr 20 10 ∧ s.fld Reg.pingCfg 28 4 ≤ p.pend + 1 ∧ s.ping.wake = none ∧ swf (fun _ => PingPort.init)
    s.ping.ports = true ∧ s.regsWf = true :=
  ⟨({ base with ping := { Ping.init with sweep := some [7], ports := [(7, pingA)], thr := 0x1E005014 } }).setReg Reg.pingCfg 0x12000000, ⟨7, 140,
    -100, -60⟩, pingA, by decide +kernel⟩
theorem witness_SweepsAndBaselines_7 : ∃ (s : State) (r : Round), s.tap ≠ .extest ∧ s.rounds = [r] ∧ r.kind = .ping ∧ r.phase = .running ∧ r.warp < 4
    ∧ r.warps = [0, 1, 2, 3] ∧ r.txc = none ∧ (r.beams = [] ∧ r.decs = [] ∧ r.points = [] ∧ r.leg = none ∧ r.uma = none) ∧ r.status = none ∧ s.cmds =
    [] ∧ s.upd.boundary = [] ∧ s.regsWf = true :=
  ⟨{ base with rounds := [{ roundA with kind := .ping, warps := [0, 1, 2, 3], txc := none }] },
    { roundA with kind := .ping, warps := [0, 1, 2, 3], txc := none }, by decide +kernel⟩
theorem witness_SweepsAndBaselines_8 : ∃ (s : State), s.ping.changed = true ∧ s.halfRuns = true ∧ s.regsWf = true :=
  ⟨{ base with ping := { Ping.init with changed := true, ports := [(7, pingA)] }, mgmt := { Mgmt.init with running := some false } }, by
    decide +kernel⟩
theorem witness_SweepsAndBaselines_9 : ∃ (s : State), s.ping.changed = false ∧ s.regsWf = true :=
  ⟨base, by decide +kernel⟩
theorem witness_ThresholdsTakeEffectAtTheNextSweep_1 : ∃ (s : State) (value : Word), s.hostCan Reg.pingThr = true ∧ fieldN value 10 10 < fieldN value
    0 10 ∧ fieldN value 0 10 < fieldN value 20 10 :=
  ⟨base, 0x1E001414, by decide +kernel⟩
theorem witness_ThresholdsTakeEffectAtTheNextSweep_2 : ∃ (s : State) (value : Word), s.hostCan Reg.pingThr = true ∧ (fieldN value 0 10 ≤ fieldN value
    10 10 ∨ fieldN value 20 10 ≤ fieldN value 0 10) :=
  ⟨base, 0x1E007814, by decide +kernel⟩
theorem witness_ThresholdsTakeEffectAtTheNextSweep_3 : ∃ (s : State) (p : Nat), (s.sleeping = some .idle ∨ s.sleeping = some .doze) ∧ s.tap ≠ .extest
    ∧ s.ping.sweep = none ∧ s.bit Reg.pingRf 31 = true ∧ s.fld Reg.pingSweep 0 16 ≠ 0 ∧ p < 64 ∧ (s.bit (Reg.pingPorts (p / 32)) (p % 32) = true ∧
    s.bit (Reg.pingSkip (p / 32)) (p % 32) = false) ∧ s.regsWf = true :=
  ⟨(regsOf { base with phase := .doze } [(Reg.pingRf, 0x80000000), (Reg.pingSweep, 1024), (Reg.pingPorts 1, 5), (Reg.pingSkip 1, 1)]), 34, by
    decide +kernel⟩
theorem witness_ThresholdsTakeEffectAtTheNextSweep_4 : ∃ (s : State) (w : Fin 4) (c : Cand), s.mayStart = true ∧ s.bit Reg.schedCtrl 0 = true ∧
    s.rounds = [] ∧ s.cands = [c] ∧ c.kind = .pingCal ∧ s.warpsOn [0, 1, 2, 3] = true ∧ s.tag.session = none ∧ s.halfRuns = true ∧ s.regsWf = true :=
  ⟨regsOf { withDraft with mgmt := { Mgmt.init with running := some false }, cands := [{ kind := .pingCal, seq := 0, entry := 0, warp := 0, due := true, points := [] }] }
    [(Reg.schedCtrl, 0xF1), (Reg.pingThr, 0x1E001414)], 2, { kind := .pingCal, seq := 0, entry := 0, warp := 0, due := true, points := [] }, by
    decide +kernel⟩
theorem witness_ThresholdsTakeEffectAtTheNextSweep_5 : ∃ (s : State) (w : Fin 4) (c : Cand), s.mayStart = true ∧ s.bit Reg.schedCtrl 0 = true ∧
    s.rounds = [] ∧ s.cands = [c] ∧ c.kind = .ping ∧ c.due = true ∧ s.bit (Reg.schedTable c.entry 0) 31 = true ∧ (s.entryPlan c.entry false).status =
    none ∧ (s.entryPlan c.entry false).warps = [0, 1, 2, 3] ∧ ((s.entryPlan c.entry false).pool = [] ∧ (s.entryPlan c.entry false).beams = [] ∧
    (s.entryPlan c.entry false).decOf = []) ∧ s.fld (Reg.schedTable c.entry 0) 22 4 = 0 ∧ s.meetsWindow c (s.entryPlan c.entry false) = false ∧
    s.tag.session = none ∧ s.regsWf = true :=
  ⟨regsOf { withDraft with cands := [{ kind := .ping, seq := 0, entry := 2, warp := 0, due := true, points := [] }] }
    [(Reg.schedCtrl, 0xF1), (Reg.pingThr, 0x1E001414), (Reg.schedTable 2 0, 0xC0000000), (Reg.schedTable 2 1, 0x64), (Reg.schedTable 2 5, 1)], 2,
    { kind := .ping, seq := 0, entry := 2, warp := 0, due := true, points := [] }, by decide +kernel⟩
theorem witness_DwellsFollowSightings_1 : ∃ (s : State) (b : Nat) (a : Word) (r : List (Nat × Word)), s.board.tally = true ∧ s.coreOn = true ∧
    s.tal.reqs = (b, a) :: r ∧ s.regsWf = true :=
  ⟨{ tallyS with tal := { tallyS.tal with reqs := [(1, 32)], dropped := 300, queue := [⟨2, 7, 90, 100, 0xBEEF⟩] } }, 1, 32, [], by decide +kernel⟩
theorem witness_DwellsFollowSightings_2 : ∃ (s : State) (q : FeedItem) (r : List FeedItem), s.board.tally = true ∧ s.coreOn = true ∧ s.tal.reqs = []
    ∧ s.tal.queue = q :: r ∧ s.regsWf = true :=
  ⟨{ tallyS with tal := { tallyS.tal with queue := [⟨2, 7, 90, 100, 0xBEEF⟩] } }, ⟨2, 7, 90, 100, 0xBEEF⟩, [], by decide +kernel⟩
theorem witness_DwellsFollowSightings_3 : ∃ (s : State) (i : List Byte) (f z q r n : Nat) (e : Dwell), s.takesSighting i = true ∧ sightingOf i = (f,
    z, q, r, n) ∧ r ≤ s.die.params.rssiMin ∧ s.die.dwells.find? (fun x => x.family == f && x.id == n) = some e ∧ e.state = .open_ ∧ (s.die.inZone z q
    = false ∨ z = e.zone) ∧ s.regsWf = true :=
  ⟨tallyS, itemS 0 2 9 20 100 0xBEEF, 2, 9, 20, 100, 0xBEEF, dwellA, by decide +kernel⟩
theorem witness_DwellsFollowSightings_4 : ∃ (s : State) (i : List Byte) (f z q r n : Nat), s.takesSighting i = true ∧ sightingOf i = (f, z, q, r, n)
    ∧ (s.die.params.rssiMin < r ∨ (s.die.inZone z q = false ∧ s.die.dwells.find? (fun x => x.family == f && x.id == n) = none)) ∧ s.regsWf = true :=
  ⟨tallyS, itemS 0 2 7 90 171 0xBEEF, 2, 7, 90, 171, 0xBEEF, by decide +kernel⟩
theorem witness_DwellsFollowSightings_5 : ∃ (s : State) (i : List Byte) (f z q r n k : Nat), s.takesSighting i = true ∧ sightingOf i = (f, z, q, r,
    n) ∧ r ≤ s.die.params.rssiMin ∧ s.die.inZone z q = true ∧ s.die.dwells.find? (fun x => x.family == f && x.id == n) = none ∧ (List.range
    4096).find? (fun j => (s.die.dwell j).isNone) = some k ∧ 1 < s.die.params.entryN ∧ s.regsWf = true :=
  ⟨tallyS, itemS 0 2 7 90 100 0xFEED, 2, 7, 90, 100, 0xFEED, 1, by decide +kernel⟩
theorem witness_DwellsFollowSightings_6 : ∃ (s : State) (i : List Byte) (f z q r n : Nat) (e : Dwell), s.takesSighting i = true ∧ sightingOf i = (f,
    z, q, r, n) ∧ r ≤ s.die.params.rssiMin ∧ s.die.inZone z q = true ∧ s.die.dwells.find? (fun x => x.family == f && x.id == n) = some e ∧ e.state =
    .cand ∧ e.ccount ≠ 0 ∧ z = e.czone ∧ s.die.tt - e.cfirst ≤ s.die.params.entryWin ∧ s.die.params.entryN ≤ e.ccount + 1 ∧ s.regsWf = true :=
  ⟨tallyS, itemS 0 0 9 90 100 0xC0DE, 0, 9, 90, 100, 0xC0DE, dwellC, by decide +kernel⟩
theorem witness_DwellsFollowSightings_7 : ∃ (s : State) (i : List Byte) (f z q r n : Nat) (e : Dwell), s.takesSighting i = true ∧ sightingOf i = (f,
    z, q, r, n) ∧ r ≤ s.die.params.rssiMin ∧ s.die.inZone z q = true ∧ s.die.dwells.find? (fun x => x.family == f && x.id == n) = some e ∧ e.state =
    .open_ ∧ z ≠ e.zone ∧ e.ccount ≠ 0 ∧ z = e.czone ∧ s.die.tt - e.cfirst ≤ s.die.params.entryWin ∧ s.die.params.entryN ≤ e.ccount + 1 ∧ s.regsWf =
    true :=
  ⟨{ tallyS with die := { dieA with dwells := [{ dwellA with czone := 9, cfirst := 4950, ccount := 2 }] } }, itemS 0 2 9 90 100 0xBEEF, 2, 9, 90,
    100, 0xBEEF, { dwellA with czone := 9, cfirst := 4950, ccount := 2 }, by decide +kernel⟩
theorem witness_DwellsFollowSightings_8 : ∃ (s : State) (i : List Byte) (f z q r n g : Nat), s.coreOn = true ∧ s.dieTicks = true ∧ s.die.restart =
    false ∧ itemKind i = some true ∧ sightingOf i = (f, z, q, r, n) ∧ s.die.params.rssiMin < r ∧ s.die.gap = some g ∧ s.regsWf = true :=
  ⟨{ tallyS with die := { dieA with gap := some 4000 } }, itemS 3 2 7 90 171 0xBEEF, 2, 7, 90, 171, 0xBEEF, 4000, by decide +kernel⟩
theorem witness_DwellsFollowSightings_9 : ∃ (s : State) (i : List Byte), s.talUp = true ∧ s.die.restart = false ∧ itemKind i = none ∧ s.regsWf = true
    :=
  ⟨tallyS, [0x10], by decide +kernel⟩
theorem witness_DwellsFollowSightings_10 : ∃ (s : State) (i : List Byte), s.coreOn = true ∧ s.talUp = true ∧ s.die.gap = none ∧ (i.getD 1 0).toNat =
    0 ∧ s.die.restart = false ∧ itemKind i = some false ∧ s.regsWf = true :=
  ⟨tallyS, itemW 2 64, by decide +kernel⟩
theorem witness_DwellsFollowSightings_11 : ∃ (s : State) (i : List Byte), s.die.restart = true ∧ itemKind i = some false ∧ s.regsWf = true :=
  ⟨{ tallyS with die := { dieA with restart := true } }, itemW 2 64, by decide +kernel⟩
theorem witness_DwellsFollowSightings_12 : ∃ (s : State) (i : List Byte), s.die.restart = true ∧ itemKind i = some true ∧ s.regsWf = true :=
  ⟨{ tallyS with die := { dieA with restart := true } }, itemS 0 2 7 90 100 0xFEED, by decide +kernel⟩
theorem witness_DwellsFollowSightings_13 : ∃ (s : State) (i : List Byte), itemKind i ≠ some true ∧ s.regsWf = true :=
  ⟨tallyS, itemW 2 64, by decide +kernel⟩
theorem witness_DwellsFollowSightings_14 : ∃ (s : State) (k : BitVec 12) (e : Dwell), s.dieTicks = true ∧ s.die.dwell k.toNat = some e ∧ e.state =
    .cand ∧ s.die.params.entryWin < s.die.tt - e.cfirst ∧ s.regsWf = true :=
  ⟨{ tallyS with die := { dieA with tt := 5101 } }, 0, dwellC, by decide +kernel⟩
theorem witness_DwellsFollowSightings_15 : ∃ (s : State) (k : BitVec 12) (e : Dwell), s.dieTicks = true ∧ s.die.dwell k.toNat = some e ∧ e.state =
    .open_ ∧ s.die.gap = none ∧ s.die.params.exitSil ≤ s.die.tt - e.silFrom ∧ s.regsWf = true :=
  ⟨{ tallyS with die := { dieA with tt := 5200 } }, 3, dwellA, by decide +kernel⟩
theorem witness_DwellsFollowSightings_16 : ∃ (s : State) (k : BitVec 12) (e : Dwell), s.dieTicks = true ∧ s.die.dwell k.toNat = some e ∧ e.state =
    .open_ ∧ s.die.params.maxDwell * 10 ≤ s.die.tt - e.entry ∧ s.regsWf = true :=
  ⟨{ tallyS with die := { dieA with tt := 25921000 } }, 3, dwellA, by decide +kernel⟩
theorem witness_DwellsFollowSightings_17 : ∃ (s : State), s.dieTicks = true ∧ s.die.gap = none ∧ s.die.params.feedGap ≤ s.die.tt - s.die.lastItem ∧
    s.regsWf = true :=
  ⟨{ tallyS with die := { dieA with tt := 5090 } }, by decide +kernel⟩
theorem witness_DwellsFollowSightings_18 : ∃ (s : State) (g : Nat) (e : Dwell), s.dieTicks = true ∧ s.die.gap = some g ∧ s.die.params.gapMax * 10 ≤
    s.die.tt - g ∧ s.die.dwells = [e] ∧ e.state = .open_ ∧ s.regsWf = true :=
  ⟨{ tallyS with die := { dieA with tt := 900000, gap := some 36000, dwells := [dwellA] } }, 36000, dwellA, by decide +kernel⟩
theorem witness_DwellsFollowSightings_19 : ∃ (s : State), s.dieTicks = true ∧ s.regsWf = true :=
  ⟨{ tallyS with die := { dieA with tt := 5200 } }, by decide +kernel⟩
theorem witness_DwellsFollowSightings_20 : ∃ (s : State), s.dieTicks = true ∧ s.die.gap = none ∧ s.die.tt - s.die.lastItem < s.die.params.feedGap ∧
    s.die.dwells.all (fun e => if e.state = .cand then decide (s.die.tt - e.cfirst ≤ s.die.params.entryWin) else decide (s.die.tt - e.silFrom <
    s.die.params.exitSil) && decide (s.die.tt - e.entry < s.die.params.maxDwell * 10)) = true ∧ s.regsWf = true :=
  ⟨tallyS, by decide +kernel⟩
theorem witness_DwellsFollowSightings_21 : ∃ (s : State), s.dieTicks = false ∧ s.regsWf = true :=
  ⟨{ tallyS with die := { dieA with xtal := false } }, by decide +kernel⟩
theorem witness_TheTallyDieAndItsLink_1 : ∃ (s : State) (a : Int), s.talUp = true ∧ s.regsWf = true :=
  ⟨tallyS, -3, by decide +kernel⟩
theorem witness_TheTallyDieAndItsLink_2 : ∃ (s : State), s.talUp = true ∧ s.regsWf = true :=
  ⟨tallyS, by decide +kernel⟩
theorem witness_TheTallyDieAndItsLink_3 : ∃ (s : State), s.board.tally = true ∧ s.regsWf = true :=
  ⟨tallyS, by decide +kernel⟩
theorem witness_TheTallyDieAndItsLink_4 : ∃ (s : State) (e : Dwell), s.board.tally = true ∧ s.die.running = false ∧ s.die.dwells.filter (fun x =>
    x.state == .open_) = [e] ∧ s.regsWf = true :=
  ⟨{ tallyS with die := { dieA with running := false, saved := 4991 } }, dwellA, by decide +kernel⟩
theorem witness_TheTallyDieAndItsLink_5 : ∃ (s : State), s.board.tally = true ∧ s.die.running = false ∧ s.die.dwells = [] ∧ s.regsWf = true :=
  ⟨{ tallyS with die := { dieA with running := false, saved := 4991, dwells := [] } }, by decide +kernel⟩
theorem witness_TheTallyDieAndItsLink_6 : ∃ (s : State), s.talUp = true ∧ s.die.restart = true ∧ s.regsWf = true :=
  ⟨{ tallyS with die := { dieA with restart := true } }, by decide +kernel⟩
theorem witness_TheTallyDieAndItsLink_7 : ∃ (s : State) (e : Dwell), s.dieTicks = true ∧ s.die.dwells = [e] ∧ e.state = .open_ ∧ s.regsWf = true :=
  ⟨{ tallyS with die := { dieA with dwells := [dwellA] } }, dwellA, by decide +kernel⟩
theorem witness_TheTallyDieAndItsLink_8 : ∃ (s : State), s.talUp = true ∧ s.die.xtal = false ∧ s.regsWf = true :=
  ⟨{ tallyS with die := { dieA with xtal := false, health := 256 } }, by decide +kernel⟩
theorem witness_TheTallyDieAndItsLink_9 : ∃ (s : State), s.talUp = true ∧ s.die.sealMode = false ∧ s.regsWf = true :=
  ⟨tallyS, by decide +kernel⟩
theorem witness_TheTallyDieAndItsLink_10 : ∃ (s : State) (i : TallyImage), s.talUp = true ∧ s.regsWf = true :=
  ⟨{ tallyS with die := { dieA with sealMode := true } }, sealImg, by decide +kernel⟩
theorem witness_TheTallyDieAndItsLink_11 : ∃ (s : State) (i : TallyImage) (e : Dwell), s.talUp = true ∧ s.die.sealMode = true ∧ s.die.image = some i
    ∧ i.sigOk = true ∧ talType i = 2 ∧ (talField i 5 1 = 0 ∧ talField i 8 4 = 0) ∧ s.die.parSeq < talSeq i ∧ paramsOk (talParams i) = true ∧
    paramBlock (talParams i) = (i.bytes.drop 16).take 64 ∧ talLenOk i = true ∧ s.die.audit < 0xFFFF ∧ s.die.dwells = [e] ∧ e.state = .open_ ∧
    s.regsWf = true :=
  ⟨{ tallyS with die := { dieA with sealMode := true, image := some sealImg, health := 16, dwells := [dwellA] } }, sealImg, dwellA, by decide +kernel⟩
theorem witness_TheTallyDieAndItsLink_12 : ∃ (s : State) (i : TallyImage), s.talUp = true ∧ s.die.sealMode = true ∧ s.die.image = some i ∧
    s.die.imageFault i ≠ 0 ∧ s.regsWf = true :=
  ⟨{ tallyS with die := { dieA with sealMode := true, image := some { sealImg with sigOk := false } } }, { sealImg with sigOk := false }, by
    decide +kernel⟩
theorem witness_TheTallyDieAndItsLink_13 : ∃ (s : State), s.talUp = true ∧ s.die.sealMode = true ∧ s.die.image = none ∧ s.regsWf = true :=
  ⟨{ tallyS with die := { dieA with sealMode := true } }, by decide +kernel⟩
theorem witness_TheTallyDieAndItsLink_14 : ∃ (s : State), s.talUp = true ∧ s.die.attest = true ∧ s.die.chain.length = 32 ∧ s.regsWf = true :=
  ⟨{ tallyS with die := { dieA with attest := true } }, by decide +kernel⟩
theorem witness_TheTallyDieAndItsLink_15 : ∃ (s : State) (f : PubFrame) (r : List PubFrame), s.talUp = true ∧ s.die.pub = f :: r ∧ s.regsWf = true :=
  ⟨{ tallyS with die := { dieA with pubSeq := 255, pub := [{ seq := 0, block := some (0, 0), note := none, words := [], nwords := [] }] } },
    { seq := 0, block := some (0, 0), note := none, words := [], nwords := [] }, [], by decide +kernel⟩
theorem witness_TheTallyDieAndItsLink_16 : ∃ (s : State) (f : PubFrame) (r : List PubFrame) (n : Nat), s.coreOn = true ∧ s.die.air = f :: r ∧ f.block
    = none ∧ f.note = some n ∧ s.fifo.tally.length < 8 ∧ s.regsWf = true :=
  ⟨{ tallyS with die := { dieA with air := [{ seq := 9, block := none, note := some 2, words := [], nwords := [1, 2, 3, 4, 5, 6] }] }, tal := { tallyS.tal with lastSeq := some 7 } },
    { seq := 9, block := none, note := some 2, words := [], nwords := [1, 2, 3, 4, 5, 6] }, [], 2, by decide +kernel⟩
theorem witness_TheTallyDieAndItsLink_17 : ∃ (s : State) (f : PubFrame) (r : List PubFrame) (c a o n : Nat) (q : Nat), s.coreOn = true ∧ s.die.air =
    f :: r ∧ f.block = some (c, a) ∧ f.note = none ∧ windowOf c = (o, n) ∧ s.soleCmd q Reg.talReqRes (.talReq c (wordOf a)) = true ∧ a < 2 ^ 32 ∧
    s.regsWf = true :=
  ⟨({ tallyS with die := { dieA with air := [{ seq := 9, block := some (2, 64), note := none, words := [7, 8], nwords := [] }] }, cmds := [{ seq := 4, res := some Reg.talReqRes, kind := .talReq 2 64, cell := some true }] }).setReg
    Reg.talReqRes 4, { seq := 9, block := some (2, 64), note := none, words := [7, 8], nwords := [] }, [], 2, 64, 512, 512, 4, by decide +kernel⟩
theorem witness_TheTallyDieAndItsLink_18 : ∃ (s : State) (f : PubFrame) (r : List PubFrame) (ok : Bool), s.die.air = f :: r ∧ (s.coreOn = false ∨ ok
    = false) ∧ s.regsWf = true :=
  ⟨{ tallyS with die := { dieA with air := [{ seq := 9, block := none, note := none, words := [7, 8], nwords := [] }] } },
    { seq := 9, block := none, note := none, words := [7, 8], nwords := [] }, [], false, by decide +kernel⟩
theorem witness_TheTallyDieAndItsLink_19 : ∃ (s : State), s.regsWf = true :=
  ⟨tallyS, by decide +kernel⟩
theorem witness_TheTallyDieAndItsLink_20 : ∃ (s : State), s.ready rdTal = true ∧ s.halfRuns = true ∧ s.tal.reqs.length < 4 ∧ s.regsWf = true :=
  ⟨{ tallyS with mgmt := { Mgmt.init with running := some false } }, by decide +kernel⟩
theorem witness_TheTallyDieAndItsLink_21 : ∃ (s : State) (n b : Nat) (a : Word), s.soleCmd n Reg.talReqRes (.talReq b a) = true ∧ s.regsWf = true :=
  ⟨({ tallyS with cmds := [{ seq := 4, res := some Reg.talReqRes, kind := .talReq 2 64, cell := some true }] }).setReg Reg.talReqRes 4, 4, 2, 64, by
    decide +kernel⟩
theorem witness_TheMemoryPortServesItsQueue_1 : ∃ (s : State) (e : MemEntry) (forced : Bool), s.memp.cur = none ∧ s.memp.suspending = false ∧
    s.memp.prog = none ∧ s.nextEntry = some (e, forced) ∧ s.portServes = true ∧ s.memOos e.dev = false ∧ s.regsWf = true :=
  ⟨{ base with memp := { Memp.init with queue := [popR, { popR with addr := 1024, level := 1 }], since := [0, 20, 0, 0, 0] } }, popR, true, by
    decide +kernel⟩
theorem witness_TheMemoryPortServesItsQueue_2 : ∃ (s : State), (s.memp.cur ≠ none ∨ s.memp.suspending = true ∨ s.memStopped = true ∨ (s.portServes =
    true ∧ s.nextEntry = none)) ∧ s.regsWf = true :=
  ⟨{ base with memp := { Memp.init with queue := [flashR], prog := some flashP, rgap := true } }, by decide +kernel⟩
theorem witness_TheMemoryPortServesItsQueue_3 : ∃ (s : State) (e p : MemEntry) (forced : Bool), s.memp.cur = none ∧ s.memp.suspending = false ∧
    s.memp.suspended = false ∧ s.memp.prog = some p ∧ s.nextEntry = some (e, forced) ∧ e.dev = p.dev ∧ s.portServes = true ∧ s.memOos e.dev = false ∧
    s.regsWf = true :=
  ⟨{ base with memp := { Memp.init with queue := [flashR], prog := some flashP } }, flashR, flashP, false, by decide +kernel⟩
theorem witness_TheMemoryPortServesItsQueue_4 : ∃ (s : State) (e : MemEntry) (forced : Bool), s.memp.suspending = true ∧ s.whileSuspended.nextEntry =
    some (e, forced) ∧ s.portServes = true ∧ s.memOos e.dev = false ∧ s.regsWf = true :=
  ⟨{ base with memp := { Memp.init with queue := [flashR], prog := some flashP, suspending := true } }, flashR, false, by decide +kernel⟩
theorem witness_TheMemoryPortServesItsQueue_5 : ∃ (s : State), s.memp.suspending = true ∧ s.whileSuspended.nextEntry = none ∧ s.memStopped = false ∧
    s.regsWf = true :=
  ⟨{ base with memp := { Memp.init with prog := some flashP, suspending := true } }, by decide +kernel⟩
theorem witness_TheMemoryPortServesItsQueue_6 : ∃ (s : State), s.regsWf = true :=
  ⟨{ base with memp := { Memp.init with rgap := true } }, by decide +kernel⟩
theorem witness_TheMemoryPortServesItsQueue_7 : ∃ (s : State) (e : MemEntry) (h : Bool) (off : Nat), s.memp.cur = some e ∧ e.job = .xip h off ∧
    e.prog = false ∧ e.cont = false ∧ s.memStopped = false ∧ s.cmds = [] ∧ s.regsWf = true :=
  ⟨{ base with memp := { Memp.init with cur := some flashR, prog := some flashP, suspended := true } }, flashR, true, 0x40, by decide +kernel⟩
theorem witness_TheMemoryPortServesItsQueue_8 : ∃ (s : State) (e : MemEntry), s.memp.cur = some e ∧ e.prog = true ∧ e.cont = false ∧ s.memStopped =
    false ∧ s.cmds = [] ∧ s.regsWf = true :=
  ⟨{ base with memp := { Memp.init with cur := some flashP } }, flashP, by decide +kernel⟩
theorem witness_TheMemoryPortServesItsQueue_9 : ∃ (s : State) (e : MemEntry) (family id : Nat) (x : Seen) (p : Nat), s.memp.cur = some e ∧ e.job =
    .popWrite family id true ∧ e.prog = false ∧ e.cont = false ∧ s.memp.suspended = false ∧ s.seenWb.find? (fun y => y.family == family && y.id ==
    id) = some x ∧ s.popPlace x = (p, false) ∧ s.memStopped = false ∧ s.cmds = [] ∧ s.regsWf = true :=
  ⟨{ base with memp := { Memp.init with cur := some { popR with write := true, job := .popWrite 0 0xDEADBEEF true } }, seenWb := [seenA] },
    { popR with write := true, job := .popWrite 0 0xDEADBEEF true }, 0, 0xDEADBEEF, seenA, 8 * popBucket 0 0xDEADBEEF, by decide +kernel⟩
theorem witness_TheMemoryPortServesItsQueue_10 : ∃ (s : State) (e : MemEntry) (family id : Nat), s.memp.cur = some e ∧ e.job = .popWrite family id
    false ∧ e.prog = false ∧ e.cont = false ∧ s.memStopped = false ∧ s.cmds = [] ∧ s.regsWf = true :=
  ⟨{ base with memp := { Memp.init with cur := some { popR with write := true, job := .popWrite 0 7 false } }, seenWb := [seenA] },
    { popR with write := true, job := .popWrite 0 7 false }, 0, 7, by decide +kernel⟩
theorem witness_TheMemoryPortServesItsQueue_11 : ∃ (s : State) (e : MemEntry), s.memp.cur = none ∧ s.memp.prog = some e ∧ e.len ≠ 0 ∧ s.memStopped =
    false ∧ s.cmds = [] ∧ s.regsWf = true :=
  ⟨{ base with memp := { Memp.init with prog := some flashP } }, flashP, by decide +kernel⟩
theorem witness_TheMemoryPortServesItsQueue_12 : ∃ (s : State) (e : MemEntry), s.memp.cur = none ∧ s.memp.prog = some e ∧ e.len = 0 ∧ e.job =
    .logErase ∧ s.copyTo e.dev = false ∧ s.memStopped = false ∧ s.cmds = [] ∧ s.regsWf = true :=
  ⟨{ base with memp := { Memp.init with prog := some { flashP with len := 0, job := .logErase } } }, { flashP with len := 0, job := .logErase }, by
    decide +kernel⟩
theorem witness_TheMemoryPortServesItsQueue_13 : ∃ (s : State) (c e : MemEntry) (k : Nat), s.memp.cur = some c ∧ c.job = .check ∧ c.prog = false ∧
    c.cont = false ∧ s.memp.checking = some e ∧ e.job = .log k ∧ s.copyTo e.dev = false ∧ s.mgmt.lostNoted = 0 ∧ s.phase = .active ∧ s.memStopped =
    false ∧ s.cmds = [] ∧ s.regsWf = true :=
  ⟨{ base with memp := { Memp.init with cur := some flashK, checking := some flashL }, mgmt := { Mgmt.init with log := [logA, logA], unsaved := 2 } },
    flashK, flashL, 1, by decide +kernel⟩
theorem witness_TheMemoryPortServesItsQueue_14 : ∃ (s : State) (c e : MemEntry), s.memp.cur = some c ∧ c.job = .check ∧ c.prog = false ∧ c.cont =
    false ∧ s.memp.checking = some e ∧ e.dev = s.readDev ∧ s.mirrorIn = true ∧ e.dev = false ∧ s.resilvering = false ∧ s.memStopped = false ∧ s.cmds
    = [] ∧ s.regsWf = true :=
  ⟨({ base with memp := { Memp.init with cur := some flashK, checking := some flashL } }).setReg Reg.mempStat 0x00200000, flashK, flashL, by
    decide +kernel⟩
theorem witness_TheMemoryPortServesItsQueue_15 : ∃ (s : State) (c e : MemEntry) (off : Nat), s.memp.cur = some c ∧ c.job = .check ∧ c.prog = false ∧
    c.cont = false ∧ s.memp.checking = some e ∧ e.job = .copy off ∧ e.write = true ∧ e.len ≠ 0 ∧ e.dev = !s.readDev ∧ s.resilvering = true ∧ flashEnd
    ≤ off + 256 ∧ s.memStopped = false ∧ s.cmds = [] ∧ s.regsWf = true :=
  ⟨({ base with memp := { Memp.init with cur := some { flashK with dev := true }, checking := some flashC } }).setReg Reg.mempStat 0x01A00000,
    { flashK with dev := true }, flashC, 0x1FFFF00, by decide +kernel⟩
theorem witness_TheMemoryPortServesItsQueue_16 : ∃ (s : State) (h : Bool) (off : BitVec 24), s.mgmt.running = some h ∧ s.mgmtOn = true ∧ off.toNat <
    6 * 2 ^ 20 ∧ s.phase = .active ∧ s.memp.frozen = false ∧ s.memp.queue.length < 32 ∧ s.regsWf = true :=
  ⟨({ base with mgmt := { Mgmt.init with running := some true } }).setReg Reg.mempXip 0x01070000, true, 0x12345, by decide +kernel⟩
theorem witness_TheMemoryPortServesItsQueue_17 : ∃ (s : State) (h : Bool) (off : BitVec 24), s.mgmt.running = some h ∧ s.mgmtOn = true ∧ 6 * 2 ^ 20 ≤
    off.toNat ∧ s.regsWf = true :=
  ⟨{ base with mgmt := { Mgmt.init with running := some true } }, true, 0x600000, by decide +kernel⟩
theorem witness_TheMemoryPortServesItsQueue_18 : ∃ (s : State) (h : Bool) (off : BitVec 24), (s.mgmtOn = false ∨ (s.mgmt.running ≠ some h ∧
    s.halfState h ≠ 1 ∧ s.halfState h ≠ 2)) ∧ s.regsWf = true :=
  ⟨{ base with mgmt := { Mgmt.init with running := some true } }, false, 0x12345, by decide +kernel⟩
theorem witness_TheMemoryPortServesItsQueue_19 : ∃ (s : State) (dev : Bool) (e : MemEntry) (h : Bool) (o : Nat), s.memp.onDev dev = some e ∧ e.dev =
    dev ∧ e.job = .xip h o ∧ s.memStopped = false ∧ (if dev then s.memp.fail1 else s.memp.fail0) = none ∧ s.cmds = [] ∧ s.regsWf = true :=
  ⟨{ base with memp := { Memp.init with cur := some flashR } }, false, flashR, true, 0x40, by decide +kernel⟩
theorem witness_TheMemoryPortServesItsQueue_20 : ∃ (s : State) (dev : Bool), (s.memp.onDev dev = none ∨ s.memStopped = true) ∧ s.regsWf = true :=
  ⟨{ base with memp := { Memp.init with cur := some flashR } }, true, by decide +kernel⟩
theorem witness_TheMemoryPortServesItsQueue_21 : ∃ (s : State) (dev : Bool) (e : MemEntry) (k : Nat), s.memp.checking = some e ∧ e.dev = dev ∧ e.job
    = .log k ∧ s.memStopped = false ∧ (if dev then s.memp.fail1 else s.memp.fail0) = none ∧ s.cmds = [] ∧ s.regsWf = true :=
  ⟨{ base with memp := { Memp.init with cur := some flashK, checking := some flashL } }, false, flashL, 1, by decide +kernel⟩
theorem witness_TheMemoryPortServesItsQueue_22 : ∃ (s : State) (dev : Bool), (s.memp.checking = none ∨ s.memp.checking.any (fun e => e.dev != dev) =
    true ∨ s.memStopped = true) ∧ s.regsWf = true :=
  ⟨{ base with memp := { Memp.init with checking := some flashL } }, true, by decide +kernel⟩
theorem witness_TheMemoryPortServesItsQueue_23 : ∃ (s : State) (n : Nat) (dev : Bool), s.soleCmd n Reg.mempCmdRes (.mempReturn (if dev then 1 else
    0)) = true ∧ s.bit Reg.mempStat 24 = true ∧ s.mgmtOn = true ∧ flashEnd ≤ s.memp.copied ∧ s.regsWf = true :=
  ⟨(regsOf { base with memp := { Memp.init with copied := 0x2000000 }, cmds := [{ seq := 4, res := some Reg.mempCmdRes, kind := .mempReturn 1, cell := some true }] }
    [(Reg.mempStat, 0x01A00000), (Reg.mempCmdRes, 4)]), 4, true, by decide +kernel⟩
theorem witness_HalvesAndTheirLogs_1 : ∃ (s : State) (h : Bool), s.mgmtOn = true ∧ s.mgmt.running = some h ∧ s.mgmt.handCkpt = false ∧ s.halfState
    (!h) = 3 ∧ s.ckptAge ≤ s.fld Reg.mgmtCfg 2 10 + 40 ∧ s.cmds = [] ∧ s.tal.reqs = [] ∧ s.tag.job = none ∧ s.tag.queue = [] ∧ s.memp.cur = none ∧
    s.memp.waiting = [] ∧ s.regsWf = true :=
  ⟨({ base with mgmt := { Mgmt.init with running := some true }, memp := { Memp.init with queue := [flashR, popEntry 768 256 true (.popWrite 0 3 true)] } }).setReg
    Reg.mgmtStat 0x80000403, true, by decide +kernel⟩
theorem witness_HalvesAndTheirLogs_2 : ∃ (s : State) (h : Bool), s.mgmtOn = true ∧ s.mgmt.running = some h ∧ s.mgmt.handCkpt = false ∧ (s.halfState
    (!h) ≠ 3 ∨ s.fld Reg.mgmtCfg 2 10 + 40 < s.ckptAge) ∧ (∀ n < 4, s.txOn n = false) ∧ s.regsWf = true :=
  ⟨({ base with mgmt := { Mgmt.init with running := some true } }).setReg Reg.mgmtStat 0x80000400, true, by decide +kernel⟩
theorem witness_HalvesAndTheirLogs_3 : ∃ (s : State) (h : Bool), s.mgmtOn = true ∧ s.mgmt.running = some h ∧ (s.halfState (!h) = 1 ∨ s.halfState (!h)
    = 2 ∨ s.halfState (!h) = 3) ∧ s.cmds = [] ∧ s.regsWf = true :=
  ⟨({ base with mgmt := { Mgmt.init with running := some true } }).setReg Reg.mgmtStat 0x80000403, true, by decide +kernel⟩
theorem witness_HalvesAndTheirLogs_4 : ∃ (s : State) (h : Bool), s.mgmtOn = true ∧ s.mgmt.takeover = some h ∧ s.updState ≠ 3 ∧ s.upd.proof = none ∧
    s.rounds.all (fun r => r.kind != .cal) = true ∧ s.cmds.all (fun c => !c.kind.byHalf) = true ∧ s.regsWf = true :=
  ⟨({ base with mgmt := { Mgmt.init with takeover := some false } }).setReg Reg.mgmtStat 0x80002503, false, by decide +kernel⟩
theorem witness_HalvesAndTheirLogs_5 : ∃ (s : State) (h : Bool), s.mgmt.running = some h ∧ s.mgmtOn = true ∧ s.upd.settings = s.settingsNow ∧
    s.upd.seeds = s.seeds ∧ s.regsWf = true :=
  ⟨{ base with mgmt := { Mgmt.init with running := some true }, timeBase := 77000 }, true, by decide +kernel⟩
theorem witness_HalvesAndTheirLogs_6 : ∃ (s : State) (h : Bool) (n : Nat) (k : Nat), s.mgmtOn = true ∧ s.mgmt.handover = some h ∧ s.mgmt.running =
    some (!h) ∧ s.soleCmd n Reg.mgmtCmdRes (.mgmtOut k) = true ∧ s.upd.fallback ≠ .handover ∧ s.regsWf = true :=
  ⟨(regsOf { base with mgmt := { Mgmt.init with running := some true, handover := some false }, cmds := [{ seq := 4, res := some Reg.mgmtCmdRes, kind := .mgmtOut 1, cell := some true }] }
    [(Reg.mgmtStat, 0x80000403), (Reg.mgmtCmdRes, 4)]), false, 4, 1, by decide +kernel⟩
theorem witness_HalvesAndTheirLogs_7 : ∃ (s : State) (h : Bool) (n : Nat), s.mgmtOn = true ∧ s.halfState h = 2 ∧ s.mgmt.fresh = true ∧ s.updState ≠ 3
    ∧ s.upd.fallback ≠ .waitHot ∧ s.soleCmd n Reg.mgmtCmdRes (.mgmtReturn (if h then 1 else 0)) = true ∧ s.regsWf = true :=
  ⟨(regsOf { base with mgmt := { Mgmt.init with running := some true, fresh := true }, cmds := [{ seq := 4, res := some Reg.mgmtCmdRes, kind := .mgmtReturn 0, cell := some true }] }
    [(Reg.mgmtStat, 0x80000402), (Reg.mgmtCmdRes, 4)]), false, 4, by decide +kernel⟩
theorem witness_HalvesAndTheirLogs_8 : ∃ (s : State) (h : Bool), s.mgmtOn = true ∧ s.halfState h = 1 ∧ s.regsWf = true :=
  ⟨base.setReg Reg.mgmtStat 0x80000401, false, by decide +kernel⟩
theorem witness_HalvesAndTheirLogs_9 : ∃ (s : State) (h : Bool), s.halfState h = 2 ∧ s.mgmt.fresh = false ∧ s.regsWf = true :=
  ⟨base.setReg Reg.mgmtStat 0x80000402, false, by decide +kernel⟩
theorem witness_HalvesAndTheirLogs_10 : ∃ (s : State) (h : Bool) (n : Nat), s.mgmtOn = true ∧ (s.halfState h = 1 ∨ s.halfState h = 2) ∧ s.soleCmd n
    Reg.mgmtCmdRes (.mgmtReturn (if h then 1 else 0)) = true ∧ s.regsWf = true :=
  ⟨(regsOf { base with mgmt := { Mgmt.init with running := some true }, cmds := [{ seq := 4, res := some Reg.mgmtCmdRes, kind := .mgmtReturn 0, cell := some true }] }
    [(Reg.mgmtStat, 0x80000401), (Reg.mgmtCmdRes, 4)]), false, 4, by decide +kernel⟩
theorem witness_HalvesAndTheirLogs_11 : ∃ (s : State) (h ok : Bool), s.halfState h ≠ 1 ∧ s.halfState h ≠ 2 ∧ s.regsWf = true :=
  ⟨base, false, true, by decide +kernel⟩
theorem witness_HalvesAndTheirLogs_12 : ∃ (s : State), s.halfRuns = true ∧ s.fifo.diag.length < 4 ∧ s.regsWf = true :=
  ⟨{ base with mgmt := { Mgmt.init with running := some true, takeoverDiag := true } }, by decide +kernel⟩
theorem witness_HalvesAndTheirLogs_13 : ∃ (s : State), s.halfRuns = true ∧ s.mgmt.unsaved ≤ s.logQueued ∧ s.regsWf = true :=
  ⟨{ base with mgmt := { Mgmt.init with running := some true } }, by decide +kernel⟩
theorem witness_HalvesAndTheirLogs_14 : ∃ (s : State) (n : Nat), s.halfRuns = true ∧ n = min 128 (s.mgmt.unsaved - s.logQueued) ∧ 0 < n ∧
    s.memp.queue.length + 8 ≤ 32 ∧ s.memp.frozen = false ∧ s.readDev = false ∧ s.regsWf = true :=
  ⟨{ base with mgmt := { Mgmt.init with running := some true, log := [logA], unsaved := 1 } }, 1, by decide +kernel⟩
theorem witness_HalvesAndTheirLogs_15 : ∃ (s : State), s.halfRuns = true ∧ s.regsWf = true :=
  ⟨{ base with mgmt := { Mgmt.init with running := some true, log := [logA], unsaved := 1 } }, by decide +kernel⟩
theorem witness_HalvesAndTheirLogs_16 : ∃ (s : State) (ok : Bool), s.halfRuns = false ∧ s.regsWf = true :=
  ⟨base, true, by decide +kernel⟩
theorem witness_HalvesAndTheirLogs_17 : ∃ (s : State) (d : BitVec 4), d.toNat ≤ 12 ∧ s.decOos d.toNat = false ∧ s.mgmt.decBusy.contains d.toNat =
    false ∧ s.cmds = [] ∧ s.coreOn = true ∧ s.regsWf = true :=
  ⟨withDraft, 8, by decide +kernel⟩
theorem witness_HalvesAndTheirLogs_18 : ∃ (s : State) (d : BitVec 4), s.cmds = [] ∧ s.regsWf = true :=
  ⟨base, 3, by decide +kernel⟩
theorem witness_HalvesAndTheirLogs_19 : ∃ (s : State) (d : BitVec 4) (n : Nat), d.toNat ≤ 12 ∧ s.soleCmd n Reg.mgmtDecRes (.decReturn d.toNat) = true
    ∧ s.coreOn = true ∧ s.regsWf = true :=
  ⟨(regsOf { withDraft with cmds := [{ seq := 4, res := some Reg.mgmtDecRes, kind := .decReturn 3, cell := some true }] }
    [(Reg.mgmtDecOos, 0x00080008), (Reg.mgmtDecRes, 4)]), 3, 4, by decide +kernel⟩
theorem witness_HalvesAndTheirLogs_20 : ∃ (s : State) (d : BitVec 4) (n : Nat), d.toNat ≤ 12 ∧ s.soleCmd n Reg.mgmtDecRes (.decReturn d.toNat) = true
    ∧ s.coreOn = true ∧ s.regsWf = true :=
  ⟨(regsOf { withDraft with cmds := [{ seq := 4, res := some Reg.mgmtDecRes, kind := .decReturn 3, cell := some true }] }
    [(Reg.mgmtDecOos, 0x00080008), (Reg.mgmtDecRes, 4)]), 3, 4, by decide +kernel⟩
theorem witness_HalvesAndTheirLogs_21 : ∃ (s : State) (x : Draft), s.draft = some x ∧ s.halfRuns = true ∧ s.regsWf = true :=
  ⟨{ withDraft with mgmt := { Mgmt.init with running := some true }, phi := [(3, 0x1234)] }, draftA, by decide +kernel⟩


/-- The state of a next outcome; `dflt` otherwise. -/
def nextOf (o : Host.Outcome State Fault Refusal) (dflt : State) : State := match o with | .next t => t | _ => dflt

theorem witness_StepRunsTheFrontCommand_1 : ∃ (s : State) (c : Instr) (r : List Instr), s.pending = c :: r :=
  ⟨{ base with pending := [.rgapExpiry, .find] }, .rgapExpiry, [.find], rfl⟩
theorem witness_StepRunsTheFrontCommand_2 : ∃ s : State, s.pending = [] ∧ s.refOn = false := ⟨State.reset, by decide +kernel⟩
theorem witness_StepRunsTheFrontCommand_3 : ∃ s : State, s.pending = [] ∧ s.refOn = true ∧ s.peer.slew = 0 := ⟨base, by decide +kernel⟩
theorem base_inv : State.Inv { base with pending := [.rgapExpiry] } := by
  constructor <;> first | decide +kernel | (intro _ h; cases h)
theorem witness_EveryStepKeepsTheInvariant : ∃ s t : State, s.Inv ∧ step s = .next t :=
  ⟨{ base with pending := [.rgapExpiry] }, _, base_inv, rfl⟩
theorem witness_NoCommandChangesTheBoard : ∃ (c : Instr) (s t : State), exec c s = .next t := ⟨.rgapExpiry, base, _, rfl⟩
theorem witness_OnlyOverstressStops_1 : ∃ c : Instr, ∃ mv, c = .vioPowerOn mv ∧ 4000 < mv := ⟨.vioPowerOn 4001, 4001, rfl, by decide⟩
theorem witness_OnlyOverstressStops_2 : ∃ c : Instr, ¬ ∃ mv, c = .vioPowerOn mv ∧ 4000 < mv :=
  ⟨.rgapExpiry, fun ⟨_, h, _⟩ => Instr.noConfusion h⟩

/-! ## Fixed values: the worked examples of the spec and hand calculation from its rules -/

/-- 15, worked example: the CRC-16 of the bytes 0x31 to 0x39 is 0xD64E, over 72 bits. -/
theorem test_crc16_of_nine_bytes : crc16Bytes [0x31, 0x32, 0x33, 0x34, 0x35, 0x36, 0x37, 0x38, 0x39] = 0xD64E := by decide +kernel

/-- 15, worked example: the last eight of the bytes enter as CRC_HBITS writes them. -/
theorem test_crcHbits : (nextOf (execCrcHbitsWrite 0x08000039
    { base with crcHost := some ([0x80000010, 0x1021, 0xFFFF, 0xFFFF], crcBits 16 0x1021 0xFFFF (bytesBits false [0x31, 0x32, 0x33, 0x34, 0x35, 0x36, 0x37, 0x38])) })
    base).derived Reg.crcHres = some 0x0000D64E := by decide +kernel

/-- 06, worked example: SYS_READY read with a trailer. -/
theorem test_read_with_trailer : (nextOf (execRdFrame 0x10 (.data 1 0 true)
    (regsOf base [(Reg.sysReady, 0xFFFFF73F), (Reg.hpCtrl, 0x11), (Reg.hpFrames, 20), (Reg.sysIrqPend, 1), (Reg.sysIrqEn, 1)])) base).hp.frame.map
    (fun f => (f.out, f.trailer)) = some ([0xFFFFF73F], some 0x805D) := by decide +kernel

/-- 07, worked example: a burst beyond the end of bank 0x01 reads zero and its trailer shows ADDR_OVER. -/
theorem test_burst_beyond_the_bank : (nextOf (execRdFrame 0x1060 (.data 12 0 true) (regsOf base [(Reg.hpCtrl, 0x0B11), (Reg.hpFrames, 41)])) base).hp.frame.map
    (fun f => (f.out, f.trailer)) = some (List.replicate 12 0, some 0x40AE) := by decide +kernel

/-- 05, worked example: the result word of an entry that TAGSTORE_BUSY aborts in QUIESCE towards DOZE. -/
theorem test_refusal_word : refusalWord .tagstoreBusy true .doze = 0x08050102 := by decide +kernel

/-- 08, worked example: the feed of ANT20 shorted to ground is class 0b010, and clear of it class 0b001. -/
theorem test_port_class : faultClass false ⟨0, 0, 0, 100, 0⟩ = some 2 ∧ firstClass ⟨10000, 0, 0, 100, 0⟩ = 1 := by decide +kernel

/-- 11, worked example: the loading after reply 1, with SNR in 0.25 dB less the margin of 1 dB, its LINK block, and that after reply 2. -/
theorem test_bit_loading : loadingOf true 4 [(70, 2), (56, 2), (32, 1), (77, 2)] = (0, [2, 1, 0, 3], false) ∧
    linkBlock ⟨6, 0, [2, 1, 0, 3]⟩ 4 (trimOf 84) = 0x60031803E0 ∧ loadingOf true 4 [(71, 2), (56, 1), (31, 0), (76, 3)] = (0, [2, 1, 0, 3], false) ∧
    linkBlock ⟨6, 0, [2, 1, 0, 3]⟩ 4 (trimOf 4) = 0x6003180000 := by decide +kernel

/-- 12, worked example: the wefts of A, B and C under HW 2, and the LINK block of B's UASSIGN. -/
theorem test_weft_hash : [crcHw 2 0x4F10020300002D01, crcHw 2 0x4F10020300002D00, crcHw 2 0x4F10020300002D06] = [1, 2, 1] ∧
    linkBlock ⟨1, 0, [0]⟩ 0 (trimOf 37) = 0x10000003F0 := by decide +kernel

/-- 14, worked example: the TAG_READ of 36 bytes is dropped for want of room beyond the reserve. -/
theorem test_drop_near_the_reserve :
    let t := nextOf (execPacketAssembly (({ base with fifo := { Fifo.init with setAside := 129012, warp := [[], [], [], [{ ty := 1, flags := 0, len := 36, words := [] }]] } }
      : State).setReg Reg.fifoCfg 0x20000)) base
    t.reg Reg.fifoDropLast = 0x01400024 ∧ t.reg Reg.fifoDropCnt = 1 ∧ t.bit Reg.sysIrqPend 5 = true := by decide +kernel

/-- 14 and 18, worked examples: length words of a TAG_DATA, a ROUND_END and a TALLY_NOTE packet. -/
theorem test_length_words : [lengthWord ⟨2, 0, 38, []⟩, lengthWord ⟨3, 0, 44, []⟩, lengthWord ⟨6, 0, 40, []⟩] = [0x02020026, 0x0300002C, 0x06000028] := by
  decide +kernel

/-- 14, worked example: the first words of the TAG_DATA packet. -/
theorem test_tag_data : (base.tagDataRec { roundW with warp := 1, seq := 0x800415, words := [0x20100000, 0, 0, 0, 0, 0, 0, 0, 0, 0x14000103] } .ok 0xFF 0x2A7 3
    [0x00, 0x30, 0x2B, 0x1A, 0x6D, 0x5C]).words.take 3 = [0x00FF12A7, 0x14800415, 0x00010003] := by decide +kernel

/-- 17, worked example: D of the three measurements of ANT22. -/
theorem test_ping_distance : [pingD { pingA with bi := 310, bq := -142 } 398 (-66), pingD { pingA with bi := 310, bq := -142 } 402 (-61),
    pingD { pingA with bi := 401, bq := -63 } 311 (-140)] = [116, 122, 118] := by decide +kernel

/-- 17, worked example: the second sweep confirms PRESENCE on ANT22, which wakes the module. -/
theorem test_ping_presence :
    let t := nextOf (execSweepEnd [⟨22, 402, -61, -60⟩] (regsOf { base with phase := .doze, ping :=
      { Ping.init with sweep := some [22], thr := 0x1900C850, ports := [(22, { pingA with bi := 310, bq := -142, mi := 398, mq := -66, pend := 1 })] } }
      [(Reg.pingCfg, 0x26000258), (Reg.pwrWakeEn, 0x7F)])) base
    t.reg Reg.pwrWakeCause = 0x00031604 ∧ t.reg (Reg.pingEvt 0) = 0x00400000 ∧ t.ping.wake.map (fun w => w.2) = some [0x5907A000] := by decide +kernel

/-- 18, worked example: record 11,329. -/
theorem test_dwell_record : (({ dieA with tt := 200045200, audit := 3, next := 11329 } : TalDie).recordWords
    { dwellA with id := 0x5A310C07000091E2, zone := 17, entry := 200000000, last := 200044000 } 2).take 7 =
    [0x00002C41, 0x5A310C07, 0x000091E2, 0x0BEBC200, 0x0BEC6DE0, 0x0000ABE0, 0x00008011] := by decide +kernel

/-- R376 with FIPS 180-4: SHA-256 of 64 zero bytes. -/
theorem test_sha256_of_zeros : (sha256of64 (List.replicate 64 0)).map (fun b => b.toNat) =
    [0xF5, 0xA5, 0xFD, 0x42, 0xD1, 0x6A, 0x20, 0x30, 0x27, 0x98, 0xEF, 0x6E, 0xD3, 0x09, 0x97, 0x9B, 0x43, 0x00, 0x3D, 0x23, 0x20, 0xD9, 0xF0, 0xE8, 0xEA,
     0x98, 0x31, 0xA9, 0x27, 0x59, 0xFB, 0x4B] := by decide +kernel

/-- 19, worked example: the miss at window offset 0x42A40 of slot A. -/
theorem test_xip_address : (nextOf (execXipMiss false 0x42A40 (({ base with mgmt := { Mgmt.init with running := some false } }).setReg Reg.mempXip 0x01070000))
    base).memp.queue.map (fun e => (e.addr, e.len, e.level)) = [(0x142A40, 32, 1)] := by decide +kernel

/-- 20, worked example: the takeover: MGMT_STAT, the ended ping calibration, SERVICE and MGMT_LOG. -/
theorem test_takeover :
    let s := regsOf { base with mgmt := { Mgmt.init with running := some false, ckptAt := 20000 }, timeBase := 100000,
                                cmds := [{ seq := 0x412, res := some Reg.pingCmdRes, kind := .pingCal, cell := some true }] }
      [(Reg.mgmtCfg, 0x191), (Reg.mgmtStat, 0x304), (Reg.pingCmdRes, 0x412)]
    let t := nextOf (execTakeoverComplete (nextOf (execWatchdogExpiry s) base)) base
    t.mgmtStatWord = 0x80000425 ∧ t.reg Reg.pingCmdRes = 0x84000412 ∧ t.reg Reg.sysIrqPend = 0x00000900 := by decide +kernel

/-- R79, R91: SYS_EXPECT after reset of an OL6480-T and an OL6480-N (bits 0 to 5, and TAL on -T). -/
theorem test_reset_expect : State.reset.reg Reg.sysExpect = 0x83F ∧ sget (fun _ => 0) (resetRegs false) Reg.sysExpect = 0x03F := by decide +kernel

/-- The table gives no row bits: no word spells a command. -/
theorem test_no_word_is_a_command : decodeTableWord 16 0x1234 = none := rfl

/-! ## Terms that the well-formedness checks refuse -/

theorem test_wf_takes : (Instr.rdFrame 0x10 (.data 1 31 false)).wf = true ∧ (Instr.receptionEnd 0 sigRn).wf = true ∧ (Instr.data sigAck).wf = true := by
  decide +kernel
theorem test_wf_reach_address : (Instr.rdFrame 0x10 (.address 32)).wf = false ∧ (Instr.rdFrame 0x10 (.written 0)).wf = false := by decide
theorem test_wf_reach_bits : (Instr.rdFrame 0x10 (.data 1 32 false)).wf = false := by decide
theorem test_wf_reach_trailer : (Instr.statFrame (.data 1 7 true)).wf = false := by decide
theorem test_wf_tail_bits : (Instr.wrFrame 0x10 [1] ⟨32, 0⟩ (.data 0)).wf = false := by decide
theorem test_wf_tail_value : (Instr.wrFrame 0x10 [1] ⟨3, 8⟩ (.data 0)).wf = false := by decide
theorem test_wf_words_before_data : (Instr.wrFrame 0x10 [1] ⟨0, 0⟩ (.address 31)).wf = false ∧ (Instr.wrFrame 0x10 [] ⟨0, 0⟩ (.address 32)).wf = false := by
  decide
theorem test_wf_known_opcode : (Instr.unknownOpcodeFrame 0x03).wf = false := by decide
theorem test_wf_crumb_words : (Instr.wireCrumbWrite 3 (List.replicate 17 0)).wf = false := by decide
theorem test_wf_first_classification : (Instr.portFirstClassification [⟨3, ⟨9000, 0, 0, 0, 0⟩⟩, ⟨3, ⟨0, 0, 0, 0, 0⟩⟩]).wf = false := by decide
theorem test_wf_chains : (Instr.receptionEnd 0 { sigRn with chains := [⟨1, -100, false, [], []⟩, ⟨1, -90, false, [], []⟩] }).wf = false := by decide +kernel
theorem test_wf_collision : (Instr.receptionEnd 0 { sigRn with collision := some 200 }).wf = false := by decide +kernel
theorem test_wf_weft : (Instr.receptionEnd 0 { sigRn with wefts := [⟨12, -100, []⟩] }).wf = false ∧
    (Instr.receptionEnd 0 { sigRn with wefts := [⟨3, -100, []⟩, ⟨3, -90, []⟩] }).wf = false := by decide +kernel
theorem test_wf_peer_seed : (Instr.data { sigRn with seedRep := 4 }).wf = false := by decide +kernel
theorem test_wf_peer_cells : (Instr.ack { sigRn with cells := [(2, []), (2, [])] }).wf = false := by decide +kernel
theorem test_wf_mask : (Instr.fieldSelect .comm ⟨4, 0, 1, 32, List.replicate 256 true, false⟩).wf = false := by decide +kernel
theorem test_wf_q : (Instr.fieldQuery .comm ⟨0, 0, false, 16⟩).wf = false := by decide
theorem test_wf_updn : (Instr.fieldQueryadjust .comm 0 2).wf = false := by decide
theorem test_wf_read_count : (Instr.fieldRead .comm 1 0 256 0 .clean).wf = false := by decide
theorem test_wf_block_words : (Instr.fieldBlockwrite .comm 3 0 (List.replicate 256 0) 0 true).wf = false := by decide +kernel
theorem test_wf_sweep_ports : (Instr.sweepEnd [⟨5, 0, 0, -60⟩, ⟨5, 1, 1, -60⟩]).wf = false := by decide
theorem test_wf_sweep_range : (Instr.sweepEnd [⟨5, 2048, 0, -60⟩]).wf = false := by decide
theorem test_wf_item : (Instr.sightingItem [0x10]).wf = false := by decide
theorem test_wf_gains : (Instr.cwIntervalEnd 0 [⟨2, -30⟩, ⟨2, -31⟩]).wf = false := by decide
theorem test_wf_image_drafts : (Instr.verifyComplete { imageA.facts with contents := List.replicate 5 (true, draftA) }).wf = false := by
  decide +kernel
theorem test_wf_image_draft : (Instr.verifyComplete { imageA.facts with contents := [(true, { draftA with schedule := [(256, [])] })] }).wf = false := by decide +kernel
theorem test_wf_geometry : Geometry.wf { geoA with port := 64 } = false ∧ Geometry.wf { geoA with pairs := [(16, 1)] } = false := by decide
theorem test_wf_draft : Draft.wf { draftA with schedule := [(256, [])] } = false := by decide +kernel

/-! ## What leaves the module: worked examples of the spec -/

/-- R40's worked example: ANT42 is land AC8; and the table's ANT24 is N22, ANT63 is B1. -/
theorem test_ant_lands : antLand 42 = (22, 8) ∧ antLand 24 = (13, 22) ∧ antLand 63 = (2, 1) ∧ antLand 0 = (1, 3) := by decide
/-- The table of R225. -/
theorem test_tufts : (List.range 12).map (fun t => (tuftSubs t).headD 0) = [-27, -23, -18, -14, -9, -5, 2, 6, 11, 15, 20, 24] ∧ usedSubs.length = 56 := by
  decide +kernel
/-- The generator of R237 from 0x7F: seven ones, then zeros where s6 and s3 agree. -/
theorem test_pn : pnBits 8 0x7F = [true, true, true, true, true, true, true, false] ∧ (preamble slotSeed).map (fun l => l.length) = [56, 56, 56] := by
  decide +kernel
/-- R251's UPOLL: CMD, GROUP 8, K 4, SLOTSYM 6 and the CRC-24 are 50 bits, as the cycle of R263 counts them; a ULINK has 88. -/
theorem test_frame_lengths : ((Air.upoll 3 15 11).bits 0).length = 50 ∧
    ((Air.ulink 7 (0x6003180000 + 0x3E0)).bits 0).length = 88 := by decide +kernel
/-- R272: 1,000 bytes at 16-QAM REP1 are 1 + 42 symbols after the preamble (a body of 1,005 with its prefix). -/
theorem test_peer_symbols : blocksFor [3, 3, 3, 3, 3, 3, 3, 3, 3, 3, 3, 3] (8 * 1005 + 24) = 42 := by decide +kernel
/-- R364: TAL_PULSE is high in the first half of a second of TT. -/
theorem test_tal_pulse : ({ State.reset with die := { State.reset.die with running := true, tt := 24 } } : State).talPulse = true ∧
    ({ State.reset with die := { State.reset.die with running := true, tt := 25 } } : State).talPulse = false := by decide +kernel

/-- The module of 06_host_port.md's worked example, 20 frames after its reset. -/
def laneState : State :=
  { regsOf base [(Reg.hpCtrl, 0x11), (Reg.hpLanes, 0x202), (Reg.hpFrames, 20), (Reg.sysReady, 0xFFFFF73F), (Reg.sysExpect, 0xFFFFF73F),
      (Reg.sysIrqPend, 1), (Reg.sysIrqEn, 0xD7)] with
    lands := { State.reset.lands with vio := true } }
/-- Its RD of 0x00_0010 on the lanes, with three busy bytes: opcode, address, turnaround, response, data and trailer, cycle by cycle. -/
theorem test_lanes_worked_example :
    (match exec (.rdFrame 0x10 (.data 1 0 true)) laneState with | .next t => t.laneCycles 3 0 | _ => []) =
      [0, 0, 0, 0, 0, 0, 1, 1].map (Cycle.host 1) ++ [0, 0, 0, 0, 1, 0].map (Cycle.host 4) ++ [.nobody, .nobody] ++
      [0xB, 1, 0xB, 1, 0xB, 1, 4, 0xE, 0xF, 0xF, 0xF, 0xF, 0xF, 7, 3, 0xF, 8, 0, 5, 0xD].map (Cycle.module 4) := by decide +kernel

end Sys2Proof.Tests
end

section
/-! PROOFS. Reads of the host: what counting the frame leaves as it was, what one read answers and does beside (07_register_access.md, R13, R138). -/
namespace Sys2Proof.Machine

/-! ## The frame that is counted shows in no other word (R130) -/

theorem State.reg_cntFrames (s : State) {a : Nat} (h : a ≠ Reg.hpFrames) : (s.cnt Reg.hpFrames).reg a = s.reg a := s.reg_cnt_other h

theorem State.bit_cntFrames (s : State) {a : Nat} (k : Nat) (h : a ≠ Reg.hpFrames) : (s.cnt Reg.hpFrames).bit a k = s.bit a k :=
  congrArg (bitN · k) (s.reg_cntFrames h)

theorem State.fld_cntFrames (s : State) {a : Nat} (lo n : Nat) (h : a ≠ Reg.hpFrames) :
    (s.cnt Reg.hpFrames).fld a lo n = s.fld a lo n := congrArg (fieldN · lo n) (s.reg_cntFrames h)

theorem State.portOos_cntFrames (s : State) (p : Nat) : (s.cnt Reg.hpFrames).portOos p = s.portOos p :=
  s.bit_cntFrames _ (by simp only [Reg.portState, Reg.hpFrames]; omega)

theorem State.txcStat_cntFrames (s : State) (n : Nat) : (s.cnt Reg.hpFrames).reg (Reg.txcStat n) = s.reg (Reg.txcStat n) :=
  s.reg_cntFrames (by simp only [Reg.txcStat, Reg.hpFrames]; omega)

theorem State.rxcStat_cntFrames (s : State) (n : Nat) : (s.cnt Reg.hpFrames).reg (Reg.rxcStat n) = s.reg (Reg.rxcStat n) :=
  s.reg_cntFrames (by simp only [Reg.rxcStat, Reg.hpFrames]; omega)

theorem State.txOn_cntFrames (s : State) : (s.cnt Reg.hpFrames).txOn = s.txOn := by
  funext n; simp only [State.txOn, State.ramp, State.fld, s.txcStat_cntFrames]

theorem State.irqPend_cntFrames (s : State) : (s.cnt Reg.hpFrames).irqPend = s.irqPend := by
  simp (disch := decide) only [State.irqPend, State.fifoThr, State.reg_cntFrames, State.fld_cntFrames]; rfl

theorem State.healthWord_cntFrames (s : State) : (s.cnt Reg.hpFrames).healthWord = s.healthWord := by
  have o : (s.cnt Reg.hpFrames).portOos = s.portOos := funext s.portOos_cntFrames
  have d : (s.cnt Reg.hpFrames).decOos = s.decOos := funext fun n => s.bit_cntFrames n (by decide)
  have b : ∀ k, (s.cnt Reg.hpFrames).bit Reg.crcStat k = s.bit Reg.crcStat k := fun k => s.bit_cntFrames k (by decide)
  simp (disch := decide) only [State.healthWord, o, d, b, State.txReason, State.hotHalf, State.halfState, State.coreOn, State.dev1, State.memOos,
    State.bit_cntFrames, State.fld_cntFrames]
  simp only [State.fld, State.txcStat_cntFrames, State.rxcStat_cntFrames, State.cnt_hot]

theorem State.ppwrWord_cntFrames (s : State) (p : Nat) : (s.cnt Reg.hpFrames).ppwrWord p = s.ppwrWord p := by
  simp (disch := decide) only [State.ppwrWord, State.portCarries, State.ready, State.txOn_cntFrames, State.bit_cntFrames, State.fld]
  simp only [State.bit, State.txcStat_cntFrames]; rfl

theorem State.cancAddr_cntFrames (s : State) (a : Nat) : (s.cnt Reg.hpFrames).cancAddr a = s.cancAddr a := by
  simp only [State.cancAddr, State.cancLive, State.txcsOn, State.txOn_cntFrames, State.bit, State.rxcStat_cntFrames]; rfl

theorem State.derived_cntFrames (s : State) (a : Nat) : (s.cnt Reg.hpFrames).derived a = s.derived a := by
  unfold State.derived
  split
  · simp (disch := decide) only [s.irqPend_cntFrames, State.readyWord, State.reg_cntFrames, State.cnt_tap]
  · simp (disch := decide) only [State.hpStatusWord, State.reg_cntFrames]; rfl
  · simp only [State.portOosWord, State.portOos_cntFrames]
  · simp (disch := decide) only [State.fld_cntFrames, State.cnt_umDiag]
  · simp (disch := decide) only [State.schedStatWord, State.coreOn, State.bit_cntFrames]; rfl
  · rfl
  · rfl
  · rfl
  · simp (disch := decide) only [State.tagWearWord, State.fld_cntFrames]; rfl
  · simp (disch := decide) only [State.pingBaseWord, State.pingMeasWord, State.fld_cntFrames]; rfl
  · simp (disch := decide) only [State.bit_cntFrames, State.fld_cntFrames]
  · rfl
  · simp (disch := decide) only [s.healthWord_cntFrames, s.ppwrWord_cntFrames, State.mgmtStatWord, State.hotHalf, State.halfState,
      State.sensWord, State.ready, State.reg_cntFrames, State.bit_cntFrames, State.fld_cntFrames]; rfl
  · rw [s.cancAddr_cntFrames]; rfl

/-- What a word reads as does not depend on the frame count, HP_FRAMES itself apart. -/
theorem State.viewWord_cntFrames (s : State) {a : Nat} (h : a ≠ Reg.hpFrames) : (s.cnt Reg.hpFrames).viewWord a = s.viewWord a := by
  simp only [State.viewWord, s.derived_cntFrames, s.reg_cntFrames h]; rfl

/-! ## The frame of one read (R118, R136, R138) -/

/-- The first word of a burst is the word addressed. -/
theorem State.burstRuns_zero (s : State) {a : Nat} (h : alignWord a = a) : s.burstRuns a 0 = s.clockRuns a := by
  simp only [State.burstRuns, burstAt, h, Nat.mul_zero, Nat.add_zero, ne_eq, not_true_eq_false, and_false, if_false, Option.getD_some]

theorem alignWord_idem (a : Nat) : alignWord (alignWord a) = alignWord a := by simp only [alignWord]; omega

/-- A word outside the tag store lies in no crumb. -/
theorem wireCrumbs_one {a : Nat} (h : alignWord a = a) (ht : inTagStore a = false) : wireCrumbs a 1 = [] := by
  have hn : ¬ (0x480000 ≤ a ∧ a < 0x482000) := fun ⟨h1, h2⟩ => by
    simp only [inTagStore, h1, h2, decide_true, Bool.and_self, Bool.true_eq_false] at ht
  have hw : a / 4 * 4 = a := h
  simp only [wireCrumbs, List.range_one, List.filterMap_cons, List.filterMap_nil, hw, Nat.mul_zero, Nat.add_zero, if_neg hn, List.eraseDups_nil]

/-- The state once the host has received the word `w` from `a` (R119). -/
def State.readDone (u : State) (a : Nat) (w : Word) : State :=
  { u with hp := { u.hp with last := some { Frame.open_ 3 (some (.rd a)) (.data 1 0 false) .data with token := .start, out := [w] } } }

theorem State.readDone_fld (u : State) (a : Nat) (w : Word) (b lo n : Nat) : (u.readDone a w).fld b lo n = u.fld b lo n := rfl

/-- A read of the host that is not held gives the word that `readWord` finds once the frame is counted. -/
theorem State.hostRead_can {s u : State} {a : Nat} {w : Word} (h : s.hostCan a = true) (ha : alignWord a = a) (ht : inTagStore a = false)
    (hr : (s.cnt Reg.hpFrames).readWord a = (w, false, u)) : s.hostRead a = u.readDone a w := by
  obtain ⟨hp, hu, hc, -, hf, hw, hs⟩ := State.hostCan_iff.mp h
  have hh : s.holdOf (Frame.open_ 3 (some (.rd a)) (.data 1 0 false) .response) = none := by
    simp only [State.holdOf, hw, Frame.open_, List.length_nil, s.burstRuns_zero ha, hc, State.crumbHeld, Frame.crumbs, Nat.max_self,
      wireCrumbs_one ha ht, List.any_nil, Bool.false_eq_true, Bool.not_true, if_false, ite_self]
  simp only [State.hostRead, hf, State.wake_active hp hs, hu, hh, hr, Option.isSome_none, Bool.not_true, Bool.false_eq_true, if_false]
  rfl

/-- A word of no multi-word value reads as it stands. -/
theorem State.readWord_single {s : State} {a : Nat} (hc : s.addrClass a = .word) (hg : groupOf a = none) :
    s.readWord a = (s.viewWord a, false, s.readEffect a) := by
  simp only [State.readWord, hc, hg]

/-! ## The latches of a multi-word value (R138) -/

section
variable {β : Type} [DecidableEq β] {d : Nat → β} {f : Nat → Nat} {v : Nat → β}

/-- Writing the keys of a list, one of the indices left out, leaves every key that is not among them. -/
theorem sget_foldl_sput_other (l : List Nat) (m : List (Nat × β)) {b : Nat} (h : ∀ k ∈ l, k ≠ 0 → b ≠ f k) :
    sget d (l.foldl (fun m k => if k = 0 then m else sput d m (f k) (v k)) m) b = sget d m b := by
  induction l generalizing m with
  | nil => rfl
  | cons j r ih =>
    rw [List.foldl_cons, ih _ (fun k hk => h k (List.mem_cons_of_mem _ hk))]
    split
    · rfl
    · exact sget_sput_other m _ (h j List.mem_cons_self ‹_›)

/-- Writing distinct keys of a list gives each its value. -/
theorem sget_foldl_sput_same (hf : Function.Injective f) (l : List Nat) {m : List (Nat × β)} (hm : swf d m = true) {k : Nat} (hk : k ∈ l)
    (h0 : k ≠ 0) : sget d (l.foldl (fun m k => if k = 0 then m else sput d m (f k) (v k)) m) (f k) = v k := by
  induction l generalizing m with
  | nil => cases hk
  | cons j r ih =>
    rw [List.foldl_cons]
    by_cases hr : k ∈ r
    · refine ih ?_ hr
      split
      · exact hm
      · exact swf_sput hm _ _
    · obtain rfl : k = j := (List.mem_cons.mp hk).resolve_right hr
      rw [if_neg h0, sget_foldl_sput_other r _ (fun i hi _ e => hr (by rwa [hf e])), sget_sput_same hm]
end

/-! ## What a read does beside answering (R13) -/

/-- A multi-word value of `groupOf` belongs to an array of the table: it has the words of that array, and the address lies in it. -/
theorem groupOf_array {a lo n : Nat} {host : Bool} (h : groupOf a = some (lo, n, host)) :
    ∃ e ∈ groupTable, n = e.2.1 ∧ e.1 ≤ a ∧ a < e.1 + 4 * e.2.1 * e.2.2.1 := by
  obtain ⟨e, he, hs⟩ := List.exists_of_findSome?_eq_some h
  dsimp only at hs
  split at hs
  · rename_i hr
    cases hs
    exact ⟨e, he, rfl, hr⟩
  · cases hs

/-- The arrays of multi-word values lie apart from the words that are sampled at each read, and from HP_FRAMES even by one value more. -/
theorem groupTable_apart : ∀ e ∈ groupTable, (e.1 + 4 * e.2.1 * e.2.2.1 ≤ 0x10100 ∨ 0x20000 ≤ e.1) ∧
    (e.1 + 4 * e.2.1 * e.2.2.1 ≤ 0x50100 ∨ 0x50300 ≤ e.1) ∧ (e.1 + 4 * e.2.1 * e.2.2.1 + 4 * e.2.1 ≤ Reg.hpFrames ∨ Reg.hpFrames < e.1) := by
  decide

/-- HP_FRAMES is no word of a multi-word value. -/
theorem groupOf_ne_hpFrames {a lo n : Nat} {host : Bool} (h : groupOf a = some (lo, n, host)) {k : Nat} (hk : k < n) :
    a + 4 * k ≠ Reg.hpFrames := by
  obtain ⟨e, he, hn, hlo, hhi⟩ := groupOf_array h
  obtain ⟨-, -, h3⟩ := groupTable_apart e he
  omega

/-- A word outside the ranges of the sensors, the port powers and the cancellers is not sampled anew when it is read. -/
theorem State.not_sampled (s : State) {a : Nat} (h1 : a < 0x10100 ∨ 0x20000 ≤ a) (h2 : a < 0x50100 ∨ 0x50300 ≤ a) :
    ¬ (sampledAddr a || (s.cancAddr a).isSome) = true := by
  have hs : sampledAddr a = false := by simp only [sampledAddr, Bool.or_eq_false_iff, Bool.and_eq_false_iff, decide_eq_false_iff_not]; omega
  have hc : s.cancAddr a = none := if_neg (by omega)
  simp only [hs, hc, Option.isSome_none, Bool.or_self, Bool.false_eq_true, not_false_eq_true]

/-- Outside the tag store, a word of a multi-word value has no RC field and is no sample: reading it does no more than answer. -/
theorem State.readEffect_group (s : State) {a lo n : Nat} {host : Bool} (h : groupOf a = some (lo, n, host)) (ht : inTagStore a = false) :
    s.readEffect a = s := by
  have ne : ∀ b, groupOf b = none → a ≠ b := fun b hb e => by rw [e, hb] at h; cases h
  obtain ⟨e, he, -, hlo, hhi⟩ := groupOf_array h
  obtain ⟨h1, h2, -⟩ := groupTable_apart e he
  rw [State.readEffect, if_neg (ne Reg.hpIgnored (by decide)), if_neg (s.not_sampled (by omega) (by omega)),
    if_neg (ne Reg.portLastFault (by decide)), if_neg (ne Reg.fifoStat (by decide)), if_neg (ne Reg.tagFieldLast (by decide)), ht]
  exact if_neg Bool.false_ne_true

/-- A register that shows no present state of a function reads as it is stored. -/
theorem State.viewWord_stored {s : State} {a : Nat} (h : a < 0x400000) (hd : s.derived a = none) : s.viewWord a = s.reg a := by
  have h1 : inSeen a = false := by simp only [inSeen, Nat.not_le.mpr h, decide_false, Bool.false_and]
  have h2 : inTagStore a = false := by simp only [inTagStore, show ¬ 0x480000 ≤ a by omega, decide_false, Bool.false_and]
  have h3 : inTalWindow a = false := by simp only [inTalWindow, show ¬ 0x500000 ≤ a by omega, decide_false, Bool.false_and]
  simp only [State.viewWord, h1, h2, h3, hd, Bool.false_and, Bool.false_eq_true, if_false]

theorem State.viewWord_hpIgnored (s : State) : s.viewWord Reg.hpIgnored = s.reg Reg.hpIgnored :=
  State.viewWord_stored (by decide) rfl

theorem State.viewWord_portLastFault (s : State) : s.viewWord Reg.portLastFault = s.reg Reg.portLastFault :=
  State.viewWord_stored (by decide) rfl

theorem State.viewWord_fifoStat (s : State) : s.viewWord Reg.fifoStat = s.reg Reg.fifoStat :=
  State.viewWord_stored (by decide) rfl

theorem State.viewWord_tagFieldLast {s : State} (h : s.tag.loaded = true) :
    s.viewWord Reg.tagFieldLast = wordOf (s.tag.fieldCount * 2 ^ 24 + s.tag.fieldCrumb) := by
  have hd : s.derived Reg.tagFieldLast = some (if s.tag.loaded then wordOf (s.tag.fieldCount * 2 ^ 24 + s.tag.fieldCrumb) else 0) := rfl
  rw [State.viewWord, if_neg (by decide), if_neg (by decide), if_neg (by decide), hd]
  exact if_pos h

theorem State.readEffect_hpIgnored (s : State) : s.readEffect Reg.hpIgnored = s.setReg Reg.hpIgnored 0 := if_pos rfl

theorem State.readEffect_portLastFault (s : State) : s.readEffect Reg.portLastFault = s.setFld Reg.portLastFault 24 8 0 := by
  rw [State.readEffect, if_neg (by decide), if_neg (s.not_sampled (by decide) (by decide)), if_pos rfl]

theorem State.readEffect_fifoStat (s : State) : s.readEffect Reg.fifoStat = s.setFld Reg.fifoStat 14 18 s.fifo.bytes := by
  rw [State.readEffect, if_neg (by decide), if_neg (s.not_sampled (by decide) (by decide)), if_neg (by decide), if_pos rfl]

theorem State.readEffect_tagFieldLast {s : State} (h : s.tag.loaded = true) :
    s.readEffect Reg.tagFieldLast = { s with tag := { s.tag with fieldCount := 0 } } := by
  rw [State.readEffect, if_neg (by decide), if_neg (s.not_sampled (by decide) (by decide)), if_neg (by decide), if_neg (by decide), if_pos rfl]
  exact if_pos h

/-- The latches after the low word of a value of `n` words at `a` was read (R138). -/
def State.latchRest (s : State) (a n : Nat) : List (Nat × Word) :=
  (List.range n).foldl (fun m k => if k = 0 then m else sput (fun _ => 0) m (a + 4 * k) (s.viewWord (a + 4 * k))) s.latches

theorem State.readWord_low {s : State} {a n : Nat} {host : Bool} (hc : s.addrClass a = .word) (hg : groupOf a = some (a, n, host))
    (ht : inTagStore a = false) : s.readWord a = (s.viewWord a, false, { s with latches := s.latchRest a n }) := by
  simp only [State.readWord, hc, hg, if_true, State.readEffect_group _ hg ht, State.latchRest]

/-! ## The reads of a host -/

/-- An implemented register outside the tally bank is a word on every board (R135). -/
theorem State.addrClass_reg (s : State) {a l : Nat} (hm : a < 0x100000) (ht : a / 4096 ≠ 0x48) (hl : lastReg (a / 4096) = some l)
    (hle : a % 4096 ≤ l) (hr : (regAt a).isSome = true) : s.addrClass a = .word := by
  simp only [State.addrClass, hm, ht, hl, hr, Nat.not_lt.mpr hle, false_and, if_true, if_false]

/-- A read of a word of no multi-word value: what it answers, and what it does beside answering. -/
theorem State.hostRead_single {s : State} {a : Nat} (h : s.hostCan a = true) (ha : alignWord a = a) (ht : inTagStore a = false)
    (hc : s.addrClass a = .word) (hg : groupOf a = none) (hn : a ≠ Reg.hpFrames) :
    s.hostRead a = ((s.cnt Reg.hpFrames).readEffect a).readDone a (s.viewWord a) := by
  rw [← s.viewWord_cntFrames hn]
  exact State.hostRead_can h ha ht (State.readWord_single hc hg)

/-- A read of the low word of a multi-word value: it answers and latches the rest. -/
theorem State.hostRead_low {s : State} {a n : Nat} {host : Bool} (h : s.hostCan a = true) (ha : alignWord a = a) (ht : inTagStore a = false)
    (hc : s.addrClass a = .word) (hg : groupOf a = some (a, n, host)) :
    s.hostRead a = ({ s.cnt Reg.hpFrames with latches := (s.cnt Reg.hpFrames).latchRest a n } : State).readDone a (s.viewWord a) := by
  have hn : a ≠ Reg.hpFrames := fun e => by rw [e, show groupOf Reg.hpFrames = none by decide] at hg; cases hg
  rw [← s.viewWord_cntFrames hn]
  exact State.hostRead_can h ha ht (State.readWord_low hc hg ht)

/-- The frame is counted: every other register stays. -/
theorem State.sameRegs_cntFrames (s : State) : s.SameRegs (s.cnt Reg.hpFrames) [Reg.hpFrames] :=
  fun _ hb => s.reg_cntFrames (List.ne_of_not_mem_cons hb)

/-- The frame is counted and one register written: every other register stays. -/
theorem State.sameRegs_setReg_cntFrames (s : State) (a : Nat) (w : Word) :
    s.SameRegs ((s.cnt Reg.hpFrames).setReg a w) [a, Reg.hpFrames] := fun _ hb => by
  rw [State.reg_setReg_other _ _ (List.ne_of_not_mem_cons hb), s.sameRegs_cntFrames _ (List.not_mem_of_not_mem_cons hb)]

/-- A field that lies beside the one written is unchanged. -/
theorem State.fld_setFld_beside {s : State} (h : s.regsWf = true) (a lo n v lo' n' : Nat) (l : lo + n ≤ 32)
    (d : lo' + n' ≤ lo ∨ lo + n ≤ lo') : (s.setFld a lo n v).fld a lo' n' = s.fld a lo' n' := by
  rw [State.fld, State.setFld, State.reg_setReg_same h, fieldN_setFieldN_other _ _ _ _ _ _ l d, State.fld]

theorem State.regsWf_cntFrames {s : State} (h : s.regsWf = true) : (s.cnt Reg.hpFrames).regsWf = true := State.regsWf_setReg h _ _

/-- A read of HP_IGNORED gives its count and clears it (R13). -/
theorem hpIgnoredRead_clears {s : State} (h : s.hostCan Reg.hpIgnored = true) :
    ∃ t, exec .hpIgnoredRead s = .next t ∧ s.ReadBack t Reg.hpIgnored (s.reg Reg.hpIgnored) ∧ t.reg Reg.hpIgnored = 0 ∧
      t = { s with regs := t.regs, hp := t.hp } ∧ s.SameRegs t [Reg.hpIgnored, Reg.hpFrames] := by
  have e := State.hostRead_single h rfl rfl (s.addrClass_reg (by decide) (by decide) rfl (by decide) (by decide +kernel)) (by decide) (by decide)
  rw [State.viewWord_hpIgnored, State.readEffect_hpIgnored] at e
  exact ⟨_, congrArg Host.Outcome.next e, rfl, State.reg_setReg_same (State.regsWf_cntFrames (State.hostCan_wf h)) _ _, rfl,
    s.sameRegs_setReg_cntFrames _ _⟩

/-- A read of PORT_LAST_FAULT gives the word and clears its count (R13). -/
theorem portLastFaultRead_clears {s : State} (h : s.hostCan Reg.portLastFault = true) :
    ∃ t, exec .portLastFaultRead s = .next t ∧ s.ReadBack t Reg.portLastFault (s.reg Reg.portLastFault) ∧ t.fld Reg.portLastFault 24 8 = 0 ∧
      t.fld Reg.portLastFault 0 24 = s.fld Reg.portLastFault 0 24 ∧ t = { s with regs := t.regs, hp := t.hp } ∧
      s.SameRegs t [Reg.portLastFault, Reg.hpFrames] := by
  have w := State.regsWf_cntFrames (State.hostCan_wf h)
  have e := State.hostRead_single h rfl rfl (s.addrClass_reg (by decide) (by decide) rfl (by decide) (by decide +kernel)) (by decide) (by decide)
  rw [State.viewWord_portLastFault, State.readEffect_portLastFault] at e
  refine ⟨_, congrArg Host.Outcome.next e, rfl, ?_, ?_, rfl, s.sameRegs_setReg_cntFrames _ _⟩
  · rw [State.readDone_fld, State.fld_setFld_same w _ _ _ _ (by decide), Nat.zero_mod]
  · rw [State.readDone_fld, State.fld_setFld_beside w _ _ _ _ _ _ (by decide) (by decide), s.fld_cntFrames _ _ (by decide)]

/-- A read of FIFO_STAT gives the word; the high-water mark restarts at the present level (R13). -/
theorem fifoStatRead_restarts {s : State} (h : s.hostCan Reg.fifoStat = true) (hb : s.fifo.bytes < 2 ^ 18) :
    ∃ t, exec .fifoStatRead s = .next t ∧ s.ReadBack t Reg.fifoStat (s.reg Reg.fifoStat) ∧ t.fld Reg.fifoStat 14 18 = s.fifo.bytes ∧
      t.fld Reg.fifoStat 0 14 = s.fld Reg.fifoStat 0 14 ∧ t = { s with regs := t.regs, hp := t.hp } ∧
      s.SameRegs t [Reg.fifoStat, Reg.hpFrames] := by
  have w := State.regsWf_cntFrames (State.hostCan_wf h)
  have e := State.hostRead_single h rfl rfl (s.addrClass_reg (by decide) (by decide) rfl (by decide) (by decide +kernel)) (by decide) (by decide)
  rw [State.viewWord_fifoStat, State.readEffect_fifoStat] at e
  refine ⟨_, congrArg Host.Outcome.next e, rfl, ?_, ?_, rfl, s.sameRegs_setReg_cntFrames _ _⟩
  · rw [State.readDone_fld, State.fld_setFld_same w _ _ _ _ (by decide), State.cnt_fifo, Nat.mod_eq_of_lt hb]
  · rw [State.readDone_fld, State.fld_setFld_beside w _ _ _ _ _ _ (by decide) (by decide), s.fld_cntFrames _ _ (by decide)]

/-- A read of TAG_FIELD_LAST, once loaded, gives the record and clears its count (R345). -/
theorem tagFieldLastRead_clears {s : State} (h : s.hostCan Reg.tagFieldLast = true) (hl : s.tag.loaded = true) :
    ∃ t, exec .tagFieldLastRead s = .next t ∧ s.ReadBack t Reg.tagFieldLast (wordOf (s.tag.fieldCount * 2 ^ 24 + s.tag.fieldCrumb)) ∧
      t.tag = { s.tag with fieldCount := 0 } ∧ t = { s with regs := t.regs, hp := t.hp, tag := t.tag } ∧ s.SameRegs t [Reg.hpFrames] := by
  have e := State.hostRead_single h rfl rfl (s.addrClass_reg (by decide) (by decide) rfl (by decide) (by decide +kernel)) (by decide) (by decide)
  rw [State.viewWord_tagFieldLast hl, State.readEffect_tagFieldLast (s := s.cnt Reg.hpFrames) hl] at e
  exact ⟨_, congrArg Host.Outcome.next e, rfl, rfl, rfl, s.sameRegs_cntFrames⟩

/-- A read of the low word of a multi-word value gives it and latches the other words as they are at that instant (R138). -/
theorem multiWordLowRead_latches {s : State} {addr : BitVec 24} {a n : Nat} {host : Bool} (ha : alignWord addr.toNat = a)
    (h : s.hostCan a = true) (hc : s.addrClass a = .word) (hg : groupOf a = some (a, n, host)) (ht : inTagStore a = false)
    (hw : swf (fun _ => (0 : Word)) s.latches = true) :
    ∃ t, exec (.multiWordLowRead addr) s = .next t ∧ s.ReadBack t a (s.viewWord a) ∧
      (∀ k < n, 0 < k → t.latch (a + 4 * k) = s.viewWord (a + 4 * k)) ∧
      (∀ b, (∀ k < n, 0 < k → b ≠ a + 4 * k) → t.latch b = s.latch b) ∧
      t = { s with regs := t.regs, latches := t.latches, hp := t.hp } ∧ s.SameRegs t [Reg.hpFrames] := by
  have e := State.hostRead_low h (by rw [← ha, alignWord_idem]) ht hc hg
  subst ha
  refine ⟨_, congrArg Host.Outcome.next e, rfl, fun k hk h0 => ?_, fun b hb => ?_, rfl, s.sameRegs_cntFrames⟩
  · exact (sget_foldl_sput_same (fun i j (e : _ + 4 * i = _ + 4 * j) => by omega) _ hw (List.mem_range.mpr hk) (Nat.pos_iff_ne_zero.mp h0)).trans
      (s.viewWord_cntFrames (groupOf_ne_hpFrames hg hk))
  · exact sget_foldl_sput_other _ _ (fun k hk h0 => hb k (List.mem_range.mp hk) (Nat.pos_of_ne_zero h0))

/-- Settles O11: each read is the frame of one word, counted; what `readEffect` and the latches do at its address is all that it changes beside. -/
theorem readsThatClear : Obligations.ReadsThatClear :=
  ⟨fun _ h => hpIgnoredRead_clears h, fun _ h => portLastFaultRead_clears h, fun _ h hb => fifoStatRead_restarts h hb,
    fun _ h hl => tagFieldLastRead_clears h hl, fun _ _ _ _ h hc hg ht hw => multiWordLowRead_latches rfl h hc hg ht hw⟩

end Sys2Proof.Machine
end

section
/-! PROOFS. Two statements that fail, each with the state at which it does: a write to the counter of frames (O10), and a round on an illuminator
that the module does not have (O17). -/
namespace Sys2Proof.Machine

/-- The host port is up: the module is active and SYS_READY shows HP. Every other register is zero. -/
def State.portUp : State := { State.reset with phase := .active, regs := [(Reg.sysReady, 1)] }

/-- Refutes O10: HP_FRAMES meets every hypothesis of the first clause. It has no RW and no W1C bit, so that the merged word is the count before the
write; but it counts the frame of that very write (R130) and holds one more. -/
theorem not_registerWritesFollowTheirAccessCodes : ¬ Obligations.RegisterWritesFollowTheirAccessCodes := by
  intro ⟨stores, _⟩
  obtain ⟨t, ht, merged, -⟩ := stores .portUp (BitVec.ofNat 24 Reg.hpFrames) 0 (by decide +kernel) (by decide +kernel) (by decide +kernel)
    (by decide +kernel) (by decide +kernel) (by decide +kernel)
  obtain rfl := Host.Outcome.next.inj ht
  exact absurd merged (by decide +kernel)

/-- An inventory round on illuminator 26, transmitting on port 0, without beams, points or further geometries. -/
def roundOnTxc26 : Round :=
  { kind := .inventory, seq := 2 ^ 23 + 1, entry := 0, words := [], warp := 0, warps := [0], txc := some 26, port := 0, geos := [], chan := 0,
    start := 0, began := 0, upAt := none, phase := .running, noNew := false, status := none, draining := false, txn := none, commitAt := none,
    trans := 0, reported := 0, coalesced := 0, dropped := 0, skipped := false, fifoReset := false, beams := [], decs := [], leg := none,
    uma := none, sent := [], points := [], failed := false, verdict := none, owed := [], ports := [], accData := [], raw := [], link := [],
    hopDue := false }

/-- A draft that names ports 4 and 5. -/
def draftNaming45 : Draft :=
  { id := 0, struct_ := { ports := [4, 5], spares := [], geos := [], tagPorts := [], decoders := [], peerGeo := none }, region := fccH [],
    seen := { epcw := false, coal := 0, filter := [] }, thr18000 := 0, thrUma := 0, thrPeer := 0, cwUs := 0, peerLevel := 0, schedule := [],
    calPeriod := 0, hopEpoch := 0, missMax := 0, wrWait := 0, groups := [], pos := none, zones := [], fifoCfg := none, regDefs := [] }

/-- That draft is live and that round in flight; the host port is up and CORE runs; port 4 is in class Overpower and port 5 in class DC fault. -/
def State.txc26Serves : State :=
  { State.reset with phase := .active, regs := [(Reg.sysReady, 1), (Reg.sysClkstat, 8), (Reg.portState 0, 0x00450000)],
                     rounds := [roundOnTxc26], upd := { Upd.init with live := some draftNaming45 } }

/-- Refutes O17: its fourth clause bounds no illuminator number in a round, and the module has four. TXCn_STAT of illuminator 26 has the address of
PORT_STATE0, where OUT of port 5 sets bit 23: the round, which used port 5 nowhere, then reads as on a transmit bus at port 5. It drains, and the
command stays live instead of completing with OK. -/
theorem not_illuminatorAndPortOrders : ¬ Obligations.IlluminatorAndPortOrders := by
  intro ⟨_, _, _, portOut, _⟩
  obtain ⟨t, ht, completed, -⟩ := portOut .txc26Serves 5 (by decide +kernel) (by decide +kernel) (by decide +kernel) rfl (by decide +kernel)
    (by decide +kernel)
  obtain rfl := Host.Outcome.next.inj ht
  exact absurd completed.live (by decide +kernel)

end Sys2Proof.Machine
end

section
/-! PROOFS. The test access port (02_package_and_lands.md, R44, R45): what a capture of the lands shows, what an instruction that becomes current
leaves, and what EXTEST stops. -/
namespace Sys2Proof.Machine

/-! ## Folds of which few steps, or none, do anything -/

section
variable {α β : Type} {f : β → α → β}

/-- A fold whose every step leaves the start as it is ends at the start. -/
theorem foldl_of_fixed {l : List α} {b : β} (h : ∀ x ∈ l, f b x = b) : l.foldl f b = b := by
  induction l with
  | nil => rfl
  | cons x r ih =>
    rw [List.foldl_cons, h x List.mem_cons_self]
    exact ih fun y hy => h y (List.mem_cons_of_mem _ hy)

/-- A fold of which one step alone does anything ends where that step leads. -/
theorem foldl_of_single {l : List α} {a : α} {b c : β} (hn : l.Nodup) (ha : a ∈ l) (before : ∀ x ∈ l, x ≠ a → f b x = b) (at_ : f b a = c)
    (after : ∀ x ∈ l, x ≠ a → f c x = c) : l.foldl f b = c := by
  induction l with
  | nil => cases ha
  | cons x r ih =>
    obtain ⟨hx, hr⟩ := List.nodup_cons.mp hn
    rw [List.foldl_cons]
    by_cases e : x = a
    · subst e
      rw [at_]
      exact foldl_of_fixed fun y hy => after y (List.mem_cons_of_mem _ hy) fun h => hx (h ▸ hy)
    · rw [before x List.mem_cons_self e]
      exact ih hr ((List.mem_cons.mp ha).resolve_left (Ne.symm e)) (fun y hy => before y (List.mem_cons_of_mem _ hy))
        fun y hy => after y (List.mem_cons_of_mem _ hy)
end

/-! ## The lands are captured (R44) -/

theorem Land.place_lt {l : Land} (h : l ∈ Land.all) : l.place < 27 := by
  revert l
  decide

theorem Land.places_nodup : (Land.all.map Land.place).Nodup := by decide

/-- The level of a land depends on no free value still to be drawn, nor on what was last shifted out. -/
theorem State.landLevel_captured (s : State) (k : Nat) (w : Word) (l : Land) :
    ({ s with freeCtr := k, tdo := w } : State).landLevel l = s.landLevel l := by
  cases l <;> rfl

/-- What the module does with a land but TDO is the same whichever instruction but EXTEST is current. -/
theorem State.landDrive_instr {s : State} {i : TapInstr} (h : s.tap ≠ .extest) (hi : i ≠ .extest) {l : Land} (hl : l ≠ .tdo) :
    ({ s with tap := i } : State).landDrive l = s.landDrive l := by
  have noDrive : ∀ j : TapInstr, j ≠ .extest → ¬ (j = .extest ∧ l.isOut) := fun _ hj hc => hj hc.1
  simp only [State.landDrive, if_neg (noDrive _ h), if_neg (noDrive _ hi)]
  cases l
  case tdo => exact absurd rfl hl
  all_goals rfl

/-- The levels of the lands are the same whichever instruction but EXTEST is current. -/
theorem State.landLevel_instr {s : State} {i : TapInstr} (h : s.tap ≠ .extest) (hi : i ≠ .extest) {l : Land} (hl : l ≠ .tdo) :
    ({ s with tap := i } : State).landLevel l = s.landLevel l := by
  have drive := State.landDrive_instr h hi hl
  cases l <;> simp only [State.landLevel, drive]

/-- What the capture does for one land. -/
def State.sampleLand (a : BitVec 27 × State) (l : Land) : BitVec 27 × State :=
  match a.2.landLevel l with
  | some v => (if v then a.1 ||| BitVec.ofNat 27 (2 ^ l.place) else a.1, a.2)
  | none => let (v, s) := a.2.drawBool; (if v then a.1 ||| BitVec.ofNat 27 (2 ^ l.place) else a.1, s)

theorem State.sampleLands_eq (s : State) : s.sampleLands = Land.all.foldl State.sampleLand (0, s) := rfl

/-- Setting a bit of the boundary-scan register or leaving it. -/
theorem getLsbD_capture (w : BitVec 27) (v : Bool) {p : Nat} (hp : p < 27) (i : Nat) :
    (if v then w ||| BitVec.ofNat 27 (2 ^ p) else w).getLsbD i = (w.getLsbD i || (v && decide (i = p))) := by
  cases v with
  | false => rw [if_neg Bool.false_ne_true, Bool.false_and, Bool.or_false]
  | true =>
    rw [if_pos rfl, BitVec.getLsbD_or, BitVec.getLsbD_ofNat, Nat.testBit_two_pow, Bool.true_and]
    by_cases e : i = p
    · subst e
      rw [decide_eq_true hp, Bool.true_and]
    · rw [decide_eq_false e, decide_eq_false (Ne.symm e), Bool.and_false]

/-- The capture of one land puts some bit at its place, the level if something known fixes it, and no other bit changes. -/
theorem State.sampleLand_bit (w : BitVec 27) (s : State) (l : Land) :
    ∃ (v : Bool) (k : Nat), State.sampleLand (w, s) l = (if v then w ||| BitVec.ofNat 27 (2 ^ l.place) else w, { s with freeCtr := k }) ∧
      ∀ b ∈ s.landLevel l, v = b := by
  unfold State.sampleLand
  cases e : s.landLevel l with
  | some v => exact ⟨v, s.freeCtr, rfl, fun b hb => Option.some.inj hb⟩
  | none => exact ⟨_, _, rfl, fun b hb => nomatch hb⟩

/-- A capture over a list of lands draws free values and nothing else; a place that was clear takes the level of its land, and a place of no land
of the list keeps its bit. -/
theorem State.sampleList_bits (ls : List Land) (hlt : ∀ l ∈ ls, l.place < 27) (hn : (ls.map Land.place).Nodup) (w : BitVec 27) (s : State) :
    ∃ (v : BitVec 27) (k : Nat), ls.foldl State.sampleLand (w, s) = (v, { s with freeCtr := k }) ∧
      (∀ i, i ∉ ls.map Land.place → v.getLsbD i = w.getLsbD i) ∧
      ∀ l ∈ ls, w.getLsbD l.place = false → ∀ b ∈ s.landLevel l, v.getLsbD l.place = b := by
  induction ls generalizing w s with
  | nil => exact ⟨w, s.freeCtr, rfl, fun _ _ => rfl, fun _ h => nomatch h⟩
  | cons x r ih =>
    obtain ⟨c, j, hx, hc⟩ := State.sampleLand_bit w s x
    obtain ⟨hxr, hr⟩ := List.nodup_cons.mp hn
    have bits := getLsbD_capture w c (hlt x List.mem_cons_self)
    obtain ⟨v, k, hv, keep, lev⟩ := ih (fun l hl => hlt l (List.mem_cons_of_mem _ hl)) hr
      (if c then w ||| BitVec.ofNat 27 (2 ^ x.place) else w) { s with freeCtr := j }
    refine ⟨v, k, by rw [List.foldl_cons, hx, hv], fun i hi => ?_, fun l hl hw b hb => ?_⟩
    · obtain ⟨hix, hir⟩ := not_or.mp (fun h => hi (List.mem_cons.mpr h))
      rw [keep i hir, bits, decide_eq_false hix, Bool.and_false, Bool.or_false]
    · obtain rfl | hlr := List.mem_cons.mp hl
      · rw [keep _ hxr, bits, hw, hc b hb, decide_eq_true rfl, Bool.and_true, Bool.false_or]
      · have hne : l.place ≠ x.place := fun e => hxr (e ▸ List.mem_map_of_mem hlr)
        refine lev l hlr ?_ b hb
        rw [bits, hw, decide_eq_false hne, Bool.and_false, Bool.or_false]

/-- A word has, at the place of every land of the boundary-scan register whose level something known fixes, that level. -/
def State.shows (s : State) (w : Word) : Prop := Land.all.all (fun l => (s.landLevel l).all (fun v => w.getLsbD l.place == v)) = true

theorem State.shows_iff {s : State} {w : Word} : s.shows w ↔ ∀ l ∈ Land.all, ∀ b ∈ s.landLevel l, w.getLsbD l.place = b := by
  simp only [State.shows, List.all_eq_true, Option.all_eq_true, beq_iff_eq]; rfl

theorem State.shows_congr {s t : State} (h : ∀ l ∈ Land.all, t.landLevel l = s.landLevel l) {w : Word} (hw : t.shows w) : s.shows w :=
  State.shows_iff.mpr fun l hl b hb => State.shows_iff.mp hw l hl b (h l hl ▸ hb)

/-- A core that is powered holds its lands in reset alone. -/
theorem State.ringHeld_awake {s : State} (h : s.asleep = false) : s.ringHeld = decide (s.phase = .held) := by
  rw [State.ringHeld, h, Bool.or_false]; rfl

/-- Data shifted out while the core is powered show at TDO but in a reset. -/
theorem State.shiftOut_awake {s : State} (h : s.asleep = false) (w : Word) :
    s.shiftOut w = { s with tdo := if s.phase = .held then s.tdo else w } := by
  rw [State.shiftOut, State.ringHeld_awake h]
  by_cases hp : s.phase = .held
  · rw [if_pos (decide_eq_true hp), if_pos hp]
  · rw [if_neg (Bool.eq_false_iff.mp (decide_eq_false hp)), if_neg hp]

/-- A scan draws free values and, but in a reset, shows at TDO every level that something known fixes; nothing else changes. -/
theorem State.scanLands_captures {s : State} (h : s.asleep = false) :
    ∃ (k : Nat) (w : Word), s.scanLands = { s with freeCtr := k, tdo := w } ∧ (s.phase = .held → w = s.tdo) ∧ (s.phase ≠ .held → s.shows w) := by
  obtain ⟨v, k, hv, -, lev⟩ := State.sampleList_bits Land.all (fun _ => Land.place_lt) Land.places_nodup 0 s
  have e : s.scanLands = ({ s with freeCtr := k } : State).shiftOut (v.setWidth 32) := by
    rw [State.scanLands, State.sampleLands_eq, hv]
  rw [State.shiftOut_awake (s := { s with freeCtr := k }) h] at e
  refine ⟨k, _, e, fun hp => if_pos hp, fun hp => ?_⟩
  rw [if_neg hp, State.shows_iff]
  intro l hl b hb
  have inWord : l.place < 32 := Nat.lt_trans (Land.place_lt hl) (by decide)
  rw [← lev l hl BitVec.getLsbD_zero b hb, BitVec.getLsbD_setWidth, decide_eq_true inWord, Bool.true_and]

/-- A scan that loads the boundary-scan register as well. -/
theorem State.scanLands_loads {s : State} (h : s.asleep = false) :
    ∃ (k : Nat) (w : Word) (b : BitVec 27), s.scanLands.loadScan = { s with freeCtr := k, tdo := w, bscan := b } ∧
      (s.phase = .held → w = s.tdo) ∧ (s.phase ≠ .held → s.shows w) := by
  obtain ⟨k, w, e, held, shown⟩ := State.scanLands_captures h
  exact ⟨k + 1, w, _, by rw [e]; rfl, held, shown⟩

/-! ## An instruction becomes current; leaving EXTEST resets the main die (R44, R45) -/

/-- With VIO present and the core powered the port answers (R41). -/
theorem State.tapOn_of {s : State} (hv : s.lands.vio = true) (ha : s.asleep = false) : s.tapOn = true := by
  rw [State.tapOn, hv, ha]; rfl

/-- Outside EXTEST an instruction becomes current and nothing else happens. -/
theorem State.setTap_outside {s : State} (h : s.tap ≠ .extest) (i : TapInstr) : s.setTap i = { s with tap := i } := by
  have hl : (s.tap == .extest) = false := beq_false_of_ne h
  rw [State.setTap, hl]; rfl

/-- With no carrier on, an illuminator's carrier is off. -/
theorem State.txOn_of_txcsOn_nil {s : State} (h : s.txcsOn = []) {n : Nat} (hn : n < 4) : s.txOn n = false :=
  Bool.eq_false_iff.mpr (List.filter_eq_nil_iff.mp h n (List.mem_range.mpr hn))

/-- With no carrier on and no reset triggered, a trigger does no more than wait for the reset to take effect (R80). -/
theorem State.triggerReset_quiet {s : State} (ht : s.txcsOn = []) (hr : s.resets = []) (c : Cause) :
    s.triggerReset c = { s with resets := [c] } := by
  have off : ∀ n ∈ List.range 4, ({ s with resets := [c] } : State).txOn n = false := fun n hn =>
    State.txOn_of_txcsOn_nil ht (List.mem_range.mp hn)
  simp only [State.triggerReset, hr, List.contains_nil, List.nil_append, Bool.false_eq_true, if_false]
  exact foldl_of_fixed fun n hn => if_neg (Bool.eq_false_iff.mp (off n hn))

/-- Leaving EXTEST triggers a reset of cause TAP (R45). -/
theorem State.setTap_leaves {s : State} (h : s.tap = .extest) (ht : s.txcsOn = []) (hr : s.resets = []) {i : TapInstr} (hi : i ≠ .extest) :
    s.setTap i = { s with tap := i, resets := [.tap] } := by
  have hl : (s.tap == .extest && i != .extest) = true := by rw [h, bne_iff_ne.mpr hi]; rfl
  rw [State.setTap, hl]
  exact State.triggerReset_quiet (s := { s with tap := i }) ht hr .tap

section
variable {s : State} (hv : s.lands.vio = true) (ha : s.asleep = false)
include hv ha

/-- With the port powered, an instruction becomes current, and the data of its register come out (R44). -/
theorem exec_bypass : exec .bypass s = .next ((s.setTap .bypass).shiftOut 0) :=
  congrArg Host.Outcome.next (if_pos (State.tapOn_of hv ha))

theorem exec_idcode : exec .idcode s = .next ((s.setTap .idcode).shiftOut 0x16480A3B) :=
  congrArg Host.Outcome.next (if_pos (State.tapOn_of hv ha))

theorem exec_samplePreload : exec .samplePreload s = .next (s.setTap .sample).scanLands.loadScan :=
  congrArg Host.Outcome.next (if_pos (State.tapOn_of hv ha))

theorem exec_leaveExtest (h : s.tap = .extest) : exec .leaveExtest s = .next (s.setTap .reset) :=
  congrArg Host.Outcome.next (if_pos ⟨h, State.tapOn_of hv ha⟩)

/-- EXTEST given again is one more scan (log entry 14). -/
theorem exec_extest_again (h : s.tap = .extest) : exec .extest s = .next s.scanLands.loadScan := by
  change execExtest s = _
  rw [execExtest, State.tapOn_of hv ha, if_pos h]; rfl

end

/-! ## What EXTEST stops (R45, R158) -/

/-- EXTEST is current, and the memory port queue is frozen. -/
def State.frozen (s : State) : State := { s with tap := .extest, memp := { s.memp with frozen := true } }

/-- EXTEST holds illuminator `n` off: one in calibration at once, one that transmits through a fast ramp-down. -/
def State.holdOff (s : State) (n : Nat) : State :=
  if s.ramp n = 5 then (s.setRamp n 0).updTx n (fun t => { t with calibrating := false })
  else if s.txOn n then s.rampDown n true .off else s

/-- The receive switches of every port open. -/
def State.openSwitches (s : State) : State := (List.range 64).foldl State.deafPort s

/-- EXTEST becomes current, with no round in flight. -/
theorem exec_extest {s : State} (hv : s.lands.vio = true) (ha : s.asleep = false) (h : s.tap ≠ .extest) (hr : s.rounds = []) :
    exec .extest s = .next ((List.range 4).foldl State.holdOff s.frozen).openSwitches.scanLands := by
  change execExtest s = _
  rw [execExtest, State.tapOn_of hv ha, if_neg (by decide), if_neg h]
  change Host.Outcome.next ((List.range 4).foldl State.holdOff (s.frozen.rounds.foldl _ s.frozen)).openSwitches.scanLands = _
  rw [show s.frozen.rounds = [] from hr, List.foldl_nil]

/-- An illuminator that is neither in calibration nor on the air is left as it is. -/
theorem State.holdOff_idle {s : State} {n : Nat} (hc : s.ramp n ≠ 5) (ho : s.txOn n = false) : s.holdOff n = s := by
  rw [State.holdOff, if_neg hc, if_neg (Bool.eq_false_iff.mp ho)]

/-- A steady carrier ramps down fast, to stay off: counted once, in mode CW. -/
theorem State.holdOff_on {s : State} {n : Nat} (h : s.ramp n = 2) :
    s.holdOff n = (((s.cnt (Reg.txcCntFast n)).setRamp n 3).setMode n 1).updTx n (fun t => { t with fast := true, after := .off }) := by
  have ho : s.txOn n = true := by rw [State.txOn, h]; rfl
  rw [State.holdOff, if_neg (by rw [h]; decide), if_pos ho, State.rampDown, h]; rfl

/-- An illuminator in calibration goes off. -/
theorem State.holdOff_cal {s : State} {n : Nat} (h : s.ramp n = 5) :
    s.holdOff n = (s.setRamp n 0).updTx n (fun t => { t with calibrating := false }) := if_pos h

/-- No illuminator is in calibration under `noTxcCal`. -/
theorem State.ramp_ne_cal {s : State} (h : s.noTxcCal = true) {n : Nat} (hn : n < 4) : s.ramp n ≠ 5 :=
  bne_iff_ne.mp (List.all_eq_true.mp h n (List.mem_range.mpr hn))

/-- With none on the air and none in calibration, EXTEST changes no illuminator. -/
theorem State.holdOff_none {s : State} (ht : s.txcsOn = []) (hc : s.noTxcCal = true) : (List.range 4).foldl State.holdOff s = s :=
  foldl_of_fixed fun _ hn => State.holdOff_idle (State.ramp_ne_cal hc (List.mem_range.mp hn)) (State.txOn_of_txcsOn_nil ht (List.mem_range.mp hn))

/-- With one illuminator alone on the air or in calibration, EXTEST changes that one alone. -/
theorem State.holdOff_one {s : State} {k : Nat} (hk : k < 4) (idle : ∀ n < 4, n ≠ k → s.ramp n ≠ 5 ∧ s.txOn n = false)
    (same : ∀ n, n ≠ k → (s.holdOff k).ramp n = s.ramp n) : (List.range 4).foldl State.holdOff s = s.holdOff k := by
  refine foldl_of_single List.nodup_range (List.mem_range.mpr hk) (fun n hn hne => ?_) rfl fun n hn hne => ?_
  · obtain ⟨hc, ho⟩ := idle n (List.mem_range.mp hn) hne
    exact State.holdOff_idle hc ho
  · obtain ⟨hc, ho⟩ := idle n (List.mem_range.mp hn) hne
    refine State.holdOff_idle ?_ ?_
    · rwa [same n hne]
    · simpa only [State.txOn, same n hne] using ho

/-- An illuminator that ramps down shows RAMP_DOWN. -/
theorem State.holdOff_on_ramp {s : State} (hw : s.regsWf = true) {k : Nat} (h : s.ramp k = 2) : (s.holdOff k).ramp k = 3 := by
  have counted : (s.cnt (Reg.txcCntFast k)).regsWf = true := State.regsWf_setReg hw _ _
  have ramped : ((s.cnt (Reg.txcCntFast k)).setRamp k 3).regsWf = true := State.regsWf_setReg counted _ _
  rw [State.holdOff_on h]
  exact (State.fld_setFld_beside ramped (Reg.txcStat k) 8 3 1 0 3 (by decide) (by decide)).trans
    (State.fld_setFld_same counted (Reg.txcStat k) 0 3 3 (by decide))

/-- A fast ramp-down is counted once. -/
theorem State.holdOff_on_counts {s : State} (hw : s.regsWf = true) {k : Nat} (h : s.ramp k = 2) :
    (s.holdOff k).reg (Reg.txcCntFast k) = s.reg (Reg.txcCntFast k) + 1 := by
  have hne : Reg.txcCntFast k ≠ Reg.txcStat k := by simp only [Reg.txcCntFast, Reg.txcStat]; omega
  rw [State.holdOff_on h]
  exact ((State.reg_setFld_other _ _ _ _ hne).trans (State.reg_setFld_other _ _ _ _ hne)).trans (State.reg_cnt_same hw _)

/-- The one illuminator on the air is one of the four, and no other is on the air. -/
theorem State.txcsOn_eq_singleton {s : State} {k : Nat} (h : s.txcsOn = [k]) : k < 4 ∧ ∀ n < 4, n ≠ k → s.txOn n = false := by
  have mem : ∀ n, n ∈ s.txcsOn ↔ n < 4 ∧ s.txOn n = true := fun n => by simp only [State.txcsOn, List.mem_filter, List.mem_range]
  rw [h] at mem
  exact ⟨((mem k).mp List.mem_cons_self).1, fun n hn hne => Bool.eq_false_iff.mpr fun ho => hne (List.mem_singleton.mp ((mem n).mpr ⟨hn, ho⟩))⟩

/-- The registers that a fast ramp-down writes. -/
theorem State.holdOff_on_regs {s : State} {k : Nat} (h : s.ramp k = 2) :
    s.SameRegs (s.holdOff k) [Reg.txcStat k, Reg.txcCntFast k] := fun a ha => by
  obtain ⟨h1, h2⟩ := not_or.mp fun e => ha (List.mem_cons.mpr (e.imp_right List.mem_singleton.mpr))
  rw [State.holdOff_on h]
  exact ((State.reg_setFld_other _ _ _ _ h1).trans (State.reg_setFld_other _ _ _ _ h1)).trans (State.reg_cnt_other _ h2)

/-- The register that the end of a calibration writes. -/
theorem State.holdOff_cal_regs {s : State} {k : Nat} (h : s.ramp k = 5) : s.SameRegs (s.holdOff k) [Reg.txcStat k] := fun a ha => by
  rw [State.holdOff_cal h]
  exact State.reg_setFld_other _ _ _ _ (List.ne_of_not_mem_cons ha)

/-- The ramp of another illuminator is in a register of its own. -/
theorem State.ramp_sameRegs {s t : State} {k n : Nat} (h : s.SameRegs t [Reg.txcStat k, Reg.txcCntFast k]) (hn : n ≠ k) : t.ramp n = s.ramp n := by
  refine congrArg (fieldN · 0 3) (h _ ?_)
  simp only [List.mem_cons, List.not_mem_nil, or_false, not_or, Reg.txcStat, Reg.txcCntFast]
  omega

/-! ## Switches that are open already -/

/-- Open switches show in the registers of the chains and the buses alone. -/
theorem State.switchesOpen_sameRegs {s t : State} {k : Nat} (hk : k < 4) (h : s.SameRegs t [Reg.txcStat k, Reg.txcCntFast k])
    (ho : s.switchesOpen = true) : t.switchesOpen = true := by
  have rx : ∀ n, t.reg (Reg.rxcStat n) = s.reg (Reg.rxcStat n) := fun n => h _ (by
    simp only [List.mem_cons, List.not_mem_nil, or_false, not_or, Reg.txcStat, Reg.txcCntFast, Reg.rxcStat]; omega)
  have bus : ∀ w, t.reg (Reg.portWarpRx w) = s.reg (Reg.portWarpRx w) := fun w => h _ (by
    simp only [List.mem_cons, List.not_mem_nil, or_false, not_or, Reg.txcStat, Reg.txcCntFast, Reg.portWarpRx]; omega)
  simpa only [State.switchesOpen, State.bit, rx, bus] using ho

/-- The chain `n`, if it listens on the port `p`, stops, its canceller where it has come to. -/
def State.deafen (p : Nat) (s : State) (n : Nat) : State :=
  if s.listensOn n p then (if s.cancLive n then s.adaptTaps n else s).hideChain n else s

/-- The receive switches of a port open chain by chain, and then on its bus. -/
theorem State.deafPort_eq (s : State) (p : Nat) : s.deafPort p = ((List.range 16).foldl (State.deafen p) s).hideBus p := rfl

/-- Ports that no chain listens on and no bus carries are left as they are. -/
theorem State.openSwitches_open {s : State} (h : s.switchesOpen = true) : s.openSwitches = s := by
  obtain ⟨rx, bus⟩ := Bool.and_eq_true_iff.mp h
  have deaf : ∀ n ∈ List.range 16, s.bit (Reg.rxcStat n) 15 = false := fun n hn => (Bool.not_eq_true' _).mp (List.all_eq_true.mp rx n hn)
  have clear : ∀ w ∈ List.range 4, ∀ k ∈ List.range 4, s.bit (Reg.portWarpRx w) (8 * k + 7) = false := fun w hw k hk =>
    (Bool.not_eq_true' _).mp (List.all_eq_true.mp (List.all_eq_true.mp bus w hw) k hk)
  refine foldl_of_fixed fun p hp => ?_
  have chains : (List.range 16).foldl (State.deafen p) s = s :=
    foldl_of_fixed fun n hn => if_neg (by rw [State.listensOn, deaf n hn]; exact Bool.false_ne_true)
  rw [State.deafPort_eq, chains, State.hideBus]
  refine foldl_of_fixed fun k hk => if_neg ?_
  have hw : p / 16 ∈ List.range 4 := by rw [List.mem_range] at hp ⊢; omega
  rw [State.busHas, clear _ hw k hk]
  exact Bool.false_ne_true

/-! ## Switches that open (R45, R151) -/

/-- From `s` to `t` registers and free values alone have changed, and no chain has begun to listen on a port; the register file of `t` is in its
canonical form. -/
structure State.Quieter (s t : State) : Prop where
  frame   : ∃ (r : List (Nat × Word)) (k : Nat), t = { s with regs := r, freeCtr := k }
  wf      : t.regsWf = true
  listens : ∀ n q, t.listensOn n q = true → s.listensOn n q = true

theorem State.Quieter.refl {s : State} (h : s.regsWf = true) : s.Quieter s := ⟨⟨s.regs, s.freeCtr, rfl⟩, h, fun _ _ hl => hl⟩

theorem State.Quieter.trans {s t u : State} (h1 : s.Quieter t) (h2 : t.Quieter u) : s.Quieter u := by
  obtain ⟨r, k, rfl⟩ := h1.frame
  obtain ⟨r', k', e⟩ := h2.frame
  exact ⟨⟨r', k', e⟩, h2.wf, fun n q hl => h1.listens n q (h2.listens n q hl)⟩

/-- Steps that make no chain begin to listen, one after the other, make none begin to. -/
theorem State.Quieter.foldl {α : Type} {f : State → α → State} {l : List α}
    (hf : ∀ s : State, s.regsWf = true → ∀ x ∈ l, s.Quieter (f s x)) {s : State} (h : s.regsWf = true) : s.Quieter (l.foldl f s) := by
  induction l generalizing s with
  | nil => exact .refl h
  | cons x r ih =>
    have hx := hf s h x List.mem_cons_self
    exact hx.trans (ih (fun s hs y hy => hf s hs y (List.mem_cons_of_mem _ hy)) hx.wf)

/-- A chain that one of the steps silences on a port is silent there after them all. -/
theorem State.Quieter.foldl_silent {α : Type} {f : State → α → State} {l : List α} {n q : Nat} {a : α}
    (hf : ∀ s : State, s.regsWf = true → ∀ x ∈ l, s.Quieter (f s x)) (ha : a ∈ l)
    (silent : ∀ s : State, s.regsWf = true → (f s a).listensOn n q = false) {s : State} (h : s.regsWf = true) :
    (l.foldl f s).listensOn n q = false := by
  obtain ⟨l₁, l₂, rfl⟩ := List.append_of_mem ha
  rw [List.foldl_append, List.foldl_cons]
  have before := State.Quieter.foldl (fun s hs x hx => hf s hs x (List.mem_append_left _ hx)) (l := l₁) h
  have step := hf _ before.wf a (List.mem_append_right _ List.mem_cons_self)
  have after := State.Quieter.foldl (fun s hs x hx => hf s hs x (List.mem_append_right _ (List.mem_cons_of_mem _ hx))) (l := l₂) step.wf
  exact Bool.eq_false_iff.mpr fun hl => Bool.eq_false_iff.mp (silent _ before.wf) (after.listens n q hl)

/-- A register write makes no chain begin to listen unless it is to the status of one. -/
theorem State.Quieter.setReg {s : State} (h : s.regsWf = true) {a : Nat} (w : Word) (ha : ∀ n, Reg.rxcStat n ≠ a) : s.Quieter (s.setReg a w) := by
  refine ⟨⟨_, _, rfl⟩, State.regsWf_setReg h _ _, fun n q hl => ?_⟩
  simpa only [State.listensOn, State.bit, State.fld, State.reg_setReg_other s w (ha n)] using hl

/-- A free word drawn shows in no register. -/
theorem State.Quieter.drawWord {s : State} (h : s.regsWf = true) : s.Quieter s.drawWord.2 := ⟨⟨_, _, rfl⟩, h, fun _ _ hl => hl⟩

/-- A cleared field at 8 holds a cleared bit 15. -/
theorem bitN_of_clear_field {w : Word} (h : fieldN w 8 8 = 0) : bitN w 15 = false := by
  simp only [fieldN] at h
  simp only [bitN, fieldN, beq_eq_false_iff_ne]
  omega

/-- A hidden chain listens on no port. -/
theorem State.hideChain_silent {s : State} (h : s.regsWf = true) (n q : Nat) : (s.hideChain n).listensOn n q = false := by
  have wf : (s.setFld (Reg.rxcStat n) 8 8 0).regsWf = true := State.regsWf_setReg h _ _
  have field : (s.setFld (Reg.rxcStat n) 8 8 0).fld (Reg.rxcStat n) 8 8 = 0 := State.fld_setFld_same h _ _ _ _ (by decide)
  have bit : (s.hideChain n).bit (Reg.rxcStat n) 15 = false := by
    rw [State.hideChain, State.bit, State.setBit, State.reg_setReg_same wf, bitN_setBitN_other _ _ (by decide) (by decide)]
    exact bitN_of_clear_field field
  rw [State.listensOn, bit, Bool.false_and]

theorem State.Quieter.hideChain {s : State} (h : s.regsWf = true) (m : Nat) : s.Quieter (s.hideChain m) := by
  refine ⟨⟨_, _, rfl⟩, State.regsWf_setReg (State.regsWf_setReg h _ _) _ _, fun n q hl => ?_⟩
  by_cases e : n = m
  · subst e
    rw [State.hideChain_silent h] at hl
    cases hl
  · have hne : Reg.rxcStat n ≠ Reg.rxcStat m := by simp only [Reg.rxcStat]; omega
    simpa only [State.listensOn, State.hideChain, State.bit, State.fld, State.reg_setBit_other _ _ _ hne, State.reg_setFld_other _ _ _ _ hne] using hl

theorem State.Quieter.adaptTaps {s : State} (h : s.regsWf = true) (m : Nat) : s.Quieter (s.adaptTaps m) := by
  have drawn := State.Quieter.drawWord h
  have shown := drawn.trans (.setReg drawn.wf (cancWord s.drawWord.1) (a := Reg.rxcCancStat m) fun n => by
    simp only [Reg.rxcStat, Reg.rxcCancStat]; omega)
  refine shown.trans (State.Quieter.foldl (fun s hs k hk => ?_) shown.wf)
  have d := State.Quieter.drawWord hs
  refine d.trans (.setReg d.wf _ fun n => ?_)
  have hk4 := List.mem_range.mp hk
  simp only [Reg.rxcStat, Reg.rxcCancTap]
  omega

theorem State.Quieter.hideBus {s : State} (h : s.regsWf = true) {p : Nat} (hp : p < 64) : s.Quieter (s.hideBus p) := by
  refine State.Quieter.foldl (fun s hs k _ => ?_) h
  split
  · exact .setReg hs _ fun n => by simp only [Reg.rxcStat, Reg.portWarpRx]; omega
  · exact .refl hs

/-- The canceller of a chain, whether it adapts or not. -/
theorem State.Quieter.adapted {s : State} (h : s.regsWf = true) (n : Nat) : s.Quieter (if s.cancLive n then s.adaptTaps n else s) := by
  split
  · exact .adaptTaps h n
  · exact .refl h

theorem State.Quieter.deafen {s : State} (h : s.regsWf = true) (p n : Nat) : s.Quieter (s.deafen p n) := by
  unfold State.deafen
  split
  · exact (State.Quieter.adapted h n).trans (.hideChain (State.Quieter.adapted h n).wf n)
  · exact .refl h

theorem State.deafen_silent {s : State} (h : s.regsWf = true) (p n : Nat) : (s.deafen p n).listensOn n p = false := by
  unfold State.deafen
  split
  · exact State.hideChain_silent (State.Quieter.adapted h n).wf n p
  · exact Bool.eq_false_iff.mpr ‹_›

/-- No chain begins to listen while those on a port stop. -/
theorem State.Quieter.deafenAll {s : State} (h : s.regsWf = true) (p : Nat) : s.Quieter ((List.range 16).foldl (State.deafen p) s) :=
  .foldl (fun _ hs n _ => .deafen hs p n) h

theorem State.Quieter.deafPort {s : State} (h : s.regsWf = true) {p : Nat} (hp : p < 64) : s.Quieter (s.deafPort p) := by
  rw [State.deafPort_eq]
  exact (State.Quieter.deafenAll h p).trans (.hideBus (State.Quieter.deafenAll h p).wf hp)

/-- No chain listens on a port whose receive switches have opened. -/
theorem State.deafPort_silent {s : State} (h : s.regsWf = true) {p n : Nat} (hp : p < 64) (hn : n < 16) : (s.deafPort p).listensOn n p = false := by
  have silent : ((List.range 16).foldl (State.deafen p) s).listensOn n p = false :=
    State.Quieter.foldl_silent (fun _ hs m _ => .deafen hs p m) (List.mem_range.mpr hn) (fun _ hs => State.deafen_silent hs p n) h
  rw [State.deafPort_eq]
  exact Bool.eq_false_iff.mpr fun hl => Bool.eq_false_iff.mp silent ((State.Quieter.hideBus (State.Quieter.deafenAll h p).wf hp).listens n p hl)

theorem State.Quieter.openSwitches {s : State} (h : s.regsWf = true) : s.Quieter s.openSwitches :=
  .foldl (fun _ hs _ hp => .deafPort hs (List.mem_range.mp hp)) h

/-- A chain whose status shows a port listens on one of the 64. -/
theorem State.listensOn_of_valid {s : State} {n : Nat} (h : s.bit (Reg.rxcStat n) 15 = true) : ∃ p < 64, s.listensOn n p = true :=
  ⟨s.fld (Reg.rxcStat n) 8 6, Nat.mod_lt _ (by decide), by rw [State.listensOn, h, beq_self_eq_true]; rfl⟩

/-- With every port switch open no chain shows a port. -/
theorem State.openSwitches_silent {s : State} (h : s.regsWf = true) {n : Nat} (hn : n < 16) : s.openSwitches.bit (Reg.rxcStat n) 15 = false := by
  refine Bool.eq_false_iff.mpr fun hv => ?_
  obtain ⟨p, hp, hl⟩ := State.listensOn_of_valid hv
  have silent : s.openSwitches.listensOn n p = false :=
    State.Quieter.foldl_silent (fun _ hs _ hq => .deafPort hs (List.mem_range.mp hq)) (List.mem_range.mpr hp)
      (fun _ hs => State.deafPort_silent hs hp hn) h
  exact Bool.eq_false_iff.mp silent hl

/-! ## What each instruction does, clause by clause of O30 -/

section
variable {s : State} (hv : s.lands.vio = true) (ha : s.asleep = false)
include hv ha

theorem bypass_outside (h : s.tap ≠ .extest) :
    exec .bypass s = .next { s with tap := .bypass, tdo := if s.phase = .held then s.tdo else 0 } := by
  rw [exec_bypass hv ha, State.setTap_outside h, State.shiftOut_awake (s := { s with tap := .bypass }) ha]

theorem idcode_outside (h : s.tap ≠ .extest) :
    exec .idcode s = .next { s with tap := .idcode, tdo := if s.phase = .held then s.tdo else 0x16480A3B } := by
  rw [exec_idcode hv ha, State.setTap_outside h, State.shiftOut_awake (s := { s with tap := .idcode }) ha]

theorem samplePreload_captures (h : s.tap ≠ .extest) :
    ∃ t, exec .samplePreload s = .next t ∧ t.tap = .sample ∧ (s.phase = .held → t.tdo = s.tdo) ∧ (s.phase ≠ .held → s.shows t.tdo) ∧
      t = { s with tap := t.tap, tdo := t.tdo, bscan := t.bscan, freeCtr := t.freeCtr } := by
  obtain ⟨k, w, b, e, held, shown⟩ := State.scanLands_loads (s := { s with tap := .sample }) ha
  refine ⟨_, by rw [exec_samplePreload hv ha, State.setTap_outside h, e], rfl, held, fun hp => ?_, rfl⟩
  refine State.shows_congr (fun l hl => State.landLevel_instr h (by decide) ?_) (shown hp)
  rintro rfl
  exact absurd hl (by decide)

/-- EXTEST captures the lands as they are with the illuminators held off (`v`) and the switches open (`u`). -/
theorem extest_captures {u v : State} (h : s.tap ≠ .extest) (hr : s.rounds = []) (hoff : (List.range 4).foldl State.holdOff s.frozen = v)
    (hopen : v.openSwitches = u) (hua : u.asleep = false) :
    ∃ (k : Nat) (w : Word), exec .extest s = .next { u with freeCtr := k, tdo := w } ∧ (u.phase ≠ .held → u.shows w) := by
  obtain ⟨k, w, e, -, shown⟩ := State.scanLands_captures hua
  exact ⟨k, w, by rw [exec_extest hv ha h hr, hoff, hopen, e], shown⟩

/-- With nothing on the air and the switches open, EXTEST freezes the memory port queue and captures the lands (R45). -/
theorem extest_quiet (h : s.tap ≠ .extest) (hr : s.rounds = []) (ht : s.txcsOn = []) (hc : s.noTxcCal = true) (ho : s.switchesOpen = true) :
    ∃ t, exec .extest s = .next t ∧ t.tap = .extest ∧ t.memp = { s.memp with frozen := true } ∧ (s.phase ≠ .held → t.shows t.tdo) ∧
      t = { s with tap := t.tap, memp := t.memp, tdo := t.tdo, freeCtr := t.freeCtr } := by
  obtain ⟨k, w, e, shown⟩ := extest_captures hv ha h hr (State.holdOff_none (s := s.frozen) ht hc) (State.openSwitches_open (s := s.frozen) ho) ha
  exact ⟨_, e, rfl, rfl, fun hp => State.shows_congr (fun l _ => (State.landLevel_captured _ k w l).symm) (shown hp), rfl⟩

/-- Every port switch opens (R45). -/
theorem extest_opensSwitches (h : s.tap ≠ .extest) (hr : s.rounds = []) (ht : s.txcsOn = []) (hc : s.noTxcCal = true) (hw : s.regsWf = true) :
    ∃ t, exec .extest s = .next t ∧ (∀ n < 16, t.bit (Reg.rxcStat n) 15 = false) ∧ t.tap = .extest ∧ t.memp = { s.memp with frozen := true } ∧
      t = { s with tap := t.tap, memp := t.memp, regs := t.regs, tdo := t.tdo, freeCtr := t.freeCtr } := by
  obtain ⟨r, j, hopen⟩ := (State.Quieter.openSwitches (s := s.frozen) hw).frame
  have silent := fun n (hn : n < 16) => State.openSwitches_silent (s := s.frozen) hw hn
  rw [hopen] at silent
  obtain ⟨k, w, e, -⟩ := extest_captures hv ha h hr (State.holdOff_none (s := s.frozen) ht hc) hopen ha
  exact ⟨_, e, silent, rfl, rfl, rfl⟩

/-- EXTEST with one illuminator `k` alone to hold off, and the switches open: it brings that illuminator to `u` and captures the lands. -/
theorem extest_holdsOne {u : State} {k : Nat} (h : s.tap ≠ .extest) (hr : s.rounds = []) (hk : k < 4)
    (idle : ∀ n < 4, n ≠ k → s.ramp n ≠ 5 ∧ s.txOn n = false) (ho : s.switchesOpen = true) (hu : s.frozen.holdOff k = u)
    (regs : s.SameRegs u [Reg.txcStat k, Reg.txcCntFast k]) (hua : u.asleep = false) :
    ∃ (j : Nat) (w : Word), exec .extest s = .next { u with freeCtr := j, tdo := w } := by
  subst hu
  have hoff := State.holdOff_one (s := s.frozen) hk idle fun n hne => State.ramp_sameRegs regs hne
  have hopen := State.openSwitches_open (State.switchesOpen_sameRegs hk regs ho)
  obtain ⟨j, w, e, -⟩ := extest_captures hv ha h hr hoff hopen hua
  exact ⟨j, w, e⟩

/-- A steady carrier ramps down fast and is counted (R45, R158). -/
theorem extest_rampsDown {k : Nat} (h : s.tap ≠ .extest) (hr : s.rounds = []) (ht : s.txcsOn = [k]) (hon : s.ramp k = 2)
    (hc : s.noTxcCal = true) (ho : s.switchesOpen = true) (hw : s.regsWf = true) :
    ∃ t, exec .extest s = .next t ∧ t.tap = .extest ∧ t.ramp k = 3 ∧ t.reg (Reg.txcCntFast k) = s.reg (Reg.txcCntFast k) + 1 ∧
      t.txc = updAt s.txc k (fun x => { x with fast := true, after := .off }) ∧
      t = { s with tap := t.tap, memp := t.memp, txc := t.txc, regs := t.regs, tdo := t.tdo, freeCtr := t.freeCtr } ∧
      s.SameRegs t [Reg.txcStat k, Reg.txcCntFast k] := by
  obtain ⟨hk, off⟩ := State.txcsOn_eq_singleton ht
  have regs := State.holdOff_on_regs (s := s.frozen) hon
  have ramp := State.holdOff_on_ramp (s := s.frozen) hw hon
  have counted := State.holdOff_on_counts (s := s.frozen) hw hon
  have held := State.holdOff_on (s := s.frozen) hon
  rw [held] at ramp counted regs
  obtain ⟨j, w, e⟩ := extest_holdsOne hv ha h hr hk (fun n hn hne => ⟨State.ramp_ne_cal hc hn, off n hn hne⟩) ho held regs ha
  exact ⟨_, e, rfl, ramp, counted, rfl, rfl, regs⟩

/-- An illuminator in calibration is held off (R45). -/
theorem extest_holdsCalibrationOff {k : Nat} (h : s.tap ≠ .extest) (hr : s.rounds = []) (ht : s.txcsOn = []) (hcal : s.ramp k = 5) (hk : k < 4)
    (hc : (List.range 4).all (fun n => n == k || s.ramp n != 5) = true) (ho : s.switchesOpen = true) (hw : s.regsWf = true) :
    ∃ t, exec .extest s = .next t ∧ t.tap = .extest ∧ t.ramp k = 0 ∧ t.txc = updAt s.txc k (fun x => { x with calibrating := false }) ∧
      t.memp = { s.memp with frozen := true } ∧
      t = { s with tap := t.tap, memp := t.memp, txc := t.txc, regs := t.regs, tdo := t.tdo, freeCtr := t.freeCtr } ∧
      s.SameRegs t [Reg.txcStat k] := by
  have notCal : ∀ n < 4, n ≠ k → s.ramp n ≠ 5 := fun n hn hne =>
    bne_iff_ne.mp ((Bool.or_eq_true_iff.mp (List.all_eq_true.mp hc n (List.mem_range.mpr hn))).resolve_left fun e => hne (beq_iff_eq.mp e))
  have regs := State.holdOff_cal_regs (s := s.frozen) hcal
  have held := State.holdOff_cal (s := s.frozen) hcal
  rw [held] at regs
  obtain ⟨j, w, e⟩ := extest_holdsOne hv ha h hr hk (fun n hn hne => ⟨notCal n hn hne, State.txOn_of_txcsOn_nil ht hn⟩) ho held
    (fun a hna => regs a fun hm => hna (List.mem_cons.mpr (.inl (List.mem_singleton.mp hm)))) ha
  exact ⟨_, e, rfl, State.fld_setFld_same (s := s.frozen) hw _ _ _ _ (by decide), rfl, rfl, rfl, regs⟩

theorem leaveExtest_resets (h : s.tap = .extest) (ht : s.txcsOn = []) (hr : s.resets = []) :
    ∃ t, exec .leaveExtest s = .next t ∧ t.tap = .reset ∧ t.resets = [.tap] ∧ t = { s with tap := t.tap, resets := t.resets } :=
  ⟨_, by rw [exec_leaveExtest hv ha h, State.setTap_leaves h ht hr (by decide)], rfl, rfl, rfl⟩

/-- Another instruction leaves EXTEST as LEAVE_EXTEST does, and its data come out (R45). -/
theorem idcode_resets (h : s.tap = .extest) (ht : s.txcsOn = []) (hr : s.resets = []) :
    ∃ t, exec .idcode s = .next t ∧ t.resets = [.tap] ∧ (t.tap = .idcode ∧ t.tdo = if s.phase = .held then s.tdo else 0x16480A3B) ∧
      t = { s with tap := t.tap, resets := t.resets, tdo := t.tdo } :=
  ⟨_, by rw [exec_idcode hv ha, State.setTap_leaves h ht hr (by decide), State.shiftOut_awake (s := { s with tap := .idcode, resets := [.tap] }) ha],
    rfl, ⟨rfl, rfl⟩, rfl⟩

/-- EXTEST given again captures the lands and loads the register (log entry 14). -/
theorem extest_again_captures (h : s.tap = .extest) :
    ∃ t, exec .extest s = .next t ∧ (s.phase = .held → t.tdo = s.tdo) ∧ (s.phase ≠ .held → s.shows t.tdo) ∧
      t = { s with tdo := t.tdo, bscan := t.bscan, freeCtr := t.freeCtr } := by
  obtain ⟨k, w, b, e, held, shown⟩ := State.scanLands_loads ha
  exact ⟨_, by rw [exec_extest_again hv ha h, e], held, shown, rfl⟩

end

/-- Settles O30: a capture shows every level that something known fixes, EXTEST leaves the illuminators and the switches that are at rest and stops the
others, and leaving EXTEST triggers a reset. -/
theorem testAccessPort : Obligations.TestAccessPort :=
  ⟨fun _ hv ha h => bypass_outside hv ha h, fun _ hv ha h => idcode_outside hv ha h, fun _ hv ha h _ => samplePreload_captures hv ha h,
    fun _ hv ha h hr ht hc ho _ => extest_quiet hv ha h hr ht hc ho, fun _ hv ha h hr ht hc hw => extest_opensSwitches hv ha h hr ht hc hw,
    fun _ _ hv ha h hr ht hon hc ho hw => extest_rampsDown hv ha h hr ht hon hc ho hw,
    fun _ _ hv ha h hr ht hcal hk hc ho hw => extest_holdsCalibrationOff hv ha h hr ht hcal hk hc ho hw,
    fun _ hv ha h ht hr _ => leaveExtest_resets hv ha h ht hr, fun _ hv ha h ht hr _ => idcode_resets hv ha h ht hr,
    fun _ hv ha h _ => extest_again_captures hv ha h⟩

end Sys2Proof.Machine
end

section
/-! PROOFS. The end of QUIESCE (05_power_states.md, R98 to R107): the result word of a WAIT frame, the record of an abort, and COMMIT. -/
namespace Sys2Proof.Machine

/-! ## Steps that write registers alone -/

/-- From `s` to `t` only registers of the list have changed, and a register file in canonical form stays so. -/
structure State.Writes (s t : State) (l : List Nat) : Prop where
  frame : ∃ rg, t = { s with regs := rg }
  same  : s.SameRegs t l
  wf    : s.regsWf = true → t.regsWf = true

theorem State.Writes.refl (s : State) : s.Writes s [] := ⟨⟨s.regs, rfl⟩, fun _ _ => rfl, id⟩

theorem State.Writes.setReg (s : State) (a : Nat) (w : Word) : s.Writes (s.setReg a w) [a] :=
  ⟨⟨_, rfl⟩, fun _ hb => s.reg_setReg_other w (List.ne_of_not_mem_cons hb), fun h => State.regsWf_setReg h a w⟩

theorem State.SameRegs.trans {s t u : State} {l m : List Nat} (h₁ : s.SameRegs t l) (h₂ : t.SameRegs u m) :
    s.SameRegs u (l ++ m) := fun a ha => by
  obtain ⟨hl, hm⟩ := not_or.mp (mt List.mem_append.mpr ha)
  exact (h₂ a hm).trans (h₁ a hl)

theorem State.Writes.trans {s t u : State} {l m : List Nat} (h₁ : s.Writes t l) (h₂ : t.Writes u m) : s.Writes u (l ++ m) := by
  obtain ⟨_, rfl⟩ := h₁.frame
  exact ⟨h₂.frame, h₁.same.trans h₂.same, fun hw => h₂.wf (h₁.wf hw)⟩

theorem State.SameRegs.mono {s t : State} {l m : List Nat} (h : s.SameRegs t l) (hm : l ⊆ m) : s.SameRegs t m :=
  fun a ha => h a fun hl => ha (hm hl)

theorem State.Writes.mono {s t : State} {l m : List Nat} (h : s.Writes t l) (hm : l ⊆ m) : s.Writes t m := ⟨h.frame, h.same.mono hm, h.wf⟩

/-- A write under a condition. -/
theorem State.Writes.ite {s t : State} {l : List Nat} {p : Prop} [Decidable p] (h : s.Writes t l) : s.Writes (if p then t else s) l := by
  split
  · exact h
  · exact (State.Writes.refl s).mono (List.nil_subset _)

/-- An event-log entry changes the log and the registers that show it (R414, R416). -/
theorem State.logEvent_writes (s : State) (source code : Nat) (detail : Word) :
    ∃ m, ({ s with mgmt := m } : State).Writes (s.logEvent source code detail) logRegs :=
  ⟨_, (((State.Writes.ite (.setReg _ _ _)).trans (.setReg _ _ _)).trans (State.Writes.ite (.setReg _ _ _))).mono (by decide)⟩

/-! ## The result word of a WAIT frame (R98, R99) -/

/-- The WAIT frame `f` waits for its result word: the host takes one word, without a trailer, and no posted write holds it back. -/
structure State.AwaitsResult (s : State) (f : Frame) : Prop where
  frame  : s.hp.frame = some f
  kind   : f.kind = some .wait
  held   : f.phase = .held .wait
  reach  : f.reach = .data 1 0 false
  bare   : s.bit Reg.hpCtrl 0 = false
  posted : s.wrPend = false

/-- The frame `f` has sent its start token and the word `w`. -/
def State.answered (s : State) (f : Frame) (w : Word) : State :=
  { s with hp := { s.hp with frame := some { f with out := [w], phase := .data, token := .start } } }

/-- What a frame waits for shows in the host port, its control register and the tag function. -/
theorem State.AwaitsResult.congr {s t : State} {f : Frame} (h : s.AwaitsResult f) (hp : t.hp = s.hp) (tag : t.tag = s.tag)
    (ctrl : t.reg Reg.hpCtrl = s.reg Reg.hpCtrl) : t.AwaitsResult f :=
  { h with
    frame := hp ▸ h.frame
    bare := (congrArg (bitN · 0) ctrl).trans h.bare
    posted := by rw [State.wrPend, hp, tag]; exact h.posted }

/-- A WAIT frame with its result word waits for earlier writes only (R118). -/
theorem State.holdOf_wait {s : State} {f : Frame} (kind : f.kind = some .wait) (out : f.out ≠ []) (posted : s.wrPend = false) :
    s.holdOf f = none := by
  simp only [State.holdOf, Frame.inHp, kind, posted, List.isEmpty_iff, out, Bool.false_eq_true, if_false]

/-- A read frame that nothing holds any more is served (R118). -/
theorem State.serveFrame_free {s : State} {f : Frame} {h : Hold} {n b : Nat} {t : Bool} (frame : s.hp.frame = some f) (held : f.phase = .held h)
    (free : s.holdOf f = none) (reach : f.reach = .data n b t) : s.serveFrame = s.startData := by
  simp only [State.serveFrame, frame, held, free, reach]

/-- The data phase of a WAIT frame of which the host takes one word sends the result word alone (R120). -/
theorem State.startData_wait {s : State} {f : Frame} {w : Word} (frame : s.hp.frame = some f) (kind : f.kind = some .wait) (out : f.out = [w])
    (reach : f.reach = .data 1 0 false) (bare : s.trailerOn = false) : s.startData = s.answered f w := by
  have off : ∀ g, ({ s with hp := { s.hp with frame := g } } : State).trailerOn = false := fun _ => bare
  simp only [State.startData, frame, kind, reach, out, bare, off, State.framedWords, State.serveWords, State.clocksTrailer, State.answered,
    List.length_cons, List.length_nil, List.append_nil, Nat.zero_add, Nat.sub_self, Nat.lt_irrefl, Nat.le_refl, decide_true, Bool.false_and,
    Bool.and_false, Bool.false_eq_true, if_false]

/-- A WAIT frame that waits is answered with its result word. -/
theorem State.answerWait_awaits {s : State} {f : Frame} (h : s.AwaitsResult f) (w : Word) : s.answerWait w = s.answered f w := by
  obtain ⟨frame, kind, held, reach, bare, posted⟩ := h
  calc s.answerWait w
      = ({ s with hp := { s.hp with frame := some { f with out := [w] } } } : State).serveFrame := by
        rw [State.answerWait, frame]
        exact if_pos kind
    _ = ({ s with hp := { s.hp with frame := some { f with out := [w] } } } : State).startData :=
        State.serveFrame_free (f := { f with out := [w] }) rfl held (State.holdOf_wait kind (List.cons_ne_nil _ _) posted) reach
    _ = s.answered f w := State.startData_wait (f := { f with out := [w] }) rfl kind rfl reach bare

/-! ## An abort (R100, R102, R104) -/

/-- The counters of the refusers are registers of their own. -/
theorem pwrRefuseCnt_ne_pwrLastRefuser (r : Refuser) : Reg.pwrRefuseCnt (refuserId r - 1) ≠ Reg.pwrLastRefuser := by cases r <;> decide

theorem pwrRefuseCnt_not_mem_logRegs (r : Refuser) : Reg.pwrRefuseCnt (refuserId r - 1) ∉ logRegs := by cases r <;> decide

section
variable {s : State} (r : Refuser) (q : Bool) (t : Target)

theorem State.noteRefusal_writes (s : State) :
    s.Writes (s.noteRefusal r q t) [Reg.pwrRefuseCnt (refuserId r - 1), Reg.pwrLastRefuser] :=
  (State.Writes.setReg s _ _).trans (.setReg _ _ _)

theorem State.noteRefusal_last (h : s.regsWf = true) : (s.noteRefusal r q t).reg Reg.pwrLastRefuser =
    wordOf ((if r = .mgmtVeto then s.vetoReason t else 0) * 65536 + t.code * 4096 + cond q 256 0 + refuserId r) :=
  State.reg_setReg_same (State.regsWf_setReg h _ _) _ _

theorem State.noteRefusal_counts (h : s.regsWf = true) : (s.noteRefusal r q t).reg (Reg.pwrRefuseCnt (refuserId r - 1)) =
    setFieldN (s.reg (Reg.pwrRefuseCnt (refuserId r - 1))) 0 16 (min 65535 (s.fld (Reg.pwrRefuseCnt (refuserId r - 1)) 0 16 + 1)) := by
  rw [Nat.min_comm]
  exact (State.reg_setReg_other _ _ (pwrRefuseCnt_ne_pwrLastRefuser r)).trans (State.reg_setReg_same h _ _)

end

/-- What an abort records: the refuser in the registers, and the entry in the event log (R104, R415). -/
def State.recordAbort (s : State) (r : Refuser) (t : Target) : State :=
  (s.noteRefusal r true t).logEvent 0x0F 1 ((s.noteRefusal r true t).reg Reg.pwrLastRefuser)

/-- The module is ACTIVE again after the entry of `s` into `tg` aborted with the refuser `r`, and `f` has the result word. -/
def State.AbortedTo (s t : State) (r : Refuser) (tg : Target) (f : Frame) : Prop :=
  t.phase = .active ∧
  t.reg Reg.pwrLastRefuser = wordOf ((if r = .mgmtVeto then s.vetoReason tg else 0) * 65536 + tg.code * 4096 + 256 + refuserId r) ∧
  t.reg (Reg.pwrRefuseCnt (refuserId r - 1)) =
    setFieldN (s.reg (Reg.pwrRefuseCnt (refuserId r - 1))) 0 16 (min 65535 (s.fld (Reg.pwrRefuseCnt (refuserId r - 1)) 0 16 + 1)) ∧
  t.hp = { s.hp with frame := some { f with out := [refusalWord r true tg], phase := .data, token := .start } } ∧
  t = { s with phase := t.phase, regs := t.regs, hp := t.hp, mgmt := t.mgmt } ∧
  s.SameRegs t [Reg.pwrLastRefuser, Reg.pwrRefuseCnt (refuserId r - 1), Reg.mgmtLogHead, Reg.mgmtLogLost, Reg.sysIrqPend]

/-- The registers that an abort writes (R104, R415). -/
def abortRegs (r : Refuser) : List Nat :=
  [Reg.pwrLastRefuser, Reg.pwrRefuseCnt (refuserId r - 1), Reg.mgmtLogHead, Reg.mgmtLogLost, Reg.sysIrqPend]

theorem hpCtrl_not_mem_abortRegs (r : Refuser) : Reg.hpCtrl ∉ abortRegs r := by cases r <;> decide

section
variable {s : State} (r : Refuser) (t : Target)

theorem State.recordAbort_frame : ∃ rg m, s.recordAbort r t = { s with regs := rg, mgmt := m } := by
  obtain ⟨rg, noted⟩ := (State.noteRefusal_writes r true t s).frame
  obtain ⟨m, logged⟩ := (s.noteRefusal r true t).logEvent_writes 0x0F 1 ((s.noteRefusal r true t).reg Reg.pwrLastRefuser)
  obtain ⟨rg', e⟩ := logged.frame
  exact ⟨rg', m, e.trans (by rw [noted])⟩

/-- The entry in the event log leaves the registers that it is not shown in. -/
theorem State.recordAbort_sameRegs_noted : (s.noteRefusal r true t).SameRegs (s.recordAbort r t) logRegs := by
  obtain ⟨m, logged⟩ := (s.noteRefusal r true t).logEvent_writes 0x0F 1 ((s.noteRefusal r true t).reg Reg.pwrLastRefuser)
  exact logged.same

theorem State.recordAbort_sameRegs : s.SameRegs (s.recordAbort r t) (abortRegs r) := fun a ha => by
  refine (State.recordAbort_sameRegs_noted r t a fun h => ha ?_).trans ((State.noteRefusal_writes r true t s).same a fun h => ha ?_)
  · exact List.mem_cons_of_mem _ (List.mem_cons_of_mem _ h)
  · exact List.mem_append_left logRegs ((List.Perm.swap _ _ []).subset h)

theorem State.AwaitsResult.recordAbort {f : Frame} (h : s.AwaitsResult f) : (s.recordAbort r t).AwaitsResult f := by
  have ctrl : (s.recordAbort r t).reg Reg.hpCtrl = s.reg Reg.hpCtrl :=
    State.recordAbort_sameRegs r t _ (hpCtrl_not_mem_abortRegs r)
  obtain ⟨rg, m, e⟩ := s.recordAbort_frame r t
  rw [e] at ctrl ⊢
  exact h.congr rfl rfl ctrl

/-- An abort records its refuser, answers the WAIT frame and leaves the rest. -/
theorem State.abortEntry_aborts {f : Frame} (h : s.AwaitsResult f) (hw : s.regsWf = true) : s.AbortedTo (s.abortEntry r t) r t f := by
  have e : s.abortEntry r t = ({ s.recordAbort r t with phase := .active } : State).answered f (refusalWord r true t) :=
    State.answerWait_awaits (s := { s.recordAbort r t with phase := .active }) ((h.recordAbort r t).congr rfl rfl rfl) _
  have noted := s.recordAbort_sameRegs_noted r t
  have last := (noted Reg.pwrLastRefuser (by decide)).trans (State.noteRefusal_last r true t hw)
  have counted := (noted _ (pwrRefuseCnt_not_mem_logRegs r)).trans (State.noteRefusal_counts r true t hw)
  have same := s.recordAbort_sameRegs r t
  obtain ⟨rg, m, frame⟩ := s.recordAbort_frame r t
  rw [e]
  rw [frame] at last counted same ⊢
  exact ⟨rfl, last, counted, rfl, rfl, same⟩

end

/-! ## COMMIT (R98, R104, R105, R107) -/

/-- DOZE and DORMANT switch the core off. -/
def Target.deep (t : Target) : Bool := t == .doze || t == .dormant

/-- The packets that a FIFO loses when COMMIT empties it. -/
def State.lostPkts (s : State) (t : Target) : Nat := if t.deep then satN 16 s.fifo.pkts else 0

/-- COMMIT clears the wake record and notes the time and the lost packets. -/
def State.recordSleep (s : State) (t : Target) : State :=
  ((s.setReg Reg.pwrWakeCause 0).setReg Reg.pwrSleepAt (s.reg Reg.pwrAoTime)).setFld Reg.pwrWakeRec 16 16 (s.lostPkts t)

/-- Except into DORMANT, the ports out of service are left out of the sweeps of the stay (R355). -/
def State.copySkip (s : State) (t : Target) : State :=
  if t = .dormant then s else (s.setReg (Reg.pingSkip 0) (s.portOosWord 0)).setReg (Reg.pingSkip 1) (s.portOosWord 1)

/-- The FIFO without its packets. -/
def Fifo.discarded (q : Fifo) : Fifo := { q with packets := [], head := [], building := none, setAside := 0, asideFor := 0 }

/-- The FIFO from COMMIT on: emptied if the core goes off. -/
def Fifo.atCommit (q : Fifo) (t : Target) : Fifo := if t.deep then q.discarded else q

/-- A commit that switches the core off discards the packets (R104). -/
def State.dropPackets (s : State) (t : Target) : State :=
  if t.deep then { s with fifo := s.fifo.discarded } else s

/-- From COMMIT on wakes are latched anew, and no sweep of before runs (R107). -/
def State.armed (s : State) (t : Target) : State :=
  { s with phase := .committed t, wakes := [], wakeAt := none, ping := { s.ping with sweep := none } }

/-- COMMIT but for the result word and what follows it. -/
def State.committing (s : State) (t : Target) : State := (((s.recordSleep t).dropPackets t).copySkip t).armed t

/-- The registers that COMMIT writes. -/
def commitRegs : List Nat := [Reg.pwrWakeCause, Reg.pwrSleepAt, Reg.pwrWakeRec, Reg.pingSkip 0, Reg.pingSkip 1]

section
variable {s : State} (t : Target)

theorem State.recordSleep_writes : s.Writes (s.recordSleep t) [Reg.pwrWakeCause, Reg.pwrSleepAt, Reg.pwrWakeRec] :=
  ((State.Writes.setReg s _ _).trans (.setReg _ _ _)).trans (.setReg _ _ _)

theorem State.copySkip_writes : s.Writes (s.copySkip t) [Reg.pingSkip 0, Reg.pingSkip 1] := by
  unfold State.copySkip
  split
  · exact (State.Writes.refl s).mono (List.nil_subset _)
  · exact (State.Writes.setReg s _ _).trans (.setReg _ _ _)

/-- Which ports are out of service does not show in the FIFO. -/
theorem State.dropPackets_copySkip : (s.dropPackets t).copySkip t = { s.copySkip t with fifo := s.fifo.atCommit t } := by
  cases t <;> rfl

theorem State.recordSleep_copySkip_writes : s.Writes ((s.recordSleep t).copySkip t) commitRegs :=
  (State.recordSleep_writes t).trans (State.copySkip_writes t)

theorem State.committing_regs : (s.committing t).regs = ((s.recordSleep t).copySkip t).regs := by
  rw [State.committing, State.dropPackets_copySkip]; rfl

theorem State.committing_reg (a : Nat) : (s.committing t).reg a = ((s.recordSleep t).copySkip t).reg a :=
  State.reg_congr (State.committing_regs t) a

/-- COMMIT writes its registers and no other. -/
theorem State.committing_sameRegs : s.SameRegs (s.committing t) commitRegs := fun a ha =>
  (State.committing_reg t a).trans ((State.recordSleep_copySkip_writes t).same a ha)

theorem State.committing_wf (h : s.regsWf = true) : (s.committing t).regsWf = true :=
  (congrArg (swf _) (State.committing_regs t)).trans ((State.recordSleep_copySkip_writes t).wf h)

theorem State.committing_frame : ∃ rg, s.committing t =
    { s with phase := .committed t, wakes := [], wakeAt := none, regs := rg, fifo := s.fifo.atCommit t, ping := { s.ping with sweep := none } } := by
  obtain ⟨rg, e⟩ := (State.recordSleep_copySkip_writes (s := s) t).frame
  exact ⟨rg, by rw [State.committing, State.dropPackets_copySkip, e]; rfl⟩

theorem State.committing_wakeCause (h : s.regsWf = true) : (s.committing t).reg Reg.pwrWakeCause = 0 := by
  rw [State.committing_reg, (State.copySkip_writes t).same _ (by decide), State.recordSleep, State.reg_setFld_other _ _ _ _ (by decide),
    State.reg_setReg_other _ _ (by decide), State.reg_setReg_same h]

theorem State.committing_sleepAt (h : s.regsWf = true) : (s.committing t).reg Reg.pwrSleepAt = s.reg Reg.pwrAoTime := by
  rw [State.committing_reg, (State.copySkip_writes t).same _ (by decide), State.recordSleep, State.reg_setFld_other _ _ _ _ (by decide),
    State.reg_setReg_same (State.regsWf_setReg h _ _)]

theorem State.committing_fifoLost (h : s.regsWf = true) : (s.committing t).fld Reg.pwrWakeRec 16 16 = s.lostPkts t % 2 ^ 16 := by
  rw [State.fld, State.committing_reg, (State.copySkip_writes t).same _ (by decide)]
  exact State.fld_setFld_same (State.regsWf_setReg (State.regsWf_setReg h _ _) _ _) _ _ _ _ (by decide)

/-- The parts of COMMIT: what it records and empties, the result word, and a wake source that holds as a level (R105). -/
theorem State.commitEntry_eq : s.commitEntry t =
    (let c := (s.committing t).answerWait (wordOf t.code)
     let c := if c.reg Reg.pwrWakeTimer = 0 then c.wake 1 else c
     let c := if c.lands.wakeLow = some 10 then c.wake 0 else c
     if t = .idle then c.gateClocks else c) := rfl

theorem State.AwaitsResult.committing {f : Frame} (h : s.AwaitsResult f) : (s.committing t).AwaitsResult f := by
  have ctrl := State.committing_sameRegs (s := s) t Reg.hpCtrl (by decide)
  obtain ⟨rg, e⟩ := State.committing_frame (s := s) t
  rw [e] at ctrl ⊢
  exact h.congr rfl rfl ctrl

/-- With no wake source at its level, COMMIT answers the WAIT frame; into IDLE it gates the clocks then. -/
theorem State.commitEntry_unwoken {f : Frame} (h : s.AwaitsResult f) (timer : s.reg Reg.pwrWakeTimer ≠ 0) (low : s.lands.wakeLow ≠ some 10) :
    s.commitEntry t =
      if t = .idle then ((s.committing t).answered f (wordOf t.code)).gateClocks else (s.committing t).answered f (wordOf t.code) := by
  have timer' : ((s.committing t).answered f (wordOf t.code)).reg Reg.pwrWakeTimer ≠ 0 := fun e =>
    timer ((State.committing_sameRegs t _ (by decide)).symm.trans e)
  have low' : ((s.committing t).answered f (wordOf t.code)).lands.wakeLow ≠ some 10 := by
    obtain ⟨rg, e⟩ := State.committing_frame (s := s) t
    rw [e]
    exact low
  rw [State.commitEntry_eq, State.answerWait_awaits (h.committing t)]
  simp only [if_neg timer', if_neg low']

end

/-! ## The clocks stop in IDLE (R95, R98) -/

/-- Another bit of the register written is unchanged. -/
theorem State.bit_setBit_beside {s : State} (h : s.regsWf = true) (a : Nat) {b c : Nat} (v : Bool) (hb : b < 32) (d : c ≠ b) :
    (s.setBit a b v).bit a c = s.bit a c := by
  rw [State.bit, State.setBit, State.reg_setReg_same h, bitN_setBitN_other _ _ hb d, State.bit]

/-- CORE and MGMT are gated, and PWR_MODE shows IDLE. -/
def State.showIdle (s : State) : State := ((s.setBit Reg.sysClkstat 3 false).setBit Reg.sysClkstat 4 false).setFld Reg.pwrMode 8 2 1

section
variable {s : State}

/-- With no wake latched IDLE is entered. -/
theorem State.gateClocks_unwoken (h : s.wakes = []) : s.gateClocks = { s.showIdle with phase := .idle } :=
  if_pos (List.isEmpty_iff.mpr h)

theorem State.showIdle_writes : s.Writes s.showIdle [Reg.sysClkstat, Reg.pwrMode] :=
  (((State.Writes.setReg s _ _).trans (.setReg _ _ _)).trans (.setReg _ _ _)).mono (by decide)

theorem State.showIdle_core (h : s.regsWf = true) : s.showIdle.bit Reg.sysClkstat 3 = false := by
  have beside := State.bit_setBit_beside (State.regsWf_setReg h Reg.sysClkstat (setBitN (s.reg Reg.sysClkstat) 3 false)) Reg.sysClkstat false
    (b := 4) (c := 3) (by decide) (by decide)
  rw [State.bit, State.showIdle, State.reg_setFld_other _ _ _ _ (by decide)]
  exact beside.trans (State.bit_setBit_same h _ _ _ (by decide))

theorem State.showIdle_mgmt (h : s.regsWf = true) : s.showIdle.bit Reg.sysClkstat 4 = false := by
  rw [State.bit, State.showIdle, State.reg_setFld_other _ _ _ _ (by decide)]
  exact State.bit_setBit_same (State.regsWf_setReg h _ _) _ _ _ (by decide)

theorem State.showIdle_mode (h : s.regsWf = true) : s.showIdle.fld Reg.pwrMode 8 2 = 1 :=
  State.fld_setFld_same (State.regsWf_setReg (State.regsWf_setReg h _ _) _ _) _ _ _ _ (by decide)

end

/-! ## What each event does, clause by clause of O25 -/

section
variable {s : State} {tg : Target} (hq : s.phase = .quiesce tg)
include hq

/-- The entry commits once all is drained and nothing refuses (R98, R416). -/
theorem exec_quiesceEnd (feed : s.feedPending = false) (port : s.mempBusy = false) (log : s.mgmt.unsaved = 0)
    (calm : allRefusers.find? (s.aborts tg) = none) : exec .quiesceEnd s = .next (s.commitEntry tg) := by
  change execQuiesceEnd s = _
  simp only [execQuiesceEnd, hq, feed, port, log, calm, Bool.not_false, beq_self_eq_true, Bool.and_self, Option.isNone_none, if_true]

/-- The event of one refuser aborts with the first that holds, the two with a time limit only as the one that the event names (R102). -/
theorem exec_quiesceAbort {refuser r : Refuser} (holds : s.aborts tg refuser = true)
    (named : allRefusers.find? (fun x => s.aborts tg x && (x == refuser || !(x == .tallyFeedPending || x == .mpQueueBusy))) = some r) :
    exec (.quiesceAbort refuser) s = .next (s.abortEntry r tg) := by
  change execQuiesceAbort refuser s = _
  simp only [execQuiesceAbort, hq, holds, named, Bool.not_true, Bool.false_eq_true, if_false]

theorem exec_quiesceTimeout {r : Refuser} (named : allRefusers.find? (s.aborts tg) = some r) :
    exec .quiesceTimeout s = .next (s.abortEntry r tg) := by
  change execQuiesceTimeout s = _
  simp only [execQuiesceTimeout, hq, named]

theorem exec_tallyFeedPending (feed : s.feedPending = true) : exec .tallyFeedPending s = .next (s.abortEntry .tallyFeedPending tg) := by
  change execTallyFeedPending s = _
  simp only [execTallyFeedPending, hq, show s.aborts tg .tallyFeedPending = true from feed, if_true]

end

section
variable {s : State} {tg : Target} {f : Frame} (h : s.AwaitsResult f) (timer : s.reg Reg.pwrWakeTimer ≠ 0)
  (low : s.lands.wakeLow ≠ some 10) (hw : s.regsWf = true)
include h timer low hw

/-- A commit into DOZE or DORMANT discards the FIFO and counts its packets (R98, R104). -/
theorem State.commitEntry_deep (deep : tg = .doze ∨ tg = .dormant) {t : State} (ht : s.commitEntry tg = t) :
    t.phase = .committed tg ∧ t.wakes = [] ∧ t.wakeAt = none ∧ t.reg Reg.pwrWakeCause = 0 ∧ t.reg Reg.pwrSleepAt = s.reg Reg.pwrAoTime ∧
      t.fld Reg.pwrWakeRec 16 16 = min 65535 s.fifo.packets.length ∧
      t.fifo = { s.fifo with packets := [], head := [], building := none, setAside := 0, asideFor := 0 } ∧
      t.hp = { s.hp with frame := some { f with out := [wordOf tg.code], phase := .data, token := .start } } ∧
      t.ping = { s.ping with sweep := none } ∧
      t = { s with phase := t.phase, wakes := t.wakes, wakeAt := t.wakeAt, regs := t.regs, fifo := t.fifo, hp := t.hp, ping := t.ping } ∧
      s.SameRegs t [Reg.pwrWakeCause, Reg.pwrSleepAt, Reg.pwrWakeRec, Reg.pingSkip 0, Reg.pingSkip 1] := by
  have isDeep : tg.deep = true := by rcases deep with rfl | rfl <;> rfl
  have notIdle : tg ≠ .idle := by rcases deep with rfl | rfl <;> decide
  have cause := State.committing_wakeCause tg hw
  have slept := State.committing_sleepAt tg hw
  have lost := State.committing_fifoLost tg hw
  have same := State.committing_sameRegs (s := s) tg
  have count : s.lostPkts tg % 2 ^ 16 = min 65535 s.fifo.packets.length := by
    rw [State.lostPkts, if_pos isDeep, satN, Fifo.pkts]
    omega
  obtain ⟨rg, frame⟩ := State.committing_frame (s := s) tg
  rw [Fifo.atCommit, if_pos isDeep] at frame
  rw [State.commitEntry_unwoken tg h timer low, if_neg notIdle, frame] at ht
  rw [frame] at cause slept lost same
  subst ht
  exact ⟨rfl, rfl, rfl, cause, slept, lost.trans count, rfl, rfl, rfl, rfl, same⟩

/-- A commit into IDLE stops the clocks of CORE and MGMT at once (R98). -/
theorem State.commitEntry_idle {t : State} (ht : s.commitEntry .idle = t) :
    t.phase = .idle ∧ t.bit Reg.sysClkstat 3 = false ∧ t.bit Reg.sysClkstat 4 = false ∧ t.fld Reg.pwrMode 8 2 = 1 ∧
      t.reg Reg.pwrWakeCause = 0 ∧ t.hp.frame = some { f with out := [wordOf Target.idle.code], phase := .data, token := .start } ∧
      t.fifo = s.fifo ∧ t.ping = { s.ping with sweep := none } ∧
      t = { s with phase := t.phase, wakes := t.wakes, wakeAt := t.wakeAt, regs := t.regs, hp := t.hp, ping := t.ping } ∧
      s.SameRegs t [Reg.pwrWakeCause, Reg.pwrSleepAt, Reg.pwrWakeRec, Reg.pwrMode, Reg.sysClkstat, Reg.pingSkip 0, Reg.pingSkip 1] := by
  have wf : ((s.committing .idle).answered f (wordOf Target.idle.code)).regsWf = true := State.committing_wf .idle hw
  have core := State.showIdle_core wf
  have mgmt := State.showIdle_mgmt wf
  have mode := State.showIdle_mode wf
  have gated := State.showIdle_writes (s := (s.committing .idle).answered f (wordOf Target.idle.code))
  have cause := (gated.same Reg.pwrWakeCause (by decide)).trans (State.committing_wakeCause .idle hw)
  have same := (State.SameRegs.trans (State.committing_sameRegs .idle) gated.same).mono
    (m := [Reg.pwrWakeCause, Reg.pwrSleepAt, Reg.pwrWakeRec, Reg.pwrMode, Reg.sysClkstat, Reg.pingSkip 0, Reg.pingSkip 1]) (by decide)
  obtain ⟨rg, shown⟩ := gated.frame
  obtain ⟨_, frame⟩ := State.committing_frame (s := s) .idle
  rw [State.commitEntry_unwoken .idle h timer low, if_pos rfl, State.gateClocks_unwoken (by rw [frame]; rfl)] at ht
  rw [shown, frame] at ht core mgmt mode cause same
  subst ht
  exact ⟨rfl, core, mgmt, mode, cause, rfl, rfl, rfl, rfl, same⟩

end

/-- Settles O25: an entry that nothing refuses is committed and answered, and one that a refuser stops is recorded, answered and left. -/
theorem entryCommitsOrAborts : Obligations.EntryCommitsOrAborts :=
  ⟨fun _ _ _ hq hf hk hh hr hb hp deep feed port log calm timer low hw =>
      ⟨_, exec_quiesceEnd hq feed port log calm, State.commitEntry_deep ⟨hf, hk, hh, hr, hb, hp⟩ timer low hw deep rfl⟩,
    fun _ _ _ hq hf hk hh hr hb hp idle feed port log calm timer low hw => by
      subst idle
      exact ⟨_, exec_quiesceEnd hq feed port log calm, State.commitEntry_idle ⟨hf, hk, hh, hr, hb, hp⟩ timer low hw rfl⟩,
    fun _ _ r tg _ hq hf hk hh hr hb hp holds named hw =>
      ⟨_, exec_quiesceAbort hq holds named, State.abortEntry_aborts r tg ⟨hf, hk, hh, hr, hb, hp⟩ hw⟩,
    fun _ r tg _ hq hf hk hh hr hb hp named hw =>
      ⟨_, exec_quiesceTimeout hq named, State.abortEntry_aborts r tg ⟨hf, hk, hh, hr, hb, hp⟩ hw⟩,
    fun _ tg _ hq hf hk hh hr hb hp feed hw =>
      ⟨_, exec_tallyFeedPending hq feed, State.abortEntry_aborts .tallyFeedPending tg ⟨hf, hk, hh, hr, hb, hp⟩ hw⟩⟩

end Sys2Proof.Machine
end

section
/-! PROOFS. The read frames of the host port (06_host_port.md, R116 to R128): how a frame that nothing holds is served, the words of each kind, and
the trailer after them. -/
namespace Sys2Proof.Machine

/-! ## A frame is opened, counted and served (R116, R118) -/

/-- The data phase is the module's (R115). -/
def FrameKind.reads : FrameKind → Bool
  | .wr _ _ _ => false
  | _ => true

/-- A frame of kind `k` of which the host clocks `n` words and `b` bits more, and the trailer if `t`, as its response phase begins. -/
def readFrame (k : FrameKind) (n b : Nat) (t : Bool) : Frame := Frame.open_ k.opcode (some k) (.data n b t) .response

/-- The frame `f` has begun and is counted (R112, R130). -/
def State.opened (s : State) (f : Frame) : State := { s.cnt Reg.hpFrames with hp := { s.hp with frame := some f } }

/-- The module has sent the start token of `f` and the words `ws`. -/
def State.sent (u : State) (f : Frame) (ws : List Word) : State :=
  { u with hp := { u.hp with frame := some { f with phase := .data, token := .start, out := ws } } }

/-- What `frameReady` says, part by part. -/
theorem State.frameReady_iff {s : State} : s.frameReady = true ↔ s.phase = .active ∧ s.hostUp = true ∧ s.hp.frame = none ∧
    s.wrPend = false ∧ s.regsWf = true ∧ s.sameCycle = false := by
  simp only [State.frameReady, Bool.and_eq_true, decide_eq_true_eq, Bool.not_eq_true', Option.isNone_iff_eq_none, and_assoc]

theorem State.frameCan_iff {s : State} : s.frameCan = true ↔ s.frameReady = true ∧ s.trailerOn = false := by
  simp only [State.frameCan, Bool.and_eq_true, Bool.not_eq_true', State.trailerOn]

/-- What a frame without a trailer needs of `frameCan`. -/
theorem State.frameCan_parts {s : State} (can : s.frameCan = true) : s.frameReady = true ∧ s.trailerOn = false ∧ s.wrPend = false := by
  obtain ⟨ready, bare⟩ := State.frameCan_iff.mp can
  obtain ⟨-, -, -, posted, -, -⟩ := State.frameReady_iff.mp ready
  exact ⟨ready, bare, posted⟩

/-- Of the registers, HP_CTRL alone tells how many words a frame has and whether its trailer is clocked out (R120). -/
theorem State.trailerOn_congr {s u : State} (ctrl : u.reg Reg.hpCtrl = s.reg Reg.hpCtrl) : u.trailerOn = s.trailerOn := congrArg (bitN · 0) ctrl

theorem State.burstWords_congr {s u : State} (ctrl : u.reg Reg.hpCtrl = s.reg Reg.hpCtrl) : u.burstWords = s.burstWords :=
  congrArg (fieldN · 8 8 + 1) ctrl

theorem State.framedWords_congr {s u : State} (ctrl : u.reg Reg.hpCtrl = s.reg Reg.hpCtrl) (n : Nat) : u.framedWords n = s.framedWords n := by
  simp only [State.framedWords, State.trailerOn_congr ctrl, State.burstWords_congr ctrl]

theorem State.clocksTrailer_congr {s u : State} (ctrl : u.reg Reg.hpCtrl = s.reg Reg.hpCtrl) (n b : Nat) (t : Bool) :
    u.clocksTrailer n (u.readTail n b t) = s.clocksTrailer n (s.readTail n b t) := by
  have tail : u.readTail n b t = s.readTail n b t := by simp only [State.readTail, State.burstWords_congr ctrl]
  simp only [State.clocksTrailer, State.trailerOn_congr ctrl, State.burstWords_congr ctrl, tail]

theorem State.opened_hpCtrl (s : State) (f : Frame) : (s.opened f).reg Reg.hpCtrl = s.reg Reg.hpCtrl := s.reg_cntFrames (by decide)

theorem State.framedWords_bare {s : State} (bare : s.trailerOn = false) (n : Nat) : s.framedWords n = n := by
  simp only [State.framedWords, bare, Bool.false_eq_true, if_false]

theorem State.clocksTrailer_bare {s : State} (bare : s.trailerOn = false) (n b : Nat) : s.clocksTrailer n b = false := by
  simp only [State.clocksTrailer, bare, Bool.false_and]

theorem State.clocksTrailer_iff {s : State} {n b : Nat} :
    s.clocksTrailer n b = true ↔ s.trailerOn = true ∧ s.burstWords ≤ n ∧ 16 ≤ b := by
  simp only [State.clocksTrailer, Bool.and_eq_true, decide_eq_true_eq, and_assoc]

theorem State.framedWords_on {s : State} (on : s.trailerOn = true) (n : Nat) : s.framedWords n = min n s.burstWords := by
  simp only [State.framedWords, on, if_true]

/-- The data phase of a read frame all of whose words can be served: the words, and the trailer if it is clocked out. -/
theorem State.startData_whole {s u : State} {f : Frame} {k : FrameKind} {n b : Nat} {t : Bool} {ws : List Word} (frame : s.hp.frame = some f)
    (kind : f.kind = some k) (read : k.reads = true) (reach : f.reach = .data n b t) (fresh : f.out = [])
    (words : s.serveWords f (s.framedWords n) 0 = (ws, u)) (whole : ws.length = s.framedWords n) :
    s.startData = if u.clocksTrailer n (u.readTail n b t) then (u.sent f ws).sendTrailer else u.sent f ws := by
  cases k with
  | wr a d tail => exact absurd read Bool.false_ne_true
  | _ =>
    simp only [State.startData, frame, kind, reach, fresh, List.length_nil, Nat.sub_zero, words, List.nil_append, whole, Nat.lt_irrefl, if_false,
      Nat.le_refl, decide_true, Bool.true_and, State.sent]
    rfl

/-- A read frame that nothing holds, all of whose words can be served. -/
theorem State.command_serves {s u : State} {k : FrameKind} {n b : Nat} {t : Bool} {ws : List Word} (ready : s.frameReady = true)
    (read : k.reads = true) (free : (s.opened (readFrame k n b t)).holdOf (readFrame k n b t) = none)
    (words : (s.opened (readFrame k n b t)).serveWords (readFrame k n b t) (s.framedWords n) 0 = (ws, u))
    (whole : ws.length = s.framedWords n) (ctrl : u.reg Reg.hpCtrl = s.reg Reg.hpCtrl) :
    s.command k (.data n b t) id =
      if s.clocksTrailer n (s.readTail n b t) then (u.sent (readFrame k n b t) ws).sendTrailer else u.sent (readFrame k n b t) ws := by
  obtain ⟨active, up, idle, -, -, apart⟩ := State.frameReady_iff.mp ready
  have framed := State.framedWords_congr (s.opened_hpCtrl (readFrame k n b t)) n
  rw [← framed] at words whole
  calc s.command k (.data n b t) id
      = (s.opened (readFrame k n b t)).serveFrame := by
        simp only [State.command, State.openFrame, State.wake_active active apart, up, idle, Option.isNone_none, Bool.and_self, if_true]
        rfl
    _ = (s.opened (readFrame k n b t)).startData := by
        simp only [State.serveFrame, State.opened, readFrame, Frame.open_] at free ⊢
        simp only [free]
    _ = _ := by
        rw [State.startData_whole (f := readFrame k n b t) rfl rfl read rfl rfl words whole, State.clocksTrailer_congr ctrl]

/-! ## What counting the frame and opening it leaves (R116) -/

section
variable (s : State) (f : Frame)

theorem State.ready_cntFrames (b : Nat) : (s.cnt Reg.hpFrames).ready b = s.ready b := s.bit_cntFrames b (by decide)

theorem State.bringupDone_cntFrames : (s.cnt Reg.hpFrames).bringupDone = s.bringupDone := by
  have parts : (s.cnt Reg.hpFrames).partReason = s.partReason := funext fun b => by
    simp only [State.partReason, State.txReason, State.fld, s.txcStat_cntFrames, s.rxcStat_cntFrames]
  simp only [State.bringupDone, State.expected, s.ready_cntFrames, s.bit_cntFrames _ (show Reg.sysExpect ≠ Reg.hpFrames by decide), parts]

theorem State.irqActive_cntFrames : (s.cnt Reg.hpFrames).irqActive = s.irqActive := by
  simp (disch := decide) only [State.irqActive, s.irqPend_cntFrames, State.reg_cntFrames]
  rfl

/-- The status word does not depend on the frame count. -/
theorem State.statWord_cntFrames : (s.cnt Reg.hpFrames).statWord = s.statWord := by
  simp (disch := decide) only [State.statWord, State.coreOn, State.hpStatusWord, s.bringupDone_cntFrames, s.irqActive_cntFrames, State.bit_cntFrames,
    State.fld_cntFrames, State.reg_cntFrames]
  rfl

theorem State.statWord_opened : (s.opened f).statWord = s.statWord := s.statWord_cntFrames

theorem State.fwVersion_opened : (s.opened f).fwVersion = s.fwVersion := by
  change (s.cnt Reg.hpFrames).fwVersion = _
  simp (disch := decide) only [State.fwVersion, State.xipBase, s.ready_cntFrames, State.fld_cntFrames]
  rfl

theorem State.clockRuns_opened (a : Nat) : (s.opened f).clockRuns a = s.clockRuns a := by
  change (s.cnt Reg.hpFrames).clockRuns a = _
  simp (disch := decide) only [State.clockRuns, State.memOn, State.mgmtOn, State.coreOn, State.bit_cntFrames]

theorem State.burstRuns_opened (a k : Nat) : (s.opened f).burstRuns a k = s.burstRuns a k := s.clockRuns_opened f _

theorem State.coreOn_opened : (s.opened f).coreOn = s.coreOn := s.bit_cntFrames _ (by decide)

end

/-! ## The words of each frame (R120, R125 to R128, R136) -/

/-- Words whose serving changes nothing are served one after another. -/
theorem State.serveWords_still {s : State} {f : Frame} {w : Nat → Word} (n : Nat) {k : Nat}
    (h : ∀ i < n, s.wordHangs f (k + i) = false ∧ s.serveWord f (k + i) = (w (k + i), s)) :
    s.serveWords f n k = ((List.range n).map (fun i => w (k + i)), s) := by
  induction n generalizing k with
  | zero => rfl
  | succ n ih =>
    obtain ⟨runs, word⟩ := h 0 n.succ_pos
    have rest := ih (k := k + 1) fun i hi => by
      rw [Nat.add_assoc, Nat.add_comm 1 i]
      exact h (i + 1) (Nat.succ_lt_succ hi)
    rw [Nat.add_zero] at runs word
    simp only [State.serveWords, runs, word, rest, Bool.false_eq_true, if_false, List.range_succ_eq_map, List.map_cons, List.map_map,
      Function.comp_def, Nat.succ_eq_add_one, Nat.add_zero, Nat.add_assoc, Nat.add_comm 1]

theorem State.serveWords_stat (s : State) (n b m : Nat) (t : Bool) :
    s.serveWords (readFrame .stat n b t) m 0 = (List.replicate m s.statWord, s) := by
  rw [State.serveWords_still (w := fun _ => s.statWord) m fun _ _ => ⟨rfl, rfl⟩, List.map_const', List.length_range]

theorem State.serveWords_ident (s : State) (n b m : Nat) (t : Bool) :
    s.serveWords (readFrame .ident n b t) m 0 = ((List.range m).map s.identWord, s) := by
  rw [State.serveWords_still (w := s.identWord) m fun _ _ => ⟨rfl, rfl⟩]
  simp only [Nat.zero_add]

/-- What `plainRead` says, part by part. -/
theorem State.plainRead_iff {s : State} {a : Nat} : s.plainRead a = true ↔ s.addrClass a = .word ∧ groupOf a = none ∧ inTagStore a = false ∧
    sampledAddr a = false ∧ s.cancAddr a = none ∧ a ≠ Reg.hpIgnored ∧ a ≠ Reg.portLastFault ∧ a ≠ Reg.fifoStat ∧
    a ≠ Reg.tagFieldLast := by
  simp only [State.plainRead, Bool.and_eq_true, beq_iff_eq, Bool.not_eq_true', Bool.or_eq_false_iff, beq_eq_false_iff_ne,
    Option.isNone_iff_eq_none, and_assoc]

/-- A word that `plainRead` names is read without effect (R13, R135, R138). -/
theorem State.readWord_plain {s : State} {a : Nat} (h : s.plainRead a = true) : s.readWord a = (s.viewWord a, false, s) := by
  obtain ⟨word, single, outside, unsampled, noCanc, ign, fault, stat, field⟩ := State.plainRead_iff.mp h
  have still : s.readEffect a = s := by
    simp only [State.readEffect, ign, unsampled, noCanc, fault, stat, field, outside, Option.isSome_none, Bool.or_self, Bool.false_eq_true,
      if_false]
  rw [State.readWord_single word single, still]

/-- Such a word lies outside the tag store. -/
theorem State.plainRead_outside {s : State} {a : Nat} (h : s.plainRead a = true) : inTagStore a = false := by
  obtain ⟨-, -, outside, -⟩ := State.plainRead_iff.mp h
  exact outside

theorem State.plainRead_opened (s : State) (f : Frame) (a : Nat) : (s.opened f).plainRead a = s.plainRead a := by
  have canc : (s.opened f).cancAddr a = s.cancAddr a := s.cancAddr_cntFrames a
  simp only [State.plainRead, canc]
  rfl

theorem State.serveWords_rd {s : State} {addr n b m : Nat} {t : Bool}
    (mapped : ∀ k < m, burstAt addr k = some (alignWord addr + 4 * k) ∧ s.burstRuns addr k = true)
    (plain : ∀ k < m, s.plainRead (alignWord addr + 4 * k) = true) :
    s.serveWords (readFrame (.rd addr) n b t) m 0 = ((List.range m).map (fun k => s.viewWord (alignWord addr + 4 * k)), s) := by
  rw [State.serveWords_still (w := fun k => s.viewWord (alignWord addr + 4 * k)) m fun k hk => ?_]
  · simp only [Nat.zero_add]
  · rw [Nat.zero_add]
    obtain ⟨word, runs⟩ := mapped k hk
    refine ⟨?_, ?_⟩
    · change (!s.burstRuns addr k) = false
      rw [runs, Bool.not_true]
    · simp only [State.serveWord, readFrame, Frame.open_, word, State.readWord_plain (plain k hk), Bool.false_eq_true, if_false]

/-! ## The words of the report FIFO (R125, R126, R306) -/

/-- The high-water mark follows the level (R298). -/
def State.markLevel (s : State) : State :=
  if s.fifo.bytes > s.fld Reg.fifoStat 14 18 then s.setFld Reg.fifoStat 14 18 s.fifo.bytes else s

theorem State.fifoSync_eq (s : State) : ∃ c, s.fifoSync = { s.markLevel with coal := c } := by
  change ∃ c, (if s.markLevel.coal then _ else _) = _
  split <;> exact ⟨_, rfl⟩

/-- What follows a change of the level shows in the high-water mark and in coalescing alone. -/
theorem State.fifoSync_frame (s : State) : ∃ rg c, s.fifoSync = { s with regs := rg, coal := c } ∧ s.SameRegs s.fifoSync [Reg.fifoStat] := by
  have writes : s.Writes s.markLevel [Reg.fifoStat] := .ite (.setReg _ _ _)
  obtain ⟨c, e⟩ := s.fifoSync_eq
  obtain ⟨rg, frame⟩ := writes.frame
  exact ⟨rg, c, by rw [e, frame], e ▸ writes.same⟩

/-- Discarding the rest of the packet partly read moves the read pointer over it (R126, R306). -/
theorem State.fifoDrop_frame (s : State) : ∃ rg c, s.fifoDrop.2 =
      { s with fifo := ({ s.fifo with head := [] } : Fifo).advanceRead s.fifo.head.length, regs := rg, coal := c } ∧
    s.SameRegs s.fifoDrop.2 [Reg.fifoStat] :=
  ({ s with fifo := ({ s.fifo with head := [] } : Fifo).advanceRead s.fifo.head.length } : State).fifoSync_frame

/-- From `s` to `t` the host has taken `n` of the unread words, and the packets behind them are whole. -/
structure State.Consumed (s t : State) (n : Nat) : Prop where
  unread : t.fifo.unread = s.fifo.unread.drop n
  whole  : ∀ p ∈ t.fifo.packets, p.words ≠ []
  fifo   : t.fifo = { s.fifo with packets := t.fifo.packets, head := t.fifo.head, lastWord := t.fifo.lastWord, rptr := t.fifo.rptr,
                                  rptr2 := t.fifo.rptr2 }
  frame  : t = { s with regs := t.regs, fifo := t.fifo, coal := t.coal }
  same   : s.SameRegs t [Reg.fifoStat]

theorem State.Consumed.refl {s : State} (h : ∀ p ∈ s.fifo.packets, p.words ≠ []) : s.Consumed s 0 := ⟨rfl, h, rfl, rfl, fun _ _ => rfl⟩

theorem State.Consumed.trans {s t u : State} {m n : Nat} (h₁ : s.Consumed t m) (h₂ : t.Consumed u n) : s.Consumed u (m + n) where
  unread := by rw [h₂.unread, h₁.unread, List.drop_drop]
  whole := h₂.whole
  fifo := by rw [h₂.fifo, h₁.fifo]
  frame := by rw [h₂.frame, h₁.frame]
  same := fun a ha => (h₂.same a ha).trans (h₁.same a ha)

/-- Taking the first unread word leaves the others, and the level follows. -/
theorem State.Consumed.sync {s : State} {ps : List Packet} {hd : List Word} (w : Word) (unread : s.fifo.unread = w :: hd ++ ps.flatMap (·.words))
    (whole : ∀ p ∈ ps, p.words ≠ []) :
    s.Consumed ({ s with fifo := ({ s.fifo with packets := ps, head := hd, lastWord := w } : Fifo).advanceRead 1 } : State).fifoSync 1 := by
  obtain ⟨rg, c, e, same⟩ :=
    ({ s with fifo := ({ s.fifo with packets := ps, head := hd, lastWord := w } : Fifo).advanceRead 1 } : State).fifoSync_frame
  rw [e] at same ⊢
  exact ⟨by rw [unread]; rfl, whole, rfl, rfl, same⟩

/-- The next unread word is taken, be it of a packet partly read or the length word of the next. -/
theorem State.fifoPop_unread {s : State} {w : Word} {rest : List Word} (h : s.fifo.unread = w :: rest)
    (whole : ∀ p ∈ s.fifo.packets, p.words ≠ []) : ∃ t, s.fifoPop = (some w, t) ∧ s.Consumed t 1 := by
  cases head : s.fifo.head with
  | cons v hd =>
    have first : v :: hd ++ s.fifo.packets.flatMap (·.words) = w :: rest := by rw [← head]; exact h
    obtain rfl : v = w := (List.cons.inj first).1
    exact ⟨_, by simp only [State.fifoPop, head], .sync v (h.trans first.symm) whole⟩
  | nil =>
    cases packets : s.fifo.packets with
    | nil => simp only [Fifo.unread, head, packets, List.flatMap_nil, List.append_nil, List.nil_eq, List.cons_ne_nil] at h
    | cons p ps =>
      rw [packets] at whole
      obtain ⟨v, hd, words⟩ := List.exists_cons_of_ne_nil (whole p List.mem_cons_self)
      have first : v :: hd ++ ps.flatMap (·.words) = w :: rest := by
        rw [← h, Fifo.unread, head, packets, List.flatMap_cons, words, List.nil_append]
      obtain rfl : v = w := (List.cons.inj first).1
      exact ⟨_, by simp only [State.fifoPop, head, packets, words],
        .sync v (h.trans first.symm) fun q hq => whole q (List.mem_cons_of_mem _ hq)⟩

/-- A burst within the unread words gives them in order (R125). -/
theorem State.serveWords_frd {s : State} {f : Frame} (kind : f.kind = some .frd) (n k : Nat) (h : n ≤ s.fifo.unread.length)
    (whole : ∀ p ∈ s.fifo.packets, p.words ≠ []) : ∃ t, s.serveWords f n k = (s.fifo.unread.take n, t) ∧ s.Consumed t n := by
  induction n generalizing s k with
  | zero => exact ⟨s, rfl, .refl whole⟩
  | succ n ih =>
    obtain ⟨w, rest, unread⟩ := List.exists_cons_of_length_pos (Nat.lt_of_lt_of_le n.succ_pos h)
    obtain ⟨u, pop, one⟩ := State.fifoPop_unread unread whole
    have left : u.fifo.unread = rest := by rw [one.unread, unread, List.drop_one, List.tail_cons]
    obtain ⟨t, words, more⟩ := ih (s := u) (k + 1) (by rw [left]; rw [unread] at h; exact Nat.le_of_succ_le_succ h) one.whole
    refine ⟨t, ?_, Nat.add_comm 1 n ▸ one.trans more⟩
    simp only [State.serveWords, State.wordHangs, State.serveWord, kind, pop, words, left, unread, Bool.false_eq_true, if_false, List.take_succ_cons]

/-- FDROP discards what is left of the packet partly read (R126). -/
theorem State.serveWords_fdrop (s : State) (n b : Nat) (t : Bool) :
    s.serveWords (readFrame .fdrop n b t) 1 0 = ([wordOf (4 * s.fifo.head.length)], s.fifoDrop.2) := rfl

/-! ## What a frame leaves when its words are sent (R120, R121) -/

section
variable {s : State} {k : FrameKind} {n b : Nat} {t : Bool} {ws : List Word} (ready : s.frameReady = true)
  (read : k.reads = true) (free : (s.opened (readFrame k n b t)).holdOf (readFrame k n b t) = none)
include ready read free

/-- A frame whose words leave all but the FIFO as it is, and of which the host clocks out no trailer. -/
theorem State.command_sends {u : State} {rg : List (Nat × Word)} {fi : Fifo} {c : Bool} {l : List Nat}
    (words : (s.opened (readFrame k n b t)).serveWords (readFrame k n b t) (s.framedWords n) 0 = (ws, u))
    (whole : ws.length = s.framedWords n) (bare : s.clocksTrailer n (s.readTail n b t) = false)
    (frame : u = { s.opened (readFrame k n b t) with regs := rg, fifo := fi, coal := c })
    (same : (s.opened (readFrame k n b t)).SameRegs u l) (ctrl : Reg.hpCtrl ∉ l) (frames : Reg.hpFrames ∉ l) :
    ∃ v, Host.Outcome.next (s.command k (.data n b t) id) = (.next v : Host.Outcome State Fault Refusal) ∧
      s.Served v k (.data n b t) ws ∧ v.fifo = fi ∧ v.coal = c ∧ v.reg Reg.hpFrames = s.reg Reg.hpFrames + 1 ∧
      v = { s with regs := v.regs, hp := v.hp, fifo := v.fifo, coal := v.coal } ∧ s.SameRegs v (Reg.hpFrames :: l) := by
  obtain ⟨-, -, -, -, wf, -⟩ := State.frameReady_iff.mp ready
  have e := State.command_serves ready read free words whole ((same _ ctrl).trans (s.opened_hpCtrl _))
  rw [bare, if_neg Bool.false_ne_true] at e
  have counted : u.reg Reg.hpFrames = s.reg Reg.hpFrames + 1 := (same _ frames).trans (State.reg_cnt_same wf _)
  have rest : s.SameRegs u (Reg.hpFrames :: l) := State.SameRegs.trans s.sameRegs_cntFrames same
  subst frame
  exact ⟨_, congrArg Host.Outcome.next e, rfl, rfl, rfl, counted, rfl, rest⟩

section
variable (words : (s.opened (readFrame k n b t)).serveWords (readFrame k n b t) (s.framedWords n) 0 = (ws, s.opened (readFrame k n b t)))
  (whole : ws.length = s.framedWords n)
include words whole

/-- A frame whose words change nothing, and of which the host clocks out no trailer. -/
theorem State.command_shows (bare : s.clocksTrailer n (s.readTail n b t) = false) :
    ∃ v, Host.Outcome.next (s.command k (.data n b t) id) = (.next v : Host.Outcome State Fault Refusal) ∧
      s.Served v k (.data n b t) ws ∧ v.reg Reg.hpFrames = s.reg Reg.hpFrames + 1 ∧
      v = { s with regs := v.regs, hp := v.hp } ∧ s.SameRegs v [Reg.hpFrames] := by
  obtain ⟨v, e, served, fifo, coal, counted, rest, regs⟩ := State.command_sends ready read free words whole bare (fi := s.fifo) (c := s.coal) rfl
    (fun _ _ => rfl) List.not_mem_nil List.not_mem_nil
  rw [fifo, coal] at rest
  exact ⟨v, e, served, counted, rest, regs⟩

/-- A frame whose words change nothing, clocked out to its trailer: the trailer reports the pending flags, and they are clear. -/
theorem State.command_trails (trailer : s.clocksTrailer n (s.readTail n b t) = true) :
    ∃ v f, Host.Outcome.next (s.command k (.data n b t) id) = (.next v : Host.Outcome State Fault Refusal) ∧
      v.hp = { s.hp with frame := some f, flags := 0 } ∧ f.out = ws ∧ f.phase = .trailer ∧
      f.trailer = some (s.cnt Reg.hpFrames).trailerWord ∧ v.reg Reg.hpFrames = s.reg Reg.hpFrames + 1 ∧
      v = { s with regs := v.regs, hp := v.hp } ∧ s.SameRegs v [Reg.hpFrames] := by
  obtain ⟨-, -, -, -, wf, -⟩ := State.frameReady_iff.mp ready
  have e := State.command_serves ready read free words whole (s.opened_hpCtrl _)
  rw [trailer, if_pos rfl] at e
  exact ⟨_, _, congrArg Host.Outcome.next e, rfl, rfl, rfl, rfl, State.reg_cnt_same wf _, rfl, s.sameRegs_cntFrames⟩

end
end

/-! ## What holds none of these frames (R118) -/

section
variable {s : State} {n b : Nat} {t : Bool}

theorem State.holdOf_stat (s : State) (n b : Nat) (t : Bool) : s.holdOf (readFrame .stat n b t) = none := rfl

theorem State.holdOf_ident (posted : s.wrPend = false) : s.holdOf (readFrame .ident n b t) = none := by
  simp only [State.holdOf, Frame.inHp, readFrame, Frame.open_, posted, Bool.false_eq_true, if_false, ite_self]

theorem State.holdOf_frd (posted : s.wrPend = false) (core : s.coreOn = true) (left : 0 < s.fifo.unread.length) :
    s.holdOf (readFrame .frd n b t) = none := by
  have present : ¬ (s.fifo.packets.isEmpty && s.fifo.head.isEmpty) = true := fun h => by
    obtain ⟨packets, head⟩ := Bool.and_eq_true_iff.mp h
    rw [Fifo.unread, List.isEmpty_iff.mp packets, List.isEmpty_iff.mp head] at left
    exact Nat.lt_irrefl _ left
  simp only [State.holdOf, Frame.inHp, readFrame, Frame.open_, posted, core, present, Bool.not_true, Bool.false_eq_true, if_false]

theorem State.holdOf_fdrop (posted : s.wrPend = false) (core : s.coreOn = true) : s.holdOf (readFrame .fdrop n b t) = none := by
  simp only [State.holdOf, Frame.inHp, readFrame, Frame.open_, posted, core, Bool.not_true, Bool.false_eq_true, if_false]

/-- A burst outside the tag store lies in no crumb. -/
theorem wireCrumbs_outside {a n : Nat} (h : ∀ k < n, inTagStore (alignWord a + 4 * k) = false) : wireCrumbs a n = [] := by
  have outside : ∀ k ∈ List.range n, (if 0x480000 ≤ a / 4 * 4 + 4 * k ∧ a / 4 * 4 + 4 * k < 0x482000 then
      some ((a / 4 * 4 + 4 * k - 0x480000) / 64) else none) = none := fun k hk => if_neg fun ⟨lo, hi⟩ => by
    have := h k (List.mem_range.mp hk)
    simp only [inTagStore, alignWord, lo, hi, decide_true, Bool.and_self, Bool.true_eq_false] at this
  rw [wireCrumbs, List.filterMap_eq_nil_iff.mpr outside, List.eraseDups_nil]

theorem State.holdOf_rd {addr : Nat} (posted : s.wrPend = false) (runs : s.burstRuns addr 0 = true)
    (outside : ∀ k < max 1 n, inTagStore (alignWord addr + 4 * k) = false) : s.holdOf (readFrame (.rd addr) n b t) = none := by
  simp only [State.holdOf, readFrame, Frame.open_, posted, List.length_nil, runs, State.crumbHeld, Frame.crumbs, wireCrumbs_outside outside,
    List.any_nil, Bool.not_true, Bool.false_eq_true, if_false, ite_self]

end

/-! ## The frames, clause by clause of O6 and O7 -/

/-- STAT clocks out as many status words as the host takes of it (R127). -/
theorem statFrame_shows {s : State} {n b : Nat} {t : Bool} (ready : s.frameReady = true) (bare : s.clocksTrailer n (s.readTail n b t) = false) :
    ∃ v, exec (.statFrame (.data n b t)) s = .next v ∧ s.Served v .stat (.data n b t) (List.replicate (s.framedWords n) s.statWord) ∧
      v.reg Reg.hpFrames = s.reg Reg.hpFrames + 1 ∧ v = { s with regs := v.regs, hp := v.hp } ∧ s.SameRegs v [Reg.hpFrames] :=
  State.command_shows ready rfl (State.holdOf_stat _ _ _ _) ((State.serveWords_stat _ _ _ _ _).trans (by rw [s.statWord_opened]))
    List.length_replicate bare

/-- STAT clocked out to its trailer gives `m` status words and then the trailer (R120, R121). -/
theorem statFrame_trails {s : State} {n b m : Nat} {t : Bool} (ready : s.frameReady = true) (words : s.framedWords n = m)
    (trailer : s.clocksTrailer n (s.readTail n b t) = true) :
    ∃ v f, exec (.statFrame (.data n b t)) s = .next v ∧ v.hp = { s.hp with frame := some f, flags := 0 } ∧
      f.out = List.replicate m s.statWord ∧ f.phase = .trailer ∧ f.trailer = some (s.cnt Reg.hpFrames).trailerWord ∧
      v.reg Reg.hpFrames = s.reg Reg.hpFrames + 1 ∧ v = { s with regs := v.regs, hp := v.hp } ∧ s.SameRegs v [Reg.hpFrames] := by
  subst words
  exact State.command_trails ready rfl (State.holdOf_stat _ _ _ _)
    ((State.serveWords_stat _ _ _ _ _).trans (by rw [s.statWord_opened])) List.length_replicate trailer

theorem identFrame_shows {s : State} {b : Nat} (can : s.frameCan = true) :
    ∃ v, exec (.identFrame (.data 5 b false)) s = .next v ∧
      (s.Served v .ident (.data 5 b false) [0x48F56480, if s.board.tally then 0x541A0100 else 0x4E1A0100, wordOf (s.board.serial / 2 ^ 32),
        wordOf s.board.serial, s.fwVersion]) ∧
      v.reg Reg.hpFrames = s.reg Reg.hpFrames + 1 ∧ v = { s with regs := v.regs, hp := v.hp } ∧ s.SameRegs v [Reg.hpFrames] := by
  obtain ⟨ready, bare, posted⟩ := State.frameCan_parts can
  refine State.command_shows ready rfl (State.holdOf_ident posted) ?_ (State.framedWords_bare bare 5).symm (State.clocksTrailer_bare bare _ _)
  rw [State.framedWords_bare bare, State.serveWords_ident, ← s.fwVersion_opened (readFrame .ident 5 b false)]
  rfl

theorem rdFrame_shows {s : State} {addr : BitVec 24} {n b : Nat} (can : s.frameCan = true)
    (mapped : ∀ k < max 1 n, burstAt addr.toNat k = some (alignWord addr.toNat + 4 * k) ∧ s.burstRuns addr.toNat k = true)
    (plain : ∀ k < max 1 n, s.plainRead (alignWord addr.toNat + 4 * k) = true) :
    ∃ v, exec (.rdFrame addr (.data n b false)) s = .next v ∧
      s.Served v (.rd addr.toNat) (.data n b false) ((List.range n).map (fun k => (s.cnt Reg.hpFrames).viewWord (alignWord addr.toNat + 4 * k))) ∧
      v.reg Reg.hpFrames = s.reg Reg.hpFrames + 1 ∧ v = { s with regs := v.regs, hp := v.hp } ∧ s.SameRegs v [Reg.hpFrames] := by
  obtain ⟨ready, bare, posted⟩ := State.frameCan_parts can
  have runs : ∀ k < max 1 n, (s.opened (readFrame (.rd addr.toNat) n b false)).burstRuns addr.toNat k = true := fun k hk => by
    rw [s.burstRuns_opened]
    exact (mapped k hk).2
  have outside : ∀ k < max 1 n, inTagStore (alignWord addr.toNat + 4 * k) = false := fun k hk => State.plainRead_outside (plain k hk)
  refine State.command_shows ready rfl (State.holdOf_rd posted (runs 0 (Nat.lt_of_lt_of_le Nat.one_pos (Nat.le_max_left 1 n))) outside) ?_
    (by rw [List.length_map, List.length_range, State.framedWords_bare bare]) (State.clocksTrailer_bare bare _ _)
  have within : ∀ k < n, k < max 1 n := fun k hk => Nat.lt_of_lt_of_le hk (Nat.le_max_right 1 n)
  rw [State.framedWords_bare bare]
  exact State.serveWords_rd (fun k hk => ⟨(mapped k (within k hk)).1, runs k (within k hk)⟩) fun k hk => by
    rw [s.plainRead_opened]
    exact plain k (within k hk)

theorem frdFrame_consumes {s : State} {n b : Nat} (can : s.frameCan = true) (core : s.coreOn = true) (left : 0 < s.fifo.unread.length)
    (within : n ≤ s.fifo.unread.length) (whole : ∀ p ∈ s.fifo.packets, p.words ≠ []) :
    ∃ v, exec (.frdFrame (.data n b false)) s = .next v ∧
      s.Served v .frd (.data n b false) (s.fifo.unread.take n) ∧ v.fifo.unread = s.fifo.unread.drop n ∧
      v.fifo = { s.fifo with packets := v.fifo.packets, head := v.fifo.head, lastWord := v.fifo.lastWord, rptr := v.fifo.rptr,
                             rptr2 := v.fifo.rptr2 } ∧
      v.reg Reg.hpFrames = s.reg Reg.hpFrames + 1 ∧ v = { s with regs := v.regs, hp := v.hp, fifo := v.fifo, coal := v.coal } ∧
      s.SameRegs v [Reg.hpFrames, Reg.fifoStat] := by
  obtain ⟨ready, bare, posted⟩ := State.frameCan_parts can
  have core' := (s.coreOn_opened (readFrame .frd n b false)).trans core
  obtain ⟨u, words, unread, -, fifo, frame, same⟩ :=
    State.serveWords_frd (s := s.opened (readFrame .frd n b false)) (f := readFrame .frd n b false) rfl n 0 within whole
  obtain ⟨v, e, served, taken, -, counted, rest, regs⟩ := State.command_sends ready rfl (State.holdOf_frd posted core' left)
    (by rw [State.framedWords_bare bare]; exact words) (by rw [State.framedWords_bare bare]; exact List.length_take_of_le within)
    (State.clocksTrailer_bare bare _ _) frame same (by decide) (by decide)
  rw [← taken] at unread fifo
  exact ⟨v, e, served, unread, fifo, counted, rest, regs⟩

theorem fdropFrame_discards {s : State} {b : Nat} (can : s.frameCan = true) (core : s.coreOn = true) :
    ∃ v, exec (.fdropFrame (.data 1 b false)) s = .next v ∧
      s.Served v .fdrop (.data 1 b false) [wordOf (4 * s.fifo.head.length)] ∧
      v.fifo = { s.fifo with head := [], rptr := (s.fifo.rptr + 4 * s.fifo.head.length) % 131072,
                             rptr2 := (s.fifo.rptr + 4 * s.fifo.head.length) % 131072 } ∧
      v.reg Reg.hpFrames = s.reg Reg.hpFrames + 1 ∧ v = { s with regs := v.regs, hp := v.hp, fifo := v.fifo, coal := v.coal } ∧
      s.SameRegs v [Reg.hpFrames, Reg.fifoStat] := by
  obtain ⟨ready, bare, posted⟩ := State.frameCan_parts can
  have core' := (s.coreOn_opened (readFrame .fdrop 1 b false)).trans core
  obtain ⟨rg, c, frame, same⟩ := State.fifoDrop_frame (s.opened (readFrame .fdrop 1 b false))
  obtain ⟨v, e, served, discarded, -, counted, rest, regs⟩ := State.command_sends ready rfl (State.holdOf_fdrop posted core')
    (by rw [State.framedWords_bare bare]; exact State.serveWords_fdrop _ _ _ _) (by rw [State.framedWords_bare bare]; rfl)
    (State.clocksTrailer_bare bare _ _) frame same (by decide) (by decide)
  exact ⟨v, e, served, discarded, counted, rest, regs⟩

/-- Settles O6: each frame is opened and counted, its words are served one by one, and only those of FRD and FDROP change anything. -/
theorem readFramesAnswer : Obligations.ReadFramesAnswer :=
  ⟨fun s n b can => by
      obtain ⟨ready, bare⟩ := State.frameCan_iff.mp can
      have shown := statFrame_shows (b := b) (t := false) ready (State.clocksTrailer_bare bare n _)
      rwa [State.framedWords_bare bare] at shown,
    fun _ _ can => identFrame_shows can, fun _ _ _ _ can _ mapped plain => rdFrame_shows can mapped plain,
    fun _ _ _ can core left within whole => frdFrame_consumes can core left within whole, fun _ _ can core => fdropFrame_discards can core⟩

/-- Settles O7: the trailer follows the BURST + 1 words if they and its 16 bits are clocked, and it clears the flags that it reports. -/
theorem trailerReportsAndClears : Obligations.TrailerReportsAndClears :=
  ⟨fun s n b ready on enough => by
      have burst : s.framedWords n = s.burstWords := (State.framedWords_on on n).trans (Nat.min_eq_right enough)
      exact statFrame_trails ready burst (State.clocksTrailer_iff.mpr ⟨on, enough, Nat.le_refl 16⟩),
    fun s n b full ready on few => by
      have cut : s.framedWords n = n := (State.framedWords_on on n).trans (Nat.min_eq_left (Nat.le_of_lt few))
      have shown := statFrame_shows (b := b) (t := full) ready
        (Bool.eq_false_iff.mpr fun all => Nat.not_le.mpr few (State.clocksTrailer_iff.mp all).2.1)
      rwa [cut] at shown⟩

end Sys2Proof.Machine
end
